-- ==== Sys2Proof/Word.lean ====
section
/-! DEFINITION. The word types of the Pyrane Q9 and their plainest arithmetic. -/

namespace Sys2Proof

/-- A general register or an aligned 8-byte memory word (R182). -/
abbrev Word := BitVec 64
/-- One token lane (R171). -/
abbrev Lane := BitVec 32
/-- A halfword of the index stream (R153). -/
abbrev Half := BitVec 16
/-- One byte of memory. -/
abbrev Byte := BitVec 8
/-- A bundle of six 64-bit slots (R162). -/
abbrev Bundle := BitVec 384
/-- Field naming an x register (R164). -/
abbrev XReg := BitVec 5

/-- A 64-bit word from a natural number. -/
abbrev w64 (n : Nat) : Word := BitVec.ofNat 64 n
/-- A 32-bit word from a natural number. -/
abbrev w32 (n : Nat) : Lane := BitVec.ofNat 32 n
/-- One byte from a natural number. -/
abbrev byte (n : Nat) : Byte := BitVec.ofNat 8 n

end Sys2Proof
end

