-- ==== Sys2Proof/Syntax.lean ====
section
/-! DEFINITION. The steps of the Pyrane Q9: one constructor for each row of spec/opcode_table.json. Core instructions carry
their operand fields in the widths R164 to R169 give them; steps of the engines name the part that acts; host commands carry
the Lantern message; what a sensor, a link partner or a tester finds is an operand of the step that takes it in. -/

namespace Sys2Proof

/-- Stream-bound register number (R164). -/
abbrev SReg := BitVec 3
/-- Pattern register number (R164). -/
abbrev PReg := BitVec 4
/-- Stream port number (R164). -/
abbrev Port := BitVec 4
/-- Stream id (R164). -/
abbrev SId := BitVec 5
/-- Queue number (R164). -/
abbrev QNum := BitVec 7
/-- 32-bit immediate (R163). -/
abbrev Imm := BitVec 32

/-- Target of SBIND (R168, R208): a stream port, the register's fabric endpoint, or nothing. -/
inductive BindTarget
  | port (n : Port)
  | fabric
  | nothing
  deriving DecidableEq, Repr

/-- A Lantern message that passed the header checks of R83: type, endpoint, request id, sequence number, its payload as it decrypts
under the endpoint's key, and its tag (R81). Version, length and reserved bytes are what those checks ask for. -/
structure Lmsg where
  ty : Nat
  ep : Nat
  rid : Nat
  seq : Nat
  payload : List Byte
  tag : List Byte
  deriving DecidableEq, Repr

/-- A datagram at UDP port 7340 (R81, R83): 32 header bytes, with the length the header states among them, the payload it carries
and the 16 bytes of its tag. -/
structure Datagram where
  header : List Byte
  payload : List Byte
  tag : List Byte
  deriving DecidableEq, Repr

/-- A remote request on a link port (R368, R372): its kind and what it carries. -/
inductive RemoteKind
  | read (len : Nat)
  | write (data : List Byte)
  | atomic (op : Nat) (wide : Bool) (v c : Word)
  | token (tag payload : BitVec 32) (strand : BitVec 32)
  deriving DecidableEq, Repr

/-- A request on a port: the sending package, context, package tile and strand (R370), the target package and context, lane,
address and kind. -/
structure RemoteReq where
  srcPkg : Nat
  srcCtx : Nat
  srcTile : Nat
  srcStrand : Nat
  dstPkg : Nat
  dstCtx : Nat
  lane : Nat
  addr : Nat
  kind : RemoteKind
  tag : Nat
  deriving DecidableEq, Repr

/-- A response to a request (R376): the request's tag, whether the target accepted it, the data of a read or an atomic, and whether it
says that the request was lost at a dead port farther on (R375). -/
structure RemoteResp where
  tag : Nat
  accepted : Bool
  data : List Byte
  lost : Bool := false
  deriving DecidableEq, Repr

/-- A response that arrives at a port of the package (R368, R370): the port, the package it goes to, its lane. -/
structure RespArrival where
  port : Nat
  dst : Nat
  lane : Nat
  resp : RemoteResp
  deriving DecidableEq, Repr

/-- Where an RDMA request goes (R87): a virtual address, under a memory key that names the range of n bytes from an address on. -/
structure RdmaAt where
  keyLo : Nat
  keyLen : Nat
  va : Nat
  deriving DecidableEq, Repr

/-- What a wear sample of a unit finds (R32): the values of one indicator, and with them the activity and temperature of the unit then,
of which its present duty is the mean. -/
structure WearReading where
  values : List Nat
  duty : Nat × Nat
  deriving DecidableEq, Repr

/-- The 228 steps of spec/opcode_table.json, in its order. -/
inductive Instr
  -- package, lamplighter and meters
  | packageReset
  | unitTestStart (u : Nat)
  | unitTestDone (u : Nat) (pass : Bool)
  | unitFailInService (u : Nat)
  | powerCheck (milliwatt : Nat) (hottest : List Int)
  | calibrationWindow (rail : List Nat)
  | wearSample (u indicator : Nat) (values : WearReading)
  | healthRefresh
  | meterResidueSend (tile : Nat)
  | accountForward (die : Nat)
  | chargeApply (die : Nat)
  -- partition scheduler and proofer
  | sliceEnd (part : Nat)
  | contextDispatch (part : Nat)
  | stopSequence (ctx : Nat)
  | saveComplete (ctx : Nat)
  | proofSample (part : Nat)
  | proofIntervalEnd (part : Nat)
  | moveTakeup (tile : Nat)
  | stageTakeup (tile : Nat)
  | preload (tile : Nat)
  | launchStart (ctx slot : Nat)
  | trigCount (ctx : Nat)
  | stageRetire (ctx slot stage : Nat)
  | pipelineRetire (ctx slot : Nat)
  -- cores, translation, fetch
  | strandSelect (tile : Nat)
  | dividerAssign (ctx slot q : Nat)
  | tlbWalk (die : Nat)
  | migrateRecheck (die : Nat)
  | invalidationComplete
  | indexFetch (tile : Nat)
  | prefetchFill (tile strand : Nat)
  | pendingTrapTake (tile : Nat)
  | loadReturn (tile : Nat)
  -- streams and memory nodes
  | streamRequestGrant (tile : Nat)
  | streamDataReturn (tile id : Nat)
  | streamTokenTake (tile id : Nat)
  | streamComplete (tile id : Nat)
  | memoryNodeApply (die bank : Nat)
  | reductionApply (die bank : Nat)
  | multicastSpaceReturn (tile id member : Nat)
  | slotWriteback (die : Nat)
  | spillReturn (ctx slot q : Nat)
  -- consistency, tokens, links
  | writeBatchSeal (die : Nat)
  | batchVisible (src dst : Nat)
  | replicaLineApply (die : Nat)
  | tokenDeliver (ctx : Nat)
  | remoteIngress (port : Nat) (req : RemoteReq)
  | remoteResponse (resp : RespArrival)
  | linkFlitSend (port : Nat)
  | linkDead (port : Nat)
  -- fabric
  | groupFiring (tile cell : Nat)
  | elementWatermarkResume (tile cell : Nat)
  | roundComplete (tile : Nat)
  | roundDeadlock (tile : Nat)
  | cellWriteVisible (tile : Nat)
  | fabricImageLoad (tile : Nat)
  -- crumb log
  | crumbRecordWrite (ctx : Nat)
  | replayRecordTake (ctx : Nat)
  -- management commands (endpoint 0)
  | partform (m : Lmsg)
  | partfree (m : Lmsg)
  | ctxcreate (m : Lmsg)
  | ctxdestroy (m : Lmsg)
  | keyset (m : Lmsg)
  | allow (m : Lmsg)
  | modeset (m : Lmsg)
  | retest (m : Lmsg)
  | mapread (m : Lmsg)
  | healthread (m : Lmsg)
  | idread (m : Lmsg)
  | proofset (m : Lmsg)
  | winset (m : Lmsg)
  | traffic (m : Lmsg)
  | tripclear (m : Lmsg)
  | dbgattach (m : Lmsg)
  | dbgdetach (m : Lmsg)
  | dbghalt (m : Lmsg)
  | dbggo (m : Lmsg)
  | dbgstep (m : Lmsg)
  | dbgfreeze (m : Lmsg)
  | dbgthaw (m : Lmsg)
  | dbgread (m : Lmsg)
  | dbgwrite (m : Lmsg)
  -- commands of a virtual function
  | launch (m : Lmsg)
  | qfeed (m : Lmsg)
  | qtake (m : Lmsg)
  | qend (m : Lmsg)
  | statread (m : Lmsg)
  | pagereply (m : Lmsg)
  -- RDMA
  | rdmaWrite (vf qp : Nat) (va : RdmaAt) (data : List Byte)
  | rdmaRead (vf qp : Nat) (va : RdmaAt) (len : Nat)
  | rdmaSend (vf qp : Nat) (data : List Byte)
  -- A class
  | nop
  | add (d a b : XReg)
  | sub (d a b : XReg)
  | addi (d a : XReg) (imm : Imm)
  | mul (d a b : XReg)
  | mulh (d a b : XReg)
  | mulhu (d a b : XReg)
  | div (d a b : XReg)
  | divu (d a b : XReg)
  | rem (d a b : XReg)
  | remu (d a b : XReg)
  | and (d a b : XReg)
  | or (d a b : XReg)
  | xor (d a b : XReg)
  | andi (d a : XReg) (imm : Imm)
  | ori (d a : XReg) (imm : Imm)
  | xori (d a : XReg) (imm : Imm)
  | shl (d a b : XReg)
  | shr (d a b : XReg)
  | sar (d a b : XReg)
  | shli (d a : XReg) (sh : BitVec 6)
  | shri (d a : XReg) (sh : BitVec 6)
  | sari (d a : XReg) (sh : BitVec 6)
  | min (d a b : XReg)
  | max (d a b : XReg)
  | minu (d a b : XReg)
  | maxu (d a b : XReg)
  | slt (d a b : XReg)
  | sltu (d a b : XReg)
  | seq (d a b : XReg)
  | sne (d a b : XReg)
  | slti (d a : XReg) (imm : Imm)
  | clz (d a : XReg)
  | ctz (d a : XReg)
  | popc (d a : XReg)
  | bfx (d a : XReg) (off w : BitVec 8)
  | bfxR (d a b c : XReg)
  | bfxs (d a : XReg) (off w : BitVec 8)
  | bfxsR (d a b c : XReg)
  | bfi (d a : XReg) (off w : BitVec 8)
  | bfiR (d a b c : XReg)
  | movi (d : XReg) (imm : Imm)
  | movhi (d : XReg) (imm : Imm)
  | sel (d a b c : XReg)
  | lea (d a b : XReg) (sc : BitVec 2) (imm : Imm)
  | rngP0 (d a b c : XReg)
  | rngP1 (d a b c : XReg)
  | fadd (rm : BitVec 2) (d a b : XReg)
  | fsub (rm : BitVec 2) (d a b : XReg)
  | fmul (rm : BitVec 2) (d a b : XReg)
  | ffma (rm : BitVec 2) (d a b c : XReg)
  | fmin (d a b : XReg)
  | fmax (d a b : XReg)
  | fcmp (cc : BitVec 3) (d a b : XReg)
  | fcvt (dt st : BitVec 4) (rm : BitVec 2) (d a : XReg)
  -- M class
  | ld (t : BitVec 3) (d a : XReg) (k : Imm)
  | st (t : BitVec 2) (a b : XReg) (k : Imm)
  | atom (op : BitVec 4) (wide : Bool) (d a b : XReg) (k : Imm)
  | cas (wide : Bool) (d a b c : XReg) (k : Imm)
  | srd (d : XReg) (s : SReg)
  | speek (d : XReg) (s : SReg)
  | swr (s : SReg) (a : XReg)
  | gets (d : XReg) (num : BitVec 12)
  | sets (num : BitVec 12) (a : XReg)
  | sbind (s : SReg) (target : BindTarget)
  -- C class
  | psetb (p : PReg) (a : XReg) (imm : BitVec 20)
  | psetdExt (p : PReg) (k : BitVec 2) (a b : XReg)
  | psetdStr (p : PReg) (k : BitVec 2) (a b : XReg)
  | psetdBnd (p : PReg) (k : BitVec 2) (a b : XReg)
  | psetf (p : PReg) (a b : XReg) (imm : Imm)
  | sla (sp : Port) (p : PReg) (b : XReg) (id : SId)
  | ssa (sp : Port) (p : PReg) (b : XReg) (id : SId)
  | sli (sp : Port) (p : PReg) (spc : Port) (id : SId)
  | ssi (sp : Port) (p : PReg) (spc : Port) (id : SId)
  | sra (op : BitVec 4) (sp : Port) (p : PReg) (b : XReg) (id : SId) (ret : Bool) (seq : BitVec 6)
  | sri (op : BitVec 4) (sp : Port) (p : PReg) (spc : Port) (id : SId) (ret : Bool) (seq : BitVec 6)
  | smc (sp : Port) (p : PReg) (b : XReg) (id : SId)
  | sfill (v : BitVec 2) (sp : Port) (p : PReg) (b : XReg) (id : SId)
  | srec (sp spc : Port) (a : XReg) (id : SId) (depth : BitVec 5)
  | scpy (sat : Bool) (pd pa : PReg) (id : SId)
  | sqin (sp : Port) (q : QNum) (id : SId)
  | sqout (sp : Port) (q : QNum) (id : SId)
  | sbar (m : BitVec 3)
  | swaitDone (d : XReg) (id : SId)
  | swaitMark (d : XReg) (id : SId) (n : BitVec 27)
  | swaitPoll (d : XReg) (id : SId)
  | sabt (id : SId)
  | sord (id id2 : SId)
  | sslot (d a : XReg) (z : BitVec 4) (zero : Bool)
  | srel (a : XReg)
  -- Q class
  | qpush (d : XReg) (q : QNum) (a b : XReg)
  | qpop (d : XReg) (q : QNum)
  | qtry (d : XReg) (q : QNum)
  | qstat (d : XReg) (q : QNum)
  | qclose (q : QNum)
  | qres (d : XReg) (q : QNum) (a : XReg)
  | fcfg (d a : XReg)
  | farg (cell : BitVec 4) (e : BitVec 5) (a : XReg)
  | fgo
  | fstat (d : XReg)
  | fdrn (d : XReg)
  | tsend (d a b : XReg)
  | twait (d : XReg) (tag : Imm)
  | tpoll (d : XReg) (tag : Imm)
  | join (a : XReg)
  | leave (a : XReg)
  | gbar (a : XReg)
  | garr (d a : XReg)
  | fence (scope : BitVec 3) (d : XReg)
  | trig
  | emtrTask (d : XReg)
  | emtrCtx (d : XReg)
  | ebgt (a : XReg)
  | invl (a b : XReg)
  | invw (a b : XReg)
  -- B class
  | br (off : Imm)
  | beq (a b : XReg) (off : Imm)
  | bne (a b : XReg) (off : Imm)
  | blt (a b : XReg) (off : Imm)
  | bge (a b : XReg) (off : Imm)
  | bltu (a b : XReg) (off : Imm)
  | bgeu (a b : XReg) (off : Imm)
  | bz (a : XReg) (off : Imm)
  | bnz (a : XReg) (off : Imm)
  | jr (a : XReg)
  | ret (a : XReg)
  | call (d : XReg) (off : Imm)
  | loop (a : XReg) (off : Imm)
  | yield
  | waitq (q : QNum)
  | done
  | trap (code : Imm)
  | brk (code : Imm)
  | tret
  -- clock, dropped messages, invalid RDMA requests
  | fcEdge (die : Nat)
  | lanternMessageDrop (d : Datagram)
  | rdmaInvalidRequest (vf qp : Nat)
  deriving DecidableEq, Repr

end Sys2Proof
end

