-- ==== Sys2Proof/WellFormed.lean ====
section
/-! DEFINITION. Which instruction terms are instructions: the ranges of R164 and R167 to R169 that an operand's width alone
does not give, and the ranges of the parts of the package that a step of an engine names. -/

namespace Sys2Proof

/-- R191: the system-register numbers that are assigned. -/
def sysRegs : List Nat :=
  [0x000, 0x001, 0x002, 0x003, 0x004, 0x005, 0x006, 0x008, 0x010, 0x018, 0x019, 0x020, 0x021, 0x022, 0x023, 0x024,
   0x025, 0x026, 0x027, 0x028, 0x030, 0x031, 0x032, 0x040, 0x041, 0x042, 0x048, 0x050, 0x051]

/-- R199: scalar type codes 0-8; a pair exists when f32 (code 0) stands on exactly one side. -/
def fcvtPair (dt st : Nat) : Bool := decide (dt ≤ 8) && decide (st ≤ 8) && ((dt == 0) != (st == 0))

/-- R81 to R84: the ranges of a message of a given type. -/
def Lmsg.wf (m : Lmsg) (ty : Nat) : Bool :=
  m.ty == ty && decide (m.ep ≤ 288) && decide (m.payload.length ≤ 8896) && decide (m.tag.length = 16)

/-- R32: the values of one sample of an indicator of a unit: the shifts of a die's 16 oscillators, a stack's corrected errors per hour,
the two eye openings of a port's two lanes (R368), a die's integral of current density. -/
def wearValues (u indicator : Nat) : Option Nat :=
  if u < 9 then (if indicator = 1 then some 16 else if indicator = 4 then some 1 else none)
  else if u < 81 then none
  else if u < 93 then (if indicator = 2 then some 1 else none)
  else if u < 221 then (if indicator = 3 then some 4 else none)
  else none

/-- R368: what a request on a link may be: a read or write of at most 64 aligned bytes, an atomic of the ten at its own alignment, a
token; on one of 16 lanes. -/
def RemoteReq.wf (r : RemoteReq) : Bool :=
  decide (r.lane < 16) && (match r.kind with
    | .read n => decide (1 ≤ n) && decide (r.addr % 64 + n ≤ 64)
    | .write data => decide (1 ≤ data.length) && decide (r.addr % 64 + data.length ≤ 64)
    | .atomic op wide _ _ => decide (op ≤ 9) && decide (r.addr % (if wide then 8 else 4) = 0)
    | .token .. => true)

/-- Well-formed instruction terms. -/
def Instr.wf : Instr → Bool
  -- parts of the package (R12, R27, R82, R89, R95, R369)
  | .unitTestStart u | .unitTestDone u _ | .unitFailInService u => decide (u < 222)
  | .wearSample u i v => wearValues u i == some v.values.length
  | .powerCheck _ hot => decide (hot.length = 9)
  | .calibrationWindow rail => decide (rail.length = 180)
  | .meterResidueSend t | .moveTakeup t | .stageTakeup t | .preload t | .strandSelect t | .indexFetch t
  | .pendingTrapTake t | .loadReturn t | .streamRequestGrant t | .roundComplete t | .roundDeadlock t
  | .cellWriteVisible t | .fabricImageLoad t => decide (t < 576)
  | .prefetchFill t n => decide (t < 576) && decide (n < 8)
  | .streamDataReturn t i | .streamTokenTake t i | .streamComplete t i => decide (t < 576) && decide (i < 32)
  | .multicastSpaceReturn t i m => decide (t < 576) && decide (i < 32) && decide (m < 576)
  | .groupFiring t c | .elementWatermarkResume t c => decide (t < 576) && decide (c < 16)
  | .accountForward d | .chargeApply d | .tlbWalk d | .migrateRecheck d | .slotWriteback d | .writeBatchSeal d
  | .replicaLineApply d | .fcEdge d => decide (d < 9)
  | .batchVisible a b => decide (a < 9) && decide (b < 9)
  | .memoryNodeApply d b | .reductionApply d b => decide (d < 9) && decide (b < 66)
  | .sliceEnd p | .contextDispatch p | .proofSample p | .proofIntervalEnd p => decide (p < 72)
  | .stopSequence c | .saveComplete c | .trigCount c | .tokenDeliver c | .crumbRecordWrite c | .replayRecordTake c =>
      decide (c ≤ 288)
  | .launchStart c s | .pipelineRetire c s => decide (c ≤ 288) && decide (s < 8)
  | .stageRetire c s g => decide (c ≤ 288) && decide (s < 8) && decide (g < 64)
  | .dividerAssign c s q | .spillReturn c s q => decide (c ≤ 288) && decide (s < 8) && decide (q < 128)
  | .linkFlitSend p | .linkDead p => decide (p < 128)
  | .remoteIngress p r => decide (p < 128) && r.wf
  | .remoteResponse a => decide (a.port < 128) && decide (a.lane < 16) && !(a.resp.accepted && a.resp.lost)
  | .partform m => m.wf 0x0001 | .partfree m => m.wf 0x0002 | .ctxcreate m => m.wf 0x0003 | .ctxdestroy m => m.wf 0x0004
  | .keyset m => m.wf 0x0005 | .allow m => m.wf 0x0006 | .modeset m => m.wf 0x0007 | .retest m => m.wf 0x0008
  | .mapread m => m.wf 0x0009 | .healthread m => m.wf 0x000A | .idread m => m.wf 0x000B | .proofset m => m.wf 0x000C
  | .winset m => m.wf 0x000D | .traffic m => m.wf 0x000E | .tripclear m => m.wf 0x000F | .dbgattach m => m.wf 0x0010
  | .dbgdetach m => m.wf 0x0011 | .dbghalt m => m.wf 0x0012 | .dbggo m => m.wf 0x0013 | .dbgstep m => m.wf 0x0014
  | .dbgfreeze m => m.wf 0x0015 | .dbgthaw m => m.wf 0x0016 | .dbgread m => m.wf 0x0017 | .dbgwrite m => m.wf 0x0018
  | .launch m => m.wf 0x0101 | .qfeed m => m.wf 0x0102 | .qtake m => m.wf 0x0103 | .qend m => m.wf 0x0104
  | .statread m => m.wf 0x0105 | .pagereply m => m.wf 0x2002
  | .rdmaWrite v q .. | .rdmaRead v q .. | .rdmaSend v q _ | .rdmaInvalidRequest v q =>
      decide (1 ≤ v) && decide (v ≤ 288) && decide (q < 16)
  | .lanternMessageDrop d => decide (d.header.length = 32) && decide (d.tag.length = 16)
  -- core instructions
  | .fcvt dt sc _ _ _ => fcvtPair dt.toNat sc.toNat
  | .ld t _ _ _ => decide (t ≠ 7#3)
  | .atom op _ _ _ _ _ => decide (op.toNat ≤ 8)
  | .gets _ n | .sets n _ => sysRegs.contains n.toNat
  | .sra op .. | .sri op .. => decide (op.toNat ≤ 11)
  | .sfill v .. => decide (v ≠ 3#2)
  | .sbar m => decide (m.toNat ≤ 4)
  | .sord i j => decide (i ≠ j)
  | .sslot _ _ z _ => decide (z.toNat ≤ 8)
  | .fence sc _ => decide (sc.toNat ≤ 4)
  | _ => true

/-- Is the step one of the 134 instructions of the control core? -/
def Instr.isCore : Instr → Bool
  | .packageReset | .unitTestStart .. | .unitTestDone .. | .unitFailInService .. | .powerCheck .. | .calibrationWindow ..
  | .wearSample .. | .healthRefresh | .meterResidueSend .. | .accountForward .. | .chargeApply .. | .sliceEnd ..
  | .contextDispatch .. | .stopSequence .. | .saveComplete .. | .proofSample .. | .proofIntervalEnd .. | .moveTakeup ..
  | .stageTakeup .. | .preload .. | .launchStart .. | .trigCount .. | .stageRetire .. | .pipelineRetire ..
  | .strandSelect .. | .dividerAssign .. | .tlbWalk .. | .migrateRecheck .. | .invalidationComplete | .indexFetch ..
  | .prefetchFill .. | .pendingTrapTake .. | .loadReturn .. | .streamRequestGrant .. | .streamDataReturn ..
  | .streamTokenTake .. | .streamComplete .. | .memoryNodeApply .. | .reductionApply .. | .multicastSpaceReturn ..
  | .slotWriteback .. | .spillReturn .. | .writeBatchSeal .. | .batchVisible .. | .replicaLineApply .. | .tokenDeliver ..
  | .remoteIngress .. | .remoteResponse .. | .linkFlitSend .. | .linkDead .. | .groupFiring ..
  | .elementWatermarkResume .. | .roundComplete .. | .roundDeadlock .. | .cellWriteVisible .. | .fabricImageLoad ..
  | .crumbRecordWrite .. | .replayRecordTake .. | .partform .. | .partfree .. | .ctxcreate .. | .ctxdestroy ..
  | .keyset .. | .allow .. | .modeset .. | .retest .. | .mapread .. | .healthread .. | .idread .. | .proofset ..
  | .winset .. | .traffic .. | .tripclear .. | .dbgattach .. | .dbgdetach .. | .dbghalt .. | .dbggo .. | .dbgstep ..
  | .dbgfreeze .. | .dbgthaw .. | .dbgread .. | .dbgwrite .. | .launch .. | .qfeed .. | .qtake .. | .qend ..
  | .statread .. | .pagereply .. | .rdmaWrite .. | .rdmaRead .. | .rdmaSend .. | .fcEdge .. | .lanternMessageDrop ..
  | .rdmaInvalidRequest .. => false
  | _ => true

end Sys2Proof
end

