-- ==== Sys2Proof/Decode.lean ====
section
/-! DEFINITION. Decoding slot words and bundles (R162-R170) and Lantern datagrams (R81, R83, R84); then the encoder. -/

namespace Sys2Proof

/-- The fields of a slot word (R163). -/
structure Fields where
  op : BitVec 8 := 0
  d : BitVec 5 := 0
  a : BitVec 5 := 0
  b : BitVec 5 := 0
  md : BitVec 4 := 0
  c : BitVec 5 := 0
  imm : BitVec 32 := 0
  deriving DecidableEq, Repr

/-- R163: the word of a slot's fields. -/
def Fields.word (f : Fields) : Word :=
  f.op ++ f.d ++ f.a ++ f.b ++ f.md ++ f.c ++ f.imm

/-- R163: the fields of a slot word. -/
def Fields.of (w : Word) : Fields :=
  { op := w.extractLsb' 56 8, d := w.extractLsb' 51 5, a := w.extractLsb' 46 5, b := w.extractLsb' 41 5,
    md := w.extractLsb' 37 4, c := w.extractLsb' 32 5, imm := w.extractLsb' 0 32 }

/-- R162: the class of an opcode: 0 NOP, 1 A, 2 M, 3 C, 4 Q, 5 B; none for a reserved opcode (R170, step 1). -/
def opClass (op : Nat) : Option Nat :=
  if op = 0 then some 0
  else if op ≤ 0x32 then some 1
  else if 0x40 ≤ op ∧ op ≤ 0x49 then some 2
  else if (0x60 ≤ op ∧ op ≤ 0x62) ∨ (0x68 ≤ op ∧ op ≤ 0x79) then some 3
  else if (0x90 ≤ op ∧ op ≤ 0x95) ∨ (0x98 ≤ op ∧ op ≤ 0x9C) ∨ (0xA0 ≤ op ∧ op ≤ 0xA8) ∨ op = 0xB0 ∨ op = 0xB1
      ∨ op = 0xB8 ∨ op = 0xB9 then some 4
  else if 0xC0 ≤ op ∧ op ≤ 0xD2 then some 5
  else none

/-- R162: slots 0 and 1 admit the A class, slot k for k = 2 to 5 admits class k; NOP stands anywhere. -/
def slotAdmits (slot cls : Nat) : Bool :=
  cls == 0 || (if slot ≤ 1 then cls == 1 else cls == slot)

/-- A form after its checks: reserved bits first (reason 3), then the ranges of its fields (reason 4). -/
def form (zero range : Bool) (i : Instr) : Except Nat Instr :=
  if !zero then .error 3 else if !range then .error 4 else .ok i

/-- Reserved mod. -/
def Fields.noMd (f : Fields) : Bool := f.md == 0
/-- Reserved imm32. -/
def Fields.noImm (f : Fields) : Bool := f.imm == 0
/-- imm32 bits from n upward are zero. -/
def Fields.immBelow (f : Fields) (n : Nat) : Bool := decide (f.imm.toNat < 2 ^ n)
/-- A field naming a stream-bound register (R164). -/
def sOk (x : BitVec 5) : Bool := decide (x.toNat < 8)
/-- A field naming a pattern register, port or cell (R164). -/
def pOk (x : BitVec 5) : Bool := decide (x.toNat < 16)
/-- A sub-field of imm32. -/
def Fields.sub (f : Fields) (lo n : Nat) : BitVec n := f.imm.extractLsb' lo n

/-- Three-register form of R167. -/
def formRRR (f : Fields) (k : XReg → XReg → XReg → Instr) : Except Nat Instr :=
  form (f.noMd && f.c == 0 && f.noImm) true (k f.d f.a f.b)
/-- Immediate form of R167. -/
def formRI (f : Fields) (k : XReg → XReg → Imm → Instr) : Except Nat Instr :=
  form (f.b == 0 && f.noMd && f.c == 0) true (k f.d f.a f.imm)
/-- Shift-immediate form of R167. -/
def formSh (f : Fields) (k : XReg → XReg → BitVec 6 → Instr) : Except Nat Instr :=
  form (f.b == 0 && f.noMd && f.c == 0 && f.immBelow 6) true (k f.d f.a (f.sub 0 6))
/-- Two-register form of R167. -/
def formRR (f : Fields) (k : XReg → XReg → Instr) : Except Nat Instr :=
  form (f.b == 0 && f.noMd && f.c == 0 && f.noImm) true (k f.d f.a)
/-- Four-register form of R167 with mod reserved. -/
def formRRRR (f : Fields) (k : XReg → XReg → XReg → XReg → Instr) : Except Nat Instr :=
  form (f.noMd && f.noImm) true (k f.d f.a f.b f.c)
/-- Bit-field forms of R167 and R195, told apart by mod. -/
def formBf (f : Fields) (ki : XReg → XReg → BitVec 8 → BitVec 8 → Instr) (kr : XReg → XReg → XReg → XReg → Instr) :
    Except Nat Instr :=
  if f.md = 0 then form (f.b == 0 && f.c == 0 && f.immBelow 16) true (ki f.d f.a (f.sub 0 8) (f.sub 8 8))
  else if f.md = 1 then form f.noImm true (kr f.d f.a f.b f.c)
  else .error 4
/-- Floating-point three-register form of R167: rounding codes 0-3 (R196). -/
def formFp (f : Fields) (k : BitVec 2 → XReg → XReg → XReg → Instr) : Except Nat Instr :=
  form (f.c == 0 && f.noImm) (decide (f.md.toNat < 4)) (k (f.md.setWidth 2) f.d f.a f.b)
/-- Affine stream form of R169 with v = 0. -/
def formSA (f : Fields) (k : Port → PReg → XReg → SId → Instr) : Except Nat Instr :=
  form (f.c == 0 && f.immBelow 5) (pOk f.d && pOk f.a && f.noMd) (k (f.d.setWidth 4) (f.a.setWidth 4) f.b (f.sub 0 5))
/-- Indirect stream form of R169 with v = 0. -/
def formSI (f : Fields) (k : Port → PReg → Port → SId → Instr) : Except Nat Instr :=
  form (f.b == 0 && f.immBelow 5) (pOk f.d && pOk f.a && pOk f.c && f.noMd)
    (k (f.d.setWidth 4) (f.a.setWidth 4) (f.c.setWidth 4) (f.sub 0 5))
/-- Form `OP xd, q` of R169. -/
def formDQ (f : Fields) (k : XReg → QNum → Instr) : Except Nat Instr :=
  form (f.a == 0 && f.b == 0 && f.noMd && f.c == 0 && f.immBelow 7) true (k f.d (f.sub 0 7))
/-- Form `OP q` of R169. -/
def formQ (f : Fields) (k : QNum → Instr) : Except Nat Instr :=
  form (f.d == 0 && f.a == 0 && f.b == 0 && f.noMd && f.c == 0 && f.immBelow 7) true (k (f.sub 0 7))
/-- Form `OP xa` of R169. -/
def formA (f : Fields) (k : XReg → Instr) : Except Nat Instr :=
  form (f.d == 0 && f.b == 0 && f.noMd && f.c == 0 && f.noImm) true (k f.a)
/-- Form `OP xd` of R169. -/
def formD (f : Fields) (k : XReg → Instr) : Except Nat Instr :=
  form (f.a == 0 && f.b == 0 && f.noMd && f.c == 0 && f.noImm) true (k f.d)
/-- Form `OP` of R169. -/
def form0 (f : Fields) (i : Instr) : Except Nat Instr :=
  form (f.d == 0 && f.a == 0 && f.b == 0 && f.noMd && f.c == 0 && f.noImm) true i
/-- Form `OP xa, xb` of R169. -/
def formAB (f : Fields) (k : XReg → XReg → Instr) : Except Nat Instr :=
  form (f.d == 0 && f.noMd && f.c == 0 && f.noImm) true (k f.a f.b)
/-- Form `OP xa, xb, target` of R169. -/
def formABt (f : Fields) (k : XReg → XReg → Imm → Instr) : Except Nat Instr :=
  form (f.d == 0 && f.noMd && f.c == 0) true (k f.a f.b f.imm)
/-- Form `OP xa, target` of R169. -/
def formAt (f : Fields) (k : XReg → Imm → Instr) : Except Nat Instr :=
  form (f.d == 0 && f.b == 0 && f.noMd && f.c == 0) true (k f.a f.imm)
/-- Form `OP xd, imm` of R167 and R169. -/
def formDi (f : Fields) (k : XReg → Imm → Instr) : Except Nat Instr :=
  form (f.a == 0 && f.b == 0 && f.noMd && f.c == 0) true (k f.d f.imm)
/-- Form `OP imm` of R169. -/
def formI (f : Fields) (k : Imm → Instr) : Except Nat Instr :=
  form (f.d == 0 && f.a == 0 && f.b == 0 && f.noMd && f.c == 0) true (k f.imm)

/-- SBIND (R168, R208): 0x60 + N, 0xFE or 0xFF. -/
def bindTarget (n : BitVec 8) : Option BindTarget :=
  if n = 0xFE#8 then some .fabric
  else if n = 0xFF#8 then some .nothing
  else if n.extractLsb' 4 4 = 6#4 then some (.port (n.extractLsb' 0 4))
  else none

/-- Slots 0 and 1: the A class (R167). -/
def decodeA (f : Fields) : Except Nat Instr :=
  match f.op.toNat with
  | 0x01 => formRRR f .add | 0x02 => formRRR f .sub | 0x03 => formRI f .addi | 0x04 => formRRR f .mul
  | 0x05 => formRRR f .mulh | 0x06 => formRRR f .mulhu | 0x07 => formRRR f .div | 0x08 => formRRR f .divu
  | 0x09 => formRRR f .rem | 0x0A => formRRR f .remu | 0x0B => formRRR f .and | 0x0C => formRRR f .or
  | 0x0D => formRRR f .xor | 0x0E => formRI f .andi | 0x0F => formRI f .ori | 0x10 => formRI f .xori
  | 0x11 => formRRR f .shl | 0x12 => formRRR f .shr | 0x13 => formRRR f .sar | 0x14 => formSh f .shli
  | 0x15 => formSh f .shri | 0x16 => formSh f .sari | 0x17 => formRRR f .min | 0x18 => formRRR f .max
  | 0x19 => formRRR f .minu | 0x1A => formRRR f .maxu | 0x1B => formRRR f .slt | 0x1C => formRRR f .sltu
  | 0x1D => formRRR f .seq | 0x1E => formRRR f .sne | 0x1F => formRI f .slti | 0x20 => formRR f .clz
  | 0x21 => formRR f .ctz | 0x22 => formRR f .popc
  | 0x23 => formBf f .bfx .bfxR | 0x24 => formBf f .bfxs .bfxsR | 0x25 => formBf f .bfi .bfiR
  | 0x26 => formDi f .movi | 0x27 => formDi f .movhi | 0x28 => formRRRR f .sel
  | 0x29 => form (f.c == 0) (decide (f.md.toNat < 4)) (.lea f.d f.a f.b (f.md.setWidth 2) f.imm)
  | 0x2A =>
      if f.md = 0 then form f.noImm true (.rngP0 f.d f.a f.b f.c)
      else if f.md = 1 then form f.noImm true (.rngP1 f.d f.a f.b f.c)
      else .error 4
  | 0x2B => formFp f .fadd | 0x2C => formFp f .fsub | 0x2D => formFp f .fmul
  | 0x2E => form f.noImm (decide (f.md.toNat < 4)) (.ffma (f.md.setWidth 2) f.d f.a f.b f.c)
  | 0x2F => formRRR f .fmin | 0x30 => formRRR f .fmax
  | 0x31 => form (f.c == 0 && f.noImm) (decide (f.md.toNat < 8)) (.fcmp (f.md.setWidth 3) f.d f.a f.b)
  | 0x32 => form (f.b == 0 && f.c == 0 && f.immBelow 8)
      (decide (f.md.toNat < 4) && fcvtPair (f.sub 0 4).toNat (f.sub 4 4).toNat)
      (.fcvt (f.sub 0 4) (f.sub 4 4) (f.md.setWidth 2) f.d f.a)
  | _ => .error 1

/-- Slot 2: the M class (R168). -/
def decodeM (f : Fields) : Except Nat Instr :=
  match f.op.toNat with
  | 0x40 => form (f.b == 0 && f.c == 0) (decide (f.md.toNat < 7)) (.ld (f.md.setWidth 3) f.d f.a f.imm)
  | 0x41 => form (f.d == 0 && f.c == 0) (decide (f.md.toNat < 4)) (.st (f.md.setWidth 2) f.a f.b f.imm)
  | 0x42 => form true (decide (f.md.toNat ≤ 8) && (f.c == 2 || f.c == 3)) (.atom f.md (f.c == 3) f.d f.a f.b f.imm)
  | 0x43 => form true (f.md == 2 || f.md == 3) (.cas (f.md == 3) f.d f.a f.b f.c f.imm)
  | 0x44 => form (f.b == 0 && f.noMd && f.c == 0 && f.noImm) (sOk f.a) (.srd f.d (f.a.setWidth 3))
  | 0x45 => form (f.b == 0 && f.noMd && f.c == 0 && f.noImm) (sOk f.a) (.speek f.d (f.a.setWidth 3))
  | 0x46 => form (f.b == 0 && f.noMd && f.c == 0 && f.noImm) (sOk f.d) (.swr (f.d.setWidth 3) f.a)
  | 0x47 => form (f.a == 0 && f.b == 0 && f.noMd && f.c == 0 && f.immBelow 12) (sysRegs.contains (f.sub 0 12).toNat)
      (.gets f.d (f.sub 0 12))
  | 0x48 => form (f.d == 0 && f.b == 0 && f.noMd && f.c == 0 && f.immBelow 12) (sysRegs.contains (f.sub 0 12).toNat)
      (.sets (f.sub 0 12) f.a)
  | 0x49 => match bindTarget (f.sub 0 8) with
      | some t => form (f.a == 0 && f.b == 0 && f.noMd && f.c == 0 && f.immBelow 8) (sOk f.d) (.sbind (f.d.setWidth 3) t)
      | none => form (f.a == 0 && f.b == 0 && f.noMd && f.c == 0 && f.immBelow 8) false .nop
  | _ => .error 1

/-- Slot 3: the C class (R169 and the entries R309 to R327). -/
def decodeC (f : Fields) : Except Nat Instr :=
  match f.op.toNat with
  | 0x60 => form (f.b == 0 && f.noMd && f.c == 0 && f.immBelow 20) (pOk f.d) (.psetb (f.d.setWidth 4) f.a (f.sub 0 20))
  | 0x61 =>
      let inside := pOk f.d && decide (f.c.toNat < 4)
      if f.md = 0 then form f.noImm inside (.psetdExt (f.d.setWidth 4) (f.c.setWidth 2) f.a f.b)
      else if f.md = 1 then form f.noImm inside (.psetdStr (f.d.setWidth 4) (f.c.setWidth 2) f.a f.b)
      else if f.md = 2 then form f.noImm inside (.psetdBnd (f.d.setWidth 4) (f.c.setWidth 2) f.a f.b)
      else .error 4
  | 0x62 => form (f.noMd && f.c == 0) (pOk f.d) (.psetf (f.d.setWidth 4) f.a f.b f.imm)
  | 0x68 => formSA f .sla | 0x69 => formSA f .ssa | 0x6A => formSI f .sli | 0x6B => formSI f .ssi
  | 0x6C => form (f.c == 0 && f.immBelow 12) (pOk f.d && pOk f.a && decide (f.md.toNat ≤ 11))
      (.sra f.md (f.d.setWidth 4) (f.a.setWidth 4) f.b (f.sub 0 5) (f.imm.getLsbD 5) (f.sub 6 6))
  | 0x6D => form (f.b == 0 && f.immBelow 12) (pOk f.d && pOk f.a && pOk f.c && decide (f.md.toNat ≤ 11))
      (.sri f.md (f.d.setWidth 4) (f.a.setWidth 4) (f.c.setWidth 4) (f.sub 0 5) (f.imm.getLsbD 5) (f.sub 6 6))
  | 0x6E => form (f.b == 0 && f.noMd && f.immBelow 10) (pOk f.d && pOk f.c)
      (.srec (f.d.setWidth 4) (f.c.setWidth 4) f.a (f.sub 0 5) (f.sub 5 5))
  | 0x6F => formSA f .smc
  | 0x70 => form (f.c == 0 && f.immBelow 5) (pOk f.d && pOk f.a && decide (f.md.toNat < 3))
      (.sfill (f.md.setWidth 2) (f.d.setWidth 4) (f.a.setWidth 4) f.b (f.sub 0 5))
  | 0x71 => form (f.b == 0 && f.c == 0 && f.immBelow 5) (pOk f.d && pOk f.a && decide (f.md.toNat < 2))
      (.scpy (f.md == 1) (f.d.setWidth 4) (f.a.setWidth 4) (f.sub 0 5))
  | 0x72 => form (f.a == 0 && f.b == 0 && f.noMd && f.c == 0 && f.immBelow 12) (pOk f.d)
      (.sqin (f.d.setWidth 4) (f.sub 5 7) (f.sub 0 5))
  | 0x73 => form (f.a == 0 && f.b == 0 && f.noMd && f.c == 0 && f.immBelow 12) (pOk f.d)
      (.sqout (f.d.setWidth 4) (f.sub 5 7) (f.sub 0 5))
  | 0x74 => form (f.d == 0 && f.a == 0 && f.b == 0 && f.c == 0 && f.noImm) (decide (f.md.toNat ≤ 4))
      (.sbar (f.md.setWidth 3))
  | 0x75 =>
      if f.md = 0 then form (f.a == 0 && f.b == 0 && f.c == 0 && f.immBelow 5) true (.swaitDone f.d (f.sub 0 5))
      else if f.md = 1 then form (f.a == 0 && f.b == 0 && f.c == 0) true (.swaitMark f.d (f.sub 0 5) (f.sub 5 27))
      else if f.md = 2 then form (f.a == 0 && f.b == 0 && f.c == 0 && f.immBelow 5) true (.swaitPoll f.d (f.sub 0 5))
      else .error 4
  | 0x76 => form (f.d == 0 && f.a == 0 && f.b == 0 && f.noMd && f.c == 0 && f.immBelow 5) true (.sabt (f.sub 0 5))
  | 0x77 => form (f.d == 0 && f.a == 0 && f.b == 0 && f.noMd && f.c == 0 && f.immBelow 10) (f.sub 0 5 != f.sub 5 5)
      (.sord (f.sub 0 5) (f.sub 5 5))
  | 0x78 => form (f.b == 0 && f.noMd && f.c == 0 && f.immBelow 5) (decide ((f.sub 0 4).toNat ≤ 8))
      (.sslot f.d f.a (f.sub 0 4) (f.imm.getLsbD 4))
  | 0x79 => formA f .srel
  | _ => .error 1

/-- Slot 4: the Q class (R169). -/
def decodeQ (f : Fields) : Except Nat Instr :=
  match f.op.toNat with
  | 0x90 => form (f.noMd && f.c == 0 && f.immBelow 7) true (.qpush f.d (f.sub 0 7) f.a f.b)
  | 0x91 => formDQ f .qpop | 0x92 => formDQ f .qtry | 0x93 => formDQ f .qstat | 0x94 => formQ f .qclose
  | 0x95 => form (f.b == 0 && f.noMd && f.c == 0 && f.immBelow 7) true (.qres f.d (f.sub 0 7) f.a)
  | 0x98 => formRR f .fcfg
  | 0x99 => form (f.d == 0 && f.b == 0 && f.noMd && f.immBelow 5) (pOk f.c) (.farg (f.c.setWidth 4) (f.sub 0 5) f.a)
  | 0x9A => form0 f .fgo | 0x9B => formD f .fstat | 0x9C => formD f .fdrn
  | 0xA0 => formRRR f .tsend | 0xA1 => formDi f .twait | 0xA2 => formDi f .tpoll
  | 0xA3 => formA f .join | 0xA4 => formA f .leave | 0xA5 => formA f .gbar | 0xA6 => formRR f .garr
  | 0xA7 => form (f.a == 0 && f.b == 0 && f.c == 0 && f.noImm) (decide (f.md.toNat ≤ 4)) (.fence (f.md.setWidth 3) f.d)
  | 0xA8 => form0 f .trig
  | 0xB0 =>
      let clear := f.a == 0 && f.b == 0 && f.c == 0 && f.noImm
      if f.md = 0 then form clear true (.emtrTask f.d)
      else if f.md = 1 then form clear true (.emtrCtx f.d)
      else .error 4
  | 0xB1 => formA f .ebgt | 0xB8 => formAB f .invl | 0xB9 => formAB f .invw
  | _ => .error 1

/-- Slot 5: the B class (R169). -/
def decodeB (f : Fields) : Except Nat Instr :=
  match f.op.toNat with
  | 0xC0 => formI f .br | 0xC1 => formABt f .beq | 0xC2 => formABt f .bne | 0xC3 => formABt f .blt
  | 0xC4 => formABt f .bge | 0xC5 => formABt f .bltu | 0xC6 => formABt f .bgeu | 0xC7 => formAt f .bz
  | 0xC8 => formAt f .bnz | 0xC9 => formA f .jr | 0xCA => formDi f .call | 0xCB => formA f .ret
  | 0xCC => formAt f .loop | 0xCD => form0 f .yield | 0xCE => formQ f .waitq | 0xCF => form0 f .done
  | 0xD0 => formI f .trap | 0xD1 => formI f .brk | 0xD2 => form0 f .tret
  | _ => .error 1

/-- R170: the fields of slot `slot` as an instruction, or the reason they are none. -/
def decodeFields (slot : Nat) (f : Fields) : Except Nat Instr :=
  match opClass f.op.toNat with
  | none => .error 1
  | some cls =>
    if !slotAdmits slot cls then .error 2
    else match cls with
      | 0 => form0 f .nop
      | 1 => decodeA f
      | 2 => decodeM f
      | 3 => decodeC f
      | 4 => decodeQ f
      | _ => decodeB f

/-- R170: the word of slot `slot` as an instruction, or the reason it is none. -/
def decodeSlot (slot : Nat) (w : Word) : Except Nat Instr := decodeFields slot (Fields.of w)

/-- R162: the word of slot s of a bundle. -/
def slotWord (b : Bundle) (s : Nat) : Word := b.extractLsb' (64 * s) 64

/-- The bundle whose slot s holds a word and whose other slots are zero. -/
def bundleOf (s : Nat) (w : Word) : Bundle := (w.setWidth 384) <<< (64 * s)

/-- R170: the lowest slot from `s` on that is no instruction, with its reason; else every slot's instruction. -/
def decodeSlots (b : Bundle) : List Nat → Except (Nat × Nat) (List (Nat × Instr))
  | [] => .ok []
  | s :: rest =>
    match decodeSlot s (slotWord b s) with
    | .error r => .error (s, r)
    | .ok i =>
      match decodeSlots b rest with
      | .error e => .error e
      | .ok l => .ok ((s, i) :: l)

/-- R170: the six slots of a bundle, or the slot and reason that make it illegal. -/
def decodeBundle (b : Bundle) : Except (Nat × Nat) (List (Nat × Instr)) := decodeSlots b [0, 1, 2, 3, 4, 5]

/-- R170: TRAPV of ILLEGAL_BUNDLE. -/
def illegalInfo (slot reason : Nat) : Word := w64 (slot + 16 * reason)

/-- R162: the first slot that admits an opcode; a reserved opcode is met wherever it stands. -/
def homeSlot (op : Nat) : Nat :=
  match opClass op with
  | some 2 => 2 | some 3 => 3 | some 4 => 4 | some 5 => 5 | _ => 0

/-- R162: an instruction of the table is one slot word; what the decoder reads from it in a slot that admits its opcode. -/
def decodeTableWord (_nbits w : Nat) : Option Instr :=
  match decodeSlot (homeSlot ((w64 w).extractLsb' 56 8).toNat) (w64 w) with
  | .ok i => some i
  | .error _ => none

/-- R168: the immediate that names an SBIND target. -/
def BindTarget.imm : BindTarget → BitVec 32
  | .port n => (6#4 ++ n).setWidth 32
  | .fabric => 0xFE
  | .nothing => 0xFF

/-- R167-R169: the fields that encode a core instruction; NOP, and a step that is no core instruction, has none set. -/
def Instr.fields : Instr → Fields
  | .add d a b => { op := 0x01, d, a, b }
  | .sub d a b => { op := 0x02, d, a, b }
  | .mul d a b => { op := 0x04, d, a, b }
  | .mulh d a b => { op := 0x05, d, a, b }
  | .mulhu d a b => { op := 0x06, d, a, b }
  | .div d a b => { op := 0x07, d, a, b }
  | .divu d a b => { op := 0x08, d, a, b }
  | .rem d a b => { op := 0x09, d, a, b }
  | .remu d a b => { op := 0x0A, d, a, b }
  | .and d a b => { op := 0x0B, d, a, b }
  | .or d a b => { op := 0x0C, d, a, b }
  | .xor d a b => { op := 0x0D, d, a, b }
  | .shl d a b => { op := 0x11, d, a, b }
  | .shr d a b => { op := 0x12, d, a, b }
  | .sar d a b => { op := 0x13, d, a, b }
  | .min d a b => { op := 0x17, d, a, b }
  | .max d a b => { op := 0x18, d, a, b }
  | .minu d a b => { op := 0x19, d, a, b }
  | .maxu d a b => { op := 0x1A, d, a, b }
  | .slt d a b => { op := 0x1B, d, a, b }
  | .sltu d a b => { op := 0x1C, d, a, b }
  | .seq d a b => { op := 0x1D, d, a, b }
  | .sne d a b => { op := 0x1E, d, a, b }
  | .fmin d a b => { op := 0x2F, d, a, b }
  | .fmax d a b => { op := 0x30, d, a, b }
  | .tsend d a b => { op := 0xA0, d, a, b }
  | .addi d a imm => { op := 0x03, d, a, imm }
  | .andi d a imm => { op := 0x0E, d, a, imm }
  | .ori d a imm => { op := 0x0F, d, a, imm }
  | .xori d a imm => { op := 0x10, d, a, imm }
  | .slti d a imm => { op := 0x1F, d, a, imm }
  | .shli d a sh => { op := 0x14, d, a, imm := sh.setWidth 32 }
  | .shri d a sh => { op := 0x15, d, a, imm := sh.setWidth 32 }
  | .sari d a sh => { op := 0x16, d, a, imm := sh.setWidth 32 }
  | .clz d a => { op := 0x20, d, a }
  | .ctz d a => { op := 0x21, d, a }
  | .popc d a => { op := 0x22, d, a }
  | .fcfg d a => { op := 0x98, d, a }
  | .garr d a => { op := 0xA6, d, a }
  | .bfx d a off w => { op := 0x23, d, a, imm := (w ++ off).setWidth 32 }
  | .bfxR d a b c => { op := 0x23, d, a, b, md := 1, c }
  | .bfxs d a off w => { op := 0x24, d, a, imm := (w ++ off).setWidth 32 }
  | .bfxsR d a b c => { op := 0x24, d, a, b, md := 1, c }
  | .bfi d a off w => { op := 0x25, d, a, imm := (w ++ off).setWidth 32 }
  | .bfiR d a b c => { op := 0x25, d, a, b, md := 1, c }
  | .movi d imm => { op := 0x26, d, imm }
  | .movhi d imm => { op := 0x27, d, imm }
  | .call d imm => { op := 0xCA, d, imm }
  | .twait d imm => { op := 0xA1, d, imm }
  | .tpoll d imm => { op := 0xA2, d, imm }
  | .sel d a b c => { op := 0x28, d, a, b, c }
  | .lea d a b sc imm => { op := 0x29, d, a, b, md := sc.setWidth 4, imm }
  | .rngP0 d a b c => { op := 0x2A, d, a, b, c }
  | .rngP1 d a b c => { op := 0x2A, d, a, b, md := 1, c }
  | .fadd rm d a b => { op := 0x2B, d, a, b, md := rm.setWidth 4 }
  | .fsub rm d a b => { op := 0x2C, d, a, b, md := rm.setWidth 4 }
  | .fmul rm d a b => { op := 0x2D, d, a, b, md := rm.setWidth 4 }
  | .ffma rm d a b c => { op := 0x2E, d, a, b, md := rm.setWidth 4, c }
  | .fcmp cc d a b => { op := 0x31, d, a, b, md := cc.setWidth 4 }
  | .fcvt dt sc rm d a => { op := 0x32, d, a, md := rm.setWidth 4, imm := (sc ++ dt).setWidth 32 }
  | .ld t d a imm => { op := 0x40, d, a, md := t.setWidth 4, imm }
  | .st t a b imm => { op := 0x41, a, b, md := t.setWidth 4, imm }
  | .atom op wide d a b imm => { op := 0x42, d, a, b, md := op, c := if wide then 3#5 else 2#5, imm }
  | .cas wide d a b c imm => { op := 0x43, d, a, b, md := if wide then 3#4 else 2#4, c, imm }
  | .srd d s => { op := 0x44, d, a := s.setWidth 5 }
  | .speek d s => { op := 0x45, d, a := s.setWidth 5 }
  | .swr s a => { op := 0x46, d := s.setWidth 5, a }
  | .gets d n => { op := 0x47, d, imm := n.setWidth 32 }
  | .sets n a => { op := 0x48, a, imm := n.setWidth 32 }
  | .sbind s t => { op := 0x49, d := s.setWidth 5, imm := t.imm }
  | .psetb p a imm => { op := 0x60, d := p.setWidth 5, a, imm := imm.setWidth 32 }
  | .psetdExt p k a b => { op := 0x61, d := p.setWidth 5, a, b, c := k.setWidth 5 }
  | .psetdStr p k a b => { op := 0x61, d := p.setWidth 5, a, b, md := 1, c := k.setWidth 5 }
  | .psetdBnd p k a b => { op := 0x61, d := p.setWidth 5, a, b, md := 2, c := k.setWidth 5 }
  | .psetf p a b imm => { op := 0x62, d := p.setWidth 5, a, b, imm }
  | .sla sp p b id => { op := 0x68, d := sp.setWidth 5, a := p.setWidth 5, b, imm := id.setWidth 32 }
  | .ssa sp p b id => { op := 0x69, d := sp.setWidth 5, a := p.setWidth 5, b, imm := id.setWidth 32 }
  | .sli sp p c id => { op := 0x6A, d := sp.setWidth 5, a := p.setWidth 5, c := c.setWidth 5, imm := id.setWidth 32 }
  | .ssi sp p c id => { op := 0x6B, d := sp.setWidth 5, a := p.setWidth 5, c := c.setWidth 5, imm := id.setWidth 32 }
  | .sra op sp p b id r q => { op := 0x6C, d := sp.setWidth 5, a := p.setWidth 5, b, md := op, imm := (q ++ BitVec.ofBool r ++ id).setWidth 32 }
  | .sri op sp p c id r q => { op := 0x6D, d := sp.setWidth 5, a := p.setWidth 5, md := op, c := c.setWidth 5, imm := (q ++ BitVec.ofBool r ++ id).setWidth 32 }
  | .smc sp p b id => { op := 0x6F, d := sp.setWidth 5, a := p.setWidth 5, b, imm := id.setWidth 32 }
  | .sfill v sp p b id => { op := 0x70, d := sp.setWidth 5, a := p.setWidth 5, b, md := v.setWidth 4, imm := id.setWidth 32 }
  | .srec sp c a id dep => { op := 0x6E, d := sp.setWidth 5, a, c := c.setWidth 5, imm := (dep ++ id).setWidth 32 }
  | .scpy sat pd pa id => { op := 0x71, d := pd.setWidth 5, a := pa.setWidth 5, md := if sat then 1#4 else 0#4, imm := id.setWidth 32 }
  | .sqin sp q id => { op := 0x72, d := sp.setWidth 5, imm := (q ++ id).setWidth 32 }
  | .sqout sp q id => { op := 0x73, d := sp.setWidth 5, imm := (q ++ id).setWidth 32 }
  | .sbar m => { op := 0x74, md := m.setWidth 4 }
  | .swaitDone d id => { op := 0x75, d, imm := id.setWidth 32 }
  | .swaitMark d id n => { op := 0x75, d, md := 1, imm := n ++ id }
  | .swaitPoll d id => { op := 0x75, d, md := 2, imm := id.setWidth 32 }
  | .sabt id => { op := 0x76, imm := id.setWidth 32 }
  | .sord id j => { op := 0x77, imm := (j ++ id).setWidth 32 }
  | .sslot d a z zero => { op := 0x78, d, a, imm := (BitVec.ofBool zero ++ z).setWidth 32 }
  | .qpush d q a b => { op := 0x90, d, a, b, imm := q.setWidth 32 }
  | .qpop d q => { op := 0x91, d, imm := q.setWidth 32 }
  | .qtry d q => { op := 0x92, d, imm := q.setWidth 32 }
  | .qstat d q => { op := 0x93, d, imm := q.setWidth 32 }
  | .qclose q => { op := 0x94, imm := q.setWidth 32 }
  | .waitq q => { op := 0xCE, imm := q.setWidth 32 }
  | .qres d q a => { op := 0x95, d, a, imm := q.setWidth 32 }
  | .farg n e a => { op := 0x99, a, c := n.setWidth 5, imm := e.setWidth 32 }
  | .fence sc d => { op := 0xA7, d, md := sc.setWidth 4 }
  | .emtrTask d => { op := 0xB0, d }
  | .emtrCtx d => { op := 0xB0, d, md := 1 }
  | .srel a => { op := 0x79, a }
  | .join a => { op := 0xA3, a }
  | .leave a => { op := 0xA4, a }
  | .gbar a => { op := 0xA5, a }
  | .ebgt a => { op := 0xB1, a }
  | .jr a => { op := 0xC9, a }
  | .ret a => { op := 0xCB, a }
  | .fstat d => { op := 0x9B, d }
  | .fdrn d => { op := 0x9C, d }
  | .fgo => { op := 0x9A }
  | .trig => { op := 0xA8 }
  | .yield => { op := 0xCD }
  | .done => { op := 0xCF }
  | .tret => { op := 0xD2 }
  | .invl a b => { op := 0xB8, a, b }
  | .invw a b => { op := 0xB9, a, b }
  | .beq a b imm => { op := 0xC1, a, b, imm }
  | .bne a b imm => { op := 0xC2, a, b, imm }
  | .blt a b imm => { op := 0xC3, a, b, imm }
  | .bge a b imm => { op := 0xC4, a, b, imm }
  | .bltu a b imm => { op := 0xC5, a, b, imm }
  | .bgeu a b imm => { op := 0xC6, a, b, imm }
  | .bz a imm => { op := 0xC7, a, imm }
  | .bnz a imm => { op := 0xC8, a, imm }
  | .loop a imm => { op := 0xCC, a, imm }
  | .br imm => { op := 0xC0, imm }
  | .trap imm => { op := 0xD0, imm }
  | .brk imm => { op := 0xD1, imm }
  | _ => {}

/-- The word of a core instruction. -/
def encode (i : Instr) : Word := i.fields.word

/-- R162: the lowest slot that admits a core instruction. -/
def Instr.slot (i : Instr) : Nat := homeSlot i.fields.op.toNat

/-- Message types of R84 that are commands or page replies, with the step each is. -/
def lanternCommand (ty : Nat) (m : Lmsg) : Option Instr :=
  match ty with
  | 0x0001 => some (.partform m) | 0x0002 => some (.partfree m) | 0x0003 => some (.ctxcreate m)
  | 0x0004 => some (.ctxdestroy m) | 0x0005 => some (.keyset m) | 0x0006 => some (.allow m)
  | 0x0007 => some (.modeset m) | 0x0008 => some (.retest m) | 0x0009 => some (.mapread m)
  | 0x000A => some (.healthread m) | 0x000B => some (.idread m) | 0x000C => some (.proofset m)
  | 0x000D => some (.winset m) | 0x000E => some (.traffic m) | 0x000F => some (.tripclear m)
  | 0x0010 => some (.dbgattach m) | 0x0011 => some (.dbgdetach m) | 0x0012 => some (.dbghalt m)
  | 0x0013 => some (.dbggo m) | 0x0014 => some (.dbgstep m) | 0x0015 => some (.dbgfreeze m)
  | 0x0016 => some (.dbgthaw m) | 0x0017 => some (.dbgread m) | 0x0018 => some (.dbgwrite m)
  | 0x0101 => some (.launch m) | 0x0102 => some (.qfeed m) | 0x0103 => some (.qtake m)
  | 0x0104 => some (.qend m) | 0x0105 => some (.statread m) | 0x2002 => some (.pagereply m)
  | _ => none

/-- Little-endian value of bytes (R3). -/
def leNat : List Byte → Nat
  | [] => 0
  | b :: r => b.toNat + 256 * leNat r

/-- Little-endian bytes of a value (R3). -/
def leBytes : Nat → Nat → List Byte
  | 0, _ => []
  | n + 1, v => byte v :: leBytes n (v / 256)

/-- The value of bytes [lo + n - 1 : lo] of a record. -/
def field (bs : List Byte) (lo n : Nat) : Nat := leNat ((bs.drop lo).take n)

/-- R83: a header that breaks none of its rules for the payload its datagram carries. -/
def Datagram.wellFormed (d : Datagram) : Bool :=
  field d.header 0 2 == 1 && decide (field d.header 4 2 ≤ 288) && decide (field d.header 6 2 ≤ 8896)
    && field d.header 6 2 == d.payload.length && field d.header 20 12 == 0

/-- R83: the message of a datagram. -/
def Datagram.msg (d : Datagram) : Lmsg :=
  { ty := field d.header 2 2, ep := field d.header 4 2, rid := field d.header 16 4, seq := field d.header 8 8, payload := d.payload,
    tag := d.tag }

/-- R83, R84: the step a datagram brings about. One that is malformed, or whose type is unassigned, is LANTERN_MESSAGE_DROP. -/
def decodeDatagram (d : Datagram) : Instr :=
  if d.wellFormed then (lanternCommand (field d.header 2 2) d.msg).getD (.lanternMessageDrop d)
  else .lanternMessageDrop d

end Sys2Proof
end

