-- ==== Sys2Proof/Machine/Gcm.lean ====
section
/-! DEFINITION. AES-256-GCM, by which R81 authenticates and encrypts Lantern messages. The spec names the algorithm and gives its key,
nonce and additional data; what it computes is the published standard's (log 100). Bytes are numbers below 256, blocks are lists of 16 bytes or the
128-bit number whose highest byte is the first. -/

namespace Sys2Proof.Machine

/-- The S-box: entry x stands in bits [8x + 7 : 8x]. -/
def aesTable : Nat :=
  (((0x16bb54b00f2d99416842e6bf0d89a18cdf2855cee9871e9b948ed9691198f8e1 * 2 ^ 256
    + 0x9e1dc186b95735610ef6034866b53e708a8bbd4b1f74dde8c6b4a61c2e2578ba) * 2 ^ 512
    + (0x08ae7a65eaf4566ca94ed58d6d37c8e779e4959162acd3c25c2406490a3a32e0 * 2 ^ 256
    + 0xdb0b5ede14b8ee4688902a22dc4f816073195d643d7ea7c41744975fec130ccd)) * 2 ^ 512
    + (0xd2f3ff1021dab6bcf5389d928f40a351a89f3c507f02f94585334d43fbaaefd0 * 2 ^ 256
    + 0xcf584c4a39becb6a5bb1fc20ed00d153842fe329b3d63b52a05a6e1b1a2c8309)) * 2 ^ 512
    + (0x75b227ebe28012079a059618c323c7041531d871f1e5a534ccf73f362693fdb7 * 2 ^ 256
    + 0xc072a49cafa2d4adf04759fa7dc982ca76abd7fe2b670130c56f6bf27b777c63)

/-- A byte through the S-box. -/
def aesSub (x : Nat) : Nat := aesTable / 2 ^ (8 * x) % 256

/-- A byte times x in the field of 256 elements. -/
def aesTwice (a : Nat) : Nat := if a < 128 then 2 * a else (2 * a) ^^^ 0x11B

/-- Bytes added in the field, one by one. -/
def xorBytes (a b : List Nat) : List Nat := List.zipWith (fun x y => x ^^^ y) a b

/-- One column mixed. -/
def aesMixColumn : List Nat → List Nat
  | [a, b, c, d] =>
    let all := a ^^^ b ^^^ c ^^^ d
    let mixed (x y : Nat) : Nat := x ^^^ all ^^^ aesTwice (x ^^^ y)
    [mixed a b, mixed b c, mixed c d, mixed d a]
  | l => l

/-- A block's four columns mixed. -/
def aesMix (l : List Nat) : List Nat :=
  aesMixColumn (l.take 4) ++ aesMixColumn ((l.drop 4).take 4) ++ aesMixColumn ((l.drop 8).take 4) ++ aesMixColumn (l.drop 12)

/-- Row r of a block moved r columns to the left, and every byte through the S-box. -/
def aesShiftSub (l : List Nat) : List Nat :=
  [0, 5, 10, 15, 4, 9, 14, 3, 8, 13, 2, 7, 12, 1, 6, 11].map (fun i => aesSub (l.getD i 0))

/-- n more words of the key schedule before those of a list, the newest first; the list holds words i - 1, i - 2 and so on. -/
def aesExpand : Nat → Nat → Nat → List (List Nat) → List (List Nat)
  | 0, _, _, l => l
  | n + 1, i, rcon, l =>
    let last := l.headD []
    let turned :=
      if i % 8 = 0 then xorBytes ((last.drop 1 ++ last.take 1).map aesSub) [rcon, 0, 0, 0]
      else if i % 8 = 4 then last.map aesSub else last
    aesExpand n (i + 1) (if i % 8 = 0 then aesTwice rcon else rcon) (xorBytes (l.getD 7 []) turned :: l)

/-- The bytes of a key of 32 bytes in words of four, the last first. -/
def keyWords (key : List Nat) : List (List Nat) :=
  [7, 6, 5, 4, 3, 2, 1, 0].map (fun i => (key.drop (4 * i)).take 4)

/-- The 15 round keys of a 256-bit key, 240 bytes. -/
def aesKeys (key : List Nat) : List Nat := (aesExpand 52 8 1 (keyWords key)).reverse.flatten

/-- The rounds that follow the first key, the last without a mixing of columns. -/
def aesRounds : Nat → List Nat → List Nat → List Nat
  | 0, _, l => l
  | n + 1, keys, l =>
    let l := aesShiftSub l
    aesRounds n (keys.drop 16) (xorBytes (if n = 0 then l else aesMix l) (keys.take 16))

/-- AES-256 of one block under the round keys. -/
def aesBlock (keys : List Nat) (l : List Nat) : List Nat := aesRounds 14 (keys.drop 16) (xorBytes l (keys.take 16))

/-- The number a block is, its first byte the highest. -/
def blockNat (l : List Nat) : Nat := l.foldl (fun v b => 256 * v + b) 0
/-- The n bytes of a number, the highest first. -/
def natBytes : Nat → Nat → List Nat
  | 0, _ => []
  | n + 1, v => v / 256 ^ n % 256 :: natBytes n v

/-- The product in GCM's field of 2 to the 128 elements, over the lowest n bits of x, the highest of them first. -/
def ghashTimes : Nat → Nat → Nat → Nat → Nat
  | 0, _, _, z => z
  | n + 1, x, y, z =>
    ghashTimes n x (if y % 2 = 1 then y / 2 ^^^ (0xE1 * 2 ^ 120) else y / 2) (if x.testBit n then z ^^^ y else z)

/-- Bytes cut into blocks of 16, the last filled up with zeros. -/
def blocksOf : Nat → List Nat → List (List Nat)
  | 0, _ => []
  | n + 1, l => (l.take 16 ++ List.replicate (16 - l.length) 0) :: blocksOf n (l.drop 16)

/-- The blocks of a string of bytes. -/
def gcmBlocks (l : List Nat) : List (List Nat) := blocksOf ((l.length + 15) / 16) l

/-- GHASH of blocks under its key h. -/
def ghash (h : Nat) (l : List (List Nat)) : Nat := l.foldl (fun y b => ghashTimes 128 (y ^^^ blockNat b) h 0) 0

/-- Bytes under the counter mode: a block for each 16 of them, the counter starting at c. -/
def ctrMode (keys iv : List Nat) : Nat → Nat → List Nat → List Nat
  | 0, _, _ => []
  | n + 1, c, l => xorBytes (l.take 16) (aesBlock keys (iv ++ natBytes 4 c)) ++ ctrMode keys iv n (c + 1) (l.drop 16)

/-- What AES-256-GCM makes of a text, and a text of what it made: the counter starts at 2. -/
def gcmText (key iv text : List Nat) : List Nat := ctrMode (aesKeys key) iv ((text.length + 15) / 16) 2 text

/-- The tag of encrypted bytes and additional data. -/
def gcmTag (key iv aad text : List Nat) : List Nat :=
  let keys := aesKeys key
  let h := blockNat (aesBlock keys (List.replicate 16 0))
  let lengths := natBytes 8 (8 * aad.length) ++ natBytes 8 (8 * text.length)
  xorBytes (natBytes 16 (ghash h (gcmBlocks aad ++ gcmBlocks text ++ [lengths]))) (aesBlock keys (iv ++ natBytes 4 1))

/-! ## Lantern's use of it (R81, R83) -/

/-- Bytes as numbers. -/
def byteNats (l : List Byte) : List Nat := l.map (fun b => b.toNat)

/-- R81: the 96-bit nonce, its highest byte first: the endpoint in [95:80], the direction in [79], the sequence number in [63:0]. -/
def lanternNonce (ep seq : Nat) (toHost : Bool) : List Nat :=
  natBytes 12 (ep % 65536 * 2 ^ 80 + (if toHost then 2 ^ 79 else 0) + seq % 2 ^ 64)

/-- R83: the header of a message. -/
def lanternHeader (ty ep len seq rid : Nat) : List Byte :=
  leBytes 2 1 ++ leBytes 2 ty ++ leBytes 2 ep ++ leBytes 2 len ++ leBytes 8 seq ++ leBytes 4 rid ++ List.replicate 12 0

/-- R81: a payload encrypted, or decrypted, under an endpoint's key. -/
def lanternText (key : List Byte) (ep seq : Nat) (toHost : Bool) (l : List Byte) : List Byte :=
  (gcmText (byteNats key) (lanternNonce ep seq toHost) (byteNats l)).map byte

/-- R81: the tag of a message, from its payload before encryption. -/
def lanternTag (key : List Byte) (ty ep seq rid : Nat) (toHost : Bool) (l : List Byte) : List Byte :=
  (gcmTag (byteNats key) (lanternNonce ep seq toHost) (byteNats (lanternHeader ty ep l.length seq rid))
    (gcmText (byteNats key) (lanternNonce ep seq toHost) (byteNats l))).map byte

end Sys2Proof.Machine
end

