-- ==== Sys2Proof/Config.lean ====
section
/-! DEFINITION. What an ordering code or an implementation fixes, and the free values: constants with no body, of which
nothing can be proved but that they are what they are. -/

namespace Sys2Proof.Config

/-- Ordering codes of R2, coded as in byte 6 of the identity record (R36). -/
inductive OrderingCode
  | p768 | p576 | m768
  deriving DecidableEq, Repr

/-- Byte 6 of the identity record (R36). -/
def OrderingCode.code : OrderingCode → Nat
  | .p768 => 0 | .p576 => 1 | .m768 => 2

/-- HBM stack capacity in GiB (R2, R36). -/
def OrderingCode.stackGiB : OrderingCode → Nat
  | .p576 => 48 | _ => 64

/-- HBM of a die in bytes (R134): corner dies two stacks, edge dies one, die 4 none. -/
def hbmCapacity (o : OrderingCode) (die : Nat) : Nat :=
  let gib := o.stackGiB * 1073741824
  if die = 4 ∨ die > 8 then 0 else if die % 2 = 0 then 2 * gib else gib

/-- One octet's share of HBM (R135): package HBM divided by 72, rounded down to a multiple of 2 MiB. -/
def octetShare (o : OrderingCode) : Nat := (12 * o.stackGiB * 1073741824) / 72 / 2097152 * 2097152

/-- R143 gives 4,096 sets and no rule for choosing one: the set of a context's page is a free value (log 5). -/
opaque dieTlbSet : Nat → Nat → Nat
/-- R32 gives no formula for the predicted end of life: the estimate that one indicator of a unit gives at a refresh from its
samples at the present duty, with the ends of its band, is free: unit, indicator, refresh, samples, duty (log 5). -/
opaque wearEstimate : Nat → Nat → Nat → List (List Nat) → Nat × Nat → Nat × Nat × Nat
/-- R36: package serial number, set at manufacture (log 5). -/
opaque serial : BitVec 64
/-- R36: lamplighter firmware version (log 5). -/
opaque firmware : BitVec 32
/-- R11, R36: errata index revision the firmware was qualified against (log 5). -/
opaque errataRevision : BitVec 32
/-- R369: topology chosen at boot: `true` torus, `false` pod (log 5). -/
opaque topologyTorus : Bool
/-- R369: what the lamplighter chooses the torus dimensions by, each less 1 (log 5). -/
opaque torusChoice : BitVec 7 × BitVec 7 × BitVec 7
/-- R369: torus dimensions X, Y, Z: each 1 to 128, their product at most 524,288. -/
def torusDims : Nat × Nat × Nat :=
  let x := torusChoice.1.toNat + 1
  let y := torusChoice.2.1.toNat + 1
  (x, y, min (torusChoice.2.2.toNat + 1) (524288 / (x * y)))
/-- R191, R369: what the package id is chosen by at boot (log 5). -/
opaque pkgChoice : Nat
/-- R191, R369: PKGID: below X × Y × Z in a torus, 0 to 1,023 in a pod. -/
def pkgid : BitVec 19 :=
  BitVec.ofNat 19 (if topologyTorus then pkgChoice % (torusDims.1 * torusDims.2.1 * torusDims.2.2) else pkgChoice % 1024)
/-- R369, R370: package an express port leads to, for ports 120-127, or none (log 5). -/
opaque expressPeer : Nat → Option Nat
/-- R369: whether a port of the chosen topology is wired, for ports 120-127 of a torus and every port of a pod (log 5). -/
opaque portWired : Nat → Bool
/-- R12, R13: the tile of its die at whose mesh stop a scale-up port's traffic enters the mesh: not stated (log 7). -/
opaque portStop : Nat → Nat
/-- R373: has a lane's buffer at the far end of a port room for one more flit? Port, lane and the free-value counter (log 5). -/
opaque laneRoom : Nat → Nat → Nat → Bool
/-- R102: bytes of Ethernet frame that carry n bytes of Lantern message or RDMA data; lower-layer headers are not the spec's
(log 5). -/
opaque frameBytes : Nat → Nat
/-- R139: which of the 16 entries of a contiguous page gives the frame and attributes (log 5). -/
opaque contigPick : Nat → BitVec 4
/-- R302: the tagged contributions that the room of a memory node takes before later tags wait at their streams (log 5). -/
opaque reductionRoom : Nat
/-- R203, R346: the value that a read-modify-write which its node's loss resolves as failed gives its requester is not stated: the
request's name (log 102). -/
opaque refusedValue : Nat → Nat
/-- R385: the 64 bytes of an ECC record, whose contents are stated and whose layout is not: kind, die, tile, cell, byte
offset, lane, physical address, LCYC, and the byte asked for (log 5). -/
opaque eccByte : List Nat → Nat → Byte
/-- R123 charges the writes of a tile's clearing as class 33 and gives no count of them (log 5). -/
opaque clearWrites : Nat
/-- R34: whether a unit has been in service for 168 hours at a refresh; service time is not modelled (log 5). -/
opaque inService : Nat → Nat → Bool
end Sys2Proof.Config
end

