-- ==== Sys2Proof/Machine/Flags.lean ====
section
/-! DEFINITION. Number formats, exact values, the rounding step and every sticky flag it sets (04_number_formats). -/

namespace Sys2Proof.Machine

/-- The 15 format codes of R49. -/
inductive Fmt
  | raw32 | f32 | bf16 | f16 | e4m3 | e5m2 | e2m1 | cb2 | i8 | i16 | i32 | n8 | n16 | n32 | e8m0
  deriving DecidableEq, Repr

/-- R49: the format a 4-bit code names; code 15 names none. -/
def Fmt.ofCode (c : Nat) : Option Fmt :=
  [Fmt.raw32, .f32, .bf16, .f16, .e4m3, .e5m2, .e2m1, .cb2, .i8, .i16, .i32, .n8, .n16, .n32, .e8m0][c]?

/-- R49: a header that carries code 15 is treated as code 0. -/
def Fmt.ofHeader (c : Nat) : Fmt := (Fmt.ofCode c).getD .raw32

/-- R49: the code of a format. -/
def Fmt.code : Fmt → Nat
  | .raw32 => 0 | .f32 => 1 | .bf16 => 2 | .f16 => 3 | .e4m3 => 4 | .e5m2 => 5 | .e2m1 => 6 | .cb2 => 7
  | .i8 => 8 | .i16 => 9 | .i32 => 10 | .n8 => 11 | .n16 => 12 | .n32 => 13 | .e8m0 => 14

/-- R49: width of a value in bits. -/
def Fmt.width : Fmt → Nat
  | .raw32 | .f32 | .i32 | .n32 => 32
  | .bf16 | .f16 | .cb2 | .i16 | .n16 => 16
  | .e4m3 | .e5m2 | .i8 | .n8 | .e8m0 => 8
  | .e2m1 => 4

/-- Binary floating-point formats (R51). -/
def Fmt.isFloat : Fmt → Bool
  | .f32 | .bf16 | .f16 | .e4m3 | .e5m2 | .e2m1 => true
  | _ => false

/-- Two's-complement integer formats (R54). -/
def Fmt.isSigned : Fmt → Bool
  | .i8 | .i16 | .i32 => true
  | _ => false

/-- Integer formats, unsigned ones included (R54). -/
def Fmt.isInt : Fmt → Bool
  | .i8 | .i16 | .i32 | .n8 | .n16 | .n32 => true
  | _ => false

/-- R51: width of the exponent field. -/
def Fmt.ebits : Fmt → Nat
  | .f32 | .bf16 => 8 | .f16 | .e5m2 => 5 | .e4m3 => 4 | .e2m1 => 2 | _ => 8

/-- R51: width of the fraction field. -/
def Fmt.mbits : Fmt → Nat
  | .f32 => 23 | .bf16 => 7 | .f16 => 10 | .e5m2 => 2 | .e4m3 => 3 | .e2m1 => 1 | _ => 23

/-- R51: exponent bias. -/
def Fmt.bias : Fmt → Int
  | .f32 | .bf16 => 127 | .f16 | .e5m2 => 15 | .e4m3 => 7 | .e2m1 => 1 | _ => 127

/-- R51: formats that hold infinities. -/
def Fmt.hasInf : Fmt → Bool
  | .e4m3 | .e2m1 => false | _ => true

/-- R51: bit pattern of the largest finite value. -/
def Fmt.maxFinite : Fmt → Nat
  | .bf16 => 0x7F7F | .f16 => 0x7BFF | .e5m2 => 0x7B | .e4m3 => 0x7E | .e2m1 => 0x7 | _ => 0x7F7FFFFF

/-- R52: the canonical quiet NaN; e2m1 has none, and R57 gives +0 in its place. -/
def Fmt.canonNaN : Fmt → Nat
  | .bf16 => 0x7FC0 | .f16 => 0x7E00 | .e5m2 => 0x7E | .e4m3 => 0x7F | .e2m1 => 0 | _ => 0x7FC00000

/-- Formats the underflow rules R62 name. -/
def Fmt.isNarrow : Fmt → Bool
  | .e4m3 | .e5m2 | .e2m1 => true | _ => false

/-- The five sticky flags of R60. -/
structure Flags where
  nv : Bool := false
  dz : Bool := false
  of : Bool := false
  uf : Bool := false
  nx : Bool := false
  deriving DecidableEq, Repr

/-- R61: a flag once set stays set. -/
def Flags.or (a b : Flags) : Flags :=
  { nv := a.nv || b.nv, dz := a.dz || b.dz, of := a.of || b.of, uf := a.uf || b.uf, nx := a.nx || b.nx }

/-- FFLAGS bit order of R191: NV, DZ, OF, UF, NX from bit 4 to bit 0. -/
def Flags.bits (f : Flags) : BitVec 5 :=
  BitVec.ofNat 5 (f.nv.toNat * 16 + f.dz.toNat * 8 + f.of.toNat * 4 + f.uf.toNat * 2 + f.nx.toNat)

/-- The flags a 5-bit word names, in the order of R191. -/
def Flags.ofBits (w : BitVec 5) : Flags :=
  { nv := w.getLsbD 4, dz := w.getLsbD 3, of := w.getLsbD 2, uf := w.getLsbD 1, nx := w.getLsbD 0 }

/-- No flag. -/
def Flags.none : Flags := {}
/-- NV alone. -/
def Flags.invalid : Flags := { nv := true }

/-- Rounding modes of R56; stochastic rounding carries its random word (R58). -/
inductive RMode
  | rne | rtz | rdn | rup
  | sr (w : Nat)
  deriving DecidableEq, Repr

/-- R56: codes 0-3; every other code is named by no mode here. -/
def RMode.ofCode : Nat → RMode
  | 1 => .rtz | 2 => .rdn | 3 => .rup | _ => .rne

/-- An exact real, an infinity or a NaN: `fin s m e` is (-1)^s * m * 2^e, and m = 0 is a signed zero. -/
inductive Num
  | nan
  | inf (neg : Bool)
  | fin (neg : Bool) (m : Nat) (e : Int)
  deriving DecidableEq, Repr

/-- Number of binary digits of a natural number. -/
def bitLen (n : Nat) : Nat := if n = 0 then 0 else Nat.log2 n + 1

/-- R51: the value of a bit pattern of a floating-point format. -/
def Fmt.decode (f : Fmt) (w : Nat) : Num :=
  let m := f.mbits
  let e := f.ebits
  let fr := w % 2 ^ m
  let ex := w / 2 ^ m % 2 ^ e
  let sg := w / 2 ^ (m + e) % 2 == 1
  if f.hasInf && ex == 2 ^ e - 1 then
    if fr = 0 then .inf sg else .nan
  else if f == .e4m3 && ex == 15 && fr == 7 then .nan
  else if ex = 0 then .fin sg fr (1 - f.bias - m)
  else .fin sg (2 ^ m + fr) ((ex : Int) - f.bias - m)

/-- R53: the value of an e8m0 byte. -/
def e8m0Value (s : Nat) : Num :=
  if s = 255 then .nan else .fin false 1 ((s : Int) - 127)

/-- The value of an integer format's bits. -/
def Fmt.intValue (f : Fmt) (w : Nat) : Int :=
  let n := f.width
  let v := w % 2 ^ n
  if f.isSigned && 2 ^ (n - 1) ≤ v then (v : Int) - 2 ^ n else v

/-- An integer as an exact number; zero is +0. -/
def Num.ofInt (i : Int) : Num := .fin (decide (i < 0)) i.natAbs 0

/-- Smallest and largest value of an integer format of width n. -/
def intRange (signed : Bool) (n : Nat) : Int × Int :=
  if signed then (-(2 ^ (n - 1)), 2 ^ (n - 1) - 1) else (0, 2 ^ n - 1)

/-- R56-R58: the multiple of 2^k nearest m * 2^e by the mode, as a count of 2^k, for a value of sign neg. -/
def roundUnits (mode : RMode) (neg : Bool) (m : Nat) (e k : Int) : Nat :=
  if k ≤ e then m * 2 ^ (e - k).toNat
  else
    let d := 2 ^ (k - e).toNat
    let q := m / d
    let r := m % d
    let up : Bool := match mode with
      | .rne => decide (d < 2 * r) || (decide (2 * r = d) && q % 2 == 1)
      | .rtz => false
      | .rdn => neg && r != 0
      | .rup => !neg && r != 0
      | .sr w => decide (w * d < r * 2 ^ 32)
    if up then q + 1 else q

/-- Does m * 2^e exceed n * 2^k? -/
def dyLt (n : Nat) (k : Int) (m : Nat) (e : Int) : Bool :=
  if k ≤ e then decide (n < m * 2 ^ (e - k).toNat) else decide (n * 2 ^ (k - e).toNat < m)

/-- Are m * 2^e and n * 2^k the same number? -/
def dyEq (n : Nat) (k : Int) (m : Nat) (e : Int) : Bool :=
  if k ≤ e then decide (n = m * 2 ^ (e - k).toNat) else decide (n * 2 ^ (k - e).toNat = m)

/-- Sign bit of a format, as a number to add to a magnitude. -/
def Fmt.signBit (f : Fmt) (neg : Bool) : Nat := if neg then 2 ^ (f.mbits + f.ebits) else 0

/-- Bit pattern of sign and q units of 2^k, for a value on the format's grid. -/
def Fmt.encodeUnits (f : Fmt) (neg : Bool) (q : Nat) (k : Int) : Nat :=
  let m := f.mbits
  let kmin : Int := 1 - f.bias - m
  let b : Nat :=
    if q = 0 then 0
    else if q < 2 ^ m then q * 2 ^ (k - kmin).toNat
    else if q < 2 ^ (m + 1) then (k - kmin).toNat * 2 ^ m + q
    else (k - kmin).toNat * 2 ^ m + 2 ^ (m + 1)
  f.signBit neg + b

/-- R57: `round(fmt, x, mode)` with SAT: the bit pattern and the flags it sets. -/
def roundTo (f : Fmt) (x : Num) (mode : RMode) (sat : Bool) : Nat × Flags :=
  match x with
  | .nan => if f = .e2m1 then (0, Flags.invalid) else (f.canonNaN, .none)
  | .inf s =>
    if f.hasInf then (f.signBit s + (2 ^ f.ebits - 1) * 2 ^ f.mbits, .none)
    else (f.signBit s + f.maxFinite, { of := true })
  | .fin s m e =>
    if m = 0 then (f.signBit s, .none)
    else
      let mb : Int := f.mbits
      let top : Int := e + bitLen m - 1
      let k1 : Int := top - mb
      let q1 := roundUnits mode s m e k1
      let maxQ := 2 ^ f.mbits + f.maxFinite % 2 ^ f.mbits
      let maxK : Int := (f.maxFinite / 2 ^ f.mbits : Nat) - f.bias - mb
      if dyLt maxQ maxK q1 k1 then
        let fl : Flags := { of := true, nx := true }
        let big := f.signBit s + f.maxFinite
        if sat || f == .e2m1 then (big, fl)
        else if f = .e4m3 then (f.canonNaN, fl)
        else if mode = .rtz || (mode = .rdn && !s) || (mode = .rup && s) then (big, fl)
        else (f.signBit s + (2 ^ f.ebits - 1) * 2 ^ f.mbits, fl)
      else
        let kmin : Int := 1 - f.bias - mb
        let k : Int := max k1 kmin
        let q := roundUnits mode s m e k
        let exact := dyEq q k m e
        let sub : Bool := dyLt q k (2 ^ f.mbits) kmin
        (f.encodeUnits s q k, { nx := !exact, uf := !exact && sub })

/-- Does R57's round give zero for a finite non-zero value? (third and fourth conditions of R62) -/
def roundsToZero (f : Fmt) (x : Num) (bits : Nat) : Bool :=
  match x with
  | .fin _ m _ => m != 0 && bits % 2 ^ (f.mbits + f.ebits) == 0
  | _ => false

/-- R59: a value rounded to an integer by the mode and saturated to a range; NaN gives 0 with NV. -/
def roundToInt (signed : Bool) (n : Nat) (x : Num) (mode : RMode) : Int × Flags :=
  let (lo, hi) := intRange signed n
  match x with
  | .nan => (0, Flags.invalid)
  | .inf true => (lo, Flags.invalid)
  | .inf false => (hi, Flags.invalid)
  | .fin s m e =>
    let q := roundUnits mode s m e 0
    let v : Int := if s then -(q : Int) else q
    if v < lo then (lo, Flags.invalid)
    else if hi < v then (hi, Flags.invalid)
    else (v, { nx := !dyEq q 0 m e })

/-- An integer's bits in width n. -/
def intBits (n : Nat) (i : Int) : Nat := (i % (2 ^ n : Int)).toNat

/-- Clamp an integer to a range. -/
def clampInt (r : Int × Int) (i : Int) : Int := max r.1 (min r.2 i)

/-- Negation of an exact number. -/
def Num.neg : Num → Num
  | .nan => .nan
  | .inf s => .inf !s
  | .fin s m e => .fin (!s) m e

/-- Sign of a number; a NaN counts as positive. -/
def Num.isNeg : Num → Bool
  | .nan => false | .inf s => s | .fin s _ _ => s

/-- Is the number a NaN? -/
def Num.isNaN : Num → Bool
  | .nan => true | _ => false

/-- Is the number a zero of either sign? -/
def Num.isZero : Num → Bool
  | .fin _ m _ => m == 0 | _ => false

/-- Signed integer coefficient at exponent k of a finite number (k at most its exponent). -/
def dyInt (s : Bool) (m : Nat) (e k : Int) : Int :=
  let v : Int := (m * 2 ^ (e - k).toNat : Nat)
  if s then -v else v

/-- R196, R239: the exact sum, with the sign rules of zero sums, and NV for NaN operands and inf - inf (R60). DESIGN CHOICE
(log 94): the spec gives (+0) + (-0) no sign in the fabric; as in the core (R196) it is +0, or -0 under RDN. -/
def addNum (a b : Num) (mode : RMode) : Num × Flags :=
  match a, b with
  | .nan, _ | _, .nan => (.nan, Flags.invalid)
  | .inf s, .inf t => if s = t then (.inf s, .none) else (.nan, Flags.invalid)
  | .inf s, _ => (.inf s, .none)
  | _, .inf t => (.inf t, .none)
  | .fin s m e, .fin t n k =>
    let lo := min e k
    let v := dyInt s m e lo + dyInt t n k lo
    if v = 0 then
      let sg := if m = 0 ∧ n = 0 then
          (if s = t then s else decide (mode = .rdn))
        else decide (mode = .rdn)
      (.fin sg 0 0, .none)
    else (.fin (decide (v < 0)) v.natAbs lo, .none)

/-- The exact product; 0 times infinity and NaN operands are invalid (R60). -/
def mulNum (a b : Num) : Num × Flags :=
  match a, b with
  | .nan, _ | _, .nan => (.nan, Flags.invalid)
  | .inf s, .inf t => (.inf (s != t), .none)
  | .inf s, .fin t n _ => if n = 0 then (.nan, Flags.invalid) else (.inf (s != t), .none)
  | .fin s m _, .inf t => if m = 0 then (.nan, Flags.invalid) else (.inf (s != t), .none)
  | .fin s m e, .fin t n k => (.fin (s != t) (m * n) (e + k), .none)

/-- The exact value of a * b + c (R68). -/
def fmaNum (a b c : Num) (mode : RMode) : Num × Flags :=
  let (p, f1) := mulNum a b
  if f1.nv then (.nan, f1)
  else addNum p c mode

/-- Scale a number by 2^k, exactly. -/
def Num.scale (x : Num) (k : Int) : Num :=
  match x with
  | .fin s m e => .fin s m (e + k)
  | y => y

/-- Exact quotient with a sticky unit: at least 64 significant bits, odd in the last place when inexact,
so that every rounding of it to 32 bits or fewer is the rounding of the exact quotient. -/
def divNum (a b : Num) : Num × Flags :=
  match a, b with
  | .nan, _ | _, .nan => (.nan, Flags.invalid)
  | .inf _, .inf _ => (.nan, Flags.invalid)
  | .inf s, .fin t _ _ => (.inf (s != t), .none)
  | .fin s _ _, .inf t => (.fin (s != t) 0 0, .none)
  | .fin s m e, .fin t n k =>
    if n = 0 then
      if m = 0 then (.nan, Flags.invalid) else (.inf (s != t), { dz := true })
    else if m = 0 then (.fin (s != t) 0 0, .none)
    else
      let sh := bitLen n + 70
      let q := m * 2 ^ sh / n
      let r := m * 2 ^ sh % n
      let q2 := 2 * q + (if r = 0 then 0 else 1)
      (.fin (s != t) q2 (e - k - sh - 1), .none)

/-- Integer square root by Newton steps bounded by fuel, from above. -/
def isqrtLoop : Nat → Nat → Nat → Nat
  | 0, _, x => x
  | fuel + 1, n, x =>
    let y := (x + n / x) / 2
    if y < x then isqrtLoop fuel n y else x

/-- Integer square root: the greatest r with r * r at most n. -/
def isqrt (n : Nat) : Nat :=
  if n = 0 then 0 else isqrtLoop (bitLen n + 8) n (2 ^ ((bitLen n + 1) / 2))

/-- Square root with a sticky unit (R71): -0 keeps its sign, a number below zero is invalid. -/
def sqrtNum (a : Num) : Num × Flags :=
  match a with
  | .nan => (.nan, Flags.invalid)
  | .inf true => (.nan, Flags.invalid)
  | .inf false => (.inf false, .none)
  | .fin s m e =>
    if m = 0 then (.fin s 0 0, .none)
    else if s then (.nan, Flags.invalid)
    else
      let sh0 : Nat := 140
      let sh : Nat := if (e - sh0) % 2 = 0 then sh0 else sh0 + 1
      let n := m * 2 ^ sh
      let r := isqrt n
      let q := 2 * r + (if r * r = n then 0 else 1)
      (.fin false q ((e - sh) / 2 - 1), .none)

/-- R71: FRCP; FRCP(±0) is ±inf with DZ. -/
def rcpNum (a : Num) : Num × Flags := divNum (.fin false 1 0) a

/-- R71: FRSQ: 1/sqrt, with FRSQ(±0) = ±inf and DZ, FRSQ(+inf) = +0. -/
def rsqNum (a : Num) : Num × Flags :=
  match a with
  | .fin s 0 _ => (.inf s, { dz := true })
  | .fin false m e =>
    -- 1/sqrt(m 2^e) = sqrt(2^(2p) / m) * 2^(-p - e/2), with the remainder kept as a sticky unit
    let sh0 : Nat := 2 * bitLen m + 140
    let sh : Nat := if (e + sh0) % 2 = 0 then sh0 else sh0 + 1
    let n := 2 ^ sh / m
    let r := isqrt n
    let q := 2 * r + (if r * r * m = 2 ^ sh then 0 else 1)
    (.fin false q (-((e + sh) / 2) - 1), .none)
  | .inf false => (.fin false 0 0, .none)
  | _ => (.nan, Flags.invalid)

/-- Order of two numbers that are not NaN: a < b, with -0 equal to +0. -/
def Num.lt (a b : Num) : Bool :=
  match a, b with
  | .nan, _ | _, .nan => false
  | .inf s, .inf t => s && !t
  | .inf s, .fin .. => s
  | .fin .., .inf t => !t
  | .fin s m e, .fin t n k =>
    let lo := min e k
    decide (dyInt s m e lo < dyInt t n k lo)

/-- Equality of two numbers that are not NaN, with -0 equal to +0. -/
def Num.eqv (a b : Num) : Bool :=
  match a, b with
  | .nan, _ | _, .nan => false
  | .inf s, .inf t => s == t
  | .fin s m e, .fin t n k =>
    let lo := min e k
    decide (dyInt s m e lo = dyInt t n k lo)
  | _, _ => false

/-- Order of R197 and R240, in which -0 stands below +0. -/
def Num.below (a b : Num) : Bool :=
  a.lt b || (a.eqv b && a.isNeg && !b.isNeg)

/-- R240: which of two operands FMIN, FMAX, FMINP and FMAXP return. -/
inductive MinMax
  | min | max | minp | maxp
  deriving DecidableEq, Repr

/-- R197, R240: minimum and maximum on bit patterns of a format; the operand is returned bit for bit. -/
def fminmax (op : MinMax) (f : Fmt) (a b : Nat) : Nat × Flags :=
  let x := f.decode a
  let y := f.decode b
  match x.isNaN, y.isNaN with
  | true, true => (f.canonNaN, Flags.invalid)
  | true, false => match op with
    | .min | .max => (b, Flags.invalid)
    | .minp | .maxp => (f.canonNaN, Flags.invalid)
  | false, true => match op with
    | .min | .max => (a, Flags.invalid)
    | .minp | .maxp => (f.canonNaN, Flags.invalid)
  | false, false => match op with
    | .min | .minp => (if y.below x then b else a, .none)
    | .max | .maxp => (if x.below y then b else a, .none)

/-- R198: the relation compare code cc names, and whether it signals. Codes 8-15 are out of range. -/
def fcompare (cc : Nat) (x y : Num) : Bool × Flags :=
  let un := x.isNaN || y.isNaN
  let sig : Flags := if un then Flags.invalid else .none
  match cc with
  | 0 => (x.eqv y, .none)
  | 1 => (!x.eqv y, .none)
  | 2 => (x.lt y, sig)
  | 3 => (x.lt y || x.eqv y, sig)
  | 4 => (y.lt x, sig)
  | 5 => (y.lt x || x.eqv y, sig)
  | 6 => (un, .none)
  | _ => (!un, .none)

/-- R59: one value converted between formats. The caller applies R62 to narrow results. -/
def convertValue (d s : Fmt) (w : Nat) (mode : RMode) (sat : Bool) : Nat × Flags :=
  if s.isFloat || s = .e8m0 then
    let x := if s = .e8m0 then e8m0Value (w % 256) else s.decode w
    if d.isFloat then
      let (r, fl) := roundTo d x mode sat
      (r, if x.isNaN then fl.or Flags.invalid else fl)
    else
      let (v, fl) := roundToInt d.isSigned d.width x mode
      (intBits d.width v, fl)
  else
    let i := s.intValue w
    if d.isFloat then roundTo d (.ofInt i) mode sat
    else (intBits d.width (if sat then clampInt (intRange d.isSigned d.width) i else i), .none)

/-- f32 addition, rounded (R69, R196). -/
def fadd32 (a b : Nat) (mode : RMode) : Nat × Flags :=
  let (x, f1) := addNum (Fmt.f32.decode a) (Fmt.f32.decode b) mode
  let (r, f2) := roundTo .f32 x mode false
  (r, f1.or f2)

/-- f32 multiplication, rounded by RNE. -/
def fmul32 (a b : Nat) (mode : RMode) : Nat × Flags :=
  let (x, f1) := mulNum (Fmt.f32.decode a) (Fmt.f32.decode b)
  let (r, f2) := roundTo .f32 x mode false
  (r, f1.or f2)

/-- f32 fused multiply-add, rounded once (R68). -/
def ffma32 (a b c : Nat) (mode : RMode) : Nat × Flags :=
  let (x, f1) := fmaNum (Fmt.f32.decode a) (Fmt.f32.decode b) (Fmt.f32.decode c) mode
  let (r, f2) := roundTo .f32 x mode false
  (r, f1.or f2)

/-- Sign-flipped f32 pattern. -/
def fneg32 (a : Nat) : Nat := if a < 2 ^ 31 then a + 2 ^ 31 else a - 2 ^ 31

/-- Word i of Philox-4x32-10 (R78), counter words c0-c3 and key words k0, k1. -/
def philoxRounds : Nat → Nat → Nat → Nat → Nat → Nat → Nat → Nat × Nat × Nat × Nat
  | 0, c0, c1, c2, c3, _, _ => (c0, c1, c2, c3)
  | n + 1, c0, c1, c2, c3, k0, k1 =>
    let p0 := 0xD2511F53 * c0
    let p1 := 0xCD9E8D57 * c2
    let m := 4294967296
    philoxRounds n ((p1 / m) ^^^ c1 ^^^ k0) (p1 % m) ((p0 / m) ^^^ c3 ^^^ k1) (p0 % m)
      ((k0 + 0x9E3779B9) % m) ((k1 + 0xBB67AE85) % m)

/-- R78: philox(ctr, key). -/
def philox (c0 c1 c2 c3 : Nat) (key : Nat) : Nat × Nat × Nat × Nat :=
  let m := 4294967296
  philoxRounds 10 (c0 % m) (c1 % m) (c2 % m) (c3 % m) (key % m) (key / m % m)

/-- R79: UNIF of a 32-bit word. -/
def unif (w : Nat) : Nat := (roundTo .f32 (.fin false (w / 256 % 2 ^ 24) (-24)) .rne false).1

end Sys2Proof.Machine
end

