-- ==== Sys2Proof/Machine/State.lean ====
section
/-! DEFINITION. The machine's state as plain data: package, dies, tiles, strands, streams, fabric, contexts, pipelines and
memory, each field with the rule of spec/ that names it; what stops a step; and the state right after package reset. -/

namespace Sys2Proof.Machine

/-- Data kept by number, ascending; a number not listed has the default its reader names. -/
abbrev AMap (α : Type) := List (Nat × α)

/-- The value kept under a number. -/
def AMap.get {α : Type} (dflt : α) : AMap α → Nat → α
  | [], _ => dflt
  | (j, v) :: r, k => if k = j then v else AMap.get dflt r k

/-- A value kept under a number, the others as they were. -/
def AMap.set {α : Type} : AMap α → Nat → α → AMap α
  | [], k, v => [(k, v)]
  | (j, w) :: r, k, v => if k = j then (k, v) :: r else if k < j then (k, v) :: (j, w) :: r else (j, w) :: AMap.set r k v

/-- Nothing kept under a number. -/
def AMap.erase {α : Type} (m : AMap α) (k : Nat) : AMap α := m.filter (fun p => p.1 != k)

/-- Token kinds, in the code order of R171. -/
inductive TKind
  | data | hdr | eos | poison
  deriving DecidableEq, Repr

/-- R171: the code of a token kind. -/
def TKind.code : TKind → Nat
  | .data => 0 | .hdr => 1 | .eos => 2 | .poison => 3

/-- A token (R171) with its frame tag (R217), the fc from which it stands on its arc (R218), and the writes in its causal
past (R339). -/
structure Token where
  kind : TKind := .data
  lanes : List Lane := List.replicate 16 0
  mask : BitVec 16 := 0
  frame : Nat := 0
  since : Nat := 0
  past : List Nat := []
  deriving DecidableEq, Repr

/-- An item (R42) with its POISON mark (R130) and causal past (R332, edge 3). -/
structure Item where
  payload : List Word := List.replicate 8 0
  tag : Lane := 0
  key : Lane := 0
  poison : Bool := false
  past : List Nat := []
  deriving DecidableEq, Repr

/-- A pattern register (R293). -/
abbrev Pattern := BitVec 1024

/-- What an s register is bound to (R182). -/
inductive Bound
  | unbound | port (n : Nat) | fabric
  deriving DecidableEq, Repr

/-- A stream-bound register's binding, cursors and partly written outgoing token (R183). -/
structure Binding where
  target : Bound := .unbound
  rcur : Nat := 0
  wcur : Nat := 0
  part : Token := {}
  /-- The EOS accepted at the head of a fabric binding: it has left its arc and stays until the binding changes (R227). -/
  eos : Option Token := none
  deriving DecidableEq, Repr

/-- A strand's state (R184). -/
inductive SState
  | idle | run | yielded | waiting (q : Nat)
  deriving DecidableEq, Repr, Inhabited

/-- The failure record of R344. -/
structure FailRec where
  faddr : BitVec 32 := 0
  count : Nat := 0
  refused : Bool := false
  deadlink : Bool := false
  spillf : Bool := false
  pstore : Bool := false
  deriving DecidableEq, Repr, Inhabited

/-- A token in a mailbox (R358, R359). -/
structure Mail where
  tag : Lane
  payload : Lane
  past : List Nat := []
  deriving DecidableEq, Repr

/-- A trap cause held pending (R382, R383): its code and TRAPV. -/
structure Cause where
  code : Nat
  info : Word
  deriving DecidableEq, Repr

/-- Access kinds, coded as in R149. -/
inductive Access
  | read | write | fetch | atomic
  deriving DecidableEq, Repr

/-- R149, R379: the code of an access. -/
def Access.code : Access → Nat
  | .read => 0 | .write => 1 | .fetch => 2 | .atomic => 3

/-- Who asks for a translation or a page (R143, R144, R429). -/
inductive Requester
  | strand (tile n : Nat)
  | fetcher (tile n : Nat)
  | command (tile id : Nat)
  | loader (tile : Nat)
  | saver (tile : Nat)
  | scheduler (ctx : Nat)
  | hostPort (ctx qp : Nat)
  | spill (ctx slot q : Nat)
  | ingress (port : Nat)
  deriving DecidableEq, Repr

/-- How a translation that did not succeed stands for its requester: waiting in the walk queue (R144), on a leaf with M = 1
(R147), for a free page request (R149), on a page request (R149), to walk again once its context is restored (R151), answered for
a requester with no structure of its own to fill (R429), failed by a reply (R150), or faulted with a cause code and reason (R148,
R379). -/
inductive XWait
  | walk | migrate | needPage | page (rid : Nat) | held | ready | failed (va : Nat) | fault (code reason : Nat)
  deriving DecidableEq, Repr

/-- One outstanding translation of a requester (R144): the page's address, the address of the access that missed, the access, and
how it stands. -/
structure Miss where
  who : Requester
  ctx : Nat
  va : Nat
  addr : Nat
  access : Access
  stand : XWait
  deriving DecidableEq, Repr

/-- An entry of a window, micro-TLB or die TLB (R143): context, first address and log size of its page, the leaf it was
filled from (R137), and whether it was filled with D set (R140). -/
structure TlbEntry where
  ctx : Nat
  base : Nat
  size : Nat
  leaf : Word
  dirty : Bool
  deriving DecidableEq, Repr

/-- An edge of SBAR (R324): its class, the earlier commands of the strand by issue order, its earlier stores, and the causal
past those commands leave. -/
structure Sbar where
  cls : Nat
  cmds : List Nat
  stores : List (Nat × Nat)
  past : List Nat
  deriving DecidableEq, Repr

/-- A strand (R182, R191). -/
structure Strand where
  /-- x1-x31; x0 is never kept (R182). -/
  x : AMap Word := []
  s : AMap Binding := []
  p : AMap Pattern := []
  pc : BitVec 32 := 0
  state : SState := .idle
  /-- Priority recorded for a YIELDED strand (R122). -/
  prio : Nat := 0
  item : Word := 0
  itag : Lane := 0
  /-- Index of the task's entry in the stage's task table (R122). -/
  entry : Option Nat := none
  /-- Parts of tasks started here: one more at each task start (R185), so that a failure is told from one of a part that ended (R345). -/
  part : Nat := 0
  /-- Started for an item and its first bundle not issued yet (R184, log 8). -/
  claim : Bool := false
  fflags : BitVec 5 := 0
  ufcnt : Nat := 0
  /-- Draw count of R63. -/
  draws : Nat := 0
  trapc : BitVec 8 := 0
  trapv : Word := 0
  trappc : BitVec 32 := 0
  handler : Bool := false
  pending : List Cause := []
  halted : Bool := false
  stepOnce : Bool := false
  /-- Halted by BRK (R394). -/
  byBrk : Bool := false
  budget : BitVec 32 := 0
  echg : Nat := 0
  /-- Index prefetch buffer (R157): halfwords by virtual address. -/
  prefetch : AMap Half := []
  /-- The bundle INDEX_FETCH decoded for the next issue and whether it is a literal (R153). -/
  fetched : Option (Bundle × Bool) := none
  fail : FailRec := {}
  mailbox : List Mail := []
  /-- Tokens sent and not yet delivered (R358). -/
  sent : Nat := 0
  /-- Writes of the strand not yet known performed (R343), with the ordering class of each (R324). -/
  stores : List (Nat × Nat) := []
  /-- Writes in the strand's causal past (R332). -/
  past : List Nat := []
  /-- Invalidations the strand started by INVL (R366). -/
  invls : List Nat := []
  /-- Invalidation its INVW waits on. -/
  invw : Option Nat := none
  /-- SBAR edges (R324). -/
  sbars : List Sbar := []
  /-- Causal pasts of the cell stores made and of what ended commands of each memory class left (R324, R337, R339). -/
  cellPast : List Nat := []
  clsPast : AMap (List Nat) := []
  /-- Events that precede the accesses of later commands: those of commands a SWAIT has returned (R339). -/
  swPast : List Nat := []
  /-- Set and phase that the unissued bundle's GBAR arrived in, outside a handler and within one (R362). -/
  gbar : Option (Nat × Nat) := none
  gbarH : Option (Nat × Nat) := none
  /-- Item a divider has given this strand's waiting pop (R127), and the queue. -/
  granted : Option (Nat × Item) := none
  /-- The sub-queue that item stood in. -/
  grantSub : Nat := 0
  /-- Outcome of the image load the strand's FCFG waits for (R354). -/
  fcfg : Option Word := none
  /-- What the strand's unissued bundle waits on: the opcode of each slot that cannot proceed and its operand (R186, R228). -/
  stall : List (Nat × Nat) := []
  /-- Micro-TLB misses of the bundle that has not issued yet, charged when it issues (R215). -/
  missed : Nat := 0
  deriving DecidableEq, Repr, Inhabited

/-- A register write held until the bundle completes (R187): slot, register, value. -/
structure RegWrite where
  slot : Nat
  reg : Nat
  val : Word
  deriving DecidableEq, Repr

/-- How a task ends with its bundle (R211). -/
inductive EndKind
  | yield | waitq (q : Nat) | done
  deriving DecidableEq, Repr, Inhabited

/-- What the B slot does at completion (R210-R214). -/
inductive BAct
  | none | trap (code : Nat) (info : Word) | tret | ends (k : EndKind)
  deriving DecidableEq, Repr, Inhabited

/-- A bundle that has issued and not completed (R186, R187). -/
structure Issue where
  strand : Nat := 0
  nextPc : BitVec 32 := 0
  taken : Bool := false
  act : BAct := .none
  wb : List RegWrite := []
  /-- Requests whose values have not returned, with slot and register. -/
  waits : List (Nat × Nat × Nat) := []
  /-- System-register writes that take effect at completion (R191). -/
  sets : List (Nat × Word) := []
  /-- Physical addresses the slots' translations gave, by slot. -/
  pa : AMap Nat := []
  /-- A QPUSH, TSEND or TRIG that stands behind the bundle's own load in program order (R332): it acts once the value has returned. -/
  late : Option Instr := none
  deriving DecidableEq, Repr, Inhabited

/-- A command's kind with the operands its entry names (R312-R323). -/
inductive CmdKind
  | sla | ssa | sli | ssi
  | sra (op : Nat) (ret : Bool) (seq : Nat)
  | sri (op : Nat) (ret : Bool) (seq : Nat)
  | smc (set : Nat)
  | sfill (v : Nat)
  | scpy (sat : Bool)
  | sqin (q : Nat)
  | sqout (q : Nat)
  | srec (slot depth : Nat)
  deriving DecidableEq, Repr

/-- An element a command has formed and not finished (R303): its number, its request, its virtual address, its value once it
has one (none inside for an invalid position), and the causal past of a read. -/
structure Flight where
  n : Nat
  req : Nat := 0
  va : Nat := 0
  val : Option (Option Nat) := none
  past : List Nat := []
  deriving DecidableEq, Repr

/-- Status word fields of an id (R306). -/
structure StreamStatus where
  count : Nat := 0
  code : Nat := 0
  flags : BitVec 5 := 0
  extra : Bool := false
  state : Nat := 0
  deriving DecidableEq, Repr

/-- A running command (R305, R328). -/
structure Cmd where
  kind : CmdKind
  strand : Nat
  /-- The part of a task that issued it (R345). -/
  part : Nat := 0
  /-- Pipeline slot and stage of the issuing task. -/
  slot : Nat
  stage : Nat
  ctx : Nat
  /-- Place in the tile's issue order. -/
  order : Nat
  port : Nat := 0
  cport : Option Nat := none
  pat : Pattern := 0
  /-- The origin pattern of SCPY (R318). -/
  pat2 : Pattern := 0
  xb : Word := 0
  itag : Lane := 0
  /-- Elements formed; elements of the first index formed. -/
  next : Nat := 0
  inner : Nat := 0
  /-- Index values taken and not used up (R313): value or invalid position, with causal past; and how their port ended. -/
  idx : List (Option Lane × List Nat) := []
  idxEnd : Bool := false
  idxPoison : Bool := false
  /-- Data values taken and not used: value or invalid position, with causal past; and how their port ended. -/
  vals : List (Option Nat × List Nat) := []
  valsEnd : Bool := false
  valsPoison : Bool := false
  /-- Elements formed and not yet delivered or performed, oldest first (R303, R328). -/
  flight : List Flight := []
  /-- Tokens ready for the port and not yet placed, with the elements each carries; whether EOS is among them or placed. -/
  out : List (Token × Nat) := []
  eos : Bool := false
  /-- Multicast (R300): members, tokens each has delivered, tokens sent with their elements, permits held. -/
  members : List Nat := []
  delivered : AMap Nat := []
  sent : List Nat := []
  permits : Nat := 2
  /-- Ring of a recurrence (R323). -/
  ring : List Token := []
  /-- A POISON token was taken or passed (R319, R323). -/
  poisoned : Bool := false
  /-- The address of the first stored element; bytes SCPY has written. -/
  firstStored : Option Nat := none
  bytes : Nat := 0
  /-- Code of a fault met at an element that earlier ones still precede (R303). -/
  fault : Option Nat := none
  /-- Set when the command stops: its code; and the ports it then drains from the fabric (R308). -/
  ending : Option Nat := none
  drain : List Nat := []
  /-- Earlier commands whose accesses its own wait on (R298), those it waits for to complete (R324), the SORD link (R325), and
  earlier stores (R324). -/
  after : List Nat := []
  barred : List Nat := []
  link : Option Nat := none
  afterStores : List (Nat × Nat) := []
  /-- Writes made and not yet performed at package scope, each with its virtual word (R312, R325). -/
  writes : List (Nat × Nat) := []
  /-- Events before every access of the command, and events its accesses have read from (R339). -/
  past : List Nat := []
  acc : List Nat := []
  /-- What its accesses to a word have read from, by word; and, for a linked command, what those of the command before it left (R325,
  R339). -/
  accAt : AMap (List Nat) := []
  linkAt : AMap (List Nat) := []
  /-- 64-byte block read last (R419). -/
  lastBlock : Option Nat := none
  /-- HDR and POISON tokens taken by an indexed store before its last element is known: values taken before each (R308). -/
  marks : List Nat := []
  deriving DecidableEq, Repr

/-- A multicast arriving at a member's port (R300, R316): the source tile and id, its place in the member's issue order, and the
tokens not yet delivered. -/
structure McastIn where
  port : Nat
  src : Nat
  id : Nat
  order : Nat
  toks : List Token
  deriving DecidableEq, Repr

/-- An arc's end points (R176, R216) are endpoint numbers; a route is source and destination. -/
structure Route where
  src : Nat
  dst : Nat
  deriving DecidableEq, Repr

/-- A group descriptor (R174). -/
structure Group where
  first : Nat := 0
  count : Nat := 0
  imask : BitVec 4 := 0
  omask : BitVec 2 := 0
  present : Bool := false
  deriving DecidableEq, Repr

/-- A configured cell: groups and element words (R173, R175). -/
structure CellImage where
  groups : List Group := []
  elems : List (BitVec 128) := []
  deriving DecidableEq, Repr

/-- A configured image (R172). -/
structure Image where
  cells : AMap CellImage := []
  routes : List Route := []
  inits : List (Nat × Token) := []
  deriving DecidableEq, Repr

/-- A 16-lane value with its valid mask (R220, R221). -/
structure VReg where
  lanes : List Lane := List.replicate 16 0
  mask : BitVec 16 := 0xFFFF
  deriving DecidableEq, Repr

/-- A firing held by a fill watermark (R269): its group, the element it stands at, and what it has taken. -/
structure Held where
  group : Nat
  elem : Nat
  frame : Nat
  ins : AMap Token
  bypass : List VReg
  start : Nat
  deriving DecidableEq, Repr

/-- A cell write not yet visible (R231): issue fc, place among the writes of that fc (fabric writes by cell, then streams by
id from 16, then the scalar access at 48), byte address within the tile's cell space, old byte. -/
structure CellWrite where
  fc : Nat
  rank : Nat
  addr : Nat
  old : Byte
  /-- Written by an ATMC, a scalar ATOM or CAS, or a reduction (R204, R268). -/
  atomic : Bool := false
  /-- Writes in its causal past (R332, edge 2). -/
  past : List Nat := []
  deriving DecidableEq, Repr

/-- The matrix state of c12 or c13 (R270). -/
structure Matrix where
  active : AMap Byte := []
  shadow : AMap Byte := []
  pfActive : Nat := 2
  pfShadow : Nat := 2
  swActive : AMap Byte := []
  swShadow : AMap Byte := []
  poisonActive : Bool := false
  poisonShadow : Bool := false
  wc : Nat := 0
  acc : AMap Lane := []
  rowPoison : BitVec 64 := 0
  rc : Nat := 0
  dc : Nat := 0
  codebook : AMap Lane := []
  /-- Weight-plane bytes whose ECC fails uncorrectably (R385): active plane, then shadow plane. -/
  badActive : List Nat := []
  badShadow : List Nat := []
  deriving DecidableEq, Repr

/-- The merge state of one MRGU or MRGI group (R276): the FIFOs of its sides, their ends, and FINISHED. -/
structure MergeGroup where
  fifoA : List (Lane × Lane) := []
  fifoB : List (Lane × Lane) := []
  endA : Bool := false
  endB : Bool := false
  finished : Bool := false
  deriving DecidableEq, Repr

/-- The merge cell's state (R276-R281): its groups, the counts of HIST, the carry of PSUM and the cursors of ROUTE. -/
structure Merge where
  groups : AMap MergeGroup := []
  hist : AMap Lane := []
  carry : Lane := 0
  cursors : AMap Lane := []
  deriving DecidableEq, Repr, Inhabited

/-- One cell's running state (R219-R222, R62-R64, R250). -/
structure Cell where
  v : AMap VReg := []
  bypass : List VReg := []
  lastGroup : Option Nat := none
  busyUntil : Nat := 0
  refusals : AMap Nat := []
  latches : AMap Lane := []
  flags : BitVec 5 := 0
  ufBlock : Nat := 0
  draws : Nat := 0
  mag : Lane := 0
  nans : Nat := 0
  held : Option Held := none
  /-- Structural elements' own state across firings (R261, R264): REPT and IOTA counts by element. -/
  counts : AMap Nat := []
  /-- Sticky ECC flag (R269, R273). -/
  ecc : Bool := false
  deriving DecidableEq, Repr

/-- FSTAT's fields (R229). -/
structure Fstat where
  disc : Nat := 0
  sblk : BitVec 8 := 0
  pblk : BitVec 16 := 0
  cblk : BitVec 16 := 0
  rstr : Nat := 0
  pend : Bool := false
  badret : Bool := false
  dlk : Bool := false
  cmpl : Bool := false
  run : Bool := false
  deriving DecidableEq, Repr, Inhabited

/-- An image load under way on a tile (R178, R354, R155): address, the strand that waits or none, and the image read and checked that
waits for its cells' arcs (R226). -/
structure ImageLoad where
  va : Nat
  strand : Option Nat
  next : Option Image := none
  deriving DecidableEq, Repr

/-- Where a tile stands in taking up a stage or leaving one (R123, R155): steps 1 to 4 of R123 toward a stage (slot and
number) or toward the pool; step 5 with the next dictionary entry to read; and its image still to load. -/
inductive TakeUp
  | none
  | leaving (dst : Option (Nat × Nat))
  | loading (entry : Nat)
  | imaging
  deriving DecidableEq, Repr, Inhabited

/-- A preload held in the shadow stores (R159, R160, R109). -/
structure Preload where
  ctx : Nat
  slot : Nat
  stage : Nat
  /-- Serial of the pipeline instance it was read for (R160). -/
  serial : Nat
  entries : List Bundle
  /-- The shadow cell bank: the first cell block of the next image (R159). -/
  bank : List Byte
  /-- Charges held (R109), in 1/16 pJ. -/
  units : Nat
  deriving DecidableEq, Repr

/-- A remote request's kind and issuer while it is on its way (R374-R377). -/
structure RemoteFlight where
  tag : Nat
  tile : Nat
  id : Nat
  n : Nat
  ctx : Nat
  window : Nat
  port : Nat
  addr : Nat
  isWrite : Bool
  wid : Nat
  deriving DecidableEq, Repr

/-- A token on its way from a port to the routes from it (R181): the destinations it has yet to reach, in order, and the command or
multicast whose token it is, by its place in the issue order. -/
structure Emission where
  tok : Token
  left : List Nat
  owner : Nat
  deriving DecidableEq, Repr

/-- A tile (R18). -/
structure Tile where
  /-- Running context (0-288) and the stage held, by pipeline slot and stage number. -/
  ctx : Nat := 0
  /-- LCYC: fc edges delivered to the tile since tile reset (R21). -/
  lcyc : Nat := 0
  /-- A bundle has issued, and the stream engine has granted a request, since the last fc edge (R18, R292). -/
  issued : Bool := false
  granted : Bool := false
  stage : Option (Nat × Nat) := none
  takeUp : TakeUp := .none
  csb : Word := 0
  dictN : Nat := 0
  code : AMap Bundle := []
  codeBad : List Nat := []
  preload : Option Preload := none
  strands : AMap Strand := []
  /-- The strand that issues, and whether the core is choosing one (R189). -/
  cur : Nat := 0
  choosing : Bool := false
  held : Option Issue := none
  /-- Scratch of the bundle in issue. -/
  issue : Issue := {}
  stopping : Bool := false
  -- stream engine
  status : AMap StreamStatus := []
  cmds : AMap Cmd := []
  sords : AMap Nat := []
  nextOrder : Nat := 0
  /-- Command the engine granted last (R292). -/
  rrGrant : Nat := 0
  /-- By endpoint, a port's token that has not reached every route from it yet (R181). -/
  emitting : AMap Emission := []
  /-- Endpoints that have placed, and accepted, an EOS in the round (R227). -/
  eosOut : List Nat := []
  eosIn : List Nat := []
  mcast : List McastIn := []
  /-- Causal past a completed command left under its id (R339). -/
  donePast : AMap (List Nat) := []
  freeze : Bool := false
  -- fabric
  image : Option Image := none
  fargs : List (Nat × Nat × Lane) := []
  load : Option ImageLoad := none
  fstat : Fstat := {}
  /-- Sequence tag of the round's task (R63). -/
  roundTag : Lane := 0
  /-- At most one token on each arc, by its destination endpoint (R216); 0x80 + n is the inlet of the register bound to port n. -/
  arcs : AMap Token := []
  cells : AMap Cell := []
  sram : AMap Byte := []
  sramBad : List Nat := []
  cellWrites : List CellWrite := []
  /-- Writes in the causal past of the write a cell byte was last written by, once that is visible to every read (R332, edge 2). -/
  sramPast : AMap (List Nat) := []
  /-- The image's initial tokens stand where its load placed them: no round has started since (R178, R226). -/
  primed : Bool := false
  matrix : AMap Matrix := []
  merge : Merge := {}
  tableT : AMap Lane := []
  tableP : AMap Lane := []
  /-- fc of the last TLD into the pattern table, and the table as it stood before that fc (R272). -/
  prevP : Nat × AMap Lane := (0, [])
  -- translation
  utlb : List TlbEntry := []
  windows : AMap (List TlbEntry) := []
  winRR : AMap Nat := []
  -- energy
  residue : Nat := 0
  /-- The residue of what the meter charged to the house account, context 0 (R103). -/
  houseResidue : Nat := 0
  emtr : Nat := 0
  active : Bool := false
  scale : BitVec 16 := 0x4000
  -- queues, slots, the rest
  cursors : AMap Nat := []
  holds : List (Nat × Nat) := []
  checkpoint : List (Nat × Token) := []
  /-- 16 KiB cell banks written since the tile took up its stage (R390). -/
  liveBanks : List Nat := []
  steps : Nat := 0
  deriving DecidableEq, Repr, Inhabited

/-- What a request asks of a memory node (R204, R288, R301). -/
inductive MemOp
  | load (bytes : Nat)
  | store (data : List Byte)
  | atom (op : Nat) (wide : Bool) (v : Word)
  | cas (wide : Bool) (v c : Word)
  | reduce (op fmt : Nat) (v pad : Lane)
  deriving DecidableEq, Repr

/-- Who gets a memory node's answer: a held bundle's slot, an element of a command, or another package. -/
inductive MemSrc
  | core (tile strand slot reg width : Nat) (signed : Bool)
  | store (tile strand : Nat)
  | elem (tile id n : Nat)
  /-- A write of the host port or of an ingress port, acknowledged once it is performed; its issuer has metered it (R88, R342). -/
  | device
  /-- A word that a queue pair's READ asks for: virtual function, queue pair, the job it belongs to, offset in the run (R87, R335). -/
  | host (vf qp job lo : Nat)
  /-- A read or atomic of another package: the port it came in by, its lane, the package it answers, and its tag (R372). -/
  | ingress (port lane dst tag : Nat)
  deriving DecidableEq, Repr

/-- A request at or on its way to a memory node, with the writes causally before it. -/
structure MemReq where
  id : Nat
  ctx : Nat
  die : Nat
  src : MemSrc
  pa : Nat
  va : Nat
  op : MemOp
  past : List Nat
  /-- A write to a replicated page (R341). -/
  rep : Bool := false
  /-- The part of a task that issued it, and its stage (R345). -/
  part : Nat := 0
  stage : Option (Nat × Nat) := none
  /-- Reduction sequence and tag (R302, R315). -/
  seq : Option (Nat × Nat × Lane) := none
  /-- A request of a command linked by SORD: it takes an entry of the node's 16-entry address-compare queue (R288). -/
  linked : Bool := false
  deriving DecidableEq, Repr

/-- An answer on its way back to a tile (R186, R312). -/
structure MemResp where
  id : Nat
  src : MemSrc
  data : Nat
  flags : BitVec 5 := 0
  past : List Nat
  /-- The answer of a read-modify-write, which waits for its causal past (R336). -/
  rmw : Bool := false
  deriving DecidableEq, Repr

/-- A write applied at its home node and not yet visible everywhere (R333, R334): the merged 8-byte word, the writer's die,
its causal past, and the dies whose visible set holds it. -/
structure WriteRec where
  id : Nat
  die : Nat
  word : Nat
  val : Word
  past : List Nat
  seen : List Nat
  /-- A word of a replica line: it joins no batch and is visible wherever its causal past is (R341). -/
  line : Bool := false
  /-- The stamp of a write to a replicated page (R340). -/
  stamp : Nat := 0
  deriving DecidableEq, Repr

/-- A replica line on its way to a die (R341). -/
structure LineMsg where
  line : Nat
  bytes : List Byte
  stamp : Nat
  src : Nat
  dst : Nat
  wid : Nat
  past : List Nat
  deriving DecidableEq, Repr

/-- An invalidation in progress (R146). -/
structure Inval where
  id : Nat
  ctx : Nat
  lo : Nat
  hi : Nat
  part : Nat
  /-- Writes made before it that were not yet performed at package scope: until they are, a walk may still read an old entry. -/
  writes : List Nat := []
  /-- Set once those are performed and every structure has been purged again: only accesses translated before then are waited for. -/
  settled : Bool := false
  /-- Requests translated through removed entries that are not yet performed. -/
  reqs : List Nat := []
  deriving DecidableEq, Repr

/-- A die (R12-R17). -/
structure Die where
  /-- fc edges of the die: the local counter its account unit and its partitions measure periods on (R21, R118). -/
  fc : Nat := 0
  accounts : AMap Int := []
  forwards : Nat := 0
  /-- Sealed batches of each die visible here; own entry: batches sealed (R334). -/
  vclk : AMap Nat := []
  openBatch : List Nat := []
  sealedBatches : List (Nat × List Nat) := []
  lamport : Nat := 0
  stamps : AMap (Nat × Nat) := []
  tlb : AMap (List TlbEntry) := []
  /-- Translations outstanding at this die's walkers, in arrival order (R144). -/
  misses : List Miss := []
  walkRR : Nat := 0
  /-- LOCALd and REMOTEd (R419). -/
  localReqs : Nat := 0
  /-- Slot memory that a waiting SSLOT needs (R291, R321), in bytes. -/
  slotNeed : Nat := 0
  remoteReqs : Nat := 0
  /-- Requests in arrival order at each bank's node and, under 64 + stack order, at the die's HBM nodes. The first 16 of a node's
  linked requests are those its address-compare queue holds; a further one waits at the node (R288). -/
  nodes : AMap (List MemReq) := []
  /-- Charges, increments and shares waiting at the home unit, in arrival order (R104): context and amount in 2^-14 units. -/
  arrivals : List (Nat × Int) := []
  deriving DecidableEq, Repr

/-- A stage descriptor's fields (R38). -/
structure StageDesc where
  minTiles : Nat := 1
  maxTiles : Nat := 1
  ord : Bool := false
  seqin : Bool := false
  hyst : Nat := 32
  inputs : List Nat := []
  outputs : List Nat := []
  ratios : List Nat := []
  braidCap : Nat := 0
  budget : BitVec 32 := 0
  csb : Word := 0
  entry : BitVec 32 := 0
  dictN : Nat := 0
  dictBase : Word := 0
  image : Word := 0
  deriving DecidableEq, Repr

/-- A queue descriptor's fields (R40). -/
structure QueueDesc where
  relaxed : Bool := false
  k : Nat := 1
  prio : Nat := 0
  capacity : Nat := 1
  homeOctet : Nat := 0
  homeBank : Nat := 0
  spill : Bool := false
  ext : Bool := false
  seed : Word := 0
  spillBase : Nat := 0
  spillSize : Nat := 0
  deriving DecidableEq, Repr

/-- A waiting pop request at a divider (R127): tile, and strand or stream id. -/
structure PopReq where
  tile : Nat
  strand : Nat
  stream : Option Nat
  deriving DecidableEq, Repr

/-- A sub-queue: items on chip, items in the spill area, and its pass-over count (R128, R290). -/
structure SubQueue where
  items : List Item := []
  spilled : List Item := []
  /-- Position in its part of the spill area at which the next spilled item goes (R290). -/
  spillPos : Nat := 0
  passover : Nat := 0
  deriving DecidableEq, Repr

/-- A queue of a pipeline (R126-R128, R289, R290). -/
structure Queue where
  desc : QueueDesc := {}
  /-- Where its sub-queues lie: bank, as 64 times its die plus its number, and byte offset in the bank's queue memory (R289). -/
  places : List (Nat × Nat) := []
  subs : AMap SubQueue := []
  reserved : Nat := 0
  closed : Bool := false
  poisoned : Bool := false
  pushes : Nat := 0
  pops : Nat := 0
  hostCursor : Nat := 0
  waiting : List PopReq := []
  deriving DecidableEq, Repr

/-- An entry of a stage's task table (R122): 16-bit reservations by output slot, braid entries open, the latest one's tag. -/
structure TaskEntry where
  reserved : List (BitVec 16) := List.replicate 8 0
  braids : BitVec 16 := 0
  latest : Lane := 0
  used : Bool := false
  deriving DecidableEq, Repr

/-- A braid entry (R129, R130): key, the task that owns it, pushes with their queues, and, when set apart, its pair. -/
structure BraidEntry where
  serial : Nat
  tag : Lane
  owner : Nat
  pushes : List (Nat × Item × Nat) := []
  closed : Bool := false
  apart : Option Nat := none
  deriving DecidableEq, Repr

/-- A stage of an active pipeline. -/
structure Stage where
  desc : StageDesc := {}
  /-- Continuation records (R39, R122), oldest first. -/
  resume : List Item := []
  tasks : AMap TaskEntry := []
  braid : List BraidEntry := []
  braidSerial : Nat := 0
  tiles : List Nat := []
  retired : Bool := false
  pressure : Int := 0
  lastPressure : Int := 0
  samples : Nat := 0
  deriving DecidableEq, Repr

/-- A reduction sequence's frontier F, completed tags at or after it, and tags in flight (R315). -/
structure RedSeq where
  frontier : Lane := 0
  complete : List Lane := []
  flying : List Lane := []
  deriving DecidableEq, Repr

/-- A pipeline slot of a context (R95-R99). -/
structure Pipeline where
  active : Bool := false
  started : Bool := false
  handle : Nat := 0
  serial : Nat := 0
  descVa : Nat := 0
  tokenVa : Nat := 0
  trigHandle : Nat := 0xFFFF
  trigN : Nat := 0
  userTag : Nat := 0
  /-- TRIGs counted for this pipeline (R99). -/
  trigs : Nat := 0
  /-- Launch's start condition met by its trigger (R99). -/
  ready : Bool := false
  stages : List Stage := []
  queues : List Queue := []
  seqs : AMap RedSeq := []
  /-- Causal past of each TRIG counted for it, in order; and of the TRIGs that started it (R332, edge 5). -/
  trigPasts : List (List Nat) := []
  startPast : List Nat := []
  /-- Writes of its strands and streams that ended tasks and commands leave (R97). -/
  writes : List Nat := []
  /-- Descriptor bytes read so far (R44). -/
  copy : List Byte := []
  /-- Once its end is decided: the token's status (R97) and the further fields of a refusal (R85). -/
  ending : Option (Nat × List Byte) := none
  deriving DecidableEq, Repr

/-- A page request outstanding (R149). -/
structure PageReq where
  rid : Nat
  va : Nat
  access : Access
  deriving DecidableEq, Repr

/-- A membership set (R361, R362). -/
structure MSet where
  members : List Nat := []
  participants : List Nat := []
  arrived : List Nat := []
  late : List Nat := []
  phase : Nat := 0
  /-- Causal pasts (R332, edge 4) of the arrivals of each closed phase, of the open phase, and of late arrivals. -/
  past : AMap (List Nat) := []
  pastOpen : List Nat := []
  pastLate : List Nat := []
  deriving DecidableEq, Repr

/-- A remote window (R371). -/
structure Window where
  out : Bool := false
  inn : Bool := false
  lane : Nat := 0
  rctx : Nat := 0
  rpkg : Nat := 0
  base : Nat := 0
  size : Nat := 0
  deriving DecidableEq, Repr

/-- A TRIG on its way to the scheduler (R363): tile, strand, pipeline slot, the writes it waits on, the fc by which the cell stores
before it are performed, and its causal past. -/
structure Trig where
  tile : Nat
  strand : Nat
  slot : Nat
  waits : List Nat := []
  cellFc : Nat := 0
  past : List Nat := []
  deriving DecidableEq, Repr

/-- A context's state (R91). -/
inductive CtxState
  | ready | running | guttered | faulted
  deriving DecidableEq, Repr

/-- R84: STATREAD's code of a state. -/
def CtxState.code : CtxState → Nat
  | .ready => 0 | .running => 1 | .guttered => 2 | .faulted => 3

/-- The fault record of R391. -/
structure FaultRec where
  cause : Nat := 0
  strand : Nat := 0xFF
  tile : Nat := 0xFFFF
  trappc : BitVec 32 := 0
  trapv : Word := 0
  va : Nat := 0
  stream : Nat := 0xFF
  deriving DecidableEq, Repr, Inhabited

/-- A decision record of the crumb log (R403). -/
structure Crumb where
  kind : Nat
  sub : Nat := 0
  tile : Nat := 0xFFFF
  a : Nat := 0
  b : Nat := 0
  c : Nat := 0
  d : Nat := 0
  deriving DecidableEq, Repr

/-- A pending proofer move (R120, R123, R125): tile, receiver, and whether the pool supplies it. -/
structure Move where
  tile : Nat
  slot : Nat
  stage : Nat
  fromPool : Bool
  fromSlot : Nat := 0
  fromStage : Nat := 0
  /-- A grant of R116 rather than a proofer move, and the interval number it was chosen in (R132, R403). -/
  grant : Bool := false
  interval : Nat := 0
  /-- Its receiver has retired: it completes into the pool; and its donor has retired (R125). -/
  home : Bool := false
  left : Bool := false
  deriving DecidableEq, Repr

/-- A host message that waits: for its logged point (R405), or for a spill access of its queue (R290). Kinds 0 to 3 are those of
R403's HOSTQ, 4 is a page reply; then what it has pushed or popped so far. -/
structure HostOp where
  kind : Nat
  msg : Lmsg
  begun : Bool := false
  count : Nat := 0
  got : List Item := []
  deriving DecidableEq, Repr

/-- A context (R90-R94). -/
structure Context where
  live : Bool := false
  state : CtxState := .ready
  generation : Nat := 0
  part : Nat := 0
  modes : BitVec 8 := 0
  /-- Modes in effect since the last dispatch (R93). -/
  liveModes : BitVec 8 := 0
  slice : Nat := 0
  root : Nat := 0
  ufkey : Word := 0
  lowWater : Int := 0
  armed : Bool := false
  /-- Balance in 2^-14 units of 1/16 pJ (R104). -/
  balance : Int := 0
  handler : Word := 0
  saveArea : Nat := 0
  logBase : Nat := 0
  logSize : Nat := 0
  pipes : AMap Pipeline := []
  outcomes : List (Nat × Bool) := []
  pageReqs : List PageReq := []
  /-- Misses that wait for a free page request, in arrival order: die, page, access (R149). -/
  pageWaits : List (Nat × Nat × Access) := []
  nextRid : Nat := 1
  sets : AMap MSet := []
  windows : AMap Window := []
  /-- Tokens on their way or waiting in the context's lane: source tile and strand, destination tile and strand (R359). -/
  lane : List (Nat × Nat × Nat × Nat × Mail) := []
  attach : Bool := false
  ecc : Bool := false
  eccCount : Nat := 0
  eccLog : List (List Byte) := []
  fault : Option FaultRec := none
  stopCause : Nat := 0
  /-- State to enter when the stop sequence ends (R386), while one is under way. -/
  stopTo : Option CtxState := none
  saved : Option (AMap Tile) := none
  /-- What is saved is what a context that rests for want of work has kept, not a save area: it is put back at once (R91, R359). -/
  rested : Bool := false
  saveComplete : Bool := false
  interval : Nat := 0
  moves : List Move := []
  /-- TRIGs on their way to the scheduler (R363). -/
  trigQueue : List Trig := []
  crumbs : List Crumb := []
  /-- Records of host messages applied before the dispatch that begins the log (R401, R403). -/
  hostCrumbs : List Crumb := []
  crumbCount : Nat := 0
  trunc : Bool := false
  recFixt : Bool := false
  logStarted : Bool := false
  replayPos : Nat := 0
  replayed : List Crumb := []
  /-- Crumb-log base and size in effect since the last dispatch (R93). -/
  liveLog : Nat × Nat := (0, 0)
  /-- Steps 1 to 4 of the stop sequence have ended (R387). -/
  stopped : Bool := false
  /-- Contributions withdrawn from memory nodes at a stop, sent again after restore (R328). -/
  withdrawn : List MemReq := []
  /-- The request id of a CTXDESTROY under way (R400). -/
  destroying : Option Nat := none
  /-- Pages of the save area written, or read back, so far (R387, R388). -/
  saveAt : Nat := 0
  /-- A fault record is still to be written to the save area (R391). -/
  recordDue : Bool := false
  /-- The crumb log's header is still to be rewritten with the count of its records (R402). -/
  headerDue : Bool := false
  /-- The first LAUNCH under replay has compared the log's header (R405). -/
  replayChecked : Bool := false
  /-- Scale factors the log has given the context under replay, by domain (R405). -/
  calib : AMap (BitVec 16) := []
  /-- Host messages taken and not yet answered (R290, R405). -/
  hostOps : List HostOp := []
  deriving DecidableEq, Repr

/-- A carried-state slot resident in slot memory (R291): size, die, bytes, holder, last use, commands that pin it. -/
structure Slot where
  ctx : Nat
  va : Nat
  size : Nat
  die : Nat
  bytes : List Byte
  holder : Option Nat
  used : Nat
  pins : Nat
  deriving DecidableEq, Repr

/-- A partition (R31, R89, R118). -/
structure Partition where
  formed : Bool := false
  octets : List Nat := []
  dies : List Nat := []
  ports : List Nat := []
  lead : Nat := 0
  base : Nat := 0
  length : Nat := 0
  interval : Nat := 32768
  nextInterval : Nat := 32768
  running : Option Nat := none
  /-- Context after which the next runnable one is sought (R92). -/
  last : Nat := 0
  pool : List Nat := []
  /-- LCYC of the lowest-numbered tile at which the open proof interval began, and samples taken in it (R118, R119). -/
  opened : Nat := 0
  sample : Nat := 0
  deriving DecidableEq, Repr

/-- A Lantern message sent to the host: header fields, payload before encryption, and the endpoint's key as it was then (R81 to R85). -/
structure Msg where
  ep : Nat
  ty : Nat
  rid : Nat
  seq : Nat
  body : List Byte
  key : List Byte := []
  deriving DecidableEq, Repr

/-- Answers of the RDMA engine (R87, R88). -/
inductive RdmaReply
  | ack | data (bytes : List Byte) | invalidRequest | accessError
  deriving DecidableEq, Repr

/-- A host endpoint (R81, R82). -/
structure Endpoint where
  key : Option (List Byte) := none
  highest : Nat := 0
  accepted : List Nat := []
  sentSeq : Nat := 0
  events : Nat := 0
  drops : Nat := 0
  stale : Nat := 0
  deriving DecidableEq, Repr

/-- A translated request of a queue pair under way (R87, R88): its name, its run, the address of each page and which are replicated, the
offset of its next part, parts not answered yet, and what has come: bytes by offset, writes to be performed, and causal past. -/
structure HostJob where
  job : Nat
  va : Nat
  write : Bool
  len : Nat
  data : List Byte
  pas : List Nat
  reps : List Nat
  next : Nat := 0
  open' : Nat := 0
  got : AMap (List Byte) := []
  waits : List Nat := []
  past : List Nat := []
  deriving DecidableEq, Repr

/-- RDMA queue pairs (R87, R88): normal, stalled on a translation, with a request under way, owing an answer until writes are performed
at package scope, or in error. -/
inductive QpState
  | normal | stalled (va : Nat) (write : Bool) (len : Nat) (data : List Byte) | busy (j : HostJob)
  | owed (waits : List Nat) (answer : RdmaReply) | error
  deriving DecidableEq, Repr

/-- What a flit carries (R368). -/
inductive Packet
  | request (r : RemoteReq)
  | response (r : RemoteResp)
  deriving DecidableEq, Repr

/-- A flit waiting to be sent on a lane of a port (R373): the context it is charged to, the house account for none (R109),
and the package it goes to. -/
structure Flit where
  ctx : Option Nat
  lane : Nat
  dst : Nat
  packet : Packet
  deriving DecidableEq, Repr

/-- A scale-up port (R368-R377). -/
structure LinkPort where
  lanes : AMap (List Flit) := []
  rr : Nat := 0
  sent : List Flit := []
  /-- Requests that wait on a translation (R372), oldest first. -/
  inbox : List RemoteReq := []
  /-- Responses with the writes whose performance they wait for (R376). -/
  replies : List (List Nat × Flit) := []
  /-- Writes the ingress port has made, its causal past (R342). -/
  past : List Nat := []
  /-- Tokens dropped and counted (R359). -/
  dropped : Nat := 0
  deriving DecidableEq, Repr

/-- Wear of a unit as the health record gives it (R33-R35). -/
structure Health where
  estimate : Nat := 0xFFFFFFFF
  low : Nat := 0xFFFFFFFF
  high : Nat := 0xFFFFFFFF
  indicator : Nat := 0
  noticed : Bool := false
  deriving DecidableEq, Repr

/-- Readiness states, in the code order of R28. -/
inductive UnitState
  | untested | testing | ready | failed
  deriving DecidableEq, Repr

/-- R28: the two bits of a unit's state. -/
def UnitState.code : UnitState → Nat
  | .untested => 0 | .testing => 1 | .ready => 2 | .failed => 3

/-- The package (R12-R36, R80-R89). -/
structure Package where
  ordering : Config.OrderingCode := .p768
  units : AMap UnitState := []
  mapSeq : Nat := 0
  clockMHz : Nat := 1500
  clockStopped : Bool := false
  power : List Nat := []
  coolMs : Nat := 0
  hottest : List Int := List.replicate 9 0
  tripped : Bool := false
  tripClear : Bool := false
  /-- Samples of each wear indicator of each unit over 168 hours, newest first, under 8 x unit + indicator (R32). -/
  wear : AMap (List (List Nat)) := []
  /-- Activity and temperature of each unit over 168 hours, newest first: their mean is its present duty (R32). -/
  duty : AMap (List (Nat × Nat)) := []
  health : AMap Health := []
  refreshes : Nat := 0
  healthSeq : Nat := 0
  /-- Each die's fabric-clock setting and hottest sensor reading as the last refresh recorded them (R33). -/
  healthClock : Nat := 1500
  healthHot : List Int := List.replicate 9 0
  configured : Bool := false
  endpoints : AMap Endpoint := []
  malformed : Nat := 0
  qps : AMap QpState := []
  sent : List Msg := []
  rdma : List (Nat × Nat × RdmaReply) := []
  /-- Causal past of the host-port engine, an observer on die 4 (R331, R332, R339). -/
  hostPast : List Nat := []
  /-- Scale factors of the domains, and each context's charges in the window (R106, R107). -/
  scales : AMap (BitVec 16) := []
  windowCharges : AMap (AMap Nat) := []
  windowScaled : AMap Nat := []
  ports : AMap LinkPort := []
  flights : List RemoteFlight := []
  deriving DecidableEq, Repr

/-- Whose turn it is (log 1): a tile's core, a step of an engine or of the outside, or a datagram at the host port. -/
inductive Turn
  | core (tile : Nat)
  | event (i : Instr)
  | datagram (d : Datagram)
  deriving DecidableEq, Repr

/-- The machine. -/
structure State where
  pkg : Package := {}
  dies : AMap Die := []
  tiles : AMap Tile := []
  parts : AMap Partition := []
  ctxs : AMap Context := []
  slots : List Slot := []
  mem : List Host.Cell := []
  /-- L2 and HBM words whose ECC fails uncorrectably (R385), by physical word address. -/
  memBad : List Nat := []
  /-- Applied writes not yet visible everywhere, newest first; and writes issued and not yet applied (R333, R334). -/
  log : List WriteRec := []
  flying : List Nat := []
  lines : List LineMsg := []
  resps : List (Nat × MemResp) := []
  invals : List Inval := []
  /-- Next name for a request, write or invalidation; and the free-value counter (log 5). -/
  nextId : Nat := 1
  fresh : Nat := 0
  /-- The tile whose core acts in a step of a core instruction (log 1). -/
  focus : Nat := 0
  /-- Steps to come, first first (log 1). -/
  agenda : List Turn := []
  deriving DecidableEq, Repr

/-- What stops a step for good. -/
inductive Fault
  /-- Raised by no step of this model: every fault of the spec is a next state (trap, fault record or status). Safe. -/
  | none
  deriving DecidableEq, Repr

/-- Why a step has no meaning here. -/
inductive Refusal
  /-- An instruction whose meaning is not written yet, by its mnemonic. Raised by exec's arms only. Safe. -/
  | notModelled (mnemonic : String)
  deriving DecidableEq, Repr

/-- Right after package reset: every unit untested, LCYC 0, VCLK 0, FSTAT 0, status words 0, map sequence 0, scale factors
1.0 (R21, R28, R30, R106, R191, R229, R306); everything else as log 3 names it. -/
def State.reset : State := { pkg := { endpoints := [(0, { key := some (List.replicate 32 0) })] } }

end Sys2Proof.Machine
end

