-- ==== Sys2Proof/Machine/Ops.lean ====
section
/-! DEFINITION. The named operations every meaning is made of: parts of the state, memory and its canonical form, writes and
what each die sees of them (R331-R341), energy charges (R101-R106), messages (R81-R86), and taking an exception (R378-R383). -/

namespace Sys2Proof.Machine

/-! ## Parts of the state -/

/-- Tile t (0-575, R15). -/
def State.tile (s : State) (t : Nat) : Tile := s.tiles.get {} t
/-- Tile t replaced. -/
def State.setTile (s : State) (t : Nat) (v : Tile) : State := { s with tiles := s.tiles.set t v }
/-- Tile t changed. -/
def State.modTile (s : State) (t : Nat) (f : Tile → Tile) : State := s.setTile t (f (s.tile t))
/-- Strand n of a tile. -/
def Tile.strand (t : Tile) (n : Nat) : Strand := t.strands.get {} n
/-- Strand n of a tile changed. -/
def Tile.modStrand (t : Tile) (n : Nat) (f : Strand → Strand) : Tile := { t with strands := t.strands.set n (f (t.strand n)) }
/-- Strand n of tile t. -/
def State.strand (s : State) (t n : Nat) : Strand := (s.tile t).strand n
/-- Strand n of tile t changed. -/
def State.modStrand (s : State) (t n : Nat) (f : Strand → Strand) : State := s.modTile t (fun u => u.modStrand n f)
/-- Die d (R12). -/
def State.die (s : State) (d : Nat) : Die := s.dies.get {} d
/-- Die d changed. -/
def State.modDie (s : State) (d : Nat) (f : Die → Die) : State := { s with dies := s.dies.set d (f (s.die d)) }
/-- Context c (R91). -/
def State.ctx (s : State) (c : Nat) : Context := s.ctxs.get {} c
/-- Context c changed. -/
def State.modCtx (s : State) (c : Nat) (f : Context → Context) : State := { s with ctxs := s.ctxs.set c (f (s.ctx c)) }
/-- Partition p (R89). -/
def State.part (s : State) (p : Nat) : Partition := s.parts.get {} p
/-- Partition p changed. -/
def State.modPart (s : State) (p : Nat) (f : Partition → Partition) : State := { s with parts := s.parts.set p (f (s.part p)) }
/-- The package changed. -/
def State.modPkg (s : State) (f : Package → Package) : State := { s with pkg := f s.pkg }
/-- Pipeline slot of a context (R95). -/
def Context.pipe (c : Context) (slot : Nat) : Pipeline := c.pipes.get {} slot
/-- Pipeline slot of context c. -/
def State.pipe (s : State) (c slot : Nat) : Pipeline := (s.ctx c).pipe slot
/-- Pipeline slot of context c changed. -/
def State.modPipe (s : State) (c slot : Nat) (f : Pipeline → Pipeline) : State :=
  s.modCtx c (fun x => { x with pipes := x.pipes.set slot (f (x.pipe slot)) })
/-- Element n of a list changed. -/
def modNth {α : Type} (l : List α) (n : Nat) (f : α → α) : List α :=
  match l, n with
  | [], _ => []
  | a :: r, 0 => f a :: r
  | a :: r, n + 1 => a :: modNth r n f
/-- Stage g of a pipeline. -/
def Pipeline.stage (p : Pipeline) (g : Nat) : Stage := (p.stages[g]?).getD {}
/-- Queue q of a pipeline. -/
def Pipeline.queue (p : Pipeline) (q : Nat) : Queue := (p.queues[q]?).getD {}
/-- Stage g of a pipeline of a context changed. -/
def State.modStage (s : State) (c slot g : Nat) (f : Stage → Stage) : State :=
  s.modPipe c slot (fun p => { p with stages := modNth p.stages g f })
/-- Queue q of a pipeline of a context changed. -/
def State.modQueue (s : State) (c slot q : Nat) (f : Queue → Queue) : State :=
  s.modPipe c slot (fun p => { p with queues := modNth p.queues q f })
/-- The die of package tile t, and its number within the die (R15). -/
def tileDie (t : Nat) : Nat := t / 64
/-- Mesh row and column of a tile's stop in the 24 x 24 mesh (R15). -/
def meshStop (t : Nat) : Nat × Nat := (8 * (t / 64 / 3) + t % 64 / 8, 8 * (t / 64 % 3) + t % 8)
/-- Tile t's own LCYC (R21), on which everything of the tile that is counted in fc is counted. -/
def State.fcOf (s : State) (t : Nat) : Nat := (s.tile t).lcyc
/-- A fresh name for a request or write. -/
def State.bump (s : State) : State := { s with nextId := s.nextId + 1 }
/-- R190: a strand of context 0 runs at supervisor privilege. -/
def State.super (s : State) (t : Nat) : Bool := (s.tile t).ctx == 0
/-- Union of two sets kept as lists. -/
def unionNat (a b : List Nat) : List Nat := a ++ b.filter (fun x => !a.contains x)

/-! ## Registers (R182) -/

/-- R182: x0 reads as zero. -/
def Strand.rx (st : Strand) (r : XReg) : Word := if r = 0 then 0 else st.x.get 0 r.toNat
/-- R182: a write to x0 is discarded. -/
def Strand.wx (st : Strand) (r : Nat) (v : Word) : Strand := if r = 0 then st else { st with x := st.x.set r v }
/-- The tile whose core acts, and its issuing strand. -/
def State.cur (s : State) : Nat := (s.tile s.focus).cur
/-- The issuing strand. -/
def State.me (s : State) : Strand := s.strand s.focus s.cur
/-- The issuing strand changed. -/
def State.modMe (s : State) (f : Strand → Strand) : State := s.modStrand s.focus s.cur f
/-- R187: an x register as it stands before the bundle. -/
def State.rx (s : State) (r : XReg) : Word := s.me.rx r

/-! ## Memory -/

/-- The byte at a physical address: an address not listed holds 0 (log 2). -/
def Memory.get : List Host.Cell → Nat → Byte
  | [], _ => 0
  | (a, b) :: r, k => if k = a then b else Memory.get r k

/-- A byte written, in canonical form. -/
def Memory.set : List Host.Cell → Nat → Byte → List Host.Cell
  | [], k, v => if v = 0 then [] else [(k, v)]
  | (a, b) :: r, k, v =>
    if k = a then (if v = 0 then r else (k, v) :: r)
    else if k < a then (if v = 0 then (a, b) :: r else (k, v) :: (a, b) :: r)
    else (a, b) :: Memory.set r k v

/-- Addresses strictly rising from `lo`, no entry zero. -/
def Memory.wfFrom : Nat → List Host.Cell → Bool
  | _, [] => true
  | lo, (a, b) :: r => decide (lo ≤ a) && b != 0 && Memory.wfFrom (a + 1) r

/-- The canonical form of memory. -/
def Memory.wf (m : List Host.Cell) : Bool := Memory.wfFrom 0 m

/-- Bytes written from an address on. -/
def Memory.setBytes (m : List Host.Cell) (a : Nat) : List Byte → List Host.Cell
  | [] => m
  | b :: r => Memory.setBytes (Memory.set m a b) (a + 1) r

/-- The little-endian value of n bytes (R3). -/
def Memory.read (m : List Host.Cell) (a : Nat) : Nat → Nat
  | 0 => 0
  | n + 1 => (Memory.get m a).toNat + 256 * Memory.read m (a + 1) n

/-- The aligned 8-byte word numbered w. -/
def Memory.word (m : List Host.Cell) (w : Nat) : Word := w64 (Memory.read m (8 * w) 8)

/-! ## Writes, visibility and reads (R331-R337) -/

/-- R333: the word numbered w as its home node holds it: the newest write applied to it. -/
def State.nodeWord (s : State) (w : Nat) : Word :=
  match s.log.find? (fun r => r.word == w) with
  | some r => r.val
  | none => Memory.word s.mem w

/-- R334: is write i in the visible set of die e? A write that is neither in flight nor in the log is visible everywhere. -/
def State.seenAt (s : State) (e i : Nat) : Bool :=
  !s.flying.contains i && !s.lines.any (fun l => l.wid == i && l.dst == e) && (match s.log.find? (fun r => r.id == i) with
    | some r => r.seen.contains e
    | none => true)

/-- R337: is write i performed at package scope? -/
def State.seenEverywhere (s : State) (i : Nat) : Bool := (List.range 9).all (fun e => s.seenAt e i)

/-- R335: the write a read at die e with causal past `past` returns for word w: its value and causal past. -/
def State.readWord (s : State) (e w : Nat) (past : List Nat) : Word × List Nat :=
  match s.log.find? (fun r => r.word == w && (r.seen.contains e || past.contains r.id)) with
  | some r => (r.val, unionNat [r.id] r.past)
  | none => (Memory.word s.mem w, [])

/-- R337: the word numbered w as performed at package scope: of the newest write that every die sees. -/
def State.pkgWord (s : State) (w : Nat) : Word :=
  match s.log.find? (fun r => r.word == w && (List.range 9).all (fun e => r.seen.contains e)) with
  | some r => r.val
  | none => Memory.word s.mem w

/-- A byte as performed at package scope. -/
def State.pkgByte (s : State) (pa : Nat) : Byte := (s.pkgWord (pa / 8)).extractLsb' (8 * (pa % 8)) 8

/-- R341: the word a replica holds, with the write it comes from and that write's causal past. -/
def State.heldWord (s : State) (w : Nat) : Word × List Nat :=
  match s.log.find? (fun r => r.word == w) with
  | some r => (r.val, unionNat [r.id] r.past)
  | none => (Memory.word s.mem w, [])

/-- R341: bytes read from a replica, as it holds them. -/
def State.heldBytes (s : State) (a n : Nat) : List Byte × List Nat :=
  match n with
  | 0 => ([], [])
  | n + 1 =>
    let (w, p) := s.heldWord (a / 8)
    let (r, q) := s.heldBytes (a + 1) n
    (w.extractLsb' (8 * (a % 8)) 8 :: r, unionNat p q)

/-- Bytes read at die e from an address: each aligned 8-byte word wholly from one write (R335). -/
def State.readBytes (s : State) (e a n : Nat) (past : List Nat) : List Byte × List Nat :=
  match n with
  | 0 => ([], [])
  | n + 1 =>
    let (w, p) := s.readWord e (a / 8) past
    let (r, q) := s.readBytes e (a + 1) n past
    (w.extractLsb' (8 * (a % 8)) 8 :: r, unionNat p q)

/-- A word with bytes replaced from byte offset o on. -/
def mergeBytes (w : Word) (o : Nat) : List Byte → Word
  | [] => w
  | b :: r =>
    let m : Word := (0xFF#64) <<< (8 * o)
    mergeBytes ((w &&& ~~~m) ||| ((b.setWidth 64) <<< (8 * o))) (o + 1) r

/-- R334, local entry: the dies whose visible sets an applied write enters now that they hold its causal past: its own, and for a word of
a replica line (R341) every die. -/
def State.entersAt (s : State) (r : WriteRec) : List Nat :=
  (if r.line then List.range 9 else [r.die]).filter (fun e => !r.seen.contains e && r.past.all (fun i => s.seenAt e i))

/-- R334, local entry: each applied write enters the visible sets that it can. -/
def settleOnce (s : State) : State :=
  { s with log := s.log.map (fun r => { r with seen := s.entersAt r ++ r.seen }) }

/-- Local entry repeated until nothing changes: at most once for each write of the log. -/
def settleLoop : Nat → State → State
  | 0, s => s
  | n + 1, s => settleLoop n (settleOnce s)

/-- The oldest writes that every die sees become the settled memory. -/
def retireLog : List WriteRec → List Host.Cell → List Nat → List WriteRec × List Host.Cell
  | [], m, _ => ([], m)
  | r :: rest, m, blocked =>
    if (List.range 9).all (fun e => r.seen.contains e) && !blocked.contains r.word then
      retireLog rest (Memory.setBytes m (8 * r.word) (leBytes 8 r.val.toNat)) blocked
    else
      let (l, m') := retireLog rest m (r.word :: blocked)
      (r :: l, m')

/-- Visibility brought up to date after a write or a batch. -/
def State.settle (s : State) : State :=
  let s := settleLoop s.log.length s
  let (l, m) := retireLog s.log.reverse s.mem []
  { s with log := l.reverse, mem := m }

/-- A contribution that its node may hold for its tag (R302): a write in flight that stands in no batch yet. -/
def State.issueHeld (s : State) : State × Nat := ({ s with nextId := s.nextId + 1, flying := s.nextId :: s.flying }, s.nextId)

/-- R334: a write joins the open batch of its die. -/
def State.joinBatch (s : State) (d i : Nat) : State := s.modDie d (fun x => { x with openBatch := x.openBatch ++ [i] })

/-- A write of an observer on die d is issued: it has a name, is in flight, and stands in the die's open batch (R334). -/
def State.issueWrite (s : State) (d : Nat) : State × Nat :=
  (s.issueHeld.1.joinBatch d s.nextId, s.nextId)

/-- Write i is applied at its home node: bytes at a physical address within one aligned word (R333, R335). -/
def State.applyWrite (s : State) (i d pa : Nat) (data : List Byte) (past : List Nat) : State :=
  let w := pa / 8
  let r : WriteRec := { id := i, die := d, word := w, val := mergeBytes (s.nodeWord w) (pa % 8) data, past, seen := [] }
  State.settle { s with log := r :: s.log, flying := s.flying.filter (· != i) }

/-- Write i is resolved as failed: it takes part in nothing more (R337, R346). -/
def State.dropWrite (s : State) (i : Nat) : State := State.settle { s with flying := s.flying.filter (· != i) }

/-- Writes still of account in a causal past: those not yet visible everywhere. -/
def State.livePast (s : State) (l : List Nat) : List Nat := l.filter (fun i => !s.seenEverywhere i)

/-- R334: a die seals its open write batch if it holds a write. -/
def State.sealBatch (s : State) (d : Nat) : State :=
  let x := s.die d
  if x.openBatch.isEmpty then s
  else
    let n := (x.vclk.get 0 d + 1) % 2 ^ 48
    s.modDie d (fun x => { x with openBatch := [], vclk := x.vclk.set d n, sealedBatches := x.sealedBatches ++ [(n, x.openBatch)] })

/-! ## Energy (R101-R106, R113) -/

/-- R101: coefficients of the 64 classes, in 1/16 pJ. -/
def tileCoef : List Nat :=
  [384, 48, 96, 64, 96, 64, 32, 480, 960, 640, 448, 1440, 576, 512, 480, 128, 192, 768, 640, 160, 96, 64, 320, 96,
   19200, 23040, 20480, 28160, 29440, 640, 384, 256] ++
  [320, 384, 96, 256, 240, 128, 320, 224, 96, 80, 64, 160, 480, 480, 400, 640, 48, 320, 160, 160, 224, 480, 480, 192,
   2560, 3200]

/-- R102: events of the uncore blocks. -/
inductive Uncore
  | l2Read | l2Write | l2Atomic | hop | bridge | tlb | walk | hbm | flit | hostFrame
  deriving DecidableEq, Repr

/-- R102: their coefficients. -/
def Uncore.coef : Uncore → Nat
  | .l2Read => 480 | .l2Write => 544 | .l2Atomic => 320 | .hop => 64 | .bridge => 640 | .tlb => 80 | .walk => 480
  | .hbm => 24576 | .flit => 20480 | .hostFrame => 16000

/-- R106: power domains: tiles of die d 0-8, uncore of die d 9-17, stacks 18-29, link dies 30-37, host port 38. -/
def tileDomain (d : Nat) : Nat := d
/-- The uncore domain of a die. -/
def uncoreDomain (d : Nat) : Nat := 9 + d
/-- The link domain of a die that carries ports (R12). -/
def linkDomain (d : Nat) : Nat := 30 + (if d < 4 then d else d - 1)
/-- The host port's domain. -/
def hostDomain : Nat := 38
/-- R12: the first stack of a die. -/
def firstStack (d : Nat) : Nat := [0, 2, 3, 5, 6, 6, 7, 9, 10].getD d 0

/-- R105: the context runs under the fixed tariff (FIXT, R93). -/
def Context.fixed (c : Context) : Bool := c.liveModes.getLsbD 1

/-- R93: RPL, bits [3:2] of the modes in effect: 1 record, 2 replay. -/
def Context.rpl (c : Context) : Nat := (c.liveModes.extractLsb' 2 2).toNat

/-- R105, R405: the factor a meter of a domain charges a context by, `live` being the one it has taken up: 1.0 under the fixed tariff;
under replay what the log has given, 1.0 until it has given one (log 107). -/
def Context.factor (c : Context) (dom live : Nat) : Nat :=
  if c.fixed then 0x4000 else if c.rpl = 2 then (c.calib.get 0x4000#16 dom).toNat else live

/-- R106: the scale factor f of a domain's uncore meters. -/
def State.scaleOf (s : State) (dom : Nat) : Nat := (s.pkg.scales.get 0x4000 dom).toNat

/-- R107: a window's sums: scaled charges of the domain, and nominal charges by context. -/
def State.windowAdd (s : State) (dom ctx units scaled : Nat) : State :=
  s.modPkg (fun p => { p with
    windowScaled := p.windowScaled.set dom (p.windowScaled.get 0 dom + scaled),
    windowCharges := p.windowCharges.set dom
      (AMap.set (p.windowCharges.get [] dom) ctx (AMap.get 0 (p.windowCharges.get [] dom) ctx + units)) })

/-- R103, R105, R106: nominal units metered on a tile for the running context: scaled by the tile's f unless its tariff is fixed,
into the residue and the sum EMTR.ctx reads (R364). -/
def State.meterCtx (s : State) (t units : Nat) : State :=
  let u := s.tile t
  let f := (s.ctx u.ctx).factor (tileDomain (tileDie t)) u.scale.toNat
  (s.modTile t (fun u => { u with residue := u.residue + units * f,
                                  emtr := min (u.emtr + units * f / 2 ^ 14) (2 ^ 64 - 1) })).windowAdd
    (tileDomain (tileDie t)) u.ctx units (units * f)

/-- R103, R106: nominal units metered on a tile for the house account, context 0, which runs under the calibrated tariff (log 90). -/
def State.meterHouse (s : State) (t units : Nat) : State :=
  let f := (s.tile t).scale.toNat
  (s.modTile t (fun u => { u with houseResidue := u.houseResidue + units * f })).windowAdd (tileDomain (tileDie t)) 0 units (units * f)

/-- R101, R105: does an event of a class on a tile charge the house account: the time classes of an unoccupied tile and of a
fixed-tariff context? -/
def State.houseClass (s : State) (t cls : Nat) : Bool :=
  decide (56 ≤ cls) && ((s.ctx (s.tile t).ctx).fixed || (s.tile t).stage.isNone)

/-- R101, R113: n events of a class on a tile; attribution to a strand's TASKCHG at nominal coefficients. -/
def State.charge (s : State) (t cls n : Nat) (strand : Option Nat) : State :=
  let units := tileCoef.getD cls 0 * n
  let s := match strand with
    | some k => s.modStrand t k (fun st => { st with echg := min (st.echg + units) (2 ^ 48 - 1) })
    | none => s
  if s.houseClass t cls then s.meterHouse t units else s.meterCtx t units

/-- R104: the home die of a context: its partition's lead die, die 4 for context 0. -/
def State.homeDie (s : State) (c : Nat) : Nat := if c = 0 then 4 else (s.part (s.ctx c).part).lead

/-- R103, R104: what a meter of die d sends its account unit for a context: it arrives there behind what came before where the die is the
context's home, and joins the accumulator kept for its home elsewhere. -/
def State.toAccount (s : State) (d c : Nat) (amt : Int) : State :=
  if s.homeDie c = d then s.modDie d (fun x => { x with arrivals := x.arrivals ++ [(c, -amt)] })
  else s.modDie d (fun x => { x with accounts := x.accounts.set c (x.accounts.get 0 c + amt) })

/-- R102, R103, R106: n events of an uncore block of die d, charged to the context its packet carries. -/
def State.uncore (s : State) (d ctx : Nat) (ev : Uncore) (n : Nat) (dom : Nat) : State :=
  let units := ev.coef * n
  let f := (s.ctx ctx).factor dom (s.scaleOf dom)
  (s.toAccount d ctx (units * f : Nat)).windowAdd dom ctx units (units * f)

/-- Distance of two naturals. -/
def absDiff (a b : Nat) : Nat := (a - b) + (b - a)

/-- R13, R15, R102: mesh hops between two stops along rows and columns (log 7). -/
def meshHops (t u : Nat) : Nat := absDiff (meshStop t).1 (meshStop u).1 + absDiff (meshStop t).2 (meshStop u).2

/-- R13: bridges crossed between two dies. -/
def bridgeHops (d e : Nat) : Nat := absDiff (d / 3) (e / 3) + absDiff (d % 3) (e % 3)

/-- Of the stops a path along one line leaves on its way from a to b, those on the i-th die of the line. -/
def hopsOn (a b i : Nat) : Nat :=
  let lo := if a ≤ b then a else b + 1
  let hi := if a ≤ b then b else a + 1
  min hi (8 * i + 8) - max lo (8 * i)

/-- R13, R15: mesh hops that the stops of die d make on the path between two stops: along the row first, then the column (log 7). -/
def pathHops (t u d : Nat) : Nat :=
  let a := meshStop t
  let b := meshStop u
  (if a.1 / 8 = d / 3 then hopsOn a.2 b.2 (d % 3) else 0) + (if b.2 / 8 = d % 3 then hopsOn a.1 b.1 (d / 3) else 0)

/-- R27: the die that a bridge between two adjacent dies belongs to: the one farther from die 4. -/
def bridgeOwner (d e : Nat) : Nat := if bridgeHops d 4 < bridgeHops e 4 then e else d

/-- R13: the dies a path between two dies visits, along the row first, then the column (log 7). -/
def diePath (d e : Nat) : List Nat :=
  let line (a b : Nat) : List Nat := if a ≤ b then (List.range (b - a + 1)).map (a + ·) else (List.range (a - b + 1)).map (a - ·)
  (line (d % 3) (e % 3)).map (fun j => 3 * (d / 3) + j) ++ ((line (d / 3) (e / 3)).map (fun i => 3 * i + e % 3)).drop 1

/-- R102: bridge crossings of k times 64 bytes between two dies, each at the die its bridge belongs to. -/
def State.chargeBridges (s : State) (ctx d e k : Nat) : State :=
  ((diePath d e).zip ((diePath d e).drop 1)).foldl (fun s p =>
    s.uncore (bridgeOwner p.1 p.2) ctx .bridge k (uncoreDomain (bridgeOwner p.1 p.2))) s

/-- R102, R106: the mesh hops and bridge crossings of n bytes on the way from die d to die e, given the hops that the stops of each
die make: each is charged at the die whose stop makes the hop or whose bridge is crossed. -/
def State.chargeHops (s : State) (ctx d e : Nat) (hops : Nat → Nat) (bytes : Nat) : State :=
  let k := (bytes + 63) / 64
  ((diePath d e).foldl (fun s x => s.uncore x ctx .hop (hops x * k) (uncoreDomain x)) s).chargeBridges ctx d e k

/-- R102, R106: the mesh hops and bridge crossings of n bytes between two stops. -/
def State.chargePath (s : State) (ctx t u bytes : Nat) : State := s.chargeHops ctx (tileDie t) (tileDie u) (pathHops t u) bytes

/-! ## Messages (R81-R86) -/

/-- R102: n bytes of a message or of RDMA data sent or received at the host port, charged to a context. -/
def State.frame (s : State) (c n : Nat) : State := s.uncore 4 c .hostFrame ((Config.frameBytes n + 63) / 64) hostDomain

/-- A message of the device on an endpoint, with the next sequence number of its direction (R81). What becomes of an event or a page
request for an endpoint that has no key is not said: it is sent, sealed under an empty key (DESIGN CHOICE, log 111). -/
def State.send (s : State) (ep ty rid : Nat) (body : List Byte) : State :=
  let s := s.frame ep (48 + body.length)
  let e := s.pkg.endpoints.get {} ep
  s.modPkg (fun p => { p with
    endpoints := p.endpoints.set ep { e with sentSeq := e.sentSeq + 1 },
    sent := p.sent ++ [{ ep, ty, rid, seq := e.sentSeq + 1, body, key := e.key.getD [] }] })

/-- R85: an event on an endpoint: event sequence number, context, six zero bytes, body. -/
def State.event (s : State) (ep ty ctx : Nat) (body : List Byte) : State :=
  let e := s.pkg.endpoints.get {} ep
  let s := s.modPkg (fun p => { p with endpoints := p.endpoints.set ep { e with events := e.events + 1 } })
  s.send ep ty 0 (leBytes 8 (e.events + 1) ++ leBytes 2 ctx ++ leBytes 6 0 ++ body)

/-- Two's-complement number of a signed amount in n bytes. -/
def leInt (n : Nat) (i : Int) : List Byte := leBytes n (intBits (8 * n) i)

/-- R104: a balance in whole nanojoules, rounded toward minus infinity. -/
def wholeNJ (b : Int) : Int := b / (16000 * 2 ^ 14)

/-! ## Taking an exception (R378-R383, R391) -/

/-- R91, R386: a fatal cause of a context. A running context is to be stopped and enters FAULTED when the sequence ends; one
that is not running enters FAULTED at once, and its fault event goes to both endpoints (R391). The first cause stands. -/
def State.faultBody (r : FaultRec) : List Byte :=
  leBytes 1 r.cause ++ leBytes 1 r.strand ++ leBytes 2 r.tile ++ leBytes 4 r.trappc.toNat ++ leBytes 8 r.trapv.toNat
    ++ leBytes 8 r.va ++ leBytes 1 r.stream ++ List.replicate 39 0

/-- R391: the fault event of kind 0, to the context's endpoint and to endpoint 0. -/
def State.sendFault (s : State) (c : Nat) (r : FaultRec) : State :=
  let body := leBytes 8 0 ++ State.faultBody r
  (s.event c 0x4004 c body).event 0 0x4004 c body

/-- R378, R386: a fatal cause. -/
def State.fatal (s : State) (c : Nat) (r : FaultRec) : State :=
  let x := s.ctx c
  let keep := x.fault.getD r
  match x.state with
  | .running => s.modCtx c (fun x => { x with
      fault := some keep, stopTo := some .faulted, stopCause := if x.stopTo = some .faulted then x.stopCause else keep.cause })
  | .faulted => s
  | _ =>
    if c = 0 then s.modCtx c (fun x => { x with fault := some keep, stopTo := some .faulted })
    else (s.modCtx c (fun x => { x with fault := some keep, state := .faulted, recordDue := true })).sendFault c keep

/-- R109, R160: a preload held for the pipeline a tile serves is discarded when its task faults; its charge goes to the house
account. -/
def State.dropPreload (s : State) (t : Nat) : State :=
  let u := s.tile t
  match u.preload, u.stage with
  | some p, some (slot, _) =>
    if p.ctx = u.ctx ∧ p.slot = slot then
      (s.modTile t (fun u => { u with preload := none })).meterHouse t p.units
    else s
  | _, _ => s

/-- R378: a fatal cause raised by strand n of tile t; its core issues nothing more. -/
def State.fatalAt (s : State) (t n code : Nat) (info : Word) (pc : BitVec 32) : State :=
  ((s.modTile t (fun u => { u with stopping := true })).dropPreload t).fatal (s.tile t).ctx
    { cause := code, strand := n, tile := t, trappc := pc, trapv := info }

/-- R380: a cause of 0x01-0x39 enters the context's handler; with no handler it is fatal as NOHANDLER, and in handler state
as DOUBLE (R382). -/
def State.takeTrap (s : State) (t n code : Nat) (info : Word) (pc : BitVec 32) : State :=
  let st := s.strand t n
  if st.handler then s.fatalAt t n 0x42 (w64 code) pc
  else if (s.ctx (s.tile t).ctx).handler = 0 then s.fatalAt t n 0x43 (w64 code) pc
  else
    (if code < 0x38 then s.dropPreload t else s).modStrand t n (fun st => { st with
      trapc := BitVec.ofNat 8 code, trapv := info, trappc := pc, handler := true, pc := 0, prefetch := [],
      fetched := none, stall := [], gbarH := none })

/-- R214: the return from a handler: PC from TRAPPC, CSB-relative fetch, prefetch discarded. -/
def Strand.tret (st : Strand) : Strand := { st with handler := false, pc := st.trappc, prefetch := [], fetched := none }

/-- R383, R228, R231, R234: a cause that falls due between bundles is held pending until a bundle boundary takes it. The
first of one kind decides TRAPV. For a strand with no task it is fatal as ORPHAN, and a BUDGET is dropped. -/
def State.postCause (s : State) (t n code : Nat) (info : Word) : State :=
  let st := s.strand t n
  if st.state = .idle then
    if code = 0x30 then s else s.fatalAt t n 0x46 info st.pc
  else if st.pending.any (fun c => c.code == code) then s
  else s.modStrand t n (fun st => { st with pending := st.pending ++ [{ code, info }] })

/-- R383: the pending cause to take first: DEADLOCK, POISON 0x22, PENDREAD, BUDGET. -/
def firstCause (l : List Cause) : Option Cause :=
  [0x20, 0x22, 0x23, 0x30].findSome? (fun k => l.find? (fun c => c.code == k))

/-- R379: TRAPV of causes 0x11 to 0x15. -/
def memInfo (reason : Nat) (a : Access) (va : Nat) : Word := w64 (reason * 2 ^ 60 + a.code * 2 ^ 57 + va % 2 ^ 57)

end Sys2Proof.Machine
end

