-- ==== Sys2Proof/Machine/Tokens.lean ====
section
/-! DEFINITION. Endpoints and arcs (R176, R216-R218), emission over routes (R181), and the bindings of stream-bound registers
(R183, R205-R208). -/

namespace Sys2Proof.Machine

/-- R176: endpoint of stream port n. -/
def spEnd (n : Nat) : Nat := 0x60 + n
/-- R176: endpoint of register n in the fabric. -/
def regEnd (n : Nat) : Nat := 0x70 + n
/-- The inlet of a register bound to stream port n (R183). -/
def inletEnd (n : Nat) : Nat := 0x80 + n
/-- R176: endpoint of input k of cell c. -/
def cellIn (c k : Nat) : Nat := 4 * c + k
/-- R176: endpoint of output k of cell c. -/
def cellOut (c k : Nat) : Nat := 0x40 + 2 * c + k

/-- The image's routes. -/
def Tile.routes (t : Tile) : List Route := (t.image.map (fun i => i.routes)).getD []

/-- Is a stream port bound to an s register of some strand (R208)? -/
def Tile.portBound (t : Tile) (n : Nat) : Bool :=
  t.strands.any (fun p => p.2.s.any (fun q => q.2.target == .port n))

/-- Destinations of every route from an endpoint, in image order; a bound port also leads to its register (R183). -/
def Tile.dests (t : Tile) (src : Nat) : List Nat :=
  (t.routes.filter (fun r => r.src == src)).map (fun r => r.dst)
    ++ (if decide (0x60 ≤ src) && decide (src < 0x70) && t.portBound (src - 0x60) then [inletEnd (src - 0x60)] else [])

/-- Does the arc into a destination hold a token? -/
def Tile.arcFull (t : Tile) (dst : Nat) : Bool := (t.arcs.find? (fun p => p.1 == dst)).isSome

/-- The token on the arc into a destination. -/
def Tile.arc (t : Tile) (dst : Nat) : Option Token := (t.arcs.find? (fun p => p.1 == dst)).map (fun p => p.2)

/-- R218: the token on an arc that a reader sees in fc f. -/
def Tile.arcAt (t : Tile) (dst f : Nat) : Option Token :=
  match t.arc dst with
  | some k => if k.since ≤ f then some k else none
  | none => none

/-- The token of an arc consumed. An EOS consumed at an endpoint of the fabric is accepted there (R227). -/
def Tile.consume (t : Tile) (dst : Nat) : Tile :=
  let eos := match t.arc dst with
    | some k => k.kind == .eos
    | none => false
  { t with arcs := t.arcs.erase dst,
           eosIn := if eos && decide (0x60 ≤ dst) then dst :: t.eosIn else t.eosIn }

/-- R218: a token placed on the arc into a destination; it stands from the fc after. -/
def Tile.place (t : Tile) (dst f : Nat) (k : Token) : Tile := { t with arcs := t.arcs.set dst { k with since := f + 1 } }

/-- R181: a token offered to the routes from an endpoint, one after another: the first whose arc is full keeps it waiting. -/
def Tile.offer (t : Tile) (src f owner : Nat) (k : Token) (dsts : List Nat) : Tile :=
  let free := dsts.takeWhile (fun d => !t.arcFull d)
  let left := dsts.dropWhile (fun d => !t.arcFull d)
  let t := free.foldl (fun u d => u.place d f k) t
  if left.isEmpty then
    { t with emitting := t.emitting.erase src,
             eosOut := if k.kind == .eos then src :: t.eosOut else t.eosOut }
  else { t with emitting := t.emitting.set src { tok := k, left, owner } }

/-- Is an endpoint still placing its last token? -/
def Tile.emits (t : Tile) (src : Nat) : Bool := (t.emitting.find? (fun p => p.1 == src)).isSome

/-- Tokens that wait at endpoints offered again, in ascending endpoint. -/
def Tile.pump (t : Tile) (f : Nat) : Tile :=
  t.emitting.foldl (fun u p => u.offer p.1 f p.2.owner p.2.tok p.2.left) t

/-- R113: the strand whose round is running, to which the fabric's charges go. -/
def Tile.roundStrand (t : Tile) : Option Nat := if t.fstat.run then some t.fstat.rstr else none

/-- R181, R217: `emit` by a stream port, for the command or multicast of a place in the issue order: frame tag 0; class 20 for each
route. -/
def State.emitFrom (s : State) (t src owner : Nat) (k : Token) : State :=
  let ds := (s.tile t).dests src
  let n := ((s.tile t).routes.filter (fun r => r.src == src)).length
  let s := s.charge t 20 n (s.tile t).roundStrand
  s.modTile t (fun u => u.offer src (s.fcOf t) owner { k with frame := 0 } ds)

/-- R183: the endpoint a binding reads at. -/
def Binding.readEnd (b : Binding) (sreg : Nat) : Option Nat :=
  match b.target with
  | .unbound => none
  | .port n => some (inletEnd n)
  | .fabric => some (regEnd sreg)

/-- R183, R216: the destinations a write through a binding of strand k goes to: the port, or the routes from the register's endpoint,
which the fabric joins to the registers of the strand whose round runs; while none of the strand's runs there is no arc (log 12). -/
def Tile.writeDests (t : Tile) (k : Nat) (b : Binding) (sreg : Nat) : List Nat :=
  match b.target with
  | .unbound => []
  | .port n => [spEnd n]
  | .fabric => if t.fstat.run ∧ t.fstat.rstr = k then t.dests (regEnd sreg) else []

/-- Binding of register n of a strand. -/
def Strand.binding (st : Strand) (n : Nat) : Binding := st.s.get {} n

/-- R208: the round whose register endpoints a fabric binding reads is the strand's own. -/
def Tile.ownRound (t : Tile) (n : Nat) : Bool := t.fstat.rstr == n

/-- R205, R206, R227: the token at the head of a binding: an EOS accepted there, or the one on its arc. -/
def State.head (s : State) (t n sreg : Nat) : Option Token :=
  let u := s.tile t
  let b := (u.strand n).binding sreg
  match b.eos with
  | some k => some k
  | none => match b.readEnd sreg with
    | none => none
    | some e => if b.target = .fabric ∧ !u.ownRound n then none else u.arcAt e (s.fcOf t)

/-- Lane k of a token, zero where it is not valid (R205). -/
def Token.laneOrZero (k : Token) (i : Nat) : Lane := if k.mask.getLsbD i then k.lanes.getD i 0 else 0

/-- R205: the word at a cursor. -/
def Token.wordAt (k : Token) (c : Nat) : Word := k.laneOrZero (2 * c + 1) ++ k.laneOrZero (2 * c)

/-- R207: two lanes of the outgoing token written and marked valid. -/
def Token.putWord (k : Token) (c : Nat) (w : Word) : Token :=
  { k with lanes := (k.lanes.set (2 * c) (w.extractLsb' 0 32)).set (2 * c + 1) (w.extractLsb' 32 32),
           mask := k.mask ||| (3#16 <<< (2 * c)) }

/-- Binding n of strand k of a tile changed. -/
def Tile.modBinding (t : Tile) (k n : Nat) (f : Binding → Binding) : Tile :=
  t.modStrand k (fun st => { st with s := st.s.set n (f (st.binding n)) })

/-- R227: does the EOS on the arc into register n of the round's strand reach the head of its binding in fc f? -/
def Tile.eosAtHead (t : Tile) (f n : Nat) : Option Token :=
  let b := (t.strand t.fstat.rstr).binding n
  if t.fstat.run ∧ b.target = .fabric ∧ b.eos = none then (t.arcAt (regEnd n) f).filter (fun k => k.kind == .eos) else none

/-- R227: each EOS that has reached the head of a binding leaves its arc, accepted. -/
def Tile.acceptEnds (t : Tile) (f : Nat) : Tile :=
  (List.range 8).foldl (fun (u : Tile) n => match u.eosAtHead f n with
    | some k => (u.consume (regEnd n)).modBinding u.fstat.rstr n (fun b => { b with eos := some k })
    | none => u) t

/-- May a token be sent through a binding: is every arc it goes to free? -/
def Tile.canSend (t : Tile) (k : Nat) (b : Binding) (sreg : Nat) : Bool := (t.writeDests k b sreg).all (fun d => !t.arcFull d)

/-- The outgoing token of a binding sent (R207, R208). -/
def State.sendPart (s : State) (t k n : Nat) : State :=
  let u := s.tile t
  let b := (u.strand k).binding n
  let f := s.fcOf t
  let tok := { b.part with kind := .data, past := unionNat b.part.past (u.strand k).past }
  let s := if b.target = .fabric then s.charge t 20 (u.writeDests k b n).length u.roundStrand else s
  s.modTile t (fun u =>
    ((u.writeDests k b n).foldl (fun v d => v.place d f tok) u).modBinding k n (fun b => { b with part := {}, wcur := 0 }))

/-- R208: what SBIND does with an old binding: a partly written token is sent, a partly read head token is consumed, and
the register is left unbound. -/
def State.unbind (s : State) (t k n : Nat) : State :=
  let b := (s.strand t k).binding n
  let s := if b.wcur = 0 then s else s.sendPart t k n
  let s := if b.rcur = 0 then s
    else match b.readEnd n with
      | some e => s.modTile t (fun u => u.consume e)
      | none => s
  s.modTile t (fun u => u.modBinding k n (fun _ => {}))

/-- R208: may the old binding be undone now? A partly written token waits for its arcs. -/
def Tile.canUnbind (t : Tile) (k n : Nat) : Bool :=
  let b := (t.strand k).binding n
  b.wcur == 0 || t.canSend k b n

/-- R208: the register of the tile that holds a port, if any. -/
def Tile.portHolder (t : Tile) (p : Nat) : Option (Nat × Nat) :=
  t.strands.findSome? (fun q => (q.2.s.find? (fun r => r.2.target == .port p)).map (fun r => (q.1, r.1)))

/-- R211: every binding of a strand undone as if SBIND to nothing were applied. -/
def State.unbindAll (s : State) (t k : Nat) : State := (List.range 8).foldl (fun s n => s.unbind t k n) s

/-- R211: can every partial outgoing token of a strand be sent? -/
def Tile.canUnbindAll (t : Tile) (k : Nat) : Bool := (List.range 8).all (fun n => t.canUnbind k n)

end Sys2Proof.Machine
end

