-- ==== Sys2Proof/Machine/Operands.lean ====
section
/-! DEFINITION. Operand forms: immediates and addresses (R192, R201), integer results with corners (R193-R195), widths and
atomic results (R202, R204), pattern registers and element addresses (R293-R297), bitwise and pure. -/

namespace Sys2Proof.Machine

/-- R192: a sign-extended immediate. -/
def sext32 (imm : Imm) : Word := imm.signExtend 64
/-- R201: ea := xa + sext(imm32), modulo 2^64. -/
def effAddr (a : Word) (k : Imm) : Word := a + sext32 k
/-- R133: bits [63:57] all equal bit 56. -/
def canonical (va : Word) : Bool := (va.setWidth 57).signExtend 64 == va
/-- R201: the cell window. -/
def inCellWindow (va : Word) : Bool := decide (0xFFFFFFFFFFF00000 ≤ va.toNat)
/-- One bit as a word. -/
def ofBool64 (b : Bool) : Word := if b then 1 else 0

/-- R194: DIV, truncating toward zero; -1 for a zero divisor. -/
def divS (a b : Word) : Word := if b = 0 then -1 else BitVec.ofInt 64 (a.toInt.tdiv b.toInt)
/-- R194: REM, with the sign of the dividend; the dividend for a zero divisor. -/
def remS (a b : Word) : Word := if b = 0 then a else BitVec.ofInt 64 (a.toInt.tmod b.toInt)
/-- R194: DIVU. -/
def divU (a b : Word) : Word := if b = 0 then -1 else w64 (a.toNat / b.toNat)
/-- R194: REMU. -/
def remU (a b : Word) : Word := if b = 0 then a else w64 (a.toNat % b.toNat)
/-- R193: high 64 bits of the signed product. -/
def mulHi (a b : Word) : Word := BitVec.ofInt 64 ((a.toInt * b.toInt) / 2 ^ 64)
/-- R193: high 64 bits of the unsigned product. -/
def mulHiU (a b : Word) : Word := w64 (a.toNat * b.toNat / 2 ^ 64)
/-- Zero bits above the highest set bit of an n-bit value below 2^n. -/
def leadZeros (n v : Nat) : Nat := n - bitLen v
/-- Zero bits below the lowest set bit, counting at most n. -/
def trailZeros : Nat → Nat → Nat
  | 0, _ => 0
  | n + 1, v => if v % 2 = 1 then 0 else 1 + trailZeros n (v / 2)
/-- Number of set bits among the low n. -/
def popCount : Nat → Nat → Nat
  | 0, _ => 0
  | n + 1, v => v % 2 + popCount n (v / 2)

/-- R195: end of the field, exclusive, clipped at bit 64. -/
def bfEnd (off w : Nat) : Nat := min (off + w) 64
/-- R195: BFX. -/
def bfxVal (a : Word) (off w : Nat) : Word :=
  if w = 0 ∨ 64 ≤ off then 0 else (a.extractLsb' off (bfEnd off w - off)).setWidth 64
/-- R195: BFXS. -/
def bfxsVal (a : Word) (off w : Nat) : Word :=
  if w = 0 ∨ 64 ≤ off then 0 else (a.extractLsb' off (bfEnd off w - off)).signExtend 64
/-- R195: BFI into old. -/
def bfiVal (old a : Word) (off w : Nat) : Word :=
  if w = 0 ∨ 64 ≤ off then old
  else
    let n := bfEnd off w - off
    let m : Word := w64 (2 ^ n - 1) <<< off
    (old &&& ~~~m) ||| ((a <<< off) &&& m)

/-- R168: access width in bytes of an LD width code. -/
def ldWidth (t : BitVec 3) : Nat := [1, 2, 4, 8, 1, 2, 4, 8].getD t.toNat 8
/-- R202: does the width code sign-extend? -/
def ldSigned (t : BitVec 3) : Bool := decide (t.toNat < 3)
/-- R202: a loaded value extended to 64 bits. -/
def extendLoad (width : Nat) (signed : Bool) (v : Nat) : Word :=
  if signed then (BitVec.ofNat (8 * width) v).signExtend 64 else w64 (v % 2 ^ (8 * width))
/-- R204: width in bytes. -/
def wideBytes (wide : Bool) : Nat := if wide then 8 else 4
/-- R204: the new value of an ATOM on n bits. -/
def atomNew (op n m v : Nat) : Nat :=
  let sm := (BitVec.ofNat n m).toInt
  let sv := (BitVec.ofNat n v).toInt
  match op with
  | 0 => (m + v) % 2 ^ n
  | 1 => if sv < sm then v else m
  | 2 => if sm < sv then v else m
  | 3 => min m v
  | 4 => max m v
  | 5 => m &&& v
  | 6 => m ||| v
  | 7 => m ^^^ v
  | _ => v

/-- Little-endian bytes of the low n bytes of a word. -/
def storeBytes (n : Nat) (v : Word) : List Byte := leBytes n (v.toNat % 2 ^ (8 * n))

/-! ## Pattern registers (R293) -/

/-- A field of a pattern register. -/
def Pattern.fld (p : Pattern) (lo n : Nat) : BitVec n := p.extractLsb' lo n
/-- A field of a pattern register replaced. -/
def Pattern.put (p : Pattern) (lo n : Nat) (v : BitVec n) : Pattern :=
  let m : BitVec 1024 := (BitVec.ofNat 1024 (2 ^ n - 1)) <<< lo
  (p &&& ~~~m) ||| ((v.setWidth 1024) <<< lo)
/-- BASE. -/
def Pattern.base (p : Pattern) : Word := p.fld 0 64
/-- MFMT. -/
def Pattern.mfmt (p : Pattern) : Nat := (p.fld 64 4).toNat
/-- PFMT. -/
def Pattern.pfmt (p : Pattern) : Nat := (p.fld 68 4).toNat
/-- LPT. -/
def Pattern.lpt (p : Pattern) : Nat := (p.fld 72 5).toNat
/-- SPACE. -/
def Pattern.space (p : Pattern) : Nat := (p.fld 77 2).toNat
/-- FPU. -/
def Pattern.fpu (p : Pattern) : Bool := p.fld 79 1 == 1
/-- NDM. -/
def Pattern.ndm (p : Pattern) : Nat := (p.fld 80 2).toNat
/-- OCLS. -/
def Pattern.ocls (p : Pattern) : Nat := (p.fld 82 2).toNat
/-- PAD. -/
def Pattern.pad (p : Pattern) : Lane := p.fld 96 32
/-- FPLO. -/
def Pattern.fplo (p : Pattern) : Word := p.fld 128 64
/-- FPHI. -/
def Pattern.fphi (p : Pattern) : Word := p.fld 192 64
/-- START of dimension i. -/
def Pattern.start (p : Pattern) (i : Nat) : Int := (p.fld (256 + 192 * i) 32).toInt
/-- EXT of dimension i. -/
def Pattern.ext (p : Pattern) (i : Nat) : Nat := (p.fld (256 + 192 * i + 32) 32).toNat
/-- STRIDE of dimension i. -/
def Pattern.stride (p : Pattern) (i : Nat) : Int := (p.fld (256 + 192 * i + 64) 40).toInt
/-- LO of dimension i. -/
def Pattern.lo (p : Pattern) (i : Nat) : Int := (p.fld (256 + 192 * i + 128) 32).toInt
/-- HI of dimension i. -/
def Pattern.hi (p : Pattern) (i : Nat) : Int := (p.fld (256 + 192 * i + 160) 32).toInt

/-- R294: format codes a pattern may name. -/
def patFmt (c : Nat) : Option Fmt :=
  if c ≤ 5 ∨ (8 ≤ c ∧ c ≤ 14) then Fmt.ofCode c else none

/-- R294: the admitted pairs MFMT, PFMT. -/
def pairOk (toFabric : Bool) (m p : Fmt) : Bool :=
  m == p ||
  (if toFabric then
    ((m == .bf16 || m == .f16 || m == .e4m3 || m == .e5m2) && p == .f32) || ((m == .i8 || m == .i16) && p == .i32)
      || ((m == .n8 || m == .n16) && p == .n32)
   else
    (p == .f32 && (m == .bf16 || m == .f16)) || (p == .i32 && (m == .i8 || m == .i16))
      || (p == .n32 && (m == .n8 || m == .n16)))

/-- R294: the checks at issue that give BADPAT. -/
def Pattern.ok (p : Pattern) (toFabric : Bool) : Bool :=
  (match patFmt p.mfmt, patFmt p.pfmt with
    | some m, some f => pairOk toFabric m f
    | _, _ => false)
  && decide (1 ≤ p.lpt) && decide (p.lpt ≤ 16) && decide (p.space ≤ 1) && decide (p.ocls ≤ 2)
  && !(p.space == 1 && p.ocls != 0) && (p.fpu || decide (p.fplo.toNat ≤ p.fphi.toNat))

/-- MFMT's format. -/
def Pattern.mem (p : Pattern) : Fmt := Fmt.ofHeader p.mfmt
/-- PFMT's format. -/
def Pattern.portFmt (p : Pattern) : Fmt := Fmt.ofHeader p.pfmt
/-- Width of an element in memory in bytes. -/
def Pattern.bytes (p : Pattern) : Nat := (p.mem.width + 7) / 8

/-- R295: number of elements of dimensions lo to NDM. -/
def Pattern.countFrom (p : Pattern) (lo : Nat) : Nat :=
  ((List.range 4).filter (fun i => decide (lo ≤ i) && decide (i ≤ p.ndm))).foldl (fun n i => n * p.ext i) 1

/-- R295, R296: coordinates of element n; dimension 0 takes `x0` where an index gives it (R297). -/
def Pattern.coords (p : Pattern) (n : Nat) (x0 : Option Int) : List Int :=
  match x0 with
  | none =>
    ((List.range (p.ndm + 1)).foldl (fun (acc : List Int × Nat) i =>
      let e := p.ext i
      (acc.1 ++ [p.start i + ((acc.2 % (if e = 0 then 1 else e) : Nat) : Int)], acc.2 / (if e = 0 then 1 else e)))
      ([], n)).1
  | some x =>
    ((List.range (p.ndm + 1)).foldl (fun (acc : List Int × Nat) i =>
      if i = 0 then (acc.1 ++ [p.start 0 + x], acc.2)
      else
        let e := p.ext i
        (acc.1 ++ [p.start i + ((acc.2 % (if e = 0 then 1 else e) : Nat) : Int)], acc.2 / (if e = 0 then 1 else e)))
      ([], n)).1

/-- What R296 makes of an element: padding, a fault code of R307, or a byte address. -/
inductive ElemAddr
  | pad
  | fault (code : Nat)
  | at (a : Nat)
  deriving DecidableEq, Repr

/-- R296: the address of the element with these coordinates over a base. -/
def Pattern.addr (p : Pattern) (base : Word) (cs : List Int) : ElemAddr :=
  let dims := List.range cs.length
  if dims.any (fun i => decide (cs.getD i 0 < p.lo i) || decide (p.hi i ≤ cs.getD i 0)) then .pad
  else
    let a : Int := dims.foldl (fun acc i => acc + cs.getD i 0 * p.stride i) base.toInt
    let w : Int := p.bytes
    if p.space = 0 ∧ (a < -(2 ^ 56) ∨ 2 ^ 56 ≤ a) then .fault 9
    else if p.space = 1 ∧ (a < 0 ∨ 0xC0000 ≤ a) then .fault 11
    else if a % w ≠ 0 then .fault 10
    else
      let u : Int := if a < 0 then a + 2 ^ 64 else a
      if !p.fpu && (decide (u < (p.fplo.toNat : Int)) || decide ((p.fphi.toNat : Int) < u + w)) then .fault 13
      else .at u.toNat

/-- R294: an element's bits in memory as the port's bits. -/
def widen (p : Pattern) (v : Nat) : Nat :=
  if p.mem = p.portFmt then v else (convertValue p.portFmt p.mem v .rne false).1

/-- R60, R294, R306: the flags of that conversion: NV for a NaN it consumes. -/
def widenFlags (p : Pattern) (v : Nat) : Flags :=
  if p.mem = p.portFmt then .none else (convertValue p.portFmt p.mem v .rne false).2

/-- R294: a port value's bits as memory bits, with the flags of a rounding. -/
def narrow (p : Pattern) (v : Nat) (sat : Bool) : Nat × Flags :=
  if p.mem = p.portFmt then (v, .none)
  else if p.portFmt = .f32 then convertValue p.mem .f32 v .rne sat
  else (v % 2 ^ p.mem.width, .none)

end Sys2Proof.Machine
end

