-- ==== Sys2Proof/Machine/Xlate.lean ====
section
/-! DEFINITION. Translation: page tables and their leaves (R136-R139), rights (R140), placement (R141, R142), the translation
structures (R143), misses and walks (R144, R147, R148), page requests (R149). -/

namespace Sys2Proof.Machine

/-- R12, R134: does a physical byte address name memory a table may stand in (R138)? -/
def tableAddrOk (o : Config.OrderingCode) (pa : Nat) : Bool :=
  let die := pa / 2 ^ 44 % 16
  let off := pa % 2 ^ 44
  match pa / 2 ^ 48 % 16 with
  | 0 => decide (die ≤ 8) && die != 4 && decide (off < Config.hbmCapacity o die)
  | 1 => decide (die ≤ 8) && decide (off < 2 ^ 28) && decide (off % 2 ^ 22 < 0x300000)
  | _ => false

/-- Fields of an entry (R137). -/
def pteValid (e : Word) : Bool := e.getLsbD 0
/-- KIND. -/
def pteKind (e : Word) : Nat := (e.extractLsb' 1 2).toNat
/-- C. -/
def pteC (e : Word) : Bool := e.getLsbD 57
/-- M. -/
def pteM (e : Word) : Bool := e.getLsbD 56
/-- HOME. -/
def pteHome (e : Word) : Nat := (e.extractLsb' 52 4).toNat
/-- PLACE. -/
def ptePlace (e : Word) : Nat := (e.extractLsb' 10 2).toNat
/-- FRAME as a physical address with its low 12 bits zero. -/
def pteFrame (e : Word) : Nat := (e.extractLsb' 12 40).toNat * 4096

/-- R136: log size of a level's page with C = 0. -/
def levelBits (level : Nat) : Nat := 12 + 9 * level
/-- R136: index of a level in a virtual address. -/
def levelIndex (va level : Nat) : Nat := va / 2 ^ levelBits level % 512

/-- R138: a well-formed table entry at a level. -/
def tableOk (o : Config.OrderingCode) (level : Nat) (e : Word) : Bool :=
  level != 0 && e.extractLsb' 52 12 == 0 && e.extractLsb' 3 9 == 0 && tableAddrOk o (pteFrame e)

/-- R138, R139, R372: a well-formed leaf at a level, found at index idx. -/
def leafOk (level idx : Nat) (e : Word) : Bool :=
  let f := pteFrame e
  let region := f / 2 ^ 48 % 16
  let p := levelBits level
  level != 4 && e.extractLsb' 58 6 == 0 && !e.getLsbD 9 && f % 2 ^ p == 0
    && (region == 0 || region == 1 || decide (8 ≤ region))
    && (decide (2 ≤ region) || f / 2 ^ 44 % 16 == 0)
    && !(decide (region < 8) && ptePlace e == 0 && decide (8 < pteHome e))
    && !(region == 1 && ptePlace e != 0) && !(decide (8 ≤ region) && ptePlace e != 0)
    && (!pteC e || f / 2 ^ p % 16 == idx % 16)

/-- What a walk ends in (R148): no valid leaf, a malformed entry, or a leaf with its level and its address. -/
inductive WalkEnd
  | noLeaf
  | bad
  | leaf (level addr : Nat) (e : Word)
  deriving DecidableEq, Repr

/-- R136-R139: the walk from a table at a level, entries read as performed at package scope (R144); `n` levels remain. -/
def walkFrom (s : State) (va : Nat) : Nat → Nat → WalkEnd
  | 0, _ => .noLeaf
  | level + 1, table =>
    if !tableAddrOk s.pkg.ordering table then .bad
    else
      let idx := levelIndex va level
      let addr := table + 8 * idx
      let e := s.pkgWord (addr / 8)
      if !pteValid e then .noLeaf
      else if pteKind e = 0 then
        if tableOk s.pkg.ordering level e then walkFrom s va level (pteFrame e) else .bad
      else if pteKind e = 1 then
        if !leafOk level idx e then .bad
        else if pteC e then
          let j := idx / 16 * 16 + (Config.contigPick va).toNat
          let e2 := s.pkgWord ((table + 8 * j) / 8)
          -- R139: the translation takes its frame and its attributes from any one of the 16
          if pteValid e2 && pteKind e2 == 1 && pteC e2 && leafOk level j e2 then .leaf level (table + 8 * j) e2
          else .leaf level addr e
        else .leaf level addr e
      else .bad

/-- The walk of a context's virtual address from its root (R90, R136). -/
def State.walk (s : State) (ctx va : Nat) : WalkEnd := walkFrom s va 5 (s.ctx ctx).root

/-- R144: the entries a walk from a table reads, each a walk step charged (R102); `n` levels remain. -/
def walkReads (s : State) (va : Nat) : Nat → Nat → Nat
  | 0, _ => 0
  | level + 1, table =>
    if !tableAddrOk s.pkg.ordering table then 0
    else
      let e := s.pkgWord ((table + 8 * levelIndex va level) / 8)
      if pteValid e && pteKind e == 0 && tableOk s.pkg.ordering level e then 1 + walkReads s va level (pteFrame e) else 1

/-- R136, R139: log size of the page a leaf at a level maps: 16 of the level's pages where C = 1. -/
def leafBits (level : Nat) (e : Word) : Nat := levelBits level + (if pteC e then 4 else 0)

/-- R140: the rights an access lacks: reason RIGHT or SUPER of R379. -/
def rightFault (e : Word) (a : Access) (super : Bool) : Option Nat :=
  let ok := match a with
    | .read => e.getLsbD 3
    | .write => e.getLsbD 4
    | .atomic => e.getLsbD 3 && e.getLsbD 4
    | .fetch => e.getLsbD 5
  if !ok then some 0 else if e.getLsbD 6 && !super then some 1 else none

/-- R141: XOR fold of a[43:12] in m-bit groups. -/
def xorFold (m : Nat) : Nat → Nat → Nat
  | 0, _ => 0
  | n + 1, a => (a % 2 ^ m) ^^^ xorFold m n (a / 2 ^ m)

/-- R142: the nearest die of a set in bridge hops, ties to the lower number. -/
def nearestDie (d : Nat) (l : List Nat) : Nat :=
  l.foldl (fun best e => if bridgeHops d e < bridgeHops d best then e else best) (l.headD 0)

/-- R16, R89: is octet o of die d one of a partition's? -/
def Partition.hasOctet (p : Partition) (d o : Nat) : Bool := p.octets.contains (8 * d + o)

/-- R141, R142, R372: the physical address of a virtual address through a leaf of size 2^p, for a requester on die d; or a
trap cause of R378 and its reason. `replica` says whether an access that a replica refuses is one. -/
def State.place (s : State) (ctx d va p : Nat) (e : Word) (atomic : Bool) : Except (Nat × Nat) Nat :=
  let part := s.part (s.ctx ctx).part
  let a := pteFrame e / 2 ^ p * 2 ^ p + va % 2 ^ p
  let region := a / 2 ^ 48 % 16
  let off := a % 2 ^ 44
  let at' (die : Nat) : Nat := a / 2 ^ 48 * 2 ^ 48 + die * 2 ^ 44 + off
  if 8 ≤ region then .ok a
  else if region = 1 then
    let die := pteHome e
    let bank := off / 2 ^ 22
    if 2 ^ 28 ≤ off ∨ 0x180000 ≤ off % 2 ^ 22 ∨ !part.hasOctet die (bank / 8) then .error (0x13, 4)
    else .ok (at' die)
  else
    let place := ptePlace e
    let home := pteHome e
    let set := if place = 0 then [home] else part.dies
    if place = 3 then .error (0x14, 0)
    else if set.isEmpty || set.contains 4 then .error (0x15, 0)
    else
      let m := min (Nat.log2 part.dies.length) 3
      let h := if m = 0 then 0 else xorFold m ((32 + m - 1) / m) (off / 4096)
      let die :=
        if place = 0 then home
        else if place = 1 then part.dies.getD h 0
        else if part.dies.contains d then d else nearestDie d part.dies
      if off < part.base ∨ part.base + part.length ≤ off ∨ !part.dies.contains die then .error (0x13, 4)
      else if place = 2 ∧ atomic then .error (0x13, 5)
      else .ok (at' die)

/-! ## Memory nodes -/

/-- R12, R17: the die and node of a physical address: an L2 bank 0-63, or 64 and up for a die's HBM stacks. -/
def nodeOf (o : Config.OrderingCode) (pa : Nat) : Nat × Nat :=
  let off := pa % 2 ^ 44
  if pa / 2 ^ 48 % 16 = 1 then (pa / 2 ^ 44 % 16, off / 2 ^ 22) else (pa / 2 ^ 44 % 16, 64 + off / (o.stackGiB * 2 ^ 30))

/-- R288: is a request a read? -/
def MemReq.reads (r : MemReq) : Bool := match r.op with
  | .load _ => true
  | _ => false

/-- R288: does a plain request that reached its node before stand there with a word in common with n bytes at an address, one of the two
to change it? An access of the device itself waits for it, so that the node keeps the order of arrival. -/
def State.nodeBusy (s : State) (pa n : Nat) (write : Bool) : Bool :=
  let (d, k) := nodeOf s.pkg.ordering pa
  ((s.die d).nodes.get [] k).any (fun r => r.seq.isNone && !r.linked && (write || !r.reads)
    && decide (pa / 8 ≤ r.pa / 8) && decide (r.pa / 8 ≤ (pa + n - 1) / 8))

/-- R419: n requests to the HBM of die d that die e issues, counted there; those of a walker to its tables are not (log 93). -/
def State.countReqs (s : State) (e d n : Nat) : State :=
  s.modDie e (fun x =>
    if d = e then { x with localReqs := (x.localReqs + n) % 2 ^ 64 } else { x with remoteReqs := (x.remoteReqs + n) % 2 ^ 64 })

/-- R102: the event at the memory node of an address. -/
def State.nodeCharge (s : State) (ctx pa : Nat) (write atomic : Bool) : State :=
  let (d, k) := nodeOf s.pkg.ordering pa
  if pa / 2 ^ 48 % 16 = 1 then
    s.uncore d ctx (if atomic then .l2Atomic else if write then .l2Write else .l2Read) 1 (uncoreDomain d)
  else s.uncore d ctx .hbm (if atomic then 2 else 1) (18 + firstStack d + (k - 64))

/-- R102, R419: that event for a request of die e, which is counted there where it goes to HBM. -/
def State.nodeEvent (s : State) (e ctx pa : Nat) (write atomic : Bool) : State :=
  let s := s.nodeCharge ctx pa write atomic
  if pa / 2 ^ 48 % 16 = 1 then s else s.countReqs e (nodeOf s.pkg.ordering pa).1 1

/-! ## The translation structures (R143) -/

/-- Does an entry hold a context's address for an access? A write through an entry filled with D clear walks again (R140). -/
def TlbEntry.hits (t : TlbEntry) (ctx va : Nat) (a : Access) : Bool :=
  t.ctx == ctx && decide (t.base ≤ va) && decide (va < t.base + 2 ^ t.size)
    && (t.dirty || a == .read || a == .fetch)

/-- Least-recently-used order: the entry to the front, the last dropped past n. -/
def lruPut (n : Nat) (l : List TlbEntry) (t : TlbEntry) : List TlbEntry :=
  (t :: l.filter (fun x => !(x.ctx == t.ctx && x.base == t.base && x.size == t.size))).take n

/-- The die a requester's translation is made on (R143, R429). A spill access of a queue (R290), which no rule places, goes to the TLB of
its partition's lead die, as the scheduler's accesses do, and through no micro-TLB (DESIGN CHOICE, log 112). -/
def State.reqDie (s : State) : Requester → Nat
  | .strand t _ | .fetcher t _ | .command t _ | .loader t | .saver t => tileDie t
  | .scheduler c => (s.part (s.ctx c).part).lead
  | .hostPort _ _ => 4
  | .spill c _ _ => (s.part (s.ctx c).part).lead
  | .ingress p => [0, 1, 2, 3, 5, 6, 7, 8].getD (p / 16) 0

/-- The tile whose micro-TLB a requester's misses fill: ports, strands and index fetch (R143). -/
def Requester.tile : Requester → Option Nat
  | .strand t _ | .fetcher t _ | .command t _ => some t
  | _ => none

/-- The tile whose micro-TLB serves a requester: those, and the dictionary copy, image load and preloads of a tile (R429), which fill
nothing there and count no miss (log 103). -/
def Requester.served : Requester → Option Nat
  | .loader t => some t
  | r => r.tile

/-- The stream port whose window entries serve a requester (R143). -/
def State.reqPort (s : State) : Requester → Option (Nat × Nat)
  | .command t i => (((s.tile t).cmds.find? (fun c => c.1 == i)).filter (fun c => match c.2.kind with
    -- R304: SCPY has no port
    | .scpy _ => false
    | _ => true)).map (fun c => (t, c.2.port))
  | _ => none

/-- R143: window entries of the port, replaced round-robin. -/
def fillWindow (s : State) (t port : Nat) (e : TlbEntry) : State :=
  s.modTile t (fun u =>
    let l := u.windows.get [] port
    let k := u.winRR.get 0 port
    let l' := if l.length < 4 then l ++ [e] else modNth l k (fun _ => e)
    { u with windows := u.windows.set port l', winRR := u.winRR.set port ((k + 1) % 4) })

/-- R143: each structure above the one that supplied a translation is filled. -/
def State.fillAbove (s : State) (who : Requester) (e : TlbEntry) : State :=
  let s := match who.tile with
    | some t => s.modTile t (fun u => { u with utlb := lruPut 64 u.utlb e })
    | none => s
  match s.reqPort who with
  | some (t, p) => fillWindow s t p e
  | none => s

/-- R143: a die TLB set of the 4,096, least recently used within it. -/
def State.fillDie (s : State) (d : Nat) (e : TlbEntry) : State :=
  let k := Config.dieTlbSet e.ctx e.base % 4096
  s.modDie d (fun x => { x with tlb := x.tlb.set k (lruPut 8 (x.tlb.get [] k) e) })

/-- The outcome of asking for a translation: a physical address, and whether its page is replicated. -/
inductive Xl
  | ok (s : State) (pa : Nat) (rep : Bool)
  | wait (s : State)
  | fault (s : State) (code reason : Nat)

/-- An entry of the die TLB for an address: the set depends on the page, whose size is unknown, so every set is asked. -/
def Die.tlbFind (d : Die) (ctx va : Nat) (a : Access) : Option TlbEntry :=
  d.tlb.findSome? (fun p => p.2.find? (fun t => t.hits ctx va a))

/-- R143: the translation a structure holds, with the structures above it filled and the lookups charged; a micro-TLB miss of a
bundle is charged once the bundle issues (R215). -/
def State.tlbLookup (s : State) (who : Requester) (ctx va : Nat) (a : Access) : State × Option TlbEntry :=
  match (match s.reqPort who with
      | some (t, p) => (AMap.get ([] : List TlbEntry) (s.tile t).windows p).find? (fun e => TlbEntry.hits e ctx va a)
      | none => none) with
  | some e => (s, some e)
  | none =>
    match (match who.served with
        | some t => (s.tile t).utlb.find? (fun e => TlbEntry.hits e ctx va a)
        | none => none) with
    | some e =>
      (s.fillAbove who e, some e)
    | none =>
      let s := match who with
        | .strand t n => s.modStrand t n (fun st => { st with missed := st.missed + 1 })
        | .fetcher t n => s.charge t 46 1 (some n)
        | .command t i => s.charge t 46 1 (((s.tile t).cmds.find? (fun (c : Nat × Cmd) => c.1 == i)).map (fun (c : Nat × Cmd) => c.2.strand))
        | _ => s
      let d := s.reqDie who
      let s := s.uncore d ctx .tlb 1 (uncoreDomain d)
      match (s.die d).tlbFind ctx va a with
      | some e => ((s.fillDie d e).fillAbove who e, some e)
      | none => (s, none)

/-- Is this outstanding translation the requester's for this page and access? -/
def Miss.isFor (m : Miss) (who : Requester) (ctx va : Nat) (a : Access) : Bool :=
  m.who == who && m.ctx == ctx && m.va == va / 4096 * 4096 && m.access == a

/-- R140-R142, R148: an access made through a translation held. -/
def State.use (s : State) (ctx d v : Nat) (e : TlbEntry) (a : Access) (super atomic : Bool) : Xl :=
  match rightFault e.leaf a super with
  | some r => .fault s 0x13 r
  | none =>
    match s.place ctx d v e.size e.leaf atomic with
    | .ok pa => .ok s pa (ptePlace e.leaf == 2 && decide (pa / 2 ^ 48 % 16 = 0))
    | .error (c, r) => .fault s c r

/-- R144: does a requester hold as many misses as it may: 4 for a stream port? -/
def State.missesFull (s : State) (who : Requester) : Bool :=
  match s.reqPort who with
  | some p => decide (4 ≤ ((s.die (s.reqDie who)).misses.filter (fun m => s.reqPort m.who == some p)).length)
  | none => false

/-- R140-R149: a translation asked for. A miss waits at the die's walkers until TLB_WALK answers it; a fault it met, or a
failed page request, is handed over once. -/
def State.translate (s : State) (who : Requester) (ctx : Nat) (va : Word) (a : Access) (super : Bool) (atomic : Bool) : Xl :=
  if !canonical va then .fault s 0x10 0
  else
    let v := va.toNat
    let d := s.reqDie who
    match (s.die d).misses.find? (fun m => m.isFor who ctx v a) with
    | some m =>
      match m.stand with
      | .fault code reason =>
        .fault (s.modDie d (fun x => { x with misses := x.misses.filter (fun m => !m.isFor who ctx v a) })) code reason
      | .failed _ =>
        .fault (s.modDie d (fun x => { x with misses := x.misses.filter (fun m => !m.isFor who ctx v a) })) 0x40 0
      | .ready =>
        -- R429: the walk's answer reaches a requester that has no structure of its own
        match (s.die d).tlbFind ctx v a with
        | some e => ((s.modDie d (fun x => { x with misses := x.misses.filter (fun m => !m.isFor who ctx v a) })).use ctx d v e a
            super atomic)
        | none => .wait (s.modDie d (fun x => { x with misses := x.misses.map (fun n =>
            if n.isFor who ctx v a then { n with stand := .walk } else n) }))
      | _ => .wait s
    | none =>
      match s.tlbLookup who ctx v a with
      | (s, some e) => s.use ctx d v e a super atomic
      | (s', none) =>
        if s.missesFull who then .wait s
        else .wait (s'.modDie d (fun x => { x with
          misses := x.misses ++ [{ who, ctx, va := v / 4096 * 4096, addr := v, access := a, stand := .walk }] }))

/-- R307: the stream code of a translation fault. -/
def streamCode (code reason : Nat) : Nat :=
  match code with
  | 0x10 => 9
  | 0x12 => 14
  | 0x14 => 15
  | 0x15 => 16
  | 0x40 => 8
  | _ => if reason = 4 then 17 else if reason = 5 then 18 else if reason = 2 then 11 else 19

/-- A write of the device itself, performed at package scope as it is made, within one aligned word (R97, R140). -/
def State.devWriteWord (s : State) (pa : Nat) (data : List Byte) : State :=
  let w := pa / 8
  let r : WriteRec := { id := s.nextId, die := 0, word := w, val := mergeBytes (s.nodeWord w) (pa % 8) data, past := [],
                        seen := List.range 9 }
  State.settle { s with nextId := s.nextId + 1, log := r :: s.log,
                        memBad := if data.length = 8 then s.memBad.filter (· != w) else s.memBad }

/-- R102, R419: the events of a 64-byte line on its way from the node of one replica to that of another, charged to the writer's context. -/
def State.chargeLine (s : State) (ctx d e pa : Nat) : State :=
  let (_, k) := nodeOf s.pkg.ordering pa
  ((s.chargePath ctx (64 * d + k % 64) (64 * e + k % 64) 64).uncore e ctx .hbm 1 (18 + firstStack e + (k - 64))).countReqs d e 1

/-- R340: the largest stamp among the writes of a causal past that are of account. -/
def State.stampOf (s : State) (past : List Nat) : Nat :=
  (s.log.filter (fun r => past.contains r.id)).foldl (fun n r => max n r.stamp) 0

/-- R340: a die's counter follows a stamp. -/
def State.followStamp (s : State) (d stamp : Nat) : State := s.modDie d (fun x => { x with lamport := max x.lamport stamp })

/-- R340, R341: the line of a write to a replicated page sent from its die's replica to every other one: the pair takes the next stamp
of the writer's die, past those of what causally precedes it (log 101), and the line is as that replica holds it after the write. The
replica that applies a write of another die follows its stamp. -/
def State.sendLine (s : State) (d ctx pa wid : Nat) (past : List Nat) : State :=
  let home := pa / 2 ^ 44 % 16
  let line := pa % 2 ^ 44 / 64
  let s := ((s.part (s.ctx ctx).part).dies.filter (· != home)).foldl (fun s e => s.chargeLine ctx home e pa) s
  let stamp := (max (s.die d).lamport (s.stampOf past) + 1) % 2 ^ 48
  let s := ((s.modDie d (fun x => { x with lamport := stamp })).followStamp home stamp).modDie home (fun x =>
    { x with stamps := x.stamps.set line (stamp, d) })
  let s := { s with log := s.log.map (fun (r : WriteRec) => if r.id = wid then { r with stamp } else r) }
  let bytes := (List.range 8).flatMap (fun i => leBytes 8 (s.nodeWord (pa / 64 * 8 + i)).toNat)
  let others := (s.part (s.ctx ctx).part).dies.filter (· != home)
  { s with lines := s.lines ++ others.map (fun e => { line, bytes, stamp, src := d, dst := e, wid, past }) }

/-- R341: a line at a replica: it stands if its pair is the larger. -/
def State.applyLine (s : State) (l : LineMsg) : State :=
  let x := s.die l.dst
  let s := { s with lines := s.lines.filter (fun m => !(m.wid == l.wid && m.dst == l.dst)) }
  let (st, sd) := x.stamps.get (0, 0) l.line
  let s := s.followStamp l.dst l.stamp
  if st < l.stamp ∨ (st = l.stamp ∧ sd < l.src) then
    let s := s.modDie l.dst (fun x => { x with stamps := x.stamps.set l.line (l.stamp, l.src) })
    let w := l.dst * 2 ^ 41 + 8 * l.line
    let recs : List WriteRec := (List.range 8).map (fun i =>
      { id := s.nextId + i, die := l.dst, word := w + i, val := w64 (leNat ((l.bytes.drop (8 * i)).take 8)),
        past := l.wid :: l.past, seen := [], line := true, stamp := l.stamp })
    State.settle { s with nextId := s.nextId + 8, log := recs ++ s.log,
                          memBad := s.memBad.filter (fun x => !(decide (w ≤ x) && decide (x < w + 8))) }
  else State.settle s

/-- R142, R341: bytes within one 64-byte line written by the device from die d, word by word; where the page is replicated the line
reaches the other replicas with it, so that the write is performed at package scope as it is made. -/
def State.devLine (s : State) (d ctx pa : Nat) (data : List Byte) (rep : Bool) : State :=
  let s := (List.range ((pa % 8 + data.length + 7) / 8)).foldl (fun s k =>
    let lo := 8 * k - pa % 8
    s.devWriteWord (pa + lo) ((data.drop lo).take (8 - (pa + lo) % 8))) s
  let w := s.nextId - 1
  if rep then
    let s := ((s.sendLine d ctx pa w []).lines.filter (fun l => l.wid == w)).foldl State.applyLine (s.sendLine d ctx pa w [])
    (List.range 9).foldl (fun (s : State) e => s.followStamp e (s.die d).lamport) s
  else s

/-- A run of bytes within one page written by the device from die d, line by line. -/
def State.devWrite (s : State) (d ctx pa : Nat) (data : List Byte) (rep : Bool) : State :=
  (List.range ((pa % 64 + data.length + 63) / 64)).foldl (fun s i =>
    let lo := 64 * i - pa % 64
    s.devLine d ctx (pa + lo) ((data.drop lo).take (64 - (pa + lo) % 64)) rep) s

/-- R149: the 24 bytes of a page request of context c. -/
def pageReqBytes (c gen : Nat) (r : PageReq) : List Byte :=
  leBytes 2 c ++ leBytes 2 0 ++ leBytes 4 gen ++ leBytes 8 r.va ++ leBytes 1 r.access.code ++ leBytes 3 0 ++ leBytes 4 r.rid

/-- R149: a page request to the host for a miss, or the same one if the context already asks for that page and access. -/
def State.requestPage (s : State) (ctx va : Nat) (a : Access) : State × Option Nat :=
  let c := s.ctx ctx
  match c.pageReqs.find? (fun r => r.va == va && r.access == a) with
  | some r => (s, some r.rid)
  | none =>
    if 1024 ≤ c.pageReqs.length then (s, none)
    else
      let rid := c.nextRid
      let s := s.modCtx ctx (fun c => { c with pageReqs := c.pageReqs ++ [{ rid, va, access := a }],
                                               nextRid := (rid + 1) % 2 ^ 32 })
      (s.send ctx 0x2001 0 (pageReqBytes ctx c.generation { rid, va, access := a }), some rid)

/-- R144: is an access the same as or narrower than another: read within write, read or write within atomic? -/
def Access.within (a b : Access) : Bool :=
  a == b || (a == .read && (b == .write || b == .atomic)) || (a == .write && b == .atomic)

/-- R144: does a waiting miss join the walk made for another: same context and page, same or narrower access? A request of an ingress
port, which asks no page of the host (R372), joins none but another's. -/
def Miss.joins (n m : Miss) : Bool :=
  let ing (x : Miss) : Bool := match x.who with
    | .ingress _ => true
    | _ => false
  n.stand == .walk && n.ctx == m.ctx && n.va == m.va && n.access.within m.access && ing n == ing m

/-- R144: how the misses that joined a walk now stand. -/
def State.standJoined (s : State) (d : Nat) (m : Miss) (x : XWait) : State :=
  s.modDie d (fun y => { y with misses := y.misses.map (fun n => if n.joins m then { n with stand := x } else n) })

/-- R140: the update that a fill makes in the entry it fills from: A, and D for a write. -/
def fillBits (a : Access) (e : Word) : Word := e ||| 0x80#64 ||| (if a == .write || a == .atomic then 0x100#64 else 0)

/-- R143, R144: a translation filled on a die by the walk of a miss, and handed to those that joined it, misses of the same page at the
same or a narrower access: the structures of each one's tile are filled; one with no tile finds its answer in the die TLB. -/
def State.fillMisses (s : State) (d : Nat) (m : Miss) (t : TlbEntry) : State :=
  let served (n : Miss) : Bool := n.stand == .walk && t.hits n.ctx n.addr n.access && n.access.within m.access
  let s' := s.fillDie d t
  let s' := ((s.die d).misses.filter served).foldl (fun (s : State) n => s.fillAbove n.who t) s'
  s'.modDie d (fun x => { x with misses := (x.misses.filter (fun n => !(served n && n.who.tile.isSome))).map (fun n =>
    if served n then { n with stand := .ready } else n) })

/-- R149: a miss finds no valid leaf: it stands on a page request, or waits for a free one behind those that came before it. -/
def State.askPage (s : State) (d : Nat) (m : Miss) : State :=
  match s.requestPage m.ctx m.va m.access with
  | (s, some rid) => s.standJoined d m (.page rid)
  | (s, none) => (s.standJoined d m .needPage).modCtx m.ctx (fun c => { c with
      pageWaits := c.pageWaits ++ [(d, m.va, m.access)] })

/-- R149: a page request has become free: the misses that wait for one take it in arrival order. -/
def State.grantPages (s : State) (ctx : Nat) : State :=
  (s.ctx ctx).pageWaits.foldl (fun (s : State) (w : Nat × Nat × Access) =>
    let waits (n : Miss) : Bool := n.stand == .needPage && n.ctx == ctx && n.va == w.2.1 && n.access.within w.2.2
    let drop (s : State) : State := s.modCtx ctx (fun c => { c with pageWaits := c.pageWaits.filter (fun x => x != w) })
    if !(s.die w.1).misses.any waits then drop s
    else match s.requestPage ctx w.2.1 w.2.2 with
      | (s, some rid) => (drop s).modDie w.1 (fun y => { y with misses := y.misses.map (fun n =>
          if waits n then { n with stand := .page rid } else n) })
      | (s, none) => s) s

/-- R140, R143: the translation that a walk's leaf fills for an access: A and D set by a compare-and-swap at the entry's node, behind
what stands there (R288) and with its event (R102); none when that fails. -/
def State.fillFrom (s : State) (ctx va : Nat) (a : Access) (level addr : Nat) (e : Word) : Option (State × TlbEntry) :=
  let e' := fillBits a e
  if e' ≠ e ∧ (s.nodeWord (addr / 8) ≠ e ∨ s.nodeBusy addr 8 true) then none
  else
    let p := leafBits level e
    some (if e' = e then s else (s.nodeCharge ctx addr true true).devWriteWord addr (leBytes 8 e'.toNat),
      { ctx, base := va / 2 ^ p * 2 ^ p, size := p, leaf := e', dirty := e'.getLsbD 8 })

/-- R140, R143, R147-R149: a walk made for a miss and those that joined it: the structures filled with A and D set by a
compare-and-swap at the entry's node, which leaves the misses to walk again when it fails; or how they now stand. A walk fills and sets A
and D before rights and placement are looked at: R140 does not say whether an access that is then refused leaves them (DEDUCED, log 112). -/
def State.walkMiss (s : State) (d : Nat) (m : Miss) : State :=
  match s.walk m.ctx m.va with
  | .noLeaf =>
    -- R372: no page request crosses packages
    if (match m.who with | .ingress _ => true | _ => false) then s.standJoined d m (.fault 0x11 0) else s.askPage d m
  | .bad => s.standJoined d m (.fault 0x12 0)
  | .leaf level addr e =>
    if pteM e then s.standJoined d m .migrate
    else match s.fillFrom m.ctx m.va m.access level addr e with
      | some (s, t) => s.fillMisses d m t
      | none => s

/-- R144: entries read by the walk of a context's address, each a walk step charged. -/
def walkSteps (s : State) (ctx va : Nat) : Nat := walkReads s va 5 (s.ctx ctx).root

/-- R144: contexts with a miss waiting, in the order a free walker serves them. -/
def Die.nextMiss (x : Die) : Option Miss :=
  let w := x.misses.filter (fun m => m.stand == .walk)
  match w.find? (fun m => decide (x.walkRR < m.ctx)) with
  | none => (w.foldl (fun (b : Option Miss) m => match b with
      | none => some m
      | some y => if m.ctx < y.ctx then some m else some y) none)
  | some _ =>
    ((w.filter (fun m => decide (x.walkRR < m.ctx))).foldl (fun (b : Option Miss) m => match b with
      | none => some m
      | some y => if m.ctx < y.ctx then some m else some y) none)

/-- R144, R148: TLB_WALK: a walker of die d completes the walk of the next miss in round-robin order of contexts. -/
def execTlbWalkState (s : State) (d : Nat) : State :=
  match (s.die d).nextMiss with
  | none => s
  | some m =>
    let s := s.uncore d m.ctx .walk (walkSteps s m.ctx m.va) (uncoreDomain d)
    (s.modDie d (fun x => { x with walkRR := m.ctx })).walkMiss d m

/-- R147: every miss of a die that waits on M = 1 walks again. -/
def State.recheckMigrating (s : State) (d : Nat) : State :=
  s.modDie d (fun x => { x with misses := x.misses.map (fun m => if m.stand == .migrate then { m with stand := .walk } else m) })

/-- R146: does a translation fall in an invalidation's range of the 57-bit space? -/
def TlbEntry.covered (t : TlbEntry) (v : Inval) : Bool :=
  t.ctx == v.ctx && decide (t.base % 2 ^ 57 < v.hi) && decide (v.lo < t.base % 2 ^ 57 + 2 ^ t.size)

/-- R157: what an invalidation leaves of a strand's prefetched indices: nothing, when the buffer holds a covered page, and no bundle
decoded ahead of its issue. -/
def Strand.purged (st : Strand) (v : Inval) : Strand :=
  let hit := st.prefetch.any (fun h => decide (v.lo ≤ h.1 % 2 ^ 57) && decide (h.1 % 2 ^ 57 < v.hi))
  { st with prefetch := if hit then [] else st.prefetch, fetched := none }

/-- R146, R157: every matching prefetched index removed. -/
def State.purgeFetch (s : State) (v : Inval) : State :=
  { s with tiles := s.tiles.map (fun p => (p.1, { p.2 with
      strands := p.2.strands.map (fun q => (q.1, if p.2.ctx == v.ctx then q.2.purged v else q.2)) })) }

/-- R146: every matching translation and prefetched index removed on the dies of the context's partition. -/
def State.purge (s : State) (v : Inval) : State :=
  let keep (l : List TlbEntry) : List TlbEntry := l.filter (fun t => !t.covered v)
  ({ s with
    dies := s.dies.map (fun p => (p.1, { p.2 with tlb := p.2.tlb.map (fun q => (q.1, keep q.2)) })),
    tiles := s.tiles.map (fun p => (p.1, { p.2 with
      utlb := keep p.2.utlb,
      windows := p.2.windows.map (fun q => (q.1, keep q.2)) })) } : State).purgeFetch v

end Sys2Proof.Machine
end

