-- ==== Sys2Proof/Machine/QueueOps.lean ====
section
/-! DEFINITION. Queues (R126-R128, R289, R290), braids (R129, R130), the crumb log's decisions (R402-R405), task tables and the
end of a task (R122, R211). -/

namespace Sys2Proof.Machine

/-! ## Crumb log -/

/-- R390: tiles of a partition in ascending package tile number. -/
def Partition.tiles (p : Partition) : List Nat :=
  (List.range 72).flatMap (fun o => if p.octets.contains o then (List.range 8).map (fun i => o / 8 * 64 + o % 8 * 8 + i) else [])

/-- R118, R429: a partition's lowest-numbered tile, tile 8o of its lead die. -/
def Partition.firstTile (p : Partition) : Nat := (p.tiles.find? (fun t => tileDie t == p.lead)).getD 0

/-- R429: the tile whose stop the partition scheduler's traffic of a context starts from and goes to. -/
def State.leadTile (s : State) (c : Nat) : Nat := (s.part (s.ctx c).part).firstTile

/-- R390: a tile's ordinal in its context's partition. -/
def State.ordinal (s : State) (ctx t : Nat) : Nat := (s.part (s.ctx ctx).part).tiles.idxOf t

/-- R402, R404: a decision written when recording, unless the log has stopped. -/
def State.record (s : State) (ctx : Nat) (r : Crumb) : State :=
  if (s.ctx ctx).rpl = 1 ∧ !(s.ctx ctx).trunc then s.modCtx ctx (fun c => { c with crumbs := c.crumbs ++ [r] }) else s

/-- R405: the first record read for a decider, taken. -/
def State.takeRecord (s : State) (ctx : Nat) (mine : Crumb → Bool) : Option (Crumb × State) :=
  match (s.ctx ctx).replayed.find? mine with
  | none => none
  | some r => some (r, s.modCtx ctx (fun c => { c with replayed := c.replayed.erase r }))

/-- R405: a record that does not match the run: REPLAYDIV, and the context runs on with RPL off. -/
def State.replayDiv (s : State) (ctx : Nat) (r : Crumb) : State :=
  let body := leBytes 1 r.kind ++ leBytes 1 r.sub ++ leBytes 2 r.tile ++ leBytes 4 r.a ++ leBytes 8 r.b ++ leBytes 8 r.c
    ++ leBytes 8 r.d
  (s.modCtx ctx (fun c => { c with liveModes := c.liveModes &&& 0xF3#8, modes := c.modes &&& 0xF3#8, calib := [] })).event ctx 0x400B ctx body

/-- R403: a queue key. -/
def queueKey (slot q : Nat) : Nat := slot * 256 + q
/-- R122, R403: a stage key. -/
def stageKey (slot g : Nat) : Nat := slot * 8192 + g

/-! ## Queues -/

/-- Items on chip (R126). -/
def Queue.items (q : Queue) : Nat := q.subs.foldl (fun n p => n + p.2.items.length) 0
/-- Items in the spill area. -/
def Queue.spilled (q : Queue) : Nat := q.subs.foldl (fun n p => n + p.2.spilled.length) 0
/-- Pushes held for a queue in unreleased braid entries (R126, R350). -/
def Pipeline.braided (p : Pipeline) (q : Nat) : Nat :=
  p.stages.foldl (fun n g => g.braid.foldl (fun m e => m + (e.pushes.filter (fun x => x.1 == q)).length) n) 0
/-- Free slots of a queue (R126). -/
def Pipeline.free (p : Pipeline) (q : Nat) : Nat :=
  (p.queue q).desc.capacity - (p.queue q).items - p.braided q - (p.queue q).reserved
/-- Capacity of one sub-queue (R40, R289). -/
def QueueDesc.subCap (d : QueueDesc) : Nat := d.capacity / d.k
/-- R290: items that one sub-queue's part of the spill area holds. -/
def QueueDesc.spillCap (d : QueueDesc) : Nat := d.spillSize / d.k / 128
/-- Sub-queue j. -/
def Queue.sub (q : Queue) (j : Nat) : SubQueue := q.subs.get {} j
/-- Sub-queue j changed. -/
def Queue.modSub (q : Queue) (j : Nat) (f : SubQueue → SubQueue) : Queue := { q with subs := q.subs.set j (f (q.sub j)) }
/-- R128: has sub-queue j on-chip room? -/
def Queue.room (q : Queue) (j : Nat) : Bool := decide ((q.sub j).items.length < q.desc.subCap)
/-- R128: the sub-queue a push goes to from a cursor: the first with on-chip room, none when no sub-queue has any. -/
def Queue.pushSub (q : Queue) (cur : Nat) : Option Nat :=
  ((List.range q.desc.k).map (fun i => (cur + i) % q.desc.k)).find? (fun j => q.room j)
/-- R290: is there room in the spill part of sub-queue j? -/
def Queue.spillRoom (q : Queue) (j : Nat) : Bool := q.desc.spill && decide ((q.sub j).spilled.length < q.desc.spillCap)

/-- R290: the 128 bytes of a spilled item. -/
def Item.spillBytes (i : Item) : List Byte :=
  i.payload.flatMap (fun w => leBytes 8 w.toNat) ++ leBytes 4 i.tag.toNat ++ leBytes 4 i.key.toNat ++ List.replicate 56 0

/-- R290: virtual address of a position of sub-queue j's part of the spill area. -/
def QueueDesc.spillVa (d : QueueDesc) (j pos : Nat) : Nat := d.spillBase + j * (d.spillCap * 128) + pos * 128

/-- Where a push stands: made, held back for now, or failed in its spill write. -/
inductive PushOut
  | done (s : State)
  | wait (s : State)
  | failed (s : State) (addr : Nat)

/-- R290, R346: a spill access that cannot be made for good poisons the queue and faults the context. -/
def State.spillFail (s : State) (c slot q va : Nat) : State :=
  (s.modQueue c slot q (fun x => { x with poisoned := true })).fatal c { cause := 0x41, va, trapv := w64 va }

/-- R149, R290: SPILL-BLOCKED: a spill access of the queue needs a page request, one that stands or one that it waits for. -/
def State.spillBlocked (s : State) (c slot q : Nat) : Bool :=
  (s.die (s.reqDie (.spill c slot q))).misses.any (fun m => m.who == .spill c slot q && (match m.stand with
    | .page _ | .needPage => true
    | _ => false))

/-- R41, R289: the tile at whose stop the bank of sub-queue j stands, by the partition's tiles in order. -/
def State.queueStop (s : State) (c slot q j : Nat) : Nat :=
  let d := ((s.pipe c slot).queue q).desc
  let l := (s.part (s.ctx c).part).tiles
  l.getD ((8 * d.homeOctet + d.homeBank + j) % max l.length 1) 0

/-- R102, R419: a spilled item's 128 bytes on their way between the bank of sub-queue j and the node of an address. -/
def State.spillEvents (s : State) (c slot q j pa : Nat) (write : Bool) : State :=
  let e := s.reqDie (.spill c slot q)
  let (d, k) := nodeOf s.pkg.ordering pa
  ((s.nodeEvent e c pa write false).nodeEvent e c pa write false).chargePath c (s.queueStop c slot q j) (64 * d + k % 64) 128

/-- R290: one item put behind the spilled items of sub-queue j. -/
def State.spillPush (s : State) (c slot q j : Nat) (it : Item) : PushOut :=
  let d := ((s.pipe c slot).queue q).desc
  let pos := (((s.pipe c slot).queue q).sub j).spillPos
  let va := d.spillVa j pos
  let e := s.reqDie (.spill c slot q)
  match s.translate (.spill c slot q) c (w64 va) .write false false with
  | .ok s' pa rep =>
    -- R288: behind what stands at the node
    if s.nodeBusy pa 128 true then .wait s
    else .done (((s'.spillEvents c slot q j pa true).devWrite e c pa it.spillBytes rep).modQueue c slot q (fun x =>
      x.modSub j (fun y => { y with spilled := y.spilled ++ [it], spillPos := (pos + 1) % d.spillCap })))
  | .wait s => .wait s
  | .fault s _ _ => .failed (s.spillFail c slot q va) va

/-- R86, R102: the tile whose stop a request starts from: a tile's own, or the host port's on die 4. -/
def stopOf (src : Option Nat) : Nat := src.getD 283

/-- R367, R102: the uncore events of an item's way to or from the bank of sub-queue j. -/
def State.queueEvent (s : State) (c slot q j : Nat) (src : Option Nat) (write : Bool) : State :=
  let b := s.queueStop c slot q j
  (s.uncore (tileDie b) c (if write then .l2Write else .l2Read) 1 (uncoreDomain (tileDie b))).chargePath c (stopOf src) b 64

/-- R405: has a context under replay records of its log still to read? -/
def State.replayUnread (s : State) (c : Nat) : Bool := (s.ctx c).rpl == 2 && decide ((s.ctx c).replayPos < (s.ctx c).crumbCount)

/-- R405: does a record that has been read name the next push of a queue? -/
def State.loggedPush (s : State) (c slot q : Nat) : Bool :=
  (s.ctx c).replayed.any (fun r => r.kind == 9 && r.b == queueKey slot q && r.c == ((s.pipe c slot).queue q).pushes)

/-- R128, R289, R290, R350: an item delivered to a queue from a push cursor, from a tile or the host port. A redirected
relaxed push is recorded (R403); under replay a push waits until the log can no longer redirect it. `toSpill`: no slot is free under
R126, so that the push goes to the spill area (R350). -/
def State.deliver (s : State) (c slot q cur : Nat) (src : Option Nat) (it : Item) (toSpill : Bool := false) : PushOut :=
  let tileOrd := match src with
    | some t => s.ordinal c t
    | none => 0xFFFF
  let x := (s.pipe c slot).queue q
  let count (s : State) : State := s.modQueue c slot q (fun x => { x with pushes := (x.pushes + 1) % 2 ^ 64 })
  let own := cur % x.desc.k
  if s.replayUnread c && x.desc.relaxed && !s.loggedPush c slot q then .wait s else
  let (s, j?) :=
    if s.spillBlocked c slot q || toSpill then (s, none)
    else if x.desc.relaxed ∧ (s.ctx c).rpl = 2 then
      -- R405: the logged sub-queue, or the cursor's
      match s.takeRecord c (fun r => r.kind == 9 && r.b == queueKey slot q && r.c == x.pushes) with
      | some (r, s) => if x.room r.a then (s, some r.a) else (s.replayDiv c r, x.pushSub cur)
      | none =>
        if x.room own || (x.pushSub cur).isNone then (s, if x.room own then some own else none)
        else (s.replayDiv c { kind := 9, tile := tileOrd, a := own, b := queueKey slot q, c := x.pushes }, x.pushSub cur)
    else (s, x.pushSub cur)
  match j? with
  | some j =>
    let note (s : State) : State := if j = own then s
      else s.record c { kind := 9, tile := tileOrd, a := j, b := queueKey slot q, c := x.pushes }
    -- R350: behind every spilled item of its sub-queue
    if !(x.sub j).spilled.isEmpty then
      if x.spillRoom j then
        match s.spillPush c slot q j it with
        | .done s => .done (note (count s))
        | r => r
      else .wait s
    else .done (count (((note s).modQueue c slot q (fun x => x.modSub j (fun y => { y with items := y.items ++ [it] }))).queueEvent c slot q j src true))
  | none =>
    if x.spillRoom own && !s.spillBlocked c slot q then
      match s.spillPush c slot q own it with
      | .done s => .done (count s)
      | r => r
    else .wait s

/-- Has a sub-queue an item, on chip or in spill (R290)? -/
def Queue.holds (q : Queue) (j : Nat) : Bool := !(q.sub j).items.isEmpty || !(q.sub j).spilled.isEmpty

/-- R128: the two sub-queues a relaxed pop draws. -/
def Queue.draw (q : Queue) (qn : Nat) : Nat × Nat :=
  let k := q.desc.k
  let (w0, w1, _, _) := philox (q.pops % 2 ^ 32) (q.pops / 2 ^ 32) qn 0 q.desc.seed.toNat
  let a := w0 % k
  let b0 := w1 % (k - 1)
  (a, if a ≤ b0 then b0 + 1 else b0)

/-- R128: the sub-queue that a count of 4k has made due; a pop that takes it draws none. -/
def Queue.due (q : Queue) : Option Nat := (List.range q.desc.k).find? (fun j => (q.sub j).passover == 4 * q.desc.k && q.holds j)

/-- R128: sub-queue j taken: its pass-over count is 0. -/
def Queue.took (q : Queue) (j : Nat) : Queue := q.modSub j (fun y => { y with passover := 0 })

/-- R128, R405: a pop that takes a logged sub-queue: the draw it makes and the pass-over its loser counts. -/
def Queue.chooseLogged (q : Queue) (qn j : Nat) : Queue × Bool :=
  match q.due with
  | some _ => (q.took j, false)
  | none =>
    let (a, b) := q.draw qn
    let lose (l : Nat) : Queue := if q.holds l then q.modSub l (fun y => { y with passover := y.passover + 1 }) else q
    ((if j = a then lose b else if j = b then lose a else q).took j, true)

/-- R128: choice of a sub-queue to pop, with the pass-over counts changed; none when every sub-queue is empty. A sub-queue whose
items all stand in spill is not empty: its pop waits for their return (R290). -/
def Queue.choose (q : Queue) (qn : Nat) : Option (Nat × Queue × Bool) :=
  let k := q.desc.k
  let nonEmpty (j : Nat) : Bool := q.holds j
  if !q.desc.relaxed then (if nonEmpty 0 then some (0, q, false) else none)
  else if !(List.range k).any nonEmpty then none
  else
    match q.due with
    | some j => some (j, q.took j, false)
    | none =>
      let (a, b) := q.draw qn
      let key (j : Nat) : Nat := ((((q.sub j).items ++ (q.sub j).spilled).head?).map (fun i => i.key.toNat)).getD 0
      if !nonEmpty a && !nonEmpty b then
        match ((List.range k).map (fun i => (a + 1 + i) % k)).find? nonEmpty with
        | some j => some (j, q.took j, true)
        | none => none
      else if !nonEmpty a then some (b, q.took b, true)
      else if !nonEmpty b then some (a, q.took a, true)
      else
        let j := if key a < key b ∨ (key a = key b ∧ a < b) then a else b
        let l := if j = a then b else a
        some (j, (q.modSub l (fun y => { y with passover := y.passover + 1 })).took j, true)

/-- R127, R128, R405: one item popped, the pop recorded or taken from the log; none when nothing can be popped now. -/
def State.popItem (s : State) (c slot q : Nat) (src : Option Nat) : Option (Item × State × Bool) :=
  let x := (s.pipe c slot).queue q
  if s.spillBlocked c slot q then none
  else
    let finish (s : State) (j : Nat) (x : Queue) (drew : Bool) : Option (Item × State × Bool) :=
      match (x.sub j).items with
      | [] => none
      | it :: rest =>
        let s := if x.desc.relaxed then s.record c { kind := 3, tile := (src.map (s.ordinal c)).getD 0xFFFF, a := j, b := queueKey slot q, c := x.pops } else s
        some (it, (s.modQueue c slot q (fun _ =>
          { x.modSub j (fun y => { y with items := rest }) with pops := (x.pops + 1) % 2 ^ 64 })).queueEvent c slot q j src false, drew)
    let free (s : State) : Option (Item × State × Bool) :=
      match x.choose q with
      | none => none
      | some (j, x, drew) => finish s j x drew
    if x.desc.relaxed ∧ (s.ctx c).rpl = 2 then
      match s.takeRecord c (fun r => r.kind == 3 && r.b == queueKey slot q && r.c == x.pops) with
      | none => none
      | some (r, s') =>
        -- R405: a sub-queue that the queue does not have, or that nothing can come to any more, is not found
        if x.desc.k ≤ r.a ∨ (!x.holds r.a ∧ x.closed ∧ (s.pipe c slot).braided q = 0) then free (s'.replayDiv c r)
        else if (x.sub r.a).items.isEmpty then none
        else finish s' r.a (x.chooseLogged q r.a).1 (x.chooseLogged q r.a).2
    else free s

/-- Is a queue closed and without items on chip, in spill or in a braid entry (R353)? -/
def Pipeline.drained (p : Pipeline) (q : Nat) : Bool :=
  (p.queue q).closed && (p.queue q).items == 0 && (p.queue q).spilled == 0 && p.braided q == 0

/-! ## Tasks, reservations and braids -/

/-- R42: tag t precedes tag u. -/
def tagBefore (t u : Lane) : Bool := let d := (u - t).toNat; decide (1 ≤ d) && decide (d < 2 ^ 31)

/-- R126: can the reservations of a pop be met in every output queue? -/
def Pipeline.canReserve (p : Pipeline) (g : Nat) : Bool :=
  let d := (p.stage g).desc
  (List.range d.outputs.length).all (fun j => decide (d.ratios.getD j 0 ≤ p.free (d.outputs.getD j 0)))

/-- R129: may an ordered stage open one more braid entry? -/
def Stage.braidRoom (g : Stage) : Bool := !g.desc.ord || decide (g.braid.length < g.desc.braidCap)

/-- R122: the reservations a task holds in the queue of output slot j. -/
def TaskEntry.held (e : TaskEntry) (j : Nat) : Nat := (e.reserved.getD j 0).toNat

/-- R122: the 32 bytes of an entry as queue memory holds it. -/
def TaskEntry.bytes (e : TaskEntry) : List Byte :=
  (List.range 8).flatMap (fun j => leBytes 2 (e.held j)) ++ leBytes 2 e.braids.toNat ++ leBytes 4 e.latest.toNat ++ List.replicate 10 0

/-- R122: a task's table entry changed. -/
def State.modTask (s : State) (c slot g e : Nat) (f : TaskEntry → TaskEntry) : State :=
  s.modStage c slot g (fun x => { x with tasks := x.tasks.set e (f (x.tasks.get {} e)) })

/-- R122: the lowest unused entry of a stage's task table, taken. -/
def State.takeEntry (s : State) (c slot g : Nat) : State × Nat :=
  let x := (s.pipe c slot).stage g
  let e := ((List.range (8 * x.desc.maxTiles)).find? (fun i => !(x.tasks.get {} i).used)).getD 0
  (s.modTask c slot g e (fun _ => { used := true }), e)

/-- R126, R348, R351: n slots of output queue number j of the stage reserved for a task. -/
def State.reserve (s : State) (c slot g e j n : Nat) : State :=
  let q := ((s.pipe c slot).stage g).desc.outputs.getD j 0
  (s.modQueue c slot q (fun x => { x with reserved := x.reserved + n })).modTask c slot g e
    (fun t => { t with reserved := modNth t.reserved j (fun r => r + BitVec.ofNat 16 n) })

/-- R130: the fault event of kind BRAIDTAG. -/
def State.braidTagEvent (s : State) (c slot g : Nat) (tag : Lane) : State :=
  let body := leBytes 1 1 ++ leBytes 7 0 ++ leBytes 2 (stageKey slot g) ++ leBytes 2 0 ++ leBytes 4 tag.toNat
  (s.event c 0x4004 c body).event 0 0x4004 c body

/-- R129, R130: a braid entry opened for a task's item. -/
def State.openBraid (s : State) (c slot g e : Nat) (tag : Lane) : State :=
  let x := (s.pipe c slot).stage g
  let pair := x.braid.find? (fun b => (tag - b.tag) == 0x80000000#32)
  let s := match pair with
    | some _ => s.braidTagEvent c slot g tag
    | none => s
  (s.modStage c slot g (fun x => { x with
      braid := x.braid ++ [{ serial := x.braidSerial, tag, owner := e, apart := pair.map (fun b => b.serial) }],
      braidSerial := x.braidSerial + 1 })).modTask c slot g e
    (fun t => { t with braids := t.braids + 1, latest := tag })

/-- R129: the braid's head: its tag precedes every other's, the earliest opened among equals. -/
def Stage.braidHead (g : Stage) : Option BraidEntry :=
  let l := g.braid.filter (fun b => b.apart.isNone)
  l.find? (fun b => l.all (fun o => tagBefore b.tag o.tag || (b.tag == o.tag && decide (b.serial ≤ o.serial))))

/-- R130: an entry set apart that is closed and whose pair has been released. -/
def Stage.apartReady (g : Stage) : Option BraidEntry :=
  g.braid.find? (fun b => b.closed && (match b.apart with
    | some n => !g.braid.any (fun o => o.serial == n)
    | none => false))

/-- R122: a continuation record: pipeline slot and stage, the suspended strand's PC, what it waits on, its priority, item handle and
x1-x6, and whether its task holds reservations. -/
def Strand.continuation (st : Strand) (slot g : Nat) (rsv : Bool) : Item :=
  let wq := match st.state with
    | .waiting q => some q
    | _ => none
  let id := slot * 8192 + (wq.getD 0) % 128 * 64 + g % 64
  { payload := w64 (st.pc.toNat + id * 2 ^ 32 + (wq.isSome.toNat + 2 * rsv.toNat) * 2 ^ 48 + st.prio % 256 * 2 ^ 56) :: st.item ::
      (List.range 6).map (fun i => st.x.get 0 (i + 1)),
    tag := st.itag, key := BitVec.ofNat 32 (st.entry.getD 0) }

/-- R122: PC of a record. -/
def Item.recPc (i : Item) : BitVec 32 := (i.payload.getD 0 0).extractLsb' 0 32
/-- R122: the queue a record's task waits on, with WQ = 1. -/
def Item.recWait (i : Item) : Option Nat :=
  if (i.payload.getD 0 0).getLsbD 48 then some ((i.payload.getD 0 0).extractLsb' 38 7).toNat else none
/-- R122: RSV of a record. -/
def Item.recRsv (i : Item) : Bool := (i.payload.getD 0 0).getLsbD 49
/-- R122: priority byte of a record. -/
def Item.recPrio (i : Item) : Nat := ((i.payload.getD 0 0).extractLsb' 56 8).toNat
/-- R122: item handle of a record. -/
def Item.recItem (i : Item) : Word := i.payload.getD 1 0
/-- R122: xk of a record, k from 1 to 6. -/
def Item.recX (i : Item) (k : Nat) : Word := i.payload.getD (k + 1) 0

/-- Push cursor of a tile for a relaxed-priority queue (R128). -/
def State.cursorOf (s : State) (t slot q k : Nat) : Nat := (s.tile t).cursors.get (t % k) (queueKey slot q)

/-- R128: the cursor rises by one modulo k. -/
def State.bumpCursor (s : State) (t slot q k : Nat) : State :=
  let v := s.cursorOf t slot q k
  s.modTile t (fun u => { u with cursors := u.cursors.set (queueKey slot q) ((v + 1) % k) })

/-- R345: the status word of R344 for a failure record. -/
def FailRec.word (f : FailRec) (scopeOk : Bool) : Word :=
  w64 (f.faddr.toNat * 2 ^ 32 + f.count * 2 ^ 16 + f.pstore.toNat * 16 + f.spillf.toNat * 8 + f.deadlink.toNat * 4
    + f.refused.toNat * 2 + (scopeOk && f.count == 0).toNat)

/-- R345: the fault event STOREFAIL of a context, with the stage and the status word of a failure record. -/
def State.storeFailEvent (s : State) (c : Nat) (stage : Option (Nat × Nat)) (f : FailRec) : State :=
  let (slot, g) := stage.getD (0, 0)
  let body := leBytes 1 2 ++ leBytes 7 0 ++ leBytes 2 (stageKey slot g) ++ leBytes 6 0 ++ leBytes 8 (f.word false).toNat
  (s.event c 0x4004 c body).event 0 0x4004 c body

/-- The four ways a store fails (R346). -/
inductive FailKind
  | refused | deadlink | spillf | pstore
  deriving DecidableEq, Repr

/-- R346: a failure record with one more failed store. -/
def FailRec.add (f : FailRec) (k : FailKind) (addr : Nat) : FailRec :=
  { f with
    faddr := if f.count = 0 then BitVec.ofNat 32 addr else f.faddr,
    count := min (f.count + 1) 0xFFFF,
    refused := f.refused || k == .refused, deadlink := f.deadlink || k == .deadlink,
    spillf := f.spillf || k == .spillf, pstore := f.pstore || k == .pstore }

/-- R128, R129: the pushes of an entry of stage g delivered in order, from each push's tile cursor; stops at one that must wait. One
whose spill write fails is a failed store of a task that has ended (R345, R346). -/
def State.deliverAll (s : State) (c slot g : Nat) (poison : Bool) : List (Nat × Item × Nat) → State × List (Nat × Item × Nat)
  | [] => (s, [])
  | (q, it, t) :: rest =>
    let k := ((s.pipe c slot).queue q).desc.k
    match s.deliver c slot q (s.cursorOf t slot q k) (some t) { it with poison := it.poison || poison } with
    | .done s => (s.bumpCursor t slot q k).deliverAll c slot g poison rest
    | .wait s => (s, (q, it, t) :: rest)
    | .failed s a => (s.storeFailEvent c (some (slot, g)) (({} : FailRec).add .spillf a)).deliverAll c slot g poison rest

/-- R129, R130: entries that can be released, at most n of them. -/
def State.releaseBraid (s : State) (c slot g : Nat) : Nat → State
  | 0 => s
  | n + 1 =>
    let x := (s.pipe c slot).stage g
    let pick := match x.apartReady with
      | some b => some (b, true)
      | none => match x.braidHead with
        | some b => if b.closed then some (b, false) else none
        | none => none
    match pick with
    | none => s
    | some (b, poison) =>
      match s.deliverAll c slot g poison b.pushes with
      | (s, []) =>
        (s.modStage c slot g (fun x => { x with braid := x.braid.filter (fun o => o.serial != b.serial) })).releaseBraid c slot g n
      | (s, left) =>
        s.modStage c slot g (fun x => { x with
          braid := x.braid.map (fun o => if o.serial == b.serial then { o with pushes := left } else o) })

/-- R129: every release a stage's braid can make now. -/
def State.releaseAll (s : State) (c slot g : Nat) : State :=
  s.releaseBraid c slot g (((s.pipe c slot).stage g).braid.length)

/-- R129, R131: the releases of every stage of a pipeline that a queue's room or its spill area held back, tried again. -/
def State.releasePipe (s : State) (c slot : Nat) : State :=
  (List.range (s.pipe c slot).stages.length).foldl (fun s g => s.releaseAll c slot g) s

/-- R126, R129, R348: what taking an item does for the task besides its registers. -/
def State.popEffects (s : State) (c slot g e : Nat) (it : Item) : State :=
  let d := ((s.pipe c slot).stage g).desc
  let s := (List.range d.outputs.length).foldl (fun s j => s.reserve c slot g e j (d.ratios.getD j 0)) s
  if d.ord then s.openBraid c slot g e it.tag else s

/-- R345: the fault event STOREFAIL for a non-empty failure record, which is then cleared. -/
def State.storeFail (s : State) (t n : Nat) : State :=
  let u := s.tile t
  let f := (u.strand n).fail
  if f.count = 0 then s
  else
    (s.storeFailEvent u.ctx u.stage f).modStrand t n (fun st => { st with fail := {} })

/-- R345: is the part of a task that issued a store still the one a strand runs? -/
def Strand.runsPart (st : Strand) (part : Nat) : Bool := st.state == .run && st.part == part

/-- R346: one failed store of a context recorded for the strand that issued it, on its tile or saved; after its task has ended it is
reported at once, with the task's stage (R345). -/
def State.failStore (s : State) (c t n part : Nat) (stage : Option (Nat × Nat)) (k : FailKind) (addr : Nat) : State :=
  let note (st : Strand) : Strand := { st with fail := st.fail.add k addr }
  match (s.ctx c).saved with
  | some l =>
    let kept : Tile := AMap.get {} l t
    if (kept.strand n).runsPart part then
      s.modCtx c (fun x => { x with saved := some (AMap.set l t (kept.modStrand n note)) })
    else s.storeFailEvent c stage (({} : FailRec).add k addr)
  | none =>
    if (s.tile t).ctx = c ∧ (s.strand t n).runsPart part then s.modStrand t n note
    else s.storeFailEvent c stage (({} : FailRec).add k addr)

/-- R383: the causes held pending for a strand whose task has ended: a BUDGET is dropped with the task, and any other is fatal as
ORPHAN. -/
def State.orphan (s : State) (t n : Nat) : State :=
  let st := s.strand t n
  let s := s.modStrand t n (fun st => { st with pending := [] })
  match firstCause (st.pending.filter (fun c => c.code != 0x30)) with
  | some c => s.fatalAt t n 0x46 c.info st.pc
  | none => s

/-- R123: does the tile leave its stage, so that a suspended task goes to the resume queue? -/
def Tile.isDonor (t : Tile) : Bool :=
  match t.takeUp with
  | .leaving _ => true
  | _ => false

/-- R122, R123: a suspended task's record pushed to its stage's resume queue; the strand is left with no task. -/
def State.toResume (s : State) (t n : Nat) : State :=
  let u := s.tile t
  match u.stage with
  | none => s
  | some (slot, g) =>
    let rsv := ((((s.pipe u.ctx slot).stage g).tasks.get {} ((u.strand n).entry.getD 0)).reserved).any (fun r => r != 0)
    ((s.charge t 47 1 (some n)).modStage u.ctx slot g (fun x => { x with
      resume := x.resume ++ [(u.strand n).continuation slot g rsv] })).modStrand t n
      (fun st => { st with state := .idle, entry := none })

/-- R126, R129, R122: a task's remaining reservations released, its braid entries closed, its table entry freed. -/
def State.endEntry (s : State) (c slot g e : Nat) : State :=
  let x := (s.pipe c slot).stage g
  let te := x.tasks.get {} e
  let s := (List.range x.desc.outputs.length).foldl (fun s j =>
    s.modQueue c slot (x.desc.outputs.getD j 0) (fun y => { y with reserved := y.reserved - te.held j })) s
  let s := s.modStage c slot g (fun x => { x with
    braid := x.braid.map (fun b => if b.owner == e && !b.closed then { b with closed := true } else b),
    tasks := x.tasks.erase e })
  s.releaseAll c slot g

/-- A strand's waiting pop requests withdrawn from the dividers of its pipeline: its task ends (log 91). -/
def State.withdrawPops (s : State) (t n : Nat) : State :=
  match (s.tile t).stage with
  | some (slot, _) => s.modPipe (s.tile t).ctx slot (fun p => { p with
      queues := p.queues.map (fun q => { q with waiting := q.waiting.filter (fun r => !(r.tile == t && r.strand == n && r.stream.isNone)) }) })
  | none => s

/-- R126, R129, R348: what taking an item did for a task undone: its reservations, and the braid entry it opened. -/
def State.undoPop (s : State) (c slot g e : Nat) : State :=
  let d := ((s.pipe c slot).stage g).desc
  let s := (List.range d.outputs.length).foldl (fun s j =>
    (s.modQueue c slot (d.outputs.getD j 0) (fun x => { x with reserved := x.reserved - d.ratios.getD j 0 })).modTask c slot g e (fun t =>
      { t with reserved := modNth t.reserved j (fun r => r - BitVec.ofNat 16 (d.ratios.getD j 0)) })) s
  if !d.ord then s
  else
    let own := (((s.pipe c slot).stage g).braid.filter (fun b => b.owner == e)).reverse
    let last := ((own.head?).map (fun b => b.serial)).getD 0
    (s.modStage c slot g (fun x => { x with braid := x.braid.filter (fun b => !(b.owner == e && b.serial == last)) })).modTask c slot g e
      (fun t => { t with braids := t.braids - 1, latest := (((own.drop 1).head?).map (fun b => b.tag)).getD 0 })

/-- An item given to a strand whose task part ends in a handler before the bundle that waits for it has issued goes back to the head of
its sub-queue, as if it had not been taken (log 91). -/
def State.ungrant (s : State) (t n : Nat) : State :=
  let u := s.tile t
  match (u.strand n).granted, u.stage with
  | some (q, it), some (slot, g) =>
    ((s.modQueue u.ctx slot q (fun x => x.modSub (u.strand n).grantSub (fun y => { y with items := it :: y.items }))).undoPop u.ctx slot g
      ((u.strand n).entry.getD 0)).modStrand t n (fun st => { st with granted := none })
  | _, _ => s

/-- R97: writes that the token of a pipeline follows, those not yet visible everywhere kept. -/
def State.notePipeWrites (s : State) (c slot : Nat) (l : List Nat) : State :=
  let l := s.livePast l
  if l.isEmpty then s else s.modPipe c slot (fun p => { p with writes := unionNat p.writes l })

/-- R97: the writes a task leaves behind noted for its pipeline. -/
def State.noteTaskWrites (s : State) (t n : Nat) : State :=
  let u := s.tile t
  match u.stage with
  | some (slot, _) => s.notePipeWrites u.ctx slot (unionNat (u.strand n).past (((u.strand n).stores.filter (fun w => w.2 != 3)).map (fun w => w.1)))
  | none => s

/-- R211, R122, R345: a task ends at YIELD, WAITQ or DONE; the core then spends the next fc choosing a strand (R189). -/
def State.endTask (s : State) (t n : Nat) (k : EndKind) : State :=
  let s := ((((s.unbindAll t n).storeFail t n).noteTaskWrites t n).withdrawPops t n).ungrant t n
  let s := s.charge t 48 1 (some n)
  let u := s.tile t
  let first : Nat := match u.stage with
    | some (slot, g) =>
      let p := s.pipe u.ctx slot
      (((p.stage g).desc.inputs.head?).map (fun q => (p.queue q).desc.prio)).getD 0
    | none => 0
  let s := match k with
    | .yield =>
      let s := s.modStrand t n (fun st => { st with state := .yielded, prio := first, stall := [] })
      if u.isDonor then s.toResume t n else s
    | .waitq q =>
      let pr := match u.stage with
        | some (slot, _) => ((s.pipe u.ctx slot).queue q).desc.prio
        | none => 0
      let s := s.modStrand t n (fun st => { st with state := .waiting q, prio := pr, stall := [] })
      if u.isDonor then s.toResume t n else s
    | .done =>
      let s := match u.stage, (u.strand n).entry with
        | some (slot, g), some e => s.endEntry u.ctx slot g e
        | _, _ => s
      (s.modStrand t n (fun st => { st with state := .idle, entry := none, handler := false, stall := [] })).orphan t n
  s.modTile t (fun u => { u with choosing := true })

end Sys2Proof.Machine
end

