-- ==== Sys2Proof/Machine/CellMem.lean ====
section
/-! DEFINITION. Cell SRAM with its four-fc rule (R203, R231), uncorrectable ECC errors (R385), and requests to memory nodes
(R17, R288). -/

namespace Sys2Proof.Machine

/-- R93: PENDTRAP of the modes in effect. -/
def Context.pendTrap (c : Context) : Bool := c.liveModes.getLsbD 4

/-! ## Uncorrectable ECC errors -/

/-- R385: the 64 bytes of a record; their layout is not stated (log 5). -/
def eccRecord (kind die tile cell off lane pa lcyc : Nat) : List Byte :=
  (List.range 64).map (Config.eccByte [kind, die, tile, cell, off, lane, pa, lcyc])

/-- R385: an uncorrectable error met by a context: the sticky flag, the count, the log's first 63 records, and the event. -/
def State.eccHit (s : State) (ctx : Nat) (rec : List Byte) : State :=
  (s.modCtx ctx (fun c => { c with
    ecc := true, eccCount := min (c.eccCount + 1) (2 ^ 32 - 1),
    eccLog := if c.eccLog.length < 63 then c.eccLog ++ [rec] else c.eccLog })).event ctx 0x4008 ctx rec

/-! ## Cell SRAM: cell o at byte b stands at address 65,536 o + b of the tile's cell space -/

/-- R231: the byte a read issued in fc f sees: as the writes at least four fc old leave it. -/
def Tile.cellSeen (t : Tile) (f addr : Nat) : Byte :=
  match t.cellWrites.find? (fun w => w.addr == addr && decide (f < w.fc + 4)) with
  | some w => w.old
  | none => t.sram.get 0 addr

/-- The byte a read-modify-write in fc f sees among the writes to it, oldest first: those at least four fc old, and those of
every earlier read-modify-write (R204, R231, R268). `v` is the byte seen so far and `cur` the newest byte. -/
def atomicView (f : Nat) (cur : Byte) : List CellWrite → Byte → Byte
  | [], v => v
  | w :: r, v =>
    let new := match r with
      | [] => cur
      | x :: _ => x.old
    let seen := decide (w.fc + 4 ≤ f) || w.atomic
    atomicView f cur r (if seen then new else v)

/-- R204, R231, R268: the byte a read-modify-write sees. -/
def Tile.cellAtomic (t : Tile) (f addr : Nat) : Byte :=
  let ws := t.cellWrites.filter (fun w => w.addr == addr)
  let cur := t.sram.get 0 addr
  atomicView f cur ws (((ws.head?).map (fun w => w.old)).getD cur)

/-- A write put before the first later one of its fc to the same byte; none when it is the newest. -/
def insertWrite (f rank addr : Nat) (b : Byte) (at' : Bool) (past : List Nat) : List CellWrite → Option (List CellWrite)
  | [] => none
  | w :: r =>
    if w.addr = addr ∧ w.fc = f ∧ rank < w.rank then
      some ({ fc := f, rank, addr, old := w.old, atomic := at', past } :: { w with old := b } :: r)
    else (insertWrite f rank addr b at' past r).map (fun l => w :: l)

/-- R203, R204, R268: has a read-modify-write of a later place in fc f already changed the word at an address? One of an earlier place
then waits for the next fc, so that those of one fc keep their order (log 92). -/
def Tile.atomicAfter (t : Tile) (f rank addr : Nat) : Bool :=
  t.cellWrites.any (fun w => w.addr / 4 == addr / 4 && w.fc == f && w.atomic && decide (rank < w.rank))

/-- R231: one byte written in fc f at its place among the writes of that fc. -/
def Tile.cellPut (t : Tile) (f rank addr : Nat) (b : Byte) (at' : Bool) (past : List Nat) : Tile :=
  match insertWrite f rank addr b at' past t.cellWrites with
  | some l => { t with cellWrites := l }
  | none => { t with cellWrites := t.cellWrites ++ [{ fc := f, rank, addr, old := t.sram.get 0 addr, atomic := at', past }],
                     sram := t.sram.set addr b }

/-- R231: bytes written from an address on. -/
def Tile.cellPutAll (t : Tile) (f rank addr : Nat) (at' : Bool) (past : List Nat) : List Byte → Tile
  | [] => t
  | b :: r => (t.cellPut f rank addr b at' past).cellPutAll f rank (addr + 1) at' past r

/-- R332, edge 2: the causal past of the write that a read of a byte in fc f returns; an atomic access reads past the four-fc rule. -/
def Tile.cellPast (t : Tile) (f addr : Nat) (rmw : Bool) : List Nat :=
  match (t.cellWrites.filter (fun w => w.addr == addr && (decide (w.fc + 4 ≤ f) || (rmw && w.atomic)))).getLast? with
  | some w => w.past
  | none => t.sramPast.get [] addr

/-- The causal past of the writes that a read of n bytes in fc f returns. -/
def Tile.cellPasts (t : Tile) (f addr n : Nat) (rmw : Bool := false) : List Nat :=
  (List.range n).foldl (fun l i => unionNat l (t.cellPast f (addr + i) rmw)) []

/-- A write visible to every read leaves its causal past with its byte. -/
def Tile.keepPast (t : Tile) (w : CellWrite) : Tile :=
  { t with sramPast := if w.past.isEmpty then t.sramPast.erase w.addr else t.sramPast.set w.addr w.past }

/-- R231: has a word of the n bytes from an address a write less than four fc old? -/
def Tile.cellPending (t : Tile) (f addr n : Nat) : Bool :=
  t.cellWrites.any (fun w => decide (f < w.fc + 4) && decide (addr / 4 ≤ w.addr / 4) && decide (w.addr / 4 ≤ (addr + n - 1) / 4))

/-- R385: words among n bytes whose ECC fails. -/
def Tile.cellBad (t : Tile) (addr n : Nat) : List Nat :=
  t.sramBad.filter (fun w => decide (addr / 4 ≤ w) && decide (w ≤ (addr + n - 1) / 4))

/-- R203, R231, R385: n bytes read at an address in fc f; a word that fails its check reads as zero and is logged. -/
def State.cellRead (s : State) (t f addr n : Nat) (lane : Nat := 0) : State × Nat :=
  let u := s.tile t
  let bad := u.cellBad addr n
  let v := leNat ((List.range n).map (fun i => if bad.contains ((addr + i) / 4) then 0 else u.cellSeen f (addr + i)))
  (bad.foldl (fun s w => s.eccHit u.ctx (eccRecord 0 (tileDie t) t (w * 4 / 65536) (w * 4 % 65536) lane 0 (s.fcOf t))) s, v)

/-- R204, R231, R268: n bytes as a read-modify-write in fc f sees them. -/
def State.cellLatest (s : State) (t f addr n : Nat) (lane : Nat := 0) : State × Nat :=
  let u := s.tile t
  let bad := u.cellBad addr n
  let v := leNat ((List.range n).map (fun i => if bad.contains ((addr + i) / 4) then 0 else u.cellAtomic f (addr + i)))
  (bad.foldl (fun s w => s.eccHit u.ctx (eccRecord 0 (tileDie t) t (w * 4 / 65536) (w * 4 % 65536) lane 0 (s.fcOf t))) s, v)

/-- R231, R390: bytes written to a cell: visible four fc later; the 16 KiB bank is live; a word written whole is sound. -/
def State.cellWrite (s : State) (t f rank addr : Nat) (data : List Byte) (atomic : Bool := false) (past : List Nat := []) : State :=
  let n := data.length
  let whole (w : Nat) : Bool := decide (addr ≤ 4 * w) && decide (4 * w + 4 ≤ addr + n)
  s.modTile t (fun u =>
    let v := u.cellPutAll f rank addr atomic past data
    { v with sramBad := v.sramBad.filter (fun w => !whole w),
             liveBanks := if v.liveBanks.contains (addr / 16384) then v.liveBanks else v.liveBanks ++ [addr / 16384] })

/-- R231: CELL_WRITE_VISIBLE: writes at least four fc old are visible to every read, and their pending bits are clear. -/
def execCellWriteVisibleState (s : State) (t : Nat) : State :=
  let f := s.fcOf t
  s.modTile t (fun u =>
    let v := (u.cellWrites.filter (fun w => decide (w.fc + 4 ≤ f))).foldl Tile.keepPast u
    { v with cellWrites := v.cellWrites.filter (fun w => decide (f < w.fc + 4)) })

/-! ## Requests to memory nodes -/

/-- R288: a request joins its node's arrivals. -/
def State.toNode (s : State) (pa : Nat) (r : MemReq) : State :=
  let (d, k) := nodeOf s.pkg.ordering pa
  s.modDie d (fun x => { x with nodes := x.nodes.set k (x.nodes.get [] k ++ [r]) })

/-- R102: the mesh and bridge path of a request between a tile and a node. -/
def State.nodePath (s : State) (ctx t pa bytes : Nat) : State :=
  let (d, k) := nodeOf s.pkg.ordering pa
  s.chargePath ctx t (64 * d + k % 64) bytes

end Sys2Proof.Machine
end

