-- ==== Sys2Proof/Machine/Divider.lean ====
section
/-! DEFINITION. The dividers of a pipeline's queues (R127, R319, R405): items given to waiting pop requests in arrival order. -/

namespace Sys2Proof.Machine

/-! ## Ports of a tile (R292, R305) -/

/-- R181, R387: may stream port n begin to place a token: has its last one reached every route, and is the tile not stopping? -/
def Tile.portFree (t : Tile) (n : Nat) : Bool := !t.stopping && !t.emits (spEnd n)
/-- R319: can stream port n place a token on every route from it now? -/
def Tile.portOpen (t : Tile) (n : Nat) : Bool := t.portFree n && (t.dests (spEnd n)).all (fun d => !t.arcFull d)

/-- Command id of a tile. -/
def Tile.cmd (t : Tile) (id : Nat) : Option Cmd := (t.cmds.find? (fun c => c.1 == id)).map (fun c => c.2)
/-- Command id of tile t changed. -/
def State.modCmd (s : State) (t id : Nat) (f : Cmd → Cmd) : State :=
  s.modTile t (fun u => { u with cmds := u.cmds.map (fun c => if c.1 = id then (id, f c.2) else c) })
/-- Status word of an id changed. -/
def State.modStatus (s : State) (t id : Nat) (f : StreamStatus → StreamStatus) : State :=
  s.modTile t (fun u => { u with status := u.status.set id (f (u.status.get {} id)) })
/-- R306: COUNT stops at 0xFFFF_FFFF. -/
def StreamStatus.add (x : StreamStatus) (n : Nat) : StreamStatus := { x with count := min (x.count + n) 0xFFFFFFFF }

/-! ## The divider -/

/-- R405: under replay a divider's next logged assignment of a queue. -/
def State.dividerTurn (s : State) (c slot q : Nat) : Option Crumb :=
  (s.ctx c).replayed.find? (fun r => r.kind == 2 && r.b == queueKey slot q)

/-- R127: is it this strand's turn? Under replay the divider serves the logged order. -/
def State.turnOk (s : State) (c slot q t n : Nat) : Bool :=
  (s.ctx c).rpl != 2 || (match s.dividerTurn c slot q with
    | some r => r.tile == s.ordinal c t && r.sub == n
    | none => false)

/-- R127, R128, R405: an item taken by a strand or its stream; recorded, or held against the log. -/
def State.takeItem (s : State) (c slot q t n : Nat) : Option (Item × State) :=
  match s.popItem c slot q (some t) with
  | none => none
  | some (it, s, drew) =>
    let s := if drew then s.charge t 49 1 (some n) else s
    let s := if (s.ctx c).rpl = 2 then
        match s.takeRecord c (fun r => r.kind == 2 && r.b == queueKey slot q) with
        | some (r, s') => if r.a = it.tag.toNat then s' else s'.replayDiv c r
        | none => s
      else s.record c { kind := 2, sub := n, tile := s.ordinal c t, a := it.tag.toNat, b := queueKey slot q }
    some (it, s)

/-- R126, R129: can a strand of a stage be given an item now? -/
def Pipeline.strandReady (p : Pipeline) (g : Nat) : Bool := p.canReserve g && (p.stage g).braidRoom

/-- The stage whose input list holds a queue. -/
def Pipeline.consumer (p : Pipeline) (q : Nat) : Option Nat :=
  (List.range p.stages.length).find? (fun g => (p.stage g).desc.inputs.contains q)

/-- R319: the token of an item popped by SQIN. -/
def Item.token (i : Item) : Token :=
  if i.poison then { kind := .poison, past := i.past }
  else { lanes := i.payload.flatMap (fun w => [w.extractLsb' 0 32, w.extractLsb' 32 32]), mask := 0xFFFF, past := i.past }

/-- R127, R319: the item given to a stream: its token placed on the port. -/
def State.giveStream (s : State) (c slot q t id : Nat) (x : Cmd) : Option State :=
  if !(s.tile t).portOpen x.port || (s.tile t).freeze || (s.tile t).stopping || !s.turnOk c slot q t x.strand then none
  else match s.takeItem c slot q t x.strand with
    | none => none
    | some (it, s) =>
      let s := (s.charge t 45 1 (some x.strand)).emitFrom t (spEnd x.port) x.order it.token
      some ((s.modCmd t id (fun x => { x with poisoned := x.poisoned || it.poison })).modStatus t id
        (fun y => y.add 1))

/-- R127, R186: does a strand wait at a bundle whose pop names queue q, and at nothing that comes before it? A strand that has gone
into a handler asks again when it comes back to the bundle. -/
def Strand.asksPop (st : Strand) (q : Nat) : Bool :=
  st.state == .run && !st.halted && st.stall.any (fun p => (p.1 == 0x91 || p.1 == 0x92) && p.2 == q)

/-- R127, R348: the item given to a waiting strand, with its reservations and braid entry. -/
def State.giveStrand (s : State) (c slot q t n : Nat) : Option State :=
  let p := s.pipe c slot
  match p.consumer q with
  | none => none
  | some g =>
    if !(s.strand t n).asksPop q || (s.strand t n).granted.isSome || (s.tile t).stopping || !p.strandReady g || !s.turnOk c slot q t n then none
    else match s.takeItem c slot q t n with
      | none => none
      | some (it, s) =>
        let short (j : Nat) : Bool := decide (((((s.pipe c slot).queue q).sub j).items).length < (((p.queue q).sub j).items).length)
        let j := ((List.range (p.queue q).desc.k).find? short).getD 0
        let s := s.popEffects c slot g ((s.strand t n).entry.getD 0) it
        some (s.modStrand t n (fun st => { st with granted := some (q, it), grantSub := j }))

/-- R127: the first waiting request of a queue that can be served, served. -/
def State.serveFirst (s : State) (c slot q : Nat) : List PopReq → Option (PopReq × State)
  | [] => none
  | r :: rest =>
    let mine := match r.stream with
      | none => s.giveStrand c slot q r.tile r.strand
      | some id => match (s.tile r.tile).cmd id with
        | some x => s.giveStream c slot q r.tile id x
        | none => none
    match mine with
    | some s => some (r, s)
    | none => s.serveFirst c slot q rest

/-- R127: DIVIDER_ASSIGN: a queue's divider serves one waiting pop request. -/
def execDividerAssignState (s : State) (c slot q : Nat) : State :=
  match s.serveFirst c slot q ((s.pipe c slot).queue q).waiting with
  | none => s
  | some (r, s) => s.modQueue c slot q (fun x => { x with waiting := x.waiting.erase r })

/-- R127: every waiting request that can be served now. -/
def State.serveAll (s : State) (c slot q : Nat) : Nat → State
  | 0 => s
  | n + 1 =>
    match s.serveFirst c slot q ((s.pipe c slot).queue q).waiting with
    | none => s
    | some (r, s) => (s.modQueue c slot q (fun x => { x with waiting := x.waiting.erase r })).serveAll c slot q n

/-- A waiting request put behind the others, once. -/
def State.askPop (s : State) (c slot q : Nat) (r : PopReq) : State :=
  s.modQueue c slot q (fun x => if x.waiting.contains r then x else { x with waiting := x.waiting ++ [r] })

end Sys2Proof.Machine
end

