-- ==== Sys2Proof/Machine/Reach.lean ====
section
/-! DEFINITION. The path of a remote request (R369, R370): the port it leaves by, or that its package is not reachable. -/

namespace Sys2Proof.Machine

/-- R27: unit number of scale-up port p. -/
def portUnit (p : Nat) : Nat := 93 + p
/-- R12: the die that holds scale-up port p. -/
def portDie (p : Nat) : Nat := [0, 1, 2, 3, 5, 6, 7, 8].getD (p / 16) 0
/-- R15: the stop at which a port's traffic enters and leaves the mesh; which one is not stated (log 7). -/
def portTile (p : Nat) : Nat := 64 * portDie p + Config.portStop p % 64
/-- R28: state of unit u. -/
def State.unit (s : State) (u : Nat) : UnitState := s.pkg.units.get .untested u
/-- Is a unit ready? -/
def State.unitReady (s : State) (u : Nat) : Bool := s.unit u == .ready

/-- R369: coordinates of a package id. -/
def torusOf (id : Nat) : Nat × Nat × Nat :=
  let (x, y, _) := Config.torusDims
  (id % x, id / x % y, id / x / y)

/-- R370: the bundle of one axis from a to b round a ring of n: 0 for the + direction, 1 for the −, none where a = b. -/
def ringStep (n a b : Nat) : Option Nat :=
  if a = b then none
  else
    let fwd := (b + n - a) % n
    if fwd ≤ n - fwd then some 0 else some 1

/-- R370: the ports a request may take towards a package, before readiness. -/
def bundleTo (dest : Nat) : List Nat :=
  let own := Config.pkgid.toNat
  if own = dest then []
  else if Config.topologyTorus then
    let express := (List.range 8).filter (fun i => Config.expressPeer (120 + i) == some dest)
    if !express.isEmpty then express.map (fun i => 120 + i)
    else
      let (nx, ny, nz) := Config.torusDims
      if nx * ny * nz ≤ dest then []
      else
        let (x, y, z) := torusOf own
        let (u, v, w) := torusOf dest
        match ringStep nx x u, ringStep ny y v, ringStep nz z w with
        | some d, _, _ => (List.range 20).map (fun i => 20 * d + i)
        | none, some d, _ => (List.range 20).map (fun i => 40 + 20 * d + i)
        | none, none, some d => (List.range 20).map (fun i => 80 + 20 * d + i)
        | none, none, none => []
  else if dest < 1024 then List.range 128 else []

/-- R370: the port a request of a source leaves by; none when the package is not reachable. The host-port engine's tile
number is 576. -/
def State.routePort (s : State) (tile strand dest : Nat) : Option Nat :=
  let l := (bundleTo dest).filter (fun p => s.unitReady (portUnit p))
  if l.isEmpty then none else l[(8 * tile + strand + dest) % l.length]?

/-- R373: a request joins a lane of a port. -/
def State.toLane (s : State) (port lane : Nat) (f : Flit) : State :=
  s.modPkg (fun p =>
    let q := p.ports.get {} port
    { p with ports := p.ports.set port { q with lanes := q.lanes.set lane (q.lanes.get [] lane ++ [f]) } })

/-- R371: the lane a token of a context takes to a package: that of its first OUT window there, else lane 0. -/
def Context.tokenLane (c : Context) (pkg : Nat) : Nat :=
  ((c.windows.find? (fun p => p.2.out && p.2.rpkg == pkg)).map (fun p => p.2.lane)).getD 0

end Sys2Proof.Machine
end

