-- ==== Sys2Proof/Machine/StreamOps.lean ====
section
/-! DEFINITION. What stream commands are made of: their ports, classes, elements and footprints (R295-R299, R304), status words
(R306), their orderings (R298, R324, R325), reduction sequences (R315), and how a command stops (R308, R327). -/

namespace Sys2Proof.Machine

/-! ## Shape of a command (R304) -/

/-- Does dimension 0 come from indices (R297)? -/
def Cmd.indexed (c : Cmd) : Bool :=
  match c.kind with
  | .sli | .ssi | .sri .. => true
  | _ => false

/-- Does the command read elements toward the fabric? -/
def Cmd.isLoad (c : Cmd) : Bool :=
  match c.kind with
  | .sla | .sli | .smc _ => true
  | _ => false

/-- Does the command combine elements (R301)? -/
def Cmd.isReduce (c : Cmd) : Bool :=
  match c.kind with
  | .sra .. | .sri .. => true
  | _ => false

/-- Does it take data values from its port and write them? -/
def Cmd.isStore (c : Cmd) : Bool :=
  match c.kind with
  | .ssa | .ssi | .sra .. | .sri .. => true
  | _ => false

/-- Return form of a reducing command. -/
def Cmd.returns (c : Cmd) : Bool :=
  match c.kind with
  | .sra _ r _ | .sri _ r _ => r
  | _ => false

/-- SEQ of a reducing command; 0 for none. -/
def Cmd.seq (c : Cmd) : Nat :=
  match c.kind with
  | .sra _ _ n | .sri _ _ n => n
  | _ => 0

/-- Operation of a reducing command (R314). -/
def Cmd.op (c : Cmd) : Nat :=
  match c.kind with
  | .sra o _ _ | .sri o _ _ => o
  | _ => 0

/-- The port a command delivers to toward the fabric. -/
def Cmd.outPort (c : Cmd) : Option Nat :=
  match c.kind with
  | .sla | .sli | .sfill _ | .sqin _ => some c.port
  | .srec .. => c.cport
  | .sra _ r _ | .sri _ r _ => if r then some c.port else none
  | _ => none

/-- The port a command takes data tokens from. -/
def Cmd.dataPort (c : Cmd) : Option Nat :=
  match c.kind with
  | .ssa | .ssi | .sra .. | .sri .. | .sqout _ | .srec .. => some c.port
  | _ => none

/-- The port a command takes indices from. -/
def Cmd.indexPort (c : Cmd) : Option Nat :=
  match c.kind with
  | .sli | .ssi | .sri .. => c.cport
  | _ => none

/-- R305: does a command still use a port: is it short of its EOS there in a direction it uses? -/
def Cmd.holdsPort (c : Cmd) (p : Nat) : Bool :=
  c.drain.contains p
    || (c.outPort == some p && !(c.eos && c.out.isEmpty))
    || (c.ending.isNone && ((c.dataPort == some p && !c.valsEnd) || (c.indexPort == some p && !c.idxEnd)))

/-- R305, R316: has every command, and every multicast, that came to a port before a place in the issue order left it? -/
def Tile.portTurnAt (t : Tile) (order p : Nat) : Bool :=
  t.cmds.all (fun c => !c.2.holdsPort p || decide (order ≤ c.2.order)) && t.mcast.all (fun m => m.port != p || decide (order ≤ m.order))

/-- The class of tile meter its tokens are charged to (R330). -/
def Cmd.tokenClass (c : Cmd) : Nat :=
  match c.kind with
  | .sla | .ssa => 37
  | .sli | .ssi => 38
  | .sra .. | .sri .. => 39
  | .srec .. => 40
  | .smc _ => 41
  | .sfill _ => 42
  | .scpy _ => 43
  | .sqin _ => 45
  | .sqout _ => 44

/-- R304: memory class of a pattern. -/
def Pattern.cls (p : Pattern) : Nat := if p.space = 1 then 3 else p.ocls

/-- R304: memory classes of a command. -/
def Cmd.classes (c : Cmd) : List Nat :=
  match c.kind with
  | .sfill _ => []
  | .scpy _ => [Pattern.cls c.pat, Pattern.cls c.pat2]
  | .sqin _ | .sqout _ | .srec .. => [0]
  | _ => [Pattern.cls c.pat]

/-- R295: values a full token carries. -/
def Pattern.perToken (p : Pattern) : Nat := 32 / p.portFmt.width * p.lpt

/-- R295: elements of a pattern. -/
def Pattern.total (p : Pattern) : Nat := p.countFrom 0

/-! ## Elements -/

/-- R312, R313: where element n of a command lies: its coordinates over its base. -/
def Cmd.elemAddr (c : Cmd) (p : Pattern) (n : Nat) (x0 : Option Int) : ElemAddr :=
  p.addr (if c.indexed then p.base else p.base + c.xb) (p.coords n x0)

/-- What the next element of a command is. -/
inductive NextElem
  | wait
  | stop
  | invalid
  | elem (a : ElemAddr)
  deriving DecidableEq, Repr

/-- R295, R313: the next element to form. An index value covers every element of the inner dimensions. -/
def Cmd.nextElem (c : Cmd) : NextElem :=
  if c.indexed then
    match c.idx with
    | [] => if c.idxEnd || c.idxPoison then .stop else .wait
    | (none, _) :: _ => .invalid
    | (some x, _) :: _ =>
      if c.pat.countFrom 1 = 0 then .invalid
      else .elem (c.elemAddr c.pat c.inner (some x.toInt))
  else if c.next < Pattern.total c.pat then .elem (c.elemAddr c.pat c.next none)
  else .stop

/-- The command past an element formed. -/
def Cmd.advance (c : Cmd) : Cmd :=
  if c.indexed then
    match c.idx with
    | [] => c
    | (none, _) :: r => { c with next := c.next + 1, idx := r, inner := 0 }
    | (some _, _) :: r =>
      if c.inner + 1 < c.pat.countFrom 1 then { c with next := c.next + 1, inner := c.inner + 1 }
      else { c with next := c.next + 1, idx := r, inner := 0 }
  else { c with next := c.next + 1 }

/-- R339: causal past of the index an element is formed from. -/
def Cmd.indexPast (c : Cmd) : List Nat := ((c.idx.head?).map (fun x => x.2)).getD []

/-- R313: an index value with no inner element yields none. -/
def Cmd.skipEmpty (c : Cmd) : Cmd :=
  if c.indexed && c.pat.countFrom 1 == 0 then { c with idx := c.idx.filter (fun x => x.1.isNone) } else c

/-! ## Footprints (R298, R299) -/

/-- A footprint: space, unknown, start, end, and whether it writes. -/
structure Foot where
  space : Nat
  unknown : Bool
  lo : Nat
  hi : Nat
  writes : Bool
  deriving DecidableEq, Repr

/-- The footprint a pattern declares. -/
def Pattern.foot (p : Pattern) (w : Bool) : Foot :=
  { space := p.space, unknown := p.fpu, lo := p.fplo.toNat, hi := p.fphi.toNat, writes := w }

/-- Footprints of a command. -/
def Cmd.feet (c : Cmd) : List Foot :=
  match c.kind with
  | .sla | .sli | .smc _ => [Pattern.foot c.pat false]
  | .ssa | .ssi | .sra .. | .sri .. => [Pattern.foot c.pat true]
  | .scpy _ => [Pattern.foot c.pat true, Pattern.foot c.pat2 false]
  | _ => []

/-- R298: do two footprints order their commands? -/
def Foot.meets (a b : Foot) : Bool :=
  (a.writes || b.writes) && a.space == b.space
    && (a.unknown || b.unknown || (decide (a.lo < b.hi) && decide (b.lo < a.hi) && decide (a.lo < a.hi) && decide (b.lo < b.hi)))

/-- R298: is a new command ordered after an earlier one? -/
def Cmd.orders (old new : Cmd) : Bool := old.feet.any (fun f => new.feet.any (fun g => f.meets g))

/-- Has every element of a command been formed? -/
def Cmd.formed (c : Cmd) : Bool :=
  match c.kind with
  | .sfill _ | .sqin _ | .sqout _ | .srec .. => true
  | _ => c.fault.isSome || c.ending.isSome || c.nextElem == .stop

/-- R298: is every access of a command performed? Reads have returned; writes are performed at their scope, a cell's from the
fourth fc. -/
def State.accessesDone (s : State) (t id : Nat) (c : Cmd) : Bool :=
  c.formed && c.flight.all (fun f => f.val.isSome) && (c.ending.isSome || c.vals.isEmpty)
    && c.writes.all (fun w => s.seenEverywhere w.1)
    && !(s.tile t).cellWrites.any (fun w => w.rank == 16 + id && decide (s.fcOf t < w.fc + 4))

/-- Commands by issue order. -/
def Tile.byOrder (t : Tile) (o : Nat) : Option (Nat × Cmd) := t.cmds.find? (fun c => c.2.order == o)

/-- R324: is a store that a command waits on performed at its scope? -/
def State.barStoreDone (s : State) (t : Nat) (w : Nat × Nat) : Bool :=
  if w.2 = 3 then decide (w.1 + 4 ≤ s.fcOf t) else s.seenEverywhere w.1

/-- R298, R324, R339: the orderings a command still waits on, with the causal past of those that have ended taken over. -/
def State.refreshEdges (s : State) (t id : Nat) (c : Cmd) : Cmd :=
  let done := c.after.filter (fun o => match (s.tile t).byOrder o with
    | none => true
    | some (i, e) => s.accessesDone t i e)
  let got := done.foldl (fun l o => match (s.tile t).byOrder o with
    | none => l
    | some (i, e) => if i = id then l else unionNat l (unionNat e.acc e.past)) c.past
  { c with
    after := c.after.filter (fun o => !done.contains o),
    barred := c.barred.filter (fun o => ((s.tile t).byOrder o).isSome),
    afterStores := c.afterStores.filter (fun w => !s.barStoreDone t w), past := got }

/-- May a command make accesses as far as R298 and R324 go? -/
def Cmd.unordered (c : Cmd) : Bool := c.after.isEmpty && c.barred.isEmpty && c.afterStores.isEmpty

/-- The patterns a command makes accesses through, each with whether it writes. -/
def Cmd.touches (c : Cmd) : List (Pattern × Bool) :=
  match c.kind with
  | .sla | .sli | .smc _ => [(c.pat, false)]
  | .ssa | .ssi | .sra .. | .sri .. => [(c.pat, true)]
  | .scpy _ => [(c.pat, true), (c.pat2, false)]
  | _ => []

/-- R325: has a command an access to an aligned word of a space still to make, a write of it where `reads` is not asked for? An access
it has to make again (R328) counts. -/
def Cmd.ahead (c : Cmd) (space word : Nat) (reads : Bool) : Bool :=
  if c.fault.isSome || c.ending.isSome then false
  else c.touches.any (fun q => (reads || q.2) && Pattern.space q.1 == space
      && (if c.indexed then !(c.nextElem == .stop)
        else (List.range (Pattern.total q.1 - c.next)).any (fun i => match c.elemAddr q.1 (c.next + i) none with
          | .at a => a / 8 == word
          | _ => false)))
    || (reads && c.flight.any (fun f => f.val.isNone && f.req == 0 && f.va / 8 == word))

/-- R325, R337: has a command made an access to a word that is not performed: a read that has not returned, or a write that is not
performed at its scope? -/
def State.stillMaking (s : State) (t id : Nat) (c : Cmd) (space word : Nat) (reads : Bool) : Bool :=
  (reads && space == 0 && c.flight.any (fun f => f.val.isNone && f.va / 8 == word))
    || (space == 0 && c.writes.any (fun w => w.2 == word && !s.seenEverywhere w.1))
    || (space == 1 && (s.tile t).cellWrites.any (fun w =>
      w.rank == 16 + id && w.addr / 8 == word && decide (s.fcOf t < w.fc + 4)))

/-- The command that a command is linked behind while it runs, with its id (R325). -/
def Tile.linkedTo (u : Tile) (c : Cmd) : Option (Nat × Cmd) := c.link.bind u.byOrder

/-- Number of an aligned word among those of both spaces: memory, and cells. -/
def wordKey (space word : Nat) : Nat := 2 * word + space

/-- R339: what a command has read at a word joins its causal past, and is kept by the word for a command linked behind it. -/
def Cmd.readFrom (c : Cmd) (key : Nat) (past : List Nat) : Cmd :=
  { c with acc := unionNat c.acc past, accAt := c.accAt.set key (unionNat (c.accAt.get [] key) past) }

/-- R325, R339: what the command that a command is linked behind leaves before an access to a word: what it has read there, and its
writes to it. -/
def Tile.linkPast (u : Tile) (c : Cmd) (key : Nat) : List Nat :=
  unionNat (c.linkAt.get [] key) (match u.linkedTo c with
    | some (_, e) => unionNat (e.accAt.get [] key) ((e.writes.filter (fun w => wordKey 0 w.2 == key)).map (fun w => w.1))
    | none => [])

/-- R325: does the SORD link hold an access through a pattern back at the stream? It does while the earlier command may still form an
access to the word; one it has formed is ordered by the node's address-compare queue (R288), or here for a cell or a remote window. -/
def State.linkHolds (s : State) (t : Nat) (c : Cmd) (p : Pattern) (write : Bool) (word : Nat) : Bool :=
  match (s.tile t).linkedTo c with
  | none => false
  | some (i, e) => e.ahead (Pattern.space p) word write
      || (decide (2 ≤ Pattern.cls p) && s.stillMaking t i e (Pattern.space p) word write)

/-! ## Status words (R306) -/

/-- R306: PAGE: an element of the command waits for a page request. -/
def State.pageBit (s : State) (t id : Nat) : Bool :=
  (s.die (tileDie t)).misses.any (fun m => m.who == .command t id && (match m.stand with
    | .page _ => true
    | _ => false))

/-- R306: the status word of an id. -/
def State.statusWord (s : State) (t id : Nat) : Word :=
  let x := (s.tile t).status.get {} id
  w64 (x.count * 2 ^ 32 + x.code * 2 ^ 24 + x.flags.toNat * 256 + x.extra.toNat * 8 + (s.pageBit t id).toNat * 4 + x.state)

/-! ## Reduction sequences (R315) -/

/-- The sequence of a pipeline. -/
def State.seqOf (s : State) (c slot n : Nat) : RedSeq := (s.pipe c slot).seqs.get {} n
/-- Sequence n of a pipeline changed. -/
def State.modSeq (s : State) (c slot n : Nat) (f : RedSeq → RedSeq) : State :=
  s.modPipe c slot (fun p => { p with seqs := p.seqs.set n (f (p.seqs.get {} n)) })
/-- R315: has a tag completed, or is it carried by a command in flight? -/
def RedSeq.taken (r : RedSeq) (tag : Lane) : Bool := tagBefore tag r.frontier || r.complete.contains tag || r.flying.contains tag
/-- R315: F passed over every completed tag; at most one step for each. -/
def RedSeq.pass : Nat → RedSeq → RedSeq
  | 0, r => r
  | n + 1, r => if r.complete.contains r.frontier then
      RedSeq.pass n { r with complete := r.complete.erase r.frontier, frontier := r.frontier + 1 } else r
/-- R315: a tag completes. -/
def RedSeq.finish (r : RedSeq) (tag : Lane) : RedSeq :=
  let r := { r with flying := r.flying.erase tag, complete := tag :: r.complete }
  RedSeq.pass r.complete.length r

/-- R302, R315: does a request at its node wait for its tag? -/
def State.waitsForTag (s : State) (r : MemReq) : Bool :=
  match r.seq with
  | some (slot, n, tag) => (s.seqOf r.ctx slot n).frontier != tag
  | none => false

/-! ## Slots (R291) -/

/-- Slot at an address of a context. -/
def State.slotAt (s : State) (ctx va : Nat) : Option Slot := s.slots.find? (fun x => x.ctx == ctx && x.va == va)
/-- A slot changed. -/
def State.modSlot (s : State) (ctx va : Nat) (f : Slot → Slot) : State :=
  { s with slots := s.slots.map (fun x => if x.ctx = ctx ∧ x.va = va then f x else x) }

/-! ## Stopping a command (R181, R303, R308, R327) -/

/-- The POISON and EOS tokens a stopped command sends. -/
def stopTokens : List (Token × Nat) := [({ kind := .poison }, 0), ({ kind := .eos }, 0)]

/-- R308: does the command deliver tokens (to its port, or to the members of a multicast)? -/
def Cmd.delivers (c : Cmd) : Bool :=
  c.outPort.isSome || (match c.kind with
    | .smc _ => true
    | _ => false)

/-- R308: the tokens of a command that is stopped: full ones stand, and POISON and EOS follow; where its EOS waits already, POISON goes
before it; once its EOS is placed nothing more. -/
def Cmd.stopOut (c : Cmd) : List (Token × Nat) :=
  if !c.delivers then c.out
  else if !c.eos then c.out ++ stopTokens
  else if c.out.any (fun k => k.1.kind == .eos) then c.out.filter (fun k => k.1.kind != .eos) ++ stopTokens
  else c.out

/-- R308: what stopping does to the command. Full tokens stand; a token partly built is discarded; ports it takes from drain.
Under `quiet` (R327, a deadlock) nothing is placed on the tile's fabric and nothing drained; the members of a multicast on other tiles
still get their POISON and EOS. -/
def Cmd.stop (c : Cmd) (code : Nat) (quiet : Bool) : Cmd :=
  { c with
    ending := some code, fault := none, flight := [], idx := [], inner := 0,
    out := if quiet && c.outPort.isSome then [] else c.stopOut,
    eos := true,
    drain := if quiet then [] else if c.ending.isSome then c.drain
      else (if c.valsEnd then [] else c.dataPort.toList) ++ (if c.idxEnd then [] else c.indexPort.toList) }

/-- R181, R308: has a command been stopped by stream_fault, or reached its end as OK or SHORT only? -/
def Cmd.stopped (c : Cmd) : Bool := (c.ending.getD 0) != 0 && (c.ending.getD 0) != 7

/-- R300: tokens of a multicast that every member has delivered. -/
def Cmd.low (c : Cmd) : Nat := c.members.foldl (fun n m => min n (c.delivered.get 0 m)) c.sent.length

/-- R300, R316: a multicast changed at its source: each token that every member has delivered by it counts its elements once and gives
the source one permit more. -/
def State.creditSmc (s : State) (t id : Nat) (f : Cmd → Cmd) : State :=
  match (s.tile t).cmd id with
  | none => s
  | some c =>
    let d := f c
    let n := d.low - c.low
    let got := (List.range n).foldl (fun k i => k + d.sent.getD (c.low + i) 0) 0
    (s.modCmd t id (fun _ => { d with permits := d.permits + n })).modStatus t id (fun y => y.add got)

/-- R300: a member tile leaves a multicast: its undelivered tokens are discarded, and its outstanding space tokens count as returned. -/
def State.dropMember (s : State) (t id m : Nat) : State :=
  (s.modTile m (fun u => { u with mcast := u.mcast.filter (fun x => !(x.src == t && x.id == id)) })).creditSmc t id (fun c =>
    { c with members := c.members.filter (· != m) })

/-- R181, R308, R319, R327: a running command stopped with a code, which its status word holds at once; a pop request of it is
withdrawn. One that stream_fault has stopped before keeps its code. -/
def State.stopCmd (s : State) (t id code : Nat) (quiet : Bool) : State :=
  match (s.tile t).cmd id with
  | none => s
  | some c =>
    if c.stopped && !quiet then s
    else
      let s := if c.stopped then s.modCmd t id (fun c => { c with out := if c.outPort.isSome then [] else c.out, drain := [] })
        else (s.modCmd t id (fun c => c.stop code quiet)).modStatus t id (fun x => { x with code })
      let s := if quiet && c.members.contains t then s.dropMember t id t else s
      let s := s.modDie (tileDie t) (fun d => { d with misses := d.misses.filter (fun m => !(m.who == .command t id && m.ctx == c.ctx)) })
      match c.kind with
      | .sqin q => s.modQueue c.ctx c.slot q (fun x => { x with waiting := x.waiting.filter (fun r => !(r.tile == t && r.stream == some id)) })
      | _ => s

end Sys2Proof.Machine
end

