-- ==== Sys2Proof/Machine/Round.lean ====
section
/-! DEFINITION. Element words and images (R172-R176), and the start of a round (R226). -/

namespace Sys2Proof.Machine

/-! ## Element words (R175) -/

/-- An element word. -/
abbrev Elem := BitVec 128
/-- OPER. -/
def Elem.oper (e : Elem) : Nat := (e.extractLsb' 118 10).toNat
/-- SFMT. -/
def Elem.sfmt (e : Elem) : Nat := (e.extractLsb' 114 4).toNat
/-- DFMT. -/
def Elem.dfmt (e : Elem) : Nat := (e.extractLsb' 110 4).toNat
/-- SEL0, SEL1, SEL2. -/
def Elem.sel (e : Elem) (i : Nat) : Nat := (e.extractLsb' (105 - 5 * i) 5).toNat
/-- DREG. -/
def Elem.dreg (e : Elem) : Nat := (e.extractLsb' 91 4).toNat
/-- WBS. -/
def Elem.wbs (e : Elem) : Bool := e.getLsbD 90
/-- OUT. -/
def Elem.out (e : Elem) : Nat := (e.extractLsb' 88 2).toNat
/-- MODE. -/
def Elem.mode (e : Elem) : Nat := (e.extractLsb' 84 4).toNat
/-- PPOL. -/
def Elem.ppol (e : Elem) : Bool := e.getLsbD 83
/-- SAT. -/
def Elem.sat (e : Elem) : Bool := e.getLsbD 82
/-- LASTE. -/
def Elem.laste (e : Elem) : Bool := e.getLsbD 81
/-- AUX. -/
def Elem.aux (e : Elem) : Nat := (e.extractLsb' 64 17).toNat
/-- K. -/
def Elem.k (e : Elem) : Lane := e.extractLsb' 0 32
/-- K replaced (R221). -/
def Elem.putK (e : Elem) (k : Lane) : Elem := e.extractLsb' 32 96 ++ k

/-- The configured cell c of an image. -/
def Image.cell (i : Image) (c : Nat) : Option CellImage := (i.cells.find? (fun p => p.1 == c)).map (fun p => p.2)
/-- Element e of a configured cell. -/
def CellImage.elem (c : CellImage) (e : Nat) : Elem := c.elems.getD e 0
/-- R221: a constant rewritten. -/
def Image.putK (i : Image) (c e : Nat) (k : Lane) : Image :=
  { i with cells := i.cells.map (fun (p : Nat × CellImage) => if p.1 = c then (c, { p.2 with elems := modNth p.2.elems e (fun (w : BitVec 128) => Elem.putK w k) }) else p) }
/-- R357: does the image configure element e of cell c? -/
def Tile.hasElem (t : Tile) (c e : Nat) : Bool :=
  match t.image with
  | some i => match i.cell c with
    | some x => decide (e < x.elems.length)
    | none => false
  | none => false

/-- Cell c's running state. -/
def Tile.cell (t : Tile) (c : Nat) : Cell := t.cells.get {} c
/-- Cell c's running state changed. -/
def Tile.modCell (t : Tile) (c : Nat) (f : Cell → Cell) : Tile := { t with cells := t.cells.set c (f (t.cell c)) }

/-! ## The start of a round (R226) -/

/-- R62-R64, R220-R222, R250, R264: what a round start sets in a cell. -/
def Cell.roundStart (c : Cell) : Cell :=
  { c with v := [], bypass := [], lastGroup := none, refusals := [], latches := [], ufBlock := 0, draws := 0, mag := 0, nans := 0,
           counts := [], held := none }

/-- R177, R226: each initial token of the image placed on its arc. -/
def Tile.placeInits (t : Tile) (f : Nat) : Tile :=
  ((t.image.map (fun i => i.inits)).getD []).foldl (fun (u : Tile) (p : Nat × Token) => u.place p.1 f { p.2 with frame := 0, past := [] }) t

/-- R226: the arcs emptied and each initial token placed. A register's inlet from its own port is no arc of the image. -/
def Tile.initialArcs (t : Tile) (f : Nat) : Tile :=
  ({ t with arcs := t.arcs.filter (fun p => decide (0x80 ≤ p.1)), primed := false } : Tile).placeInits f

/-- R226: may an image be configured: has no cell a firing in progress, and no cell of the image a token on an arc into it? An initial
token that stands where the load before placed it is the replaced image's, and gives way with it (log 95). -/
def Tile.canConfigure (t : Tile) (im : Image) : Bool :=
  let old := if t.primed then ((t.image.map (fun i => i.inits)).getD []).map (fun p => p.1) else []
  t.cells.all (fun (p : Nat × Cell) => p.2.held.isNone)
    && t.arcs.all (fun p => !(decide (p.1 < 0x40) && im.cells.any (fun c => c.1 == p.1 / 4)) || old.contains p.1)

/-- R226, R229, R355: a round of the tile's image for a strand. -/
def State.startRound (s : State) (t n : Nat) : State :=
  let f := s.fcOf t
  s.modTile t (fun u =>
    let u := { u with
      image := u.image.map (fun i => u.fargs.foldl (fun (i : Image) (p : Nat × Nat × Lane) => i.putK p.1 p.2.1 p.2.2) i),
      fargs := [], cells := u.cells.map (fun (p : Nat × Cell) => (p.1, p.2.roundStart)), merge := {},
      eosOut := [], eosIn := [], roundTag := (u.strand n).itag, fstat := { rstr := n, run := true } }
    u.initialArcs f)

end Sys2Proof.Machine
end

