-- ==== Sys2Proof/Machine/SpecialFn.lean ====
section
/-! DEFINITION. The special functions of R71 to R76: tables, coefficients and algorithms, each intermediate step rounded by RNE
to f32 without a flag (R72). -/

namespace Sys2Proof.Machine

/-- R72: T[j], the RNE f32 of 2^(j/32). -/
def tabT : List Nat :=
  [0x3F800000, 0x3F82CD87, 0x3F85AAC3, 0x3F88980F, 0x3F8B95C2, 0x3F8EA43A, 0x3F91C3D3, 0x3F94F4F0,
   0x3F9837F0, 0x3F9B8D3A, 0x3F9EF532, 0x3FA27043, 0x3FA5FED7, 0x3FA9A15B, 0x3FAD583F, 0x3FB123F6,
   0x3FB504F3, 0x3FB8FBAF, 0x3FBD08A4, 0x3FC12C4D, 0x3FC5672A, 0x3FC9B9BE, 0x3FCE248C, 0x3FD2A81E,
   0x3FD744FD, 0x3FDBFBB8, 0x3FE0CCDF, 0x3FE5B907, 0x3FEAC0C7, 0x3FEFE4BA, 0x3FF5257D, 0x3FFA83B3]

/-- R72: R[j], the RNE f32 of 1 / (1 + (2j + 1)/64). -/
def tabR : List Nat :=
  [0x3F7C0FC1, 0x3F74898D, 0x3F6D7304, 0x3F66C2B4, 0x3F607038, 0x3F5A740E, 0x3F54C77B, 0x3F4F6475,
   0x3F4A4588, 0x3F4565C8, 0x3F40C0C1, 0x3F3C5264, 0x3F381703, 0x3F340B41, 0x3F302C0B, 0x3F2C7692,
   0x3F28E83F, 0x3F257EB5, 0x3F2237C3, 0x3F1F1166, 0x3F1C09C1, 0x3F191F1A, 0x3F164FDA, 0x3F139A86,
   0x3F10FDBC, 0x3F0E7835, 0x3F0C08C1, 0x3F09AE41, 0x3F0767AB, 0x3F053408, 0x3F03126F, 0x3F010204]

/-- R72: L[j], the RNE f32 of -log2(R[j]). -/
def tabL : List Nat :=
  [0x3CB73CB3, 0x3D8759C9, 0x3DDE420E, 0x3E195751, 0x3E42615F, 0x3E6A4F70, 0x3E88983F, 0x3E9B8925,
   0x3EAE00D1, 0x3EC0052D, 0x3ED19BAF, 0x3EE2C97E, 0x3EF39355, 0x3F01FED4, 0x3F0A0650, 0x3F11E20E,
   0x3F1993E4, 0x3F211D84, 0x3F28808D, 0x3F2FBE7F, 0x3F36D8CA, 0x3F3DD0C9, 0x3F44A7BB, 0x3F4B5ED6,
   0x3F51F740, 0x3F58720A, 0x3F5ED038, 0x3F6512C6, 0x3F6B3AA0, 0x3F7148A2, 0x3F773DA2, 0x3F7D1A71]

/-- R72: rne of a sum. -/
def rneAdd (a b : Nat) : Nat := (fadd32 a b .rne).1
/-- R72: rne of a product. -/
def rneMul (a b : Nat) : Nat := (fmul32 a b .rne).1
/-- R72: rne of a quotient. -/
def rneDiv (a b : Nat) : Nat := (roundTo .f32 (divNum (Fmt.f32.decode a) (Fmt.f32.decode b)).1 .rne false).1

/-- The canonical NaN of f32 (R52), 1.0 and infinity. -/
def nan32 : Nat := 0x7FC00000
/-- 1.0. -/
def one32 : Nat := 0x3F800000
/-- +infinity. -/
def inf32 : Nat := 0x7F800000

/-- R73: FEXP2. -/
def fexp2 (w : Nat) : Nat × Flags :=
  match Fmt.f32.decode w with
  | .nan => (nan32, Flags.invalid)
  | .inf s => (if s then 0 else inf32, .none)
  | .fin s m e =>
    let x : Num := .fin s m e
    if m = 0 then (one32, .none)
    else if !x.lt (.fin false 128 0) then (inf32, { of := true, nx := true })
    else if x.lt (.fin true 150 0) then (0, { uf := true, nx := true })
    else
      let q := roundUnits .rne s m e (-5)
      let k : Int := if s then -(q : Int) else q
      let f := (roundTo .f32 (addNum x (.fin (!s) q (-5)) .rne).1 .rne false).1
      let j := (k % 32).toNat
      let n := k / 32
      let c := rneAdd 0x3D635847 (rneMul f 0x3C1D955B)
      let c := rneAdd 0x3E75FDF0 (rneMul f c)
      let c := rneAdd 0x3F317218 (rneMul f c)
      let p := rneAdd one32 (rneMul f c)
      roundTo .f32 ((Fmt.f32.decode (rneMul (tabT.getD j 0) p)).scale n) .rne false

/-- R74: FLOG2. -/
def flog2 (w : Nat) : Nat × Flags :=
  match Fmt.f32.decode w with
  | .nan => (nan32, Flags.invalid)
  | .inf s => if s then (nan32, Flags.invalid) else (inf32, .none)
  | .fin s m e =>
    if m = 0 then (0xFF800000, { dz := true })
    else if s then (nan32, Flags.invalid)
    else if w = one32 then (0, .none)
    else
      let len := bitLen m
      let mf : Num := .fin false m (1 - (len : Int))
      let n : Int := e + len - 1
      let j := m * 2 ^ (24 - len) / 2 ^ 18 % 32
      let (pr, _) := mulNum mf (Fmt.f32.decode (tabR.getD j 0))
      let (z, fl) := roundTo .f32 (addNum pr (.fin true 1 0) .rne).1 .rne false
      let t := rneAdd 0x3EF6384F (rneMul z 0xBEB8AA3B)
      let t := rneAdd 0xBF38AA3B (rneMul z t)
      let t := rneAdd 0x3FB8AA3B (rneMul z t)
      let t := rneMul z t
      (rneAdd (roundTo .f32 (.ofInt n) .rne false).1 (rneAdd (tabL.getD j 0) t), fl)

/-- A sign put on a result of R75. -/
def signed32 (neg : Bool) (w : Nat) : Nat := if neg then fneg32 w else w

/-- R75: FTANH. -/
def ftanh (w : Nat) : Nat × Flags :=
  match Fmt.f32.decode w with
  | .nan => (nan32, Flags.invalid)
  | x =>
    let neg := x.isNeg
    let a := w % 2 ^ 31
    let v := Fmt.f32.decode a
    if !v.lt (.fin false 9 0) then (signed32 neg one32, .none)
    else if v.lt (.fin false 1 (-12)) then (w, .none)
    else if v.lt (.fin false 1 (-3)) then
      let s := rneMul a a
      let q := rneAdd 0x3E088889 (rneMul s 0xBD5D0DD1)
      let q := rneAdd 0xBEAAAAAB (rneMul s q)
      (signed32 neg (rneAdd a (rneMul a (rneMul s q))), .none)
    else
      let (y, fl) := fexp2 (rneMul a 0x4038AA3B)
      (signed32 neg (rneDiv (rneAdd y (fneg32 one32)) (rneAdd y one32)), fl)

/-- R76: FSIGM. -/
def fsigm (w : Nat) : Nat × Flags :=
  match Fmt.f32.decode w with
  | .nan => (nan32, Flags.invalid)
  | _ =>
    let (y, fl) := fexp2 (rneMul (fneg32 w) 0x3FB8AA3B)
    let r := rneDiv one32 (rneAdd one32 y)
    (r, { fl with of := fl.of && r % 2 ^ 31 == inf32 })

end Sys2Proof.Machine
end

