-- ==== Sys2Proof/Machine/VectorOps.lean ====
section
/-! DEFINITION. The 65 vector operators of memory cells (14_vector_operators): what each computes from its operands, and what it
changes in its cell's sticky flags, underflow count, draw count and AMAX state. -/

namespace Sys2Proof.Machine

/-- An operand as an element reads it (R232): kind, lanes, valid mask, and whether it comes through an input port. -/
structure Opnd where
  kind : TKind := .data
  lanes : List Lane := List.replicate 16 0
  mask : BitVec 16 := 0xFFFF
  port : Bool := false
  deriving DecidableEq, Repr

/-- An element's result (R234): kind, lanes, valid mask. -/
structure ERes where
  kind : TKind := .data
  lanes : List Lane := List.replicate 16 0
  mask : BitVec 16 := 0
  deriving DecidableEq, Repr

/-- What an element knows of its place and its context: cell, index, UFM and ASCALE (R93), the underflow key and the round's
tag (R63), and the firing's frame tag (R217). -/
structure EEnv where
  cell : Nat
  elem : Nat
  ufm : Bool := false
  ascale : Bool := false
  key : Nat := 0
  tag : Nat := 0
  frame : Nat := 0
  deriving DecidableEq, Repr

/-- Lane k of an operand. -/
def Opnd.lane (o : Opnd) (k : Nat) : Lane := o.lanes.getD k 0
/-- Is lane k valid? -/
def Opnd.ok (o : Opnd) (k : Nat) : Bool := o.mask.getLsbD k
/-- The value of width w in position i of a lane (R50). -/
def laneVal (l : Lane) (w i : Nat) : Nat := l.toNat / 2 ^ (w * i) % 2 ^ w
/-- A mask with the given lanes set. -/
def maskOf (f : Nat → Bool) : BitVec 16 := BitVec.ofNat 16 ((List.range 16).foldl (fun n k => n + (if f k then 2 ^ k else 0)) 0)
/-- A result of 16 lanes and a mask, zero where it is not valid (R235). -/
def mkRes (f : Nat → Lane) (ok : Nat → Bool) : ERes :=
  { lanes := (List.range 16).map (fun k => if ok k then f k else 0), mask := maskOf ok }
/-- Sticky flags of a cell raised (R237). -/
def Cell.raise (c : Cell) (f : Flags) : Cell := { c with flags := c.flags ||| f.bits }

/-- What an operator gives at one position: bits with their flags, or an exact value still to be rounded to the result format. -/
inductive Pos
  | bits (v : Nat) (f : Flags)
  | round (x : Num) (m : RMode) (f : Flags)

/-- Is the mode stochastic? -/
def RMode.isSr : RMode → Bool
  | .sr _ => true
  | _ => false

/-- R57, R62, R63, R237: one position finished: rounded, its underflow counted and resolved, its flags raised. -/
def finishPos (v : EEnv) (d : Fmt) (sat : Bool) (lane : Nat) (c : Cell) : Pos → Nat × Cell
  | .bits w f => (w, c.raise f)
  | .round x m f =>
    let (w, g) := roundTo d x m sat
    if d.isNarrow && !m.isSr && roundsToZero d x w then
      let c := { c with ufBlock := min (c.ufBlock + 1) 0xFFFF }
      if v.ufm then
        let r := (philox c.draws v.tag (32 * v.cell + v.elem) lane v.key).1
        let (w, g) := roundTo d x (.sr r) sat
        (w, ({ c with draws := c.draws + 1 } : Cell).raise (f.or g))
      else (w, c.raise (f.or g))
    else (w, c.raise (f.or g))

/-- R233, R235, R245: an operator applied at each position of each lane valid in every operand; where the widths of source and
result differ, at position 0 alone. `f` gets the lane and the operands' values at the position. -/
def mapPositions (v : EEnv) (s d : Fmt) (sat : Bool) (o : List Opnd) (f : Nat → List Nat → Pos) (c : Cell) : ERes × Cell :=
  let n := if s.width = d.width then 32 / d.width else 1
  let ok (k : Nat) : Bool := o.all (fun p => p.ok k)
  let (ls, c) := (List.range 16).foldl (fun (acc : List Lane × Cell) k =>
    if ok k then
      let (r, c) := (List.range n).foldl (fun (a : Nat × Cell) i =>
        let (w, c) := finishPos v d sat k a.2 (f k (o.map (fun p => laneVal (p.lane k) s.width i)))
        (a.1 + w * 2 ^ (d.width * i), c)) (0, acc.2)
      (acc.1 ++ [w32 r], c)
    else (acc.1 ++ [0], acc.2)) ([], c)
  ({ lanes := ls, mask := maskOf ok }, c)

/-! ## Floating point (R238-R242) -/

/-- R241: FCLS's class number of a bit pattern. -/
def floatClass (f : Fmt) (w : Nat) : Nat :=
  match f.decode w with
  | .inf s => if s then 0 else 7
  | .nan => if f = .e4m3 then 9 else if w / 2 ^ (f.mbits - 1) % 2 = 1 then 9 else 8
  | .fin s m _ =>
    if m = 0 then (if s then 3 else 4)
    else if w / 2 ^ f.mbits % 2 ^ f.ebits = 0 then (if s then 2 else 5)
    else if s then 1 else 6

/-- R239: FRND: an integral value by the mode, the sign kept, NX not raised. -/
def roundIntegral (d : Fmt) (w : Nat) (m : RMode) : Pos :=
  match d.decode w with
  | .nan => .round .nan .rne Flags.invalid
  | .inf _ => .bits w .none
  | .fin s n e => .bits (roundTo d (.fin s (roundUnits m s n e 0) 0) .rne false).1 .none

/-- NV for a NaN operand (R60). -/
def nanFlag (x : Num) : Flags := if x.isNaN then Flags.invalid else .none

/-- R239: the power of two FSCL scales by, from lane word `l`: an i32, or an e8m0 scale; none for a NaN scale. A power beyond
what any value of any format can meet gives what the nearest such power gives. -/
def fsclPower (aux : Nat) (l : Lane) : Option Int :=
  if aux % 2 = 0 then some (max (-1000) (min 1000 l.toInt))
  else if l.toNat % 256 = 255 then none else some ((l.toNat % 256 : Nat) - 127)

/-- R242: a special function run on f32 and rounded to D. -/
def viaF32 (d : Fmt) (w : Nat) (f : Nat → Nat × Flags) : Pos :=
  if d = .f32 then (let (r, fl) := f w; .bits r fl)
  else
    let (r, fl) := f (roundTo .f32 (d.decode w) .rne false).1
    .round (Fmt.f32.decode r) .rne fl

/-- R238-R242: a floating-point operator at one position. `l` is lane k of operand 1, which FSCL reads whole. -/
def floatPos (oper : Nat) (d : Fmt) (mode aux : Nat) (l : Lane) (a : List Nat) : Pos :=
  let w0 := a.getD 0 0
  let w1 := a.getD 1 0
  let x := d.decode w0
  let y := d.decode w1
  let z := d.decode (a.getD 2 0)
  let m := RMode.ofCode mode
  let rnd (p : Num × Flags) : Pos := .round p.1 m p.2
  let pick (p : Nat × Flags) : Pos := .bits p.1 p.2
  let sg := 2 ^ (d.width - 1)
  match oper with
  | 0x001 => rnd (addNum x y m)
  | 0x002 => rnd (addNum x y.neg m)
  | 0x003 => rnd (mulNum x y)
  | 0x004 => rnd (fmaNum x y z m)
  | 0x005 => rnd (fmaNum x y z.neg m)
  | 0x006 => rnd (fmaNum x.neg y z m)
  | 0x007 => pick (fminmax .min d w0 w1)
  | 0x008 => pick (fminmax .max d w0 w1)
  | 0x009 => pick (fminmax .minp d w0 w1)
  | 0x00A => pick (fminmax .maxp d w0 w1)
  | 0x00B => .bits (w0 % sg) .none
  | 0x00C => .bits (if w0 < sg then w0 + sg else w0 - sg) .none
  | 0x00D => .bits (w0 % sg + w1 / sg * sg) .none
  | 0x00E =>
    let (r, fl) := fcompare mode x y
    .bits (if r then 2 ^ d.width - 1 else 0) fl
  | 0x00F => .bits (floatClass d w0) .none
  | 0x010 => roundIntegral d w0 m
  | 0x011 =>
    match fsclPower aux l with
    | some n => .round (x.scale n) m (nanFlag x)
    | none => .round .nan m (nanFlag x)
  | 0x012 => rnd (rcpNum x)
  | 0x013 => rnd (rsqNum x)
  | 0x014 => rnd (sqrtNum x)
  | 0x015 => viaF32 d w0 fexp2
  | 0x016 => viaF32 d w0 flog2
  | 0x017 => viaF32 d w0 ftanh
  | _ => viaF32 d w0 fsigm

/-- Operands a floating-point operator names (R239-R242). -/
def floatArity (oper : Nat) : Nat :=
  if oper = 4 ∨ oper = 5 ∨ oper = 6 then 3
  else if oper ≤ 0x00A ∨ oper = 0x00D ∨ oper = 0x00E ∨ oper = 0x011 then 2
  else 1

/-! ## Integers (R243, R244) -/

/-- R243: raw32 is read as n32. -/
def intFmt (f : Fmt) : Fmt := if f = .raw32 then .n32 else f

/-- R244: BFXV and BFIV within a 32-bit lane. -/
def bfxv (signed : Bool) (a off wd : Nat) : Nat :=
  let e := min (off + wd) 32
  if wd = 0 ∨ 32 ≤ off then 0
  else
    let n := e - off
    let v := a / 2 ^ off % 2 ^ n
    if signed ∧ 2 ^ (n - 1) ≤ v then v + 2 ^ 32 - 2 ^ n else v
/-- R244: BFIV of a into b. -/
def bfiv (a b off wd : Nat) : Nat :=
  let e := min (off + wd) 32
  if wd = 0 ∨ 32 ≤ off then b
  else
    let n := e - off
    b - (b / 2 ^ off % 2 ^ n) * 2 ^ off + (a % 2 ^ n) * 2 ^ off

/-- R243: the relation ICMP's code names. -/
def intCompare (cc : Nat) (x y : Int) : Bool :=
  match cc with
  | 0 => x == y
  | 1 => x != y
  | 2 => decide (x < y)
  | 3 => decide (x ≤ y)
  | 4 => decide (y < x)
  | _ => decide (y ≤ x)

/-- R243, R244: an integer operator at one position. -/
def intPos (oper : Nat) (t : Fmt) (mode : Nat) (sat : Bool) (k : Lane) (a : List Nat) : Nat :=
  let w := t.width
  let u := a.getD 0 0
  let v := a.getD 1 0
  let x := t.intValue u
  let y := t.intValue v
  let z := t.intValue (a.getD 2 0)
  let low (i : Int) : Nat := intBits w i
  let rg := intRange t.isSigned w
  match oper with
  | 0x080 => low (x + y)
  | 0x081 => low (x - y)
  | 0x082 => low (x * y)
  | 0x083 => low (x * y / 2 ^ w)
  | 0x084 => low (x * y + z)
  | 0x085 => if y < x then v else u
  | 0x086 => if x < y then v else u
  | 0x087 => if t.isSigned then (if sat then low (min (x.natAbs : Int) rg.2) else low (x.natAbs : Int)) else u
  | 0x088 => low (clampInt rg (x + y))
  | 0x089 => low (clampInt rg (x - y))
  | 0x08A => u &&& v
  | 0x08B => u ||| v
  | 0x08C => u ^^^ v
  | 0x08D => u &&& (2 ^ w - 1 - v)
  | 0x08E => if w ≤ v then 0 else u * 2 ^ v % 2 ^ w
  | 0x08F => if w ≤ v then 0 else u / 2 ^ v
  | 0x090 => if w ≤ v then (if x < 0 then 2 ^ w - 1 else 0) else low (x / 2 ^ v)
  | 0x091 => if intCompare mode x y then 2 ^ w - 1 else 0
  | 0x092 => popCount w u
  | 0x093 => leadZeros w u
  | 0x094 => bfxv t.isSigned u (k.toNat % 256) (k.toNat / 256 % 256)
  | _ => bfiv u v (k.toNat % 256) (k.toNat / 256 % 256)

/-- Operands an integer operator names. -/
def intArity (oper : Nat) : Nat :=
  if oper = 0x084 then 3 else if oper = 0x087 ∨ oper = 0x092 ∨ oper = 0x093 ∨ oper = 0x094 then 1 else 2

/-! ## Conversion and scaling (R245-R252) -/

/-- R246, R59: CVT at one position. -/
def cvtPos (s d : Fmt) (m : RMode) (sat : Bool) (w : Nat) : Pos :=
  if d.isFloat then
    let x := if s = .e8m0 then e8m0Value w else if s.isFloat then s.decode w else .ofInt (s.intValue w)
    .round x m (nanFlag x)
  else
    let (r, fl) := convertValue d s w m sat
    .bits r fl

/-- R249: the exact product of a value and 2^(s - 127) or 2^(127 - s); a NaN scale gives NaN. -/
def scaleBy (x : Num) (sc : Nat) (up : Bool) : Num :=
  if sc = 255 then .nan else x.scale (if up then (sc : Int) - 127 else 127 - (sc : Int))

/-- R249: QNT at one position. -/
def qntPos (d s : Fmt) (m : RMode) (sc w : Nat) : Pos :=
  let x := s.decode w
  let y := scaleBy x sc false
  if d = .i8 then
    let (r, fl) := roundToInt true 8 y m
    .bits (intBits 8 r) fl
  else .round y m (nanFlag x)

/-- R249: DQNT at one position. -/
def dqntPos (s : Fmt) (m : RMode) (sc w : Nat) : Pos :=
  let x := if s = .i8 then Num.ofInt (s.intValue w) else s.decode w
  .round (scaleBy x sc true) m (nanFlag x)

/-- R248: UNPK. -/
def unpk (t : Fmt) (j : Nat) (a : Opnd) : ERes :=
  let n := 32 / t.width
  mkRes (fun k => w32 (laneVal (a.lane ((16 * j + k) / n)) t.width ((16 * j + k) % n))) (fun k => a.ok ((16 * j + k) / n))

/-- R248: PACK. -/
def pack (t : Fmt) (j : Nat) (a b : Opnd) : ERes :=
  let w := t.width
  let n := 32 / w
  mkRes (fun m => w32 ((List.range n).foldl (fun acc i =>
      let p := n * m + i
      acc + (if 16 * j ≤ p ∧ p < 16 * j + 16 then laneVal (a.lane (p - 16 * j)) w 0 else laneVal (b.lane m) w i) * 2 ^ (w * i)) 0))
    (fun m => b.ok m && (List.range 16).all (fun k => a.ok k || decide (16 * j + k < n * m) || decide (n * m + n ≤ 16 * j + k)))

/-- R250: AMAX over one value. -/
def amaxValue (s : Fmt) (c : Cell) (w : Nat) : Cell :=
  match s.decode w with
  | .nan => { c with nans := min (c.nans + 1) 0xFFFF }
  | x =>
    let a := w32 ((roundTo .f32 x .rne false).1 % 2 ^ 31)
    { c with mag := if c.mag.toNat < a.toNat then a else c.mag }

/-- R250: AMAX. -/
def amax (s : Fmt) (a : Opnd) (c : Cell) : ERes × Cell :=
  let n := 32 / s.width
  let c := (List.range 16).foldl (fun c k =>
    if a.ok k then (List.range n).foldl (fun c i => amaxValue s c (laneVal (a.lane k) s.width i)) c else c) c
  (mkRes (fun k => if k = 0 then c.mag else w32 c.nans) (fun k => decide (k < 2)), c)

/-- R251: the smallest scale that fits MAG into the format, 254 if none does. -/
def fitScale (f : Fmt) (mag : Num) : Nat :=
  let top := f.decode f.maxFinite
  ((List.range 255).find? (fun (s : Nat) => !top.lt (mag.scale (127 - (s : Int))))).getD 254

/-- R251, R266: a header word. -/
def headerWord (scale aux fmt : Nat) : Lane := w32 (scale + (aux % 2 ^ 16) * 2 ^ 8 + (aux / 2 ^ 16 % 2) * 2 ^ 24 + fmt * 2 ^ 25)

/-- A HDR token's result: lane 0 alone, valid or not. -/
def headerRes (w : Lane) (ok : Bool) : ERes := { mkRes (fun _ => w) (fun k => k == 0 && ok) with kind := .hdr }

/-- R251: SCSEL. -/
def scsel (v : EEnv) (d : Fmt) (aux : Nat) (k : Lane) (c : Cell) : ERes × Cell :=
  let s := if !v.ascale then (c.latches.get 0x7F 0).toNat % 256
    else if c.mag = 0 then 127
    else
      let s := fitScale d (Fmt.f32.decode c.mag.toNat)
      if k.toNat % 2 ^ 16 < c.ufBlock ∧ 0 < s then s - 1 else s
  (headerRes (headerWord s aux d.code) true, { c with mag := 0, nans := 0, ufBlock := 0 })

/-- R245-R252: a conversion or scaling operator. -/
def convOp (v : EEnv) (e : Elem) (o : List Opnd) (c : Cell) : ERes × Cell :=
  let s := Fmt.ofHeader e.sfmt
  let d := Fmt.ofHeader e.dfmt
  let m := RMode.ofCode e.mode
  let a := o.getD 0 {}
  let b := o.getD 1 {}
  match e.oper with
  | 0x100 => mapPositions v s d e.sat [a] (fun _ x => cvtPos s d m e.sat (x.getD 0 0)) c
  | 0x101 => mapPositions v s d e.sat [a, b] (fun k x =>
      let y := s.decode (x.getD 0 0)
      .round y (.sr (b.lane k).toNat) (nanFlag y)) c
  | 0x102 => (pack s e.aux a b, c)
  | 0x103 => (unpk s e.aux a, c)
  | 0x104 => if b.ok 0 then mapPositions v s d e.sat [a] (fun _ x => qntPos d s m ((b.lane 0).toNat % 256) (x.getD 0 0)) c else ({}, c)
  | 0x105 => if b.ok 0 then mapPositions v s d false [a] (fun _ x => dqntPos s m ((b.lane 0).toNat % 256) (x.getD 0 0)) c else ({}, c)
  | 0x106 => amax s a c
  | 0x107 => scsel v d e.aux e.k c
  | _ => (mkRes (fun k => w32 (unif (a.lane k).toNat)) a.ok, c)

/-- Operands a conversion operator names. -/
def convArity (oper : Nat) : Nat := if oper = 0x101 ∨ oper = 0x102 ∨ oper = 0x104 ∨ oper = 0x105 then 2 else 1

/-! ## Lane operators (R253-R257) -/

/-- f32 bits of -0. -/
def negZero32 : Nat := 0x80000000

/-- A sum of two lanes: f32 rounded by the mode, or modulo 2^32, with the flags raised. -/
def laneAdd (t : Fmt) (m : RMode) (a b : Nat) (c : Cell) : Nat × Cell :=
  if t = .f32 then (let (r, f) := fadd32 a b m; (r, c.raise f)) else ((a + b) % 2 ^ 32, c)

/-- R69, R254: two addends of the tree, none for a sum of invalid lanes alone. Such a sum, -0 (or 0), leaves the other addend
unchanged under every mode; a NaN it meets is consumed as by any addition (R52, R60). -/
def treeAdd (t : Fmt) (m : RMode) : Option Nat → Option Nat → Cell → Option Nat × Cell
  | some a, some b, c => let (x, c) := laneAdd t m a b c; (some x, c)
  | none, none, c => (none, c)
  | some a, none, c | none, some a, c =>
    if t = .f32 ∧ (Fmt.f32.decode a).isNaN then (some nan32, c.raise Flags.invalid) else (some a, c)

/-- One level of R69's tree. -/
def pairLevel (t : Fmt) (m : RMode) : List (Option Nat) → Cell → List (Option Nat) × Cell
  | a :: b :: r, c =>
    let (x, c) := treeAdd t m a b c
    let (l, c) := pairLevel t m r c
    (x :: l, c)
  | l, c => (l, c)

/-- R254: LSUM. -/
def lsum (t : Fmt) (m : RMode) (a : Opnd) (c : Cell) : ERes × Cell :=
  let l := (List.range 16).map (fun k => if a.ok k then some (a.lane k).toNat else none)
  let (l, c) := pairLevel t m l c
  let (l, c) := pairLevel t m l c
  let (l, c) := pairLevel t m l c
  let (l, c) := pairLevel t m l c
  (mkRes (fun _ => w32 ((l.getD 0 none).getD (if t = .f32 then negZero32 else 0))) (fun k => k == 0), c)

/-- The lesser or greater of two lanes, with the flags raised. -/
def laneMinMax (mx : Bool) (t : Fmt) (a b : Nat) (c : Cell) : Nat × Cell :=
  if t = .f32 then (let (r, f) := fminmax (if mx then .max else .min) .f32 a b; (r, c.raise f))
  else
    let x := t.intValue a
    let y := t.intValue b
    (if mx then (if x < y then b else a) else (if y < x then b else a), c)

/-- R254: LMAX and LMIN. -/
def lminmax (mx : Bool) (t : Fmt) (a : Opnd) (c : Cell) : ERes × Cell :=
  match ((List.range 16).filter (fun k => a.ok k)).map (fun k => (a.lane k).toNat) with
  | [] => ({}, c)
  | x :: r =>
    -- a lone NaN is the canonical one with NV (R52, R254)
    let (x, c) := if t = .f32 ∧ (Fmt.f32.decode x).isNaN then (nan32, c.raise Flags.invalid) else (x, c)
    let (x, c) := r.foldl (fun (p : Nat × Cell) y => laneMinMax mx t p.1 y p.2) (x, c)
    (mkRes (fun _ => w32 x) (fun k => k == 0), c)

/-- R255: LSCAN. -/
def lscan (t : Fmt) (m : RMode) (a c0 : Opnd) (c : Cell) : ERes × Cell :=
  let (l, _, c) := (List.range 16).foldl (fun (p : List Lane × Nat × Cell) k =>
    let (acc, c) := if a.ok k then laneAdd t m p.2.1 (a.lane k).toNat p.2.2 else p.2
    (p.1 ++ [w32 acc], acc, c)) ([], (c0.lane 15).toNat, c)
  ({ lanes := l, mask := a.mask }, c)

/-- R253-R257: a lane operator. -/
def laneOp (e : Elem) (o : List Opnd) (c : Cell) : ERes × Cell :=
  let t := Fmt.ofHeader e.sfmt
  let m := RMode.ofCode e.mode
  let a := o.getD 0 {}
  let b := o.getD 1 {}
  let x := o.getD 2 {}
  match e.oper with
  | 0x140 => lsum t m a c
  | 0x141 => lminmax true t a c
  | 0x142 => lminmax false t a c
  | 0x143 => lscan t m a b c
  | 0x144 => (mkRes (fun k => a.lane ((b.lane k).toNat % 16)) (fun k => a.ok ((b.lane k).toNat % 16) && b.ok k), c)
  | 0x145 => (mkRes (fun _ => a.lane (e.aux % 16)) (fun _ => a.ok (e.aux % 16)), c)
  | 0x146 => (mkRes (fun k => a.lane ((k + e.aux) % 16)) (fun k => a.ok ((k + e.aux) % 16)), c)
  | 0x147 =>
    let g (k : Nat) : Bool := x.ok k && x.lane k != 0
    (mkRes (fun k => if g k then a.lane k else b.lane k) (fun k => if g k then a.ok k else b.ok k), c)
  | 0x148 =>
    let g (k : Nat) : Bool := if e.aux % 2 = 0 then b.ok k && b.lane k != 0 else e.k.getLsbD k
    (mkRes a.lane (fun k => a.ok k && g k), c)
  | _ =>
    let n := ((List.range 16).filter (fun k => a.ok k && (decide (e.aux % 2 = 0) || a.lane k != 0))).length
    (mkRes (fun _ => w32 n) (fun k => k == 0), c)

/-- Operands a lane operator names. -/
def laneArity (oper aux : Nat) : Nat :=
  if oper = 0x147 then 3
  else if oper = 0x143 ∨ oper = 0x144 ∨ (oper = 0x148 ∧ aux % 2 = 0) then 2 else 1

/-! ## All vector operators -/

/-- Is this an operator of 14_vector_operators? -/
def isVector (oper : Nat) : Bool := decide (oper < 0x180)

/-- R232: how many operands, from operand 0 on, a vector operator names. -/
def vecArity (e : Elem) : Nat :=
  if e.oper ≤ 0x018 then floatArity e.oper
  else if e.oper ≤ 0x095 then intArity e.oper
  else if e.oper ≤ 0x108 then convArity e.oper
  else laneArity e.oper e.aux

/-- R238-R257: what a vector operator computes (step 4 of R234). -/
def vecOp (v : EEnv) (e : Elem) (o : List Opnd) (c : Cell) : ERes × Cell :=
  if e.oper ≤ 0x018 then
    let d := if e.dfmt = 0 then .f32 else Fmt.ofHeader e.dfmt
    if e.oper = 0x011 then
      mapPositions v d d e.sat o (fun k x => floatPos e.oper d e.mode e.aux ((o.getD 1 {}).lane k) x) c
    -- R242 names no SAT, so R233 has its operators ignore it
    else mapPositions v d d (e.sat && decide (e.oper < 0x015)) o (fun _ x => floatPos e.oper d e.mode e.aux 0 x) c
  else if e.oper ≤ 0x095 then
    let t := intFmt (Fmt.ofHeader e.sfmt)
    mapPositions v t t false o (fun _ x => .bits (intPos e.oper t e.mode e.sat e.k x) .none) c
  else if e.oper ≤ 0x108 then convOp v e o c
  else laneOp e o c

/-- R258: the energy class of a vector operator. -/
def vecClass (e : Elem) : Nat :=
  if 0x012 ≤ e.oper ∧ e.oper ≤ 0x018 then 11
  else if e.oper ≤ 0x018 then (if e.sfmt ≤ 1 then 8 else if e.sfmt ≤ 3 then 9 else 10)
  else if e.oper ≤ 0x095 then 12
  else if e.oper ≤ 0x108 then 13
  else 14

end Sys2Proof.Machine
end

