-- ==== Sys2Proof/Machine/CellOps.lean ====
section
/-! DEFINITION. The structural, cell-memory, matrix, merge and island operators (15_structural_matrix_merge_island_operators), and
the fill watermarks their reads wait on (R299). -/

namespace Sys2Proof.Machine

/-- What executing an element leads to: the state, its result, whether the result was computed (R236), what it emits: port,
token fields and frame tag, and its energy classes with counts. -/
structure Done where
  s : State
  res : ERes := {}
  computed : Bool := true
  outs : List (Nat × ERes × Nat) := []
  classes : List (Nat × Nat) := []

/-! ## Watermarks (R299) -/

/-- R299: does a command write elements into cell SRAM? -/
def Cmd.fillsCells (c : Cmd) : Bool :=
  (c.isStore || c.isReduce || (match c.kind with | .scpy _ => true | _ => false)) && Pattern.space c.pat == 1

/-- R299: the footprint of a filling command: with FPU the whole cell-local span. -/
def Cmd.fillLo (c : Cmd) : Nat := if Pattern.fpu c.pat then 0 else (Pattern.fplo c.pat).toNat
/-- R299: its end. -/
def Cmd.fillHi (c : Cmd) : Nat := if Pattern.fpu c.pat then 0x100000 else (Pattern.fphi c.pat).toNat

/-- R299: the lowest address of the elements not yet visible: those still to be written, values known invalid apart, and those written
less than four fc ago; FPLO for a command whose targets come from indices, FPHI when there is none. A command that has stopped keeps
its mark until it completes. -/
def State.watermark (s : State) (t id : Nat) (c : Cmd) : Nat :=
  if c.indexed then c.fillLo
  else
    let from_ := match c.kind with
      | .scpy _ => (c.flight.map (fun f => f.n)).foldl min c.next
      | _ => c.next
    let ahead := (List.range (Pattern.total c.pat - from_)).filterMap (fun i => match c.elemAddr c.pat (from_ + i) none with
        | .at a => if c.isStore && ((c.vals[i]?).map (fun v => v.1.isNone)).getD false then none else some a
        | _ => none)
    let fresh := ((s.tile t).cellWrites.filter (fun w => w.rank == 16 + id && decide (s.fcOf t < w.fc + 4))).map (fun w => w.addr)
    (ahead ++ fresh).foldl min c.fillHi

/-- R269, R299: must a read of the word at a cell address wait? It does while a byte of it lies in a footprint at or above its mark. -/
def State.fillHolds (s : State) (t addr : Nat) : Bool :=
  (s.tile t).cmds.any (fun p => Cmd.fillsCells p.2
    && decide (max addr (max (Cmd.fillLo p.2) (s.watermark t p.1 p.2)) < min (addr + 4) (Cmd.fillHi p.2)))

/-! ## Kinds (R234, R260) -/

/-- R234, steps 1 to 3, over operands in order: the result that is passed on, if any. -/
def passKind (o : List Opnd) (hdr : Bool) : Option ERes :=
  let p := o.filter (fun x => x.port)
  if p.any (fun x => x.kind == .poison) then some { kind := .poison }
  else if p.any (fun x => x.kind == .eos) then some { kind := .eos }
  else if hdr then (p.find? (fun x => x.kind == .hdr)).map (fun x => { kind := .hdr, lanes := x.lanes, mask := x.mask })
  else none

/-- An operand unchanged, as a result. -/
def Opnd.res (o : Opnd) : ERes := { kind := o.kind, lanes := o.lanes, mask := o.mask }
/-- An operand unchanged, with its own kind only if it comes through a port (R232). -/
def trueLane (o : Opnd) : Bool := o.ok 0 && o.lane 0 != 0

/-- The tokens an element emits by its OUT bits (R236). -/
def outsOf (e : Elem) (frame : Nat) (r : ERes) : List (Nat × ERes × Nat) :=
  (if e.out % 2 = 1 then [(0, r, frame)] else []) ++ (if e.out / 2 % 2 = 1 then [(1, r, frame)] else [])

/-! ## Structural operators (R261-R266) -/

/-- R223, R262: the ports a STEER sends its data to. -/
def steerPorts (e : Elem) (a c : Opnd) : List Nat :=
  let all := (if e.out % 2 = 1 then [0] else []) ++ (if e.out / 2 % 2 = 1 then [1] else [])
  if a.kind = .eos || a.kind = .poison || c.kind = .poison then all
  else all.filter (fun k => k == (if trueLane c then 1 else 0))

/-- R264: IOTA's lanes on its n-th execution. -/
def iotaRes (b : Lane) (step n : Nat) : ERes :=
  mkRes (fun k => b + BitVec.ofNat 32 (16 * n + k) * (BitVec.ofNat 16 step).signExtend 32) (fun _ => true)

/-- R265: RNGV's lanes. -/
def rngvRes (a b c : Opnd) : ERes :=
  if (a.ok 0 && a.ok 1 && b.ok 0 && b.ok 1 && c.ok 0 && c.ok 1) then
    let key := (c.lane 1).toNat * 2 ^ 32 + (c.lane 0).toNat
    let l := (List.range 4).flatMap (fun j =>
      let (w0, w1, w2, w3) := philox ((a.lane 0).toNat + j) (a.lane 1).toNat (b.lane 0).toNat (b.lane 1).toNat key
      [w32 w0, w32 w1, w32 w2, w32 w3])
    { lanes := l, mask := 0xFFFF }
  else {}

/-- R261-R266: a structural operator other than RET. AMRG, in a group of its own, passes the one token its firing consumed. -/
def structOp (v : EEnv) (e : Elem) (o : List Opnd) (taken : Option Opnd) (t : Nat) (s : State) : Done :=
  let a := o.getD 0 {}
  let b := o.getD 1 {}
  let c := o.getD 2 {}
  let plain (computed : Bool) (r : ERes) : Done := { s, res := r, computed, outs := outsOf e v.frame r, classes := [(15, 1)] }
  let step (l : List Opnd) (hdr : Bool) (r : ERes) : Done := match passKind l hdr with
    | some p => plain false p
    | none => plain true r
  match e.oper with
  | 0x180 =>
    let r : ERes := if b.kind = .poison then { kind := .poison } else a.res
    { s, res := r, outs := (steerPorts e a b).map (fun k => (k, r, v.frame)), classes := [(15, 1)] }
  | 0x181 =>
    let x := if trueLane c then b else a
    step [c, x] false x.res
  | 0x182 => plain true (match taken with
      | some x => x.res
      | none => {})
  | 0x183 => step [a, b, c] false a.res
  | 0x184 => step [a] true { kind := .data, lanes := b.lanes, mask := b.mask }
  | 0x185 =>
    match passKind [a] true with
    | some p => plain false p
    | none =>
      let n := ((s.tile t).cell v.cell).counts.get 0 v.elem
      { plain true (iotaRes e.k (e.aux % 2 ^ 16) n) with
        s := s.modTile t (fun u => u.modCell v.cell (fun x => { x with counts := x.counts.set v.elem (n + 1) })) }
  | 0x186 => { s, classes := [(15, 1)] }
  | 0x187 => { s, res := a.res, outs := outsOf e (e.aux % 16) a.res, classes := [(15, 1)] }
  | 0x189 =>
    match passKind [a, b, c] true with
    | some p => plain false p
    | none =>
      let r := rngvRes a b c
      { plain true r with classes := (15, 1) :: (if r.mask = 0 then [] else [(49, 4)]) }
  | 0x18A => step [a, b] false (headerRes (headerWord ((b.lane 0).toNat % 256) e.aux e.dfmt) (b.ok 0))
  | _ => step [a, b] false (if trueLane b then { kind := .eos } else a.res)

/-- R260: operands a structural operator's entry names. -/
def structArity (oper : Nat) : Nat :=
  match oper with
  | 0x185 | 0x187 | 0x188 => 1
  | 0x180 | 0x182 | 0x184 | 0x18A | 0x18B => 2
  | _ => 3

/-! ## Cell memory (R267-R269) -/

/-- R267: byte address in the cell of the word a lane value names, k words on. -/
def cellWord (x : Lane) (e : Elem) (k : Nat) : Nat := (x.toNat + e.k.toNat + 4 * k) % 65536 / 4 * 4

/-- Lanes at which ATMC acts (R268). -/
def atmcLane (e : Elem) (o : List Opnd) (k : Nat) : Bool :=
  (o.getD 0 {}).ok k && (o.getD 1 {}).ok k && (decide (e.mode ≠ 10) || (o.getD 2 {}).ok k)

/-- R267, R268: lanes and word addresses a cell-memory operator reads. -/
def cellReads (e : Elem) (o : List Opnd) : List (Nat × Nat) :=
  let x := o.getD 0 {}
  match e.oper with
  | 0x1C0 => if x.ok 0 then (List.range 16).map (fun k => (k, cellWord (x.lane 0) e k)) else []
  | 0x1C2 => ((List.range 16).filter (fun k => x.ok k)).map (fun k => (k, cellWord (x.lane k) e 0))
  | 0x1C4 => ((List.range 16).filter (fun k => atmcLane e o k)).map (fun k => (k, cellWord (x.lane k) e 0))
  | _ => []

/-- R267: lanes and word addresses STC and STCA write. -/
def cellStores (e : Elem) (o : List Opnd) : List (Nat × Nat) :=
  let x := o.getD 0 {}
  let d := o.getD 1 {}
  match e.oper with
  | 0x1C1 => if x.ok 0 then ((List.range 16).filter (fun k => d.ok k)).map (fun k => (k, cellWord (x.lane 0) e k)) else []
  | 0x1C3 => ((List.range 16).filter (fun k => x.ok k && d.ok k)).map (fun k => (k, cellWord (x.lane k) e 0))
  | _ => []

/-- R268: ATMC's new word, with the flags of its rounding or comparison. -/
def atmcNew (e : Elem) (old d c : Nat) : Nat × Flags :=
  let t := Fmt.ofHeader e.sfmt
  match e.mode with
  | 0 => ((old + d) % 2 ^ 32, .none)
  | 1 => fadd32 old d .rne
  | 2 => (if t.intValue d < t.intValue old then d else old, .none)
  | 3 => (if t.intValue old < t.intValue d then d else old, .none)
  | 4 => fminmax .min .f32 old d
  | 5 => fminmax .max .f32 old d
  | 6 => (old &&& d, .none)
  | 7 => (old ||| d, .none)
  | 8 => (old ^^^ d, .none)
  | 9 => (d, .none)
  | _ => (if old = d then c else old, .none)

/-- R231, R229: a fabric read of words that are pending under PENDTRAP: PEND, and the round's strand takes PENDREAD; the first
read decides its TRAPV. -/
def State.pendRead (s : State) (t : Nat) (v : EEnv) (words : List Nat) : State :=
  if !(s.ctx (s.tile t).ctx).pendTrap then s
  else match words.find? (fun w => (s.tile t).cellPending (s.fcOf t) (65536 * v.cell + w) 4) with
    | none => s
    | some w =>
      let s := s.modTile t (fun u => { u with fstat := { u.fstat with pend := true } })
      s.postCause t (s.tile t).fstat.rstr 0x23 (w64 (w * 65536 + v.elem * 16 + v.cell))

/-- R269: the cell's sticky ECC flag, if a word it reads fails its check. -/
def State.flagCellEcc (s : State) (t cell : Nat) (words : List Nat) : State :=
  if words.any (fun w => !((s.tile t).cellBad (65536 * cell + w) 4).isEmpty) then
    s.modTile t (fun u => u.modCell cell (fun c => { c with ecc := true })) else s

/-- R267, R268: a cell-memory operator. -/
def cellMemOp (v : EEnv) (e : Elem) (o : List Opnd) (t : Nat) (s : State) : Done :=
  let f := s.fcOf t
  let base := 65536 * v.cell
  let d := o.getD 1 {}
  let c := o.getD 2 {}
  let rd := cellReads e o
  let words := rd.map (fun p => p.2)
  let s := (s.flagCellEcc t v.cell words).pendRead t v words
  let fin (s : State) (r : ERes) (w : Bool) : Done :=
    { s, res := r, outs := outsOf e v.frame r,
      classes := (16, 1) :: ((if rd.isEmpty then [] else [(32, 1)]) ++ (if w then [(33, 1)] else [])) }
  match e.oper with
  | 0x1C0 | 0x1C2 =>
    let (s, l) := rd.foldl (fun (p : State × AMap Lane) a =>
      let (s, w) := p.1.cellRead t f (base + a.2) 4 a.1
      (s, p.2.set a.1 (w32 w))) (s, [])
    fin s (mkRes (fun k => l.get 0 k) (fun k => rd.any (fun a => a.1 == k))) false
  | 0x1C4 =>
    let (s, l) := rd.foldl (fun (p : State × AMap Lane) a =>
      let (s, old) := p.1.cellLatest t f (base + a.2) 4 a.1
      let (new, fl) := atmcNew e old (d.lane a.1).toNat (c.lane a.1).toNat
      let s := (s.cellWrite t f v.cell (base + a.2) (leBytes 4 new) true).modTile t (fun u => u.modCell v.cell (fun x => x.raise fl))
      (s, p.2.set a.1 (w32 old))) (s, [])
    fin s (mkRes (fun k => l.get 0 k) (fun k => rd.any (fun a => a.1 == k))) (!rd.isEmpty)
  | _ =>
    let ws := cellStores e o
    let s := ws.foldl (fun (s : State) a => s.cellWrite t f v.cell (base + a.2) (leBytes 4 (d.lane a.1).toNat)) s
    fin s { d.res with kind := .data } (!ws.isEmpty)

/-- Operands a cell-memory operator's entry names. -/
def cellMemArity (e : Elem) : Nat :=
  if e.oper = 0x1C0 ∨ e.oper = 0x1C2 then 1 else if e.oper = 0x1C4 ∧ e.mode = 10 then 3 else 2

/-! ## Matrix cells (R270-R274) -/

/-- Cell c's matrix state. -/
def Tile.mx (u : Tile) (c : Nat) : Matrix := u.matrix.get {} c
/-- Cell c's matrix state changed. -/
def Tile.modMx (u : Tile) (c : Nat) (f : Matrix → Matrix) : Tile := { u with matrix := u.matrix.set c (f (u.mx c)) }

/-- R271, R273: the bytes of two tokens' lanes, an invalid lane as zero bytes. -/
def pairBytes (a b : Opnd) : List Byte :=
  let half (o : Opnd) : List Byte := (List.range 16).flatMap (fun k => leBytes 4 (if o.ok k then (o.lane k).toNat else 0))
  half a ++ half b

/-- R271: rows of the plane that one MPUSH fills, by format code. -/
def rowsPerPush (f : Nat) : Nat := if f ≤ 3 then 1 else if f = 6 then 4 else if f = 7 then 8 else 2

/-- R271: MPUSH of two operands. -/
def mpush (m : Matrix) (f : Nat) (scale : Nat) (a b : Opnd) : Matrix :=
  let r0 := m.wc * rowsPerPush f
  let plane := ((List.range 128).zip (pairBytes a b)).foldl (fun (p : AMap Byte) x => p.set (128 * m.wc + x.1) x.2) m.shadow
  { m with
    shadow := plane, pfShadow := f, wc := (m.wc + 1) % 64,
    swShadow := if r0 % 32 = 0 ∧ r0 < 256 then m.swShadow.set (r0 / 32) (byte scale) else m.swShadow,
    badShadow := m.badShadow.filter (fun i => i / 128 != m.wc) }

/-- R272: MSWAP. -/
def mswap (m : Matrix) : Matrix :=
  { m with
    active := m.shadow, shadow := m.active, pfActive := m.pfShadow, pfShadow := m.pfActive,
    swActive := m.swShadow, swShadow := m.swActive, poisonActive := m.poisonShadow, poisonShadow := m.poisonActive,
    badActive := m.badShadow, badShadow := m.badActive, wc := 0 }

/-- R272: MZERO. -/
def mzero (m : Matrix) : Matrix := { m with acc := [], rowPoison := 0, rc := 0, dc := 0 }

/-- R273, R385: does a value of w bits at a bit of the active plane lie on a word whose ECC fails? It enters the beat as zero values. -/
def Matrix.badAt (m : Matrix) (bit w : Nat) : Bool :=
  m.badActive.any (fun i => decide (bit / 8 ≤ i) && decide (i ≤ (bit + w - 1) / 8))

/-- Bits of a plane from a bit number on. -/
def planeBits (m : Matrix) (bit w : Nat) : Nat :=
  let rd (i : Nat) : Nat := (m.active.get 0 i).toNat
  if w = 16 then rd (bit / 8) + 256 * rd (bit / 8 + 1)
  else if w = 8 then rd (bit / 8)
  else rd (bit / 8) / 2 ^ (bit % 8) % 16

/-- R55: weight i of a cb2 index under a table and a scale. -/
def cb2Weight (tab : AMap Lane) (g sc i : Nat) : Num :=
  let neg : Bool := if i < 7 then g.testBit (1 + i)
    else (List.range 7).foldl (fun (b : Bool) j => b != g.testBit (1 + j)) false
  let mag := (tab.get 0 (g / 256)).toNat / 2 ^ (4 * i) % 16
  if sc = 255 then .nan else .fin neg (2 * mag + g % 2) ((sc : Int) - 128)

/-- R273: weight (k, n) of the active plane. -/
def planeWeight (m : Matrix) (k n : Nat) : Num :=
  match m.pfActive with
  | 7 =>
    let bit := 16 * (64 * (k / 8) + n)
    if m.badAt bit 16 then .fin false 0 0
    else cb2Weight m.codebook (planeBits m bit 16) (m.swActive.get 127 (k / 32)).toNat (k % 8)
  | p =>
    let f := Fmt.ofHeader p
    let bit := f.width * (64 * k + n)
    let w := planeBits m bit f.width
    if m.badAt bit f.width then .fin false 0 0
    else if f = .i8 then .ofInt (f.intValue w) else f.decode w

/-- R66: the sum of one block's products, without rounding, and NV for invalid products (R60). -/
def blockSum (l : List (Num × Num)) (scale : Option Int) : Num × Flags :=
  let ps := l.map (fun p => mulNum p.1 p.2)
  let bad := ps.any (fun p => p.2.nv)
  let fl : Flags := if bad then Flags.invalid else .none
  let nums := ps.map (fun p => p.1)
  match scale with
  | none => (.nan, fl)
  | some k =>
    if bad then (.nan, fl)
    else
      let pinf := nums.any (fun x => x == .inf false)
      let ninf := nums.any (fun x => x == .inf true)
      if pinf && ninf then (.nan, Flags.invalid)
      else if pinf then (.inf false, fl)
      else if ninf then (.inf true, fl)
      else
        let sum := nums.foldl (fun acc x => (addNum acc x .rne).1) (.fin false 0 0)
        if sum.isZero then (.fin (nums.all (fun x => x.isZero && x.isNeg)) 0 0, fl) else (sum.scale k, fl)

/-- f32 accumulation of an exact addend, rounded once by RNE. -/
def accAdd (acc : Nat) (x : Num) : Nat × Flags :=
  let (r, f1) := addNum (Fmt.f32.decode acc) x .rne
  let (w, f2) := roundTo .f32 r .rne false
  (w, f1.or f2)

/-- R273, R66, R67: one column's accumulator after a beat over A values x. `sa` are the A scales. -/
def beatColumn (m : Matrix) (s n : Nat) (x : List Num) (sa : List Nat) (acc : Nat) : Nat × Flags :=
  if s = 8 then
    let sum := ((List.range 128).zip x).foldl (fun (t : Int) p =>
      t + (match p.2, planeWeight m p.1 n with
        | .fin a b _, .fin c d _ => (if a then -(b : Int) else b) * (if c then -(d : Int) else d)
        | _, _ => 0)) 0
    (intBits 32 ((acc : Int) + sum), .none)
  else if s ≤ 3 then
    ((List.range x.length).zip x).foldl (fun (p : Nat × Flags) y =>
      let (pr, f1) := mulNum y.2 (planeWeight m y.1 n)
      let (w, f2) := roundTo .f32 pr .rne false
      let (a, f3) := accAdd p.1 (Fmt.f32.decode w)
      (a, ((p.2.or f1).or f2).or f3)) (acc, .none)
  else
    (List.range (x.length / 32)).foldl (fun (p : Nat × Flags) j =>
      let sw := (m.swActive.get 127 j).toNat
      let a := sa.getD j 127
      let scale : Option Int := if a = 255 ∨ (m.pfActive ≠ 7 ∧ sw = 255) then none
        else some ((a : Int) - 127 + (if m.pfActive = 7 then 0 else (sw : Int) - 127))
      let (b, f1) := blockSum ((List.range 32).map (fun i => (x.getD (32 * j + i) .nan, planeWeight m (32 * j + i) n))) scale
      let (r, f2) := accAdd p.1 b
      (r, (p.2.or f1).or f2)) (acc, .none)

/-- R273: may an A format meet a plane format? -/
def beatPair (s p : Nat) : Bool :=
  (s == p && (s == 2 || s == 3 || s == 8 || s == 6)) || ((s == 4 || s == 5) && (p == 4 || p == 5)) || (s == 6 && p == 7)

/-- R273: a beat's A values. -/
def beatValues (s : Nat) (a b : Opnd) : List Num :=
  let f := Fmt.ofHeader s
  let w := f.width
  let l := (List.range 32).map (fun i => if i < 16 then (if a.ok i then (a.lane i).toNat else 0)
    else (if b.ok (i - 16) then (b.lane (i - 16)).toNat else 0))
  (List.range (1024 / w)).map (fun k =>
    let v := l.getD (k * w / 32) 0 / 2 ^ (k * w % 32) % 2 ^ w
    if f = .i8 then .ofInt (f.intValue v) else f.decode v)

/-- R273: the row a MACC addresses. -/
def Matrix.row (m : Matrix) (aux : Nat) : Nat := if aux / 64 % 2 = 1 then m.rc else aux % 64
/-- R273: RC advanced. -/
def Matrix.advance (m : Matrix) (aux : Nat) : Matrix := if aux / 64 % 2 = 1 then { m with rc := (m.rc + 1) % 64 } else m
/-- R270: a row poisoned. -/
def Matrix.poison (m : Matrix) (r : Nat) : Matrix := { m with rowPoison := m.rowPoison ||| (1#64 <<< r) }

/-- R273: the accumulating part of a beat. -/
def macc (m : Matrix) (s aux : Nat) (a b sc : Opnd) : Matrix × Flags :=
  let r := m.row aux
  let x := beatValues s a b
  let sa := (List.range 8).map (fun j => (sc.lane j).toNat % 256)
  let m := if m.poisonActive then m.poison r else m
  let (acc, fl) := (List.range 64).foldl (fun (p : AMap Lane × Flags) n =>
    let (w, f) := beatColumn m s n x sa (m.acc.get 0 (64 * r + n)).toNat
    (p.1.set (64 * r + n) (w32 w), p.2.or f)) (m.acc, .none)
  (({ m with acc } : Matrix).advance aux, fl)

/-- R273, R285: the energy class of a beat. -/
def beatClass (s p : Nat) : Nat := if p = 7 then 28 else if s ≤ 3 then 24 else if s ≤ 5 then 25 else if s = 8 then 26 else 27

/-- R273, R385: failed bytes of the active plane that a beat reads, each logged with its row and column. -/
def State.planeEcc (s : State) (t c : Nat) : State :=
  let m := (s.tile t).mx c
  let w := if m.pfActive = 7 then 16 else (Fmt.ofHeader m.pfActive).width
  let bad := m.badActive.filter (fun i => decide (m.pfActive ≠ 7) || decide (i < 4096))
  let s := if bad.isEmpty then s else s.modTile t (fun u => u.modCell c (fun x => { x with ecc := true }))
  bad.foldl (fun s i => s.eccHit (s.tile t).ctx
    (eccRecord 1 (tileDie t) t c (8 * i / w / 64) (8 * i / w % 64) 0 (s.fcOf t))) s

/-- R271-R274: a matrix operator. -/
def matrixOp (v : EEnv) (e : Elem) (o : List Opnd) (t : Nat) (s : State) : Done :=
  let a := o.getD 0 {}
  let b := o.getD 1 {}
  let c := o.getD 2 {}
  let mod (s : State) (f : Matrix → Matrix) : State := s.modTile t (fun u => u.modMx v.cell f)
  let m := (s.tile t).mx v.cell
  let give (s : State) (computed : Bool) (r : ERes) (cl : List (Nat × Nat)) : Done :=
    { s, res := r, computed, outs := outsOf e v.frame r, classes := cl }
  match e.oper with
  | 0x200 =>
    let cl := [(19, 1), (29, 1)]
    match passKind [a, b] true with
    | some p =>
      if p.kind = .poison then
        give (mod s (fun m => { m with poisonShadow := true, pfShadow := e.sfmt, wc := (m.wc + 1) % 64 })) false p cl
      else give s false p cl
    | none =>
      let sc := if e.sel 0 < 4 then (((s.tile t).cell v.cell).latches.get 0x7F (e.sel 0)).toNat % 256 else 127
      give (mod s (fun m => mpush m e.sfmt sc a b)) true {} cl
  | 0x202 =>
    let cl := [(beatClass e.sfmt m.pfActive, 1)]
    match passKind [a, b, c] true with
    | some p =>
      if p.kind = .poison then give (mod s (fun m => (m.poison (m.row e.aux)).advance e.aux)) false p cl
      else give s false p cl
    | none =>
      if !beatPair e.sfmt m.pfActive then
        give ((mod s (fun m => (m.poison (m.row e.aux)).advance e.aux)).modTile t
          (fun u => u.modCell v.cell (fun x => x.raise Flags.invalid))) true {} cl
      else
        let s := s.planeEcc t v.cell
        let (m, fl) := macc m e.sfmt e.aux a b c
        give ((mod s (fun _ => m)).modTile t (fun u => u.modCell v.cell (fun x => x.raise fl))) true {} cl
  | 0x203 =>
    match passKind [a] false with
    | some p => give s false p [(19, 1)]
    | none =>
      let r := m.dc / 4
      let q := m.dc % 4
      let poisoned := m.rowPoison.getLsbD r
      let res : ERes := if poisoned then { kind := .poison }
        else { lanes := (List.range 16).map (fun k => m.acc.get 0 (64 * r + 16 * q + k)), mask := 0xFFFF }
      let clear := decide (e.aux % 2 = 1)
      give (mod s (fun m => { m with
        dc := (m.dc + 1) % 256,
        acc := if clear then (List.range 16).foldl (fun (l : AMap Lane) k => l.erase (64 * r + 16 * q + k)) m.acc else m.acc,
        rowPoison := if clear && q == 3 then m.rowPoison &&& ~~~(1#64 <<< r) else m.rowPoison })) true res [(19, 1), (30, 1)]
  | op =>
    let cl := if op = 0x201 then [(31, 1)] else [(19, 1)]
    match passKind [a] false with
    | some p => give s false p cl
    | none =>
      let u := s.tile t
      -- R272: the pattern table as it stands after the TLDs of earlier fcs
      let tab := if u.prevP.1 = s.fcOf t then u.prevP.2 else u.tableP
      give (mod s (fun m => if op = 0x201 then mswap m else if op = 0x204 then mzero m else { m with codebook := tab })) true {} cl

/-- Operands a matrix operator's entry names. -/
def matrixArity (oper : Nat) : Nat := if oper = 0x200 then 2 else if oper = 0x202 then 3 else 1

/-! ## Merge cell (R275-R281) -/

/-- R275: the pairs present in a token. -/
def pairsOf (o : Opnd) : List (Lane × Lane) :=
  ((List.range 8).filter (fun i => o.ok (2 * i))).map (fun i => (o.lane (2 * i), if o.ok (2 * i + 1) then o.lane (2 * i + 1) else 0))

/-- R275: a pair token. -/
def pairRes (l : List (Lane × Lane)) : ERes :=
  mkRes (fun k => (if k % 2 = 0 then (l.getD (k / 2) (0, 0)).1 else (l.getD (k / 2) (0, 0)).2)) (fun k => decide (k < 2 * l.length))

/-- R276: which side a group calls: 0 or 1, or none. -/
def MergeGroup.call (m : MergeGroup) : Option Nat :=
  let a := !m.endA && decide (m.fifoA.length < 8)
  let b := !m.endB && decide (m.fifoB.length < 8)
  if a && b then (if m.fifoB.length < m.fifoA.length then some 1 else some 0)
  else if a then some 0
  else if b then some 1
  else none

/-- R277: the combined value of equal keys, with its flags. -/
def combineValues (e : Elem) (a b : Lane) : Lane × Flags :=
  let t := Fmt.ofHeader e.sfmt
  let x := a.toNat
  let y := b.toNat
  let fl (p : Nat × Flags) : Lane × Flags := (w32 p.1, p.2)
  match e.mode with
  | 0 => if t = .f32 then fl (fadd32 x y .rne) else (a + b, .none)
  | 1 => if t = .f32 then fl (fminmax .min .f32 x y) else (if t.intValue y < t.intValue x then b else a, .none)
  | 2 => if t = .f32 then fl (fminmax .max .f32 x y) else (if t.intValue x < t.intValue y then b else a, .none)
  | 3 => (a, .none)
  | 4 => (b, .none)
  | _ => if t = .f32 then fl (fmul32 x y .rne) else (a * b, .none)

/-- R277: is a combined value dropped? -/
def dropped (e : Elem) (v : Lane) : Bool :=
  e.aux % 2 == 1 && (if e.sfmt = 1 then v.toNat % 2 ^ 31 == 0 else v == 0)

/-- R277: pairs moved to an output of at most 8; each round takes at least one pair, so fuel of the pairs held is enough. -/
def mergeMove (e : Elem) (inter : Bool) : Nat → MergeGroup → List (Lane × Lane) → Flags → MergeGroup × List (Lane × Lane) × Flags
  | 0, m, out, fl => (m, out, fl)
  | n + 1, m, out, fl =>
    if 8 ≤ out.length then (m, out, fl)
    else match m.fifoA, m.fifoB with
      | a :: ra, b :: rb =>
        if a.1.toNat < b.1.toNat then mergeMove e inter n { m with fifoA := ra } (if inter then out else out ++ [a]) fl
        else if b.1.toNat < a.1.toNat then mergeMove e inter n { m with fifoB := rb } (if inter then out else out ++ [b]) fl
        else
          let (v, f) := combineValues e a.2 b.2
          mergeMove e inter n { m with fifoA := ra, fifoB := rb } (if dropped e v then out else out ++ [(a.1, v)]) (fl.or f)
      | a :: ra, [] =>
        if m.endB then mergeMove e inter n { m with fifoA := ra } (if inter then out else out ++ [a]) fl else (m, out, fl)
      | [], b :: rb =>
        if m.endA then mergeMove e inter n { m with fifoB := rb } (if inter then out else out ++ [b]) fl else (m, out, fl)
      | [], [] => (m, out, fl)

/-- Group g's merge state. -/
def Tile.mg (u : Tile) (g : Nat) : MergeGroup := u.merge.groups.get {} g

/-- R276, R277: MRGU and MRGI of group g; `taken` is the token its firing consumed. -/
def mergeFire (v : EEnv) (e : Elem) (g : Nat) (taken : Option Opnd) (t : Nat) (s : State) : Done :=
  let m := (s.tile t).mg g
  let side := m.call
  let give (s : State) (m : MergeGroup) (computed : Bool) (r : Option ERes) (cl : List (Nat × Nat)) : Done :=
    { s := s.modTile t (fun u => { u with merge := { u.merge with groups := u.merge.groups.set g m } }),
      res := r.getD {}, computed, outs := ((r.map (fun x => [(0, x, v.frame)])).getD []), classes := (17, 1) :: cl }
  match taken with
  | some k =>
    if k.kind = .poison then give s m false (some { kind := .poison }) []
    else
      let ps := if k.kind = .data then pairsOf k else []
      let m := match side with
        | some 0 => { m with fifoA := m.fifoA ++ ps, endA := m.endA || k.kind == .eos }
        | some _ => { m with fifoB := m.fifoB ++ ps, endB := m.endB || k.kind == .eos }
        | none => m
      let (m, out, fl) := mergeMove e (e.oper == 0x241) (m.fifoA.length + m.fifoB.length) m [] .none
      let s := s.modTile t (fun u => u.modCell v.cell (fun x => x.raise fl))
      let cl := if ps.isEmpty then [] else [(35, 1)]
      if !out.isEmpty then give s m true (some (pairRes out)) (cl ++ [(35, 1)])
      else if m.endA && m.endB && m.fifoA.isEmpty && m.fifoB.isEmpty && !m.finished then
        give s { m with finished := true } true (some { kind := .eos }) cl
      else give s m true none cl
  | none =>
    let (m, out, fl) := mergeMove e (e.oper == 0x241) (m.fifoA.length + m.fifoB.length) m [] .none
    let s := s.modTile t (fun u => u.modCell v.cell (fun x => x.raise fl))
    if !out.isEmpty then give s m true (some (pairRes out)) [(35, 1)]
    else if m.endA && m.endB && m.fifoA.isEmpty && m.fifoB.isEmpty && !m.finished then
      give s { m with finished := true } true (some { kind := .eos }) []
    else give s m true none []

/-- R278: does lane value x rank before y? -/
def ranksBefore (t : Fmt) (x y : Nat) : Bool :=
  if t = .f32 then
    let a := Fmt.f32.decode x
    let b := Fmt.f32.decode y
    if a.isNaN then false else if b.isNaN then true else b.below a
  else decide (t.intValue y < t.intValue x)

/-- R278: a lane put into a ranked list behind every lane it does not rank before. -/
def insertRank (t : Fmt) (a : Opnd) (k : Nat) : List Nat → List Nat
  | [] => [k]
  | j :: r => if ranksBefore t (a.lane k).toNat (a.lane j).toNat then k :: j :: r else j :: insertRank t a k r

/-- R278: TOPK. -/
def topk (e : Elem) (a : Opnd) : ERes :=
  let l := ((List.range 16).filter (fun k => a.ok k)).foldl (fun l k => insertRank (Fmt.ofHeader e.sfmt) a k l) []
  pairRes ((l.take (e.aux % 16)).map (fun k => (w32 k, a.lane k)))

/-- R279: HIST. -/
def hist (e : Elem) (a : Opnd) (m : Merge) : ERes × Merge :=
  let l := (List.range 16).filter (fun k => a.ok k && decide ((a.lane k).toNat < 16))
  let add (h : AMap Lane) : AMap Lane := l.foldl (fun (h : AMap Lane) k => h.set (a.lane k).toNat (h.get 0 (a.lane k).toNat + 1)) h
  let h := add m.hist
  let one := add []
  (mkRes (fun k => if e.aux % 2 = 1 then one.get 0 k else h.get 0 k) (fun _ => true), { m with hist := h })

/-- R280: PSUM. -/
def psum (e : Elem) (a : Opnd) (m : Merge) (c : Cell) : ERes × Merge × Cell :=
  let t := Fmt.ofHeader e.sfmt
  let (l, carry, c) := (List.range 16).foldl (fun (p : List Lane × Nat × Cell) k =>
    if a.ok k then
      let (n, c) := laneAdd t (RMode.ofCode e.mode) p.2.1 (a.lane k).toNat p.2.2
      (p.1 ++ [w32 (if e.aux % 2 = 1 then p.2.1 else n)], n, c)
    else (p.1 ++ [0], p.2)) ([], m.carry.toNat, c)
  ({ lanes := l, mask := a.mask }, { m with carry := w32 carry }, c)

/-- R281: ROUTE. -/
def route (e : Elem) (a : Opnd) (m : Merge) : ERes × Merge :=
  if e.aux % 2 = 1 then
    (a.res, { m with cursors := ((List.range 16).filter (fun k => a.ok k)).foldl (fun (h : AMap Lane) k => h.set k (a.lane k)) m.cursors })
  else
    let hit (k : Nat) : Bool := a.ok k && decide ((a.lane k).toNat < 16)
    let (l, h) := (List.range 16).foldl (fun (p : List Lane × AMap Lane) k =>
      if hit k then
        let c := p.2.get 0 (a.lane k).toNat
        (p.1 ++ [c], p.2.set (a.lane k).toNat (c + 1))
      else (p.1 ++ [0], p.2)) ([], m.cursors)
    ({ lanes := l, mask := maskOf hit }, { m with cursors := h })

/-- R276-R281: a merge-cell operator. -/
def mergeOp (v : EEnv) (e : Elem) (g : Nat) (o : List Opnd) (taken : Option Opnd) (t : Nat) (s : State) : Done :=
  let a := o.getD 0 {}
  if e.oper ≤ 0x241 then mergeFire v e g taken t s
  else match passKind [a] true with
    | some p => { s, res := p, computed := false, outs := outsOf e v.frame p, classes := [(17, 1)] }
    | none =>
      let u := s.tile t
      let (r, m, c) := match e.oper with
        | 0x242 => (topk e a, u.merge, u.cell v.cell)
        | 0x243 => (let (r, m) := hist e a u.merge; (r, m, u.cell v.cell))
        | 0x244 => psum e a u.merge (u.cell v.cell)
        | _ => (let (r, m) := route e a u.merge; (r, m, u.cell v.cell))
      { s := s.modTile t (fun u => ({ u with merge := m } : Tile).modCell v.cell (fun _ => c)),
        res := r, outs := outsOf e v.frame r, classes := [(17, 1)] }

/-! ## Lookup island (R282-R284) -/

/-- R283: TLUI for one f32 value. -/
def tluiValue (tab : AMap Lane) (b ex : Nat) (u : Nat) : Nat × Flags :=
  let at' (i : Nat) : Nat := (tab.get 0 (i % 4096)).toNat
  let x := Fmt.f32.decode u
  if x.isNaN then (nan32, Flags.invalid)
  else if !(Num.lt (.fin false 0 0) x) then (at' b, .none)
  else if !(x.lt (.fin false 1 0)) then (at' (b + 2 ^ ex), .none)
  else match x with
    | .fin _ m e =>
      let k := e + ex
      let i := if 0 ≤ k then m * 2 ^ k.toNat else m / 2 ^ (-k).toNat
      let r := if 0 ≤ k then 0 else m % 2 ^ (-k).toNat
      let t0 := Fmt.f32.decode (at' (b + i))
      let (d, f1) := addNum (Fmt.f32.decode (at' (b + i + 1))) t0.neg .rne
      let (d, f2) := roundTo .f32 d .rne false
      let (p, f3) := fmaNum (.fin false r k) (Fmt.f32.decode d) t0 .rne
      let (w, f4) := roundTo .f32 p .rne false
      (w, ((f1.or f2).or f3).or f4)
    | _ => (at' b, .none)

/-- R282-R284: an island operator. -/
def islandOp (env : EEnv) (e : Elem) (o : List Opnd) (t : Nat) (s : State) : Done :=
  let a := o.getD 0 {}
  let b := o.getD 1 {}
  let u := s.tile t
  let f := s.fcOf t
  let give (s : State) (computed : Bool) (r : ERes) : Done := { s, res := r, computed, outs := outsOf e env.frame r, classes := [(18, 1)] }
  match passKind (if e.oper = 0x283 then [a, b] else [a]) true with
  | some p => give s false p
  | none => match e.oper with
    | 0x280 => give s true (mkRes (fun k => u.tableT.get 0 (((a.lane k).toNat + e.k.toNat) % 4096)) a.ok)
    | 0x281 =>
      let (l, c) := (List.range 16).foldl (fun (p : List Lane × Cell) k =>
        if a.ok k then
          let (w, fl) := tluiValue u.tableT (e.k.toNat % 4096) (e.aux % 16) (a.lane k).toNat
          (p.1 ++ [w32 w], p.2.raise fl)
        else (p.1 ++ [0], p.2)) ([], u.cell env.cell)
      give (s.modTile t (fun u => u.modCell env.cell (fun _ => c))) true { lanes := l, mask := a.mask }
    | 0x282 =>
      let sc := if e.sel 0 < 4 then ((u.cell env.cell).latches.get 0x7F (e.sel 0)).toNat % 256 else 127
      let w := (a.lane (e.aux % 16)).toNat
      -- R65: each weight rounded once; beyond the largest f32, which R55 does not foresee, with OF and NX (log 94)
      let v (k : Nat) : Nat × Flags := roundTo .f32 (cb2Weight u.tableP (w / 2 ^ (16 * (k / 8)) % 2 ^ 16) sc (k % 8)) .rne false
      let ok := a.ok (e.aux % 16)
      let fl := if ok then (List.range 16).foldl (fun (f : Flags) k => f.or (v k).2) .none else .none
      give (s.modTile t (fun u => u.modCell env.cell (fun x => x.raise fl))) true (mkRes (fun k => w32 (v k).1) (fun _ => ok))
    | _ =>
      if !b.ok 0 then give s true { a.res with kind := .data }
      else
        let at' (n k : Nat) : Nat := ((b.lane 0).toNat + e.k.toNat + k) % n
        let put (n : Nat) (m : AMap Lane) : AMap Lane :=
          ((List.range 16).filter (fun k => a.ok k)).foldl (fun (m : AMap Lane) k => m.set (at' n k) (a.lane k)) m
        give (s.modTile t (fun u =>
          if e.aux % 2 = 1 then { u with prevP := if u.prevP.1 = f then u.prevP else (f, u.tableP), tableP := put 256 u.tableP }
          else { u with tableT := put 4096 u.tableT })) true { a.res with kind := .data }

/-- Operands an island operator's entry names. -/
def islandArity (oper : Nat) : Nat := if oper = 0x283 then 2 else 1

end Sys2Proof.Machine
end

