-- ==== Sys2Proof/Machine/Issue.lean ====
section
/-! DEFINITION. Issue and completion of a bundle (R170, R186-R188), its charges (R215, R330, R367), system registers (R191,
R209), halts (R392-R394), and the return of values that left the tile (R186). -/

namespace Sys2Proof.Machine

/-! ## System registers -/

/-- The fields of FSTAT as a word (R229). -/
def Fstat.word (f : Fstat) : Word :=
  w64 (f.disc * 2 ^ 48 + f.sblk.toNat * 2 ^ 40 + f.pblk.toNat * 2 ^ 24 + f.cblk.toNat * 2 ^ 8 + f.rstr * 2 ^ 5
    + f.pend.toNat * 16 + f.badret.toNat * 8 + f.dlk.toNat * 4 + f.cmpl.toNat * 2 + f.run.toNat)

/-- R393: no command of the context on the tile is running. -/
def Tile.quiet (t : Tile) : Bool := t.status.all (fun p => p.2.state != 1)

/-- R191, R209: a system register as it stands, for strand n of tile t. -/
def State.getSys (s : State) (t n num : Nat) : Word :=
  let u := s.tile t
  let st := u.strand n
  let d := s.die (tileDie t)
  if 0x020 ≤ num ∧ num ≤ 0x028 then w64 (d.vclk.get 0 (num - 0x020))
  else match num with
  | 0x000 => w64 u.ctx
  | 0x001 => w64 (t % 64)
  | 0x002 => w64 (t / 64)
  | 0x003 => Config.pkgid.setWidth 64
  | 0x004 => w64 n
  | 0x005 => ofBool64 (s.super t)
  | 0x006 => (s.ctx u.ctx).liveModes.setWidth 64
  | 0x008 => w64 u.lcyc
  | 0x010 => u.csb
  | 0x018 => st.item
  | 0x019 => st.itag.setWidth 64
  | 0x030 => u.fstat.word
  | 0x031 => st.fflags.setWidth 64
  | 0x032 => w64 st.ufcnt
  | 0x040 => st.trapc.setWidth 64
  | 0x041 => st.trapv
  | 0x042 => st.trappc.setWidth 64
  | 0x048 => w64 (st.halted.toNat * 4 + u.freeze.toNat * 2 + u.quiet.toNat)
  | 0x050 => st.budget.setWidth 64
  | 0x051 => w64 st.echg
  | _ => 0

/-- R6, R190, R191, R209: a SETS as it takes effect: FFLAGS is W1C, TRAPPC and EBUDGET are RW, FREEZE is RW to a supervisor,
and every other field is RO. -/
def State.setSys (s : State) (t n num : Nat) (v : Word) : State :=
  match num with
  | 0x031 => s.modStrand t n (fun st => { st with fflags := st.fflags &&& ~~~(v.setWidth 5) })
  | 0x042 => s.modStrand t n (fun st => { st with
      -- R362, R381: a handler that returns elsewhere leaves the bundle it came from for good, and the arrival that bundle stood on
      trappc := v.setWidth 32, gbar := if st.trappc = v.setWidth 32 then st.gbar else none })
  | 0x048 => if s.super t then s.modTile t (fun u => { u with freeze := v.getLsbD 1 }) else s
  | 0x050 => s.modStrand t n (fun st => { st with budget := v.setWidth 32 })
  | _ => s

/-! ## Halts -/

/-- R393, R94: a strand halted by a debugger: HALTED, FREEZE under FRZH, and the halt recorded. -/
def State.halt (s : State) (t n : Nat) : State :=
  let c := (s.tile t).ctx
  let s := s.modStrand t n (fun st => { st with halted := true, stepOnce := false })
  if (s.ctx c).liveModes.getLsbD 5 then
    (s.modTile t (fun u => { u with freeze := true })).record c { kind := 7, sub := 4, tile := s.ordinal c t, a := n, b := (s.tile t).steps }
  else s

/-- R394: BRK under the attach bit halts its strand in place of a trap and sends a breakpoint event. -/
def State.breakpoint (s : State) (t n : Nat) (info : Word) : State :=
  let c := (s.tile t).ctx
  let s := s.modStrand t n (fun st => { st with trapc := 0x39, trapv := info, trappc := st.pc })
  let s := (s.halt t n).modStrand t n (fun st => { st with byBrk := true })
  s.event c 0x4009 c (leBytes 2 0 ++ leBytes 2 t ++ leBytes 1 n ++ leBytes 3 0 ++ leBytes 8 info.toNat
    ++ leBytes 4 (s.strand t n).trappc.toNat)

/-! ## Completion -/

/-- R187: register writes in ascending slot, so that the higher slot stands. -/
def orderWrites (l : List RegWrite) : List RegWrite := (List.range 6).flatMap (fun k => l.filter (fun w => w.slot == k))

/-- R187: every register write of a bundle. -/
def Strand.applyWrites (st : Strand) (l : List RegWrite) : Strand :=
  (orderWrites l).foldl (fun st w => st.wx w.reg w.val) st

/-- R187, R210-R214: a bundle completes: its writes, its system-register writes, its next PC, and what its B slot does. -/
def State.completeBundle (s : State) (t : Nat) (b : Issue) : State :=
  let n := b.strand
  let s := s.modTile t (fun u => { u with held := none })
  let s := s.modStrand t n (fun st => st.applyWrites b.wb)
  let s := b.sets.foldl (fun s p => s.setSys t n p.1 p.2) s
  let s := s.modStrand t n (fun st => { st with
    pc := b.nextPc, prefetch := if b.taken then [] else st.prefetch, fetched := none, stall := [] })
  let s := match b.act with
    | .none => s
    | .tret => s.modStrand t n Strand.tret
    | .trap code info =>
      if code = 0x39 ∧ (s.ctx (s.tile t).ctx).attach then s.breakpoint t n info else s.takeTrap t n code info b.nextPc
    | .ends k => s.endTask t n k
  if (s.strand t n).stepOnce then s.halt t n else s

/-- R392: a strand that steps halts again after the cause its bundle raised is taken. -/
def State.takeAtIssue (s : State) (t n code : Nat) (info : Word) (pc : BitVec 32) : State :=
  let s := s.takeTrap t n code info pc
  if (s.strand t n).stepOnce then s.halt t n else s

/-! ## Issue -/

/-- Whether a slot can proceed (R186): it can, it waits, or it traps. Each carries the state with what has been asked of the
translation path and of other agents, registers untouched. -/
inductive Gate
  | go (s : State)
  | wait (s : State)
  | trap (s : State) (code : Nat) (info : Word)

/-- What one slot's instruction does: its slot, its charges by class, the range checks that need state (reason 4 of R170),
whether it is privileged, whether it can proceed, and its effect: from the state as the bundle issues (R187) and the state
the lower slots have left. -/
structure Sem where
  slot : Nat
  classes : List Nat
  illegal : State → Bool := fun _ => false
  priv : Bool := false
  gate : State → Gate := Gate.go
  act : State → State → State
  /-- What the strand is said to wait on while the slot cannot proceed (R228). -/
  stall : Nat × Nat := (0, 0)
  /-- The instruction, where its event follows in causal order what the bundle's load reads (R332, edge 1). -/
  late : Option Instr := none

/-- R186, R181: the slots asked in ascending order; the first that does not go decides (log 8). -/
def gates : List Sem → State → Gate
  | [], s => .go s
  | m :: rest, s =>
    match m.gate s with
    | .go s => gates rest s
    | g => g

/-- R228: what the slots that cannot proceed wait on. -/
def stalls (l : List Sem) (s : State) : List (Nat × Nat) :=
  (l.filter (fun m => match m.gate s with | .wait _ => true | _ => false)).map (fun m => m.stall)

/-- A register write of a slot, held until the bundle completes (R187). -/
def State.wb (s : State) (slot : Nat) (r : XReg) (v : Word) : State :=
  s.modTile s.focus (fun u => { u with issue := { u.issue with wb := u.issue.wb ++ [{ slot, reg := r.toNat, val := v }] } })

/-- A value that returns later to a register (R186). -/
def State.awaitReg (s : State) (id slot : Nat) (r : XReg) : State :=
  s.modTile s.focus (fun u => { u with issue := { u.issue with waits := u.issue.waits ++ [(id, slot, r.toNat)] } })

/-- R153, R210: the next sequential PC. -/
def seqPc (pc : BitVec 32) (lit : Bool) : BitVec 32 := pc + (if lit then 25 else 1)

/-- R101, R18: the charge of a bundle that issues, or that traps as it would issue, and its fc marked as one in which the core has
issued. -/
def State.issueHead (s : State) (t n : Nat) (lit : Bool) : State :=
  let s := s.charge t 0 1 (some n)
  let s := if lit then s.charge t 7 1 (some n) else s
  s.modTile t (fun u => { u with active := true, issued := true })

/-- R215: a bundle that traps charges nothing for its micro-TLB misses. -/
def State.dropMissed (s : State) (t n : Nat) : State := s.modStrand t n (fun st => { st with missed := 0 })

/-- R362: a bundle issues: the arrival its GBAR stood on, in a handler or outside one, is used up. -/
def Strand.gbarUsed (st : Strand) : Strand := if st.handler then { st with gbarH := none } else { st with gbar := none, gbarH := none }

/-- R215: the micro-TLB misses of a bundle charged as it issues. -/
def State.chargeMissed (s : State) (t n : Nat) : State :=
  let k := (s.strand t n).missed
  if k = 0 then s else (s.charge t 46 k (some n)).dropMissed t n

/-- R187, R332: a slot carried out; one whose event follows the bundle's load is kept until the load's value has returned. -/
def Sem.carryOut (m : Sem) (pre s : State) : State :=
  match m.late with
  | some i =>
    if (s.tile s.focus).issue.waits.isEmpty then m.act pre s
    else s.modTile s.focus (fun u => { u with issue := { u.issue with late := some i } })
  | none => m.act pre s

/-- R170, R181, R186, R187: a bundle's slots, checked, asked, and, when every one can proceed, carried out. -/
def runBundle (lit : Bool) (l : List Sem) (s : State) : State :=
  let t := s.focus
  let n := s.cur
  let pc := s.me.pc
  let head (s : State) : State := (s.dropMissed t n).issueHead t n lit
  match l.find? (fun m => m.illegal s) with
  | some m => (head s).takeAtIssue t n 0x01 (illegalInfo m.slot 4) pc
  | none =>
    match (if s.super t then none else l.find? (fun m => m.priv)) with
    | some m => (head s).takeAtIssue t n 0x03 (w64 m.slot) pc
    | none =>
      match gates l s with
      | .wait s' => s'.modStrand t n (fun st => { st with stall := stalls l s })
      | .trap s code info => (head s).takeAtIssue t n code info pc
      | .go pre =>
        let s := ((pre.chargeMissed t n).issueHead t n lit).modStrand t n (fun st => { st.gbarUsed with claim := false })
        let s := l.foldl (fun s m => m.classes.foldl (fun s c => s.charge t c 1 (some n)) s) s
        let s := s.modTile t (fun u => { u with
          issue := { strand := n, nextPc := seqPc pc lit, pa := u.issue.pa }, steps := (u.steps + 1) % 2 ^ 64 })
        let s := l.foldl (fun s m => m.carryOut pre s) s
        let b := (s.tile t).issue
        let s := s.modTile t (fun u => { u with issue := {} })
        if b.waits.isEmpty then s.completeBundle t b
        else s.modTile t (fun u => { u with held := some b })

/-- R186: a value returns to a held bundle, which completes with its last one, unless a slot waited for it (R332). -/
def State.returnValue (s : State) (t id : Nat) (v : Word) : State :=
  match (s.tile t).held with
  | none => s
  | some b =>
    match b.waits.find? (fun w => w.1 == id) with
    | none => s
    | some w =>
      let b := { b with waits := b.waits.filter (fun x => x.1 != id), wb := b.wb ++ [{ slot := w.2.1, reg := w.2.2, val := v }] }
      if b.waits.isEmpty && b.late.isNone then s.completeBundle t b else s.modTile t (fun u => { u with held := some b })

/-! ## Fetch (R152-R158) -/

/-- R152: base of fetch addresses: the handler's in handler state, else CSB. -/
def State.fetchBase (s : State) (t n : Nat) : Word :=
  let u := s.tile t
  if (u.strand n).handler then (s.ctx u.ctx).handler else u.csb

/-- R152: virtual address of the halfword at a PC. -/
def State.halfVa (s : State) (t n : Nat) (pc : BitVec 32) : Word := s.fetchBase t n + 2 * pc.setWidth 64

/-- A halfword fetched, or why not. -/
inductive Fetch (α : Type)
  | ok (s : State) (v : α)
  | wait (s : State)
  | trap (s : State) (code : Nat) (info : Word)
  | fatal (s : State) (code : Nat) (info : Word)

/-- R153, R157: the halfword at a physical address, read at package scope. -/
def State.halfAt (s : State) (pa : Nat) : Half := s.pkgByte (pa + 1) ++ s.pkgByte pa

/-- R157: a halfword put in a strand's prefetch buffer, with the uncore's events (R102): the fetcher asks memory once for each
64-byte block it fills the buffer from (log 93). -/
def State.bufferHalf (s : State) (t n : Nat) (buf : AMap Half) (va pa : Nat) : State :=
  let s := if buf.any (fun p => p.1 / 64 == va / 64) then s
    else (s.nodePath (s.tile t).ctx t pa 64).nodeEvent (tileDie t) (s.tile t).ctx pa false false
  s.modStrand t n (fun st => { st with prefetch := AMap.set buf va (s.halfAt pa) })

/-- R133, R140, R149, R157: the halfword at a PC, from the prefetch buffer or through the tile's micro-TLB. A fetch whose leaf names a
remote window has no cause of its own (R201 gives STREAMONLY to scalar accesses): it takes PERMISSION with reason 3 (DESIGN CHOICE,
log 112). -/
def State.fetchHalf (s : State) (t n : Nat) (pc : BitVec 32) : Fetch Half :=
  let va := s.halfVa t n pc
  match (s.strand t n).prefetch.find? (fun p => p.1 == va.toNat) with
  | some p => .ok s p.2
  | none =>
    match s.translate (.fetcher t n) (s.tile t).ctx va .fetch (s.super t) false with
    | .ok s pa _ =>
      if 8 ≤ pa / 2 ^ 48 % 16 then .trap s 0x13 (memInfo 3 .fetch va.toNat)
      else
        let at' := (s.halfVa t n (s.strand t n).pc).toNat
        .ok (s.bufferHalf t n (((s.strand t n).prefetch.filter (fun p => decide (at' ≤ p.1))).take 63) va.toNat pa) (s.halfAt pa)
    | .wait s => .wait s
    | .fault s code r =>
      if code = 0x40 then .wait s
      else if code = 0x10 then .trap s 0x10 va
      else .trap s code (memInfo r .fetch va.toNat)

/-- The next k halfwords from a PC (R153, R158). -/
def State.fetchHalves (s : State) (t n : Nat) (pc : BitVec 32) : Nat → Fetch (List Half)
  | 0 => .ok s []
  | k + 1 =>
    match s.fetchHalf t n pc with
    | .ok s h =>
      match s.fetchHalves t n (pc + 1) k with
      | .ok s l => .ok s (h :: l)
      | .wait s => .wait s
      | .trap s c i => .trap s c i
      | .fatal s c i => .fatal s c i
    | .wait s => .wait s
    | .trap s c i => .trap s c i
    | .fatal s c i => .fatal s c i

/-- R153: halfword i of a literal holds bundle bits [16i + 15 : 16i]. -/
def literalBundle (l : List Half) : Bundle := BitVec.ofNat 384 (l.foldr (fun h n => h.toNat + 65536 * n) 0)

/-- R153, R385: the bundle the halfword at PC names, and whether it is a literal. -/
def State.fetchBundle (s : State) (t n : Nat) : Fetch (Bundle × Bool) :=
  let st := s.strand t n
  match st.fetched with
  | some b => .ok s b
  | none =>
    match s.fetchHalf t n st.pc with
    | .ok s h =>
      if h = 0xFFFF#16 then
        match s.fetchHalves t n (st.pc + 1) 24 with
        | .ok s l => .ok s (literalBundle l, true)
        | .wait s => .wait s
        | .trap s c i => .trap s c i
        | .fatal s c i => .fatal s c i
      else if h.toNat < (s.tile t).dictN then
        if (s.tile t).codeBad.contains h.toNat then
          -- R385: logged and flagged as every uncorrectable error is
          .fatal (s.eccHit (s.tile t).ctx (eccRecord 3 (tileDie t) t 0 h.toNat 0 0 (s.fcOf t))) 0x44 (w64 h.toNat)
        else .ok s ((s.tile t).code.get 0 h.toNat, false)
      else .trap s 0x02 (w64 h.toNat)
    | .wait s => .wait s
    | .trap s c i => .trap s c i
    | .fatal s c i => .fatal s c i

/-- R153: INDEX_FETCH: the fetcher of a tile's issuing strand decodes the halfword at its PC. -/
def execIndexFetchState (s : State) (t : Nat) : State :=
  let n := (s.tile t).cur
  let st := s.strand t n
  if st.state != .run || st.halted || (s.tile t).held.isSome || (s.tile t).stopping || (s.tile t).choosing then s
  else match s.fetchBundle t n with
    | .ok s b => s.modStrand t n (fun st => { st with fetched := some b })
    | .wait s => s.modStrand t n (fun st => { st with stall := [(0xFF, 0)] })
    | .trap s c i => s.takeAtIssue t n c i st.pc
    | .fatal s c i => s.fatalAt t n c i st.pc

/-- R157: an index translation that raises nothing: a structure's entry, or a walk, charged as any other and filling the structures,
that meets a leaf with M = 0. -/
def State.silentXlate (s : State) (who : Requester) (ctx va : Nat) (super : Bool) : State × Option Nat :=
  let d := s.reqDie who
  let pick (s : State) (e : TlbEntry) : State × Option Nat :=
    match s.use ctx d va e .fetch super false with
    | .ok s pa _ => (s, some pa)
    | .wait s => (s, none)
    | .fault s _ _ => (s, none)
  match s.tlbLookup who ctx va .fetch with
  | (s, some e) => pick s e
  | (s, none) =>
    let s := s.uncore d ctx .walk (walkSteps s ctx va) (uncoreDomain d)
    match s.walk ctx va with
    | .leaf level addr e =>
      if pteM e then (s, none)
      else match s.fillFrom ctx va .fetch level addr e with
        | some (s, t) => pick ((s.fillDie d t).fillAbove who t) t
        | none => (s, none)
    | _ => (s, none)

/-- R157: PREFETCH_FILL: the next halfword ahead of the PC, stopping silently at a fault. -/
def execPrefetchFillState (s : State) (t n : Nat) : State :=
  let st := s.strand t n
  if st.state != .run then s
  else
    let buf := st.prefetch.filter (fun p => decide ((s.halfVa t n st.pc).toNat ≤ p.1))
    if 64 ≤ buf.length then s.modStrand t n (fun st => { st with prefetch := buf })
    else
      match (List.range 64).find? (fun i => !buf.any (fun p => p.1 == (s.halfVa t n (st.pc + BitVec.ofNat 32 i)).toNat)) with
      | none => s
      | some i =>
        let va := s.halfVa t n (st.pc + BitVec.ofNat 32 i)
        if !canonical va then s
        else match s.silentXlate (.fetcher t n) (s.tile t).ctx va.toNat (s.super t) with
        | (s, some pa) =>
          if 8 ≤ pa / 2 ^ 48 % 16 then s else s.bufferHalf t n buf va.toNat pa
        | (s, none) => s

/-- R381-R383, R114: BUDGET falls due at a bundle boundary. -/
def State.postBudget (s : State) (t n : Nat) : State :=
  let st := s.strand t n
  if st.budget ≠ 0 ∧ 16000 * st.budget.toNat < st.echg then s.postCause t n 0x30 0 else s

/-- R149: does the bundle at a strand's PC wait on a page request? Nothing more then happens to the strand until the reply. -/
def State.pageHeld (s : State) (t n : Nat) : Bool :=
  (s.die (tileDie t)).misses.any (fun m => (m.who == .strand t n || m.who == .fetcher t n) && (match m.stand with
    | .page _ | .needPage => true
    | _ => false))

/-- R382, R383: PENDING_TRAP_TAKE: the first pending cause of the issuing strand is taken outside handler state, unless the strand is
halted (R393) or its bundle waits on a page request (R149). -/
def execPendingTrapState (s : State) (t : Nat) : State :=
  let n := (s.tile t).cur
  let s := if (s.strand t n).state = .run ∧ !(s.strand t n).halted then s.postBudget t n else s
  let st := s.strand t n
  if st.state != .run || st.handler || st.halted || s.pageHeld t n || (s.tile t).held.isSome || (s.tile t).choosing || (s.tile t).stopping then s
  else match firstCause st.pending with
    | none => s
    | some c =>
      let info := if c.code = 0x30 then w64 st.echg else c.info
      let s := s.modStrand t n (fun st => { st with
        pending := st.pending.filter (fun x => x.code != c.code), fcfg := none,
        invw := none, invls := st.invw.toList ++ st.invls,
        budget := if c.code = 0x30 then 0 else st.budget })
      let s := s.modTile t (fun u => { u with load := u.load.filter (fun l => l.strand != some n) })
      s.takeTrap t n c.code info st.pc

end Sys2Proof.Machine
end

