-- ==== Sys2Proof/Machine/Scalar.lean ====
section
/-! DEFINITION. The A class (R192-R200): integer, bit-field, floating-point, conversion and random-number instructions. -/

namespace Sys2Proof.Machine

/-- The three outcomes of a step over this machine. -/
abbrev Out := Host.Outcome State Fault Refusal

/-- A core instruction run alone: the bundle whose one slot it is, every other slot NOP (R162, R186, R187). -/
def runAlone (m : Sem) (s : State) : Out := .next (runBundle false [m] s)

/-- R162: the all-zero slot: the bundle is charged class 0 and goes on. -/
def execNop (s : State) : Out := .next (runBundle false [] s)

/-- An A-class slot that writes xd from operands as they stand before the bundle, charging class 1 and more (R187, R215). -/
def aSem (extra : List Nat) (d : XReg) (f : State → Word) (slot : Nat) : Sem :=
  { slot, classes := 1 :: extra, act := fun pre s => s.wb slot d (f pre) }

/-- Flags ORed into FFLAGS (R61, R384). -/
def State.raise (s : State) (f : Flags) : State := s.modMe (fun st => { st with fflags := st.fflags ||| f.bits })

/-- An A-class slot that writes an FP32 result, or any 64-bit value, with flags (R182, R196). -/
def fSem (extra : List Nat) (d : XReg) (f : State → Nat × Flags) (slot : Nat) : Sem :=
  { slot, classes := 1 :: extra, act := fun pre s => (s.raise (f pre).2).wb slot d (w64 (f pre).1) }

/-- FP32 operand: bits [31:0] (R196). -/
def State.fx (s : State) (r : XReg) : Nat := (s.rx r).toNat % 2 ^ 32

/-! ## Integer (R193, R194) -/

def addSem (d a b : XReg) := aSem [] d (fun s => s.rx a + s.rx b)
def execAdd (d a b : XReg) : State → Out := runAlone (addSem d a b 0)
def subSem (d a b : XReg) := aSem [] d (fun s => s.rx a - s.rx b)
def execSub (d a b : XReg) : State → Out := runAlone (subSem d a b 0)
def addiSem (d a : XReg) (imm : Imm) := aSem [] d (fun s => s.rx a + sext32 imm)
def execAddi (d a : XReg) (imm : Imm) : State → Out := runAlone (addiSem d a imm 0)
def mulSem (d a b : XReg) := aSem [2] d (fun s => s.rx a * s.rx b)
def execMul (d a b : XReg) : State → Out := runAlone (mulSem d a b 0)
def mulhSem (d a b : XReg) := aSem [2] d (fun s => mulHi (s.rx a) (s.rx b))
def execMulh (d a b : XReg) : State → Out := runAlone (mulhSem d a b 0)
def mulhuSem (d a b : XReg) := aSem [2] d (fun s => mulHiU (s.rx a) (s.rx b))
def execMulhu (d a b : XReg) : State → Out := runAlone (mulhuSem d a b 0)
def divSem (d a b : XReg) := aSem [2] d (fun s => divS (s.rx a) (s.rx b))
def execDiv (d a b : XReg) : State → Out := runAlone (divSem d a b 0)
def divuSem (d a b : XReg) := aSem [2] d (fun s => divU (s.rx a) (s.rx b))
def execDivu (d a b : XReg) : State → Out := runAlone (divuSem d a b 0)
def remSem (d a b : XReg) := aSem [2] d (fun s => remS (s.rx a) (s.rx b))
def execRem (d a b : XReg) : State → Out := runAlone (remSem d a b 0)
def remuSem (d a b : XReg) := aSem [2] d (fun s => remU (s.rx a) (s.rx b))
def execRemu (d a b : XReg) : State → Out := runAlone (remuSem d a b 0)
def andSem (d a b : XReg) := aSem [] d (fun s => s.rx a &&& s.rx b)
def execAnd (d a b : XReg) : State → Out := runAlone (andSem d a b 0)
def orSem (d a b : XReg) := aSem [] d (fun s => s.rx a ||| s.rx b)
def execOr (d a b : XReg) : State → Out := runAlone (orSem d a b 0)
def xorSem (d a b : XReg) := aSem [] d (fun s => s.rx a ^^^ s.rx b)
def execXor (d a b : XReg) : State → Out := runAlone (xorSem d a b 0)
def andiSem (d a : XReg) (imm : Imm) := aSem [] d (fun s => s.rx a &&& sext32 imm)
def execAndi (d a : XReg) (imm : Imm) : State → Out := runAlone (andiSem d a imm 0)
def oriSem (d a : XReg) (imm : Imm) := aSem [] d (fun s => s.rx a ||| sext32 imm)
def execOri (d a : XReg) (imm : Imm) : State → Out := runAlone (oriSem d a imm 0)
def xoriSem (d a : XReg) (imm : Imm) := aSem [] d (fun s => s.rx a ^^^ sext32 imm)
def execXori (d a : XReg) (imm : Imm) : State → Out := runAlone (xoriSem d a imm 0)
def shlSem (d a b : XReg) := aSem [] d (fun s => s.rx a <<< ((s.rx b).toNat % 64))
def execShl (d a b : XReg) : State → Out := runAlone (shlSem d a b 0)
def shrSem (d a b : XReg) := aSem [] d (fun s => s.rx a >>> ((s.rx b).toNat % 64))
def execShr (d a b : XReg) : State → Out := runAlone (shrSem d a b 0)
def sarSem (d a b : XReg) := aSem [] d (fun s => (s.rx a).sshiftRight ((s.rx b).toNat % 64))
def execSar (d a b : XReg) : State → Out := runAlone (sarSem d a b 0)
def shliSem (d a : XReg) (sh : BitVec 6) := aSem [] d (fun s => s.rx a <<< sh.toNat)
def execShli (d a : XReg) (sh : BitVec 6) : State → Out := runAlone (shliSem d a sh 0)
def shriSem (d a : XReg) (sh : BitVec 6) := aSem [] d (fun s => s.rx a >>> sh.toNat)
def execShri (d a : XReg) (sh : BitVec 6) : State → Out := runAlone (shriSem d a sh 0)
def sariSem (d a : XReg) (sh : BitVec 6) := aSem [] d (fun s => (s.rx a).sshiftRight sh.toNat)
def execSari (d a : XReg) (sh : BitVec 6) : State → Out := runAlone (sariSem d a sh 0)
def minSem (d a b : XReg) := aSem [] d (fun s => if (s.rx a).toInt ≤ (s.rx b).toInt then s.rx a else s.rx b)
def execMin (d a b : XReg) : State → Out := runAlone (minSem d a b 0)
def maxSem (d a b : XReg) := aSem [] d (fun s => if (s.rx a).toInt ≤ (s.rx b).toInt then s.rx b else s.rx a)
def execMax (d a b : XReg) : State → Out := runAlone (maxSem d a b 0)
def minuSem (d a b : XReg) := aSem [] d (fun s => if (s.rx a).toNat ≤ (s.rx b).toNat then s.rx a else s.rx b)
def execMinu (d a b : XReg) : State → Out := runAlone (minuSem d a b 0)
def maxuSem (d a b : XReg) := aSem [] d (fun s => if (s.rx a).toNat ≤ (s.rx b).toNat then s.rx b else s.rx a)
def execMaxu (d a b : XReg) : State → Out := runAlone (maxuSem d a b 0)
def sltSem (d a b : XReg) := aSem [] d (fun s => ofBool64 (decide ((s.rx a).toInt < (s.rx b).toInt)))
def execSlt (d a b : XReg) : State → Out := runAlone (sltSem d a b 0)
def sltuSem (d a b : XReg) := aSem [] d (fun s => ofBool64 (decide ((s.rx a).toNat < (s.rx b).toNat)))
def execSltu (d a b : XReg) : State → Out := runAlone (sltuSem d a b 0)
def seqSem (d a b : XReg) := aSem [] d (fun s => ofBool64 (s.rx a == s.rx b))
def execSeq (d a b : XReg) : State → Out := runAlone (seqSem d a b 0)
def sneSem (d a b : XReg) := aSem [] d (fun s => ofBool64 (s.rx a != s.rx b))
def execSne (d a b : XReg) : State → Out := runAlone (sneSem d a b 0)
def sltiSem (d a : XReg) (imm : Imm) := aSem [] d (fun s => ofBool64 (decide ((s.rx a).toInt < (sext32 imm).toInt)))
def execSlti (d a : XReg) (imm : Imm) : State → Out := runAlone (sltiSem d a imm 0)
def clzSem (d a : XReg) := aSem [] d (fun s => w64 (leadZeros 64 (s.rx a).toNat))
def execClz (d a : XReg) : State → Out := runAlone (clzSem d a 0)
def ctzSem (d a : XReg) := aSem [] d (fun s => w64 (trailZeros 64 (s.rx a).toNat))
def execCtz (d a : XReg) : State → Out := runAlone (ctzSem d a 0)
def popcSem (d a : XReg) := aSem [] d (fun s => w64 (popCount 64 (s.rx a).toNat))
def execPopc (d a : XReg) : State → Out := runAlone (popcSem d a 0)

/-! ## Bit fields (R195) -/

def bfxSem (d a : XReg) (off w : BitVec 8) := aSem [] d (fun s => bfxVal (s.rx a) off.toNat w.toNat)
def execBfx (d a : XReg) (off w : BitVec 8) : State → Out := runAlone (bfxSem d a off w 0)
def bfxRSem (d a b c : XReg) := aSem [] d (fun s => bfxVal (s.rx a) (s.rx b).toNat (s.rx c).toNat)
def execBfxR (d a b c : XReg) : State → Out := runAlone (bfxRSem d a b c 0)
def bfxsSem (d a : XReg) (off w : BitVec 8) := aSem [] d (fun s => bfxsVal (s.rx a) off.toNat w.toNat)
def execBfxs (d a : XReg) (off w : BitVec 8) : State → Out := runAlone (bfxsSem d a off w 0)
def bfxsRSem (d a b c : XReg) := aSem [] d (fun s => bfxsVal (s.rx a) (s.rx b).toNat (s.rx c).toNat)
def execBfxsR (d a b c : XReg) : State → Out := runAlone (bfxsRSem d a b c 0)
def bfiSem (d a : XReg) (off w : BitVec 8) := aSem [] d (fun s => bfiVal (s.rx d) (s.rx a) off.toNat w.toNat)
def execBfi (d a : XReg) (off w : BitVec 8) : State → Out := runAlone (bfiSem d a off w 0)
def bfiRSem (d a b c : XReg) := aSem [] d (fun s => bfiVal (s.rx d) (s.rx a) (s.rx b).toNat (s.rx c).toNat)
def execBfiR (d a b c : XReg) : State → Out := runAlone (bfiRSem d a b c 0)

/-! ## Constants, select, address (R193) -/

def moviSem (d : XReg) (imm : Imm) := aSem [] d (fun _ => sext32 imm)
def execMovi (d : XReg) (imm : Imm) : State → Out := runAlone (moviSem d imm 0)
def movhiSem (d : XReg) (imm : Imm) := aSem [] d (fun s => imm ++ (s.rx d).extractLsb' 0 32)
def execMovhi (d : XReg) (imm : Imm) : State → Out := runAlone (movhiSem d imm 0)
def selSem (d a b c : XReg) := aSem [] d (fun s => if s.rx c ≠ 0 then s.rx a else s.rx b)
def execSel (d a b c : XReg) : State → Out := runAlone (selSem d a b c 0)
def leaSem (d a b : XReg) (sc : BitVec 2) (imm : Imm) := aSem [] d (fun s => s.rx a + (s.rx b <<< sc.toNat) + sext32 imm)
def execLea (d a b : XReg) (sc : BitVec 2) (imm : Imm) : State → Out := runAlone (leaSem d a b sc imm 0)

/-! ## Random numbers (R200) -/

/-- R200: the block of xa, xb under key xc. -/
def rngBlock (s : State) (a b c : XReg) : Nat × Nat × Nat × Nat :=
  philox ((s.rx a).toNat % 2 ^ 32) ((s.rx a).toNat / 2 ^ 32) ((s.rx b).toNat % 2 ^ 32) ((s.rx b).toNat / 2 ^ 32) (s.rx c).toNat

def rngP0Sem (d a b c : XReg) := aSem [49] d (fun s => let w := rngBlock s a b c; w64 (w.2.1 * 2 ^ 32 + w.1))
def execRngP0 (d a b c : XReg) : State → Out := runAlone (rngP0Sem d a b c 0)
def rngP1Sem (d a b c : XReg) := aSem [49] d (fun s => let w := rngBlock s a b c; w64 (w.2.2.2 * 2 ^ 32 + w.2.2.1))
def execRngP1 (d a b c : XReg) : State → Out := runAlone (rngP1Sem d a b c 0)

/-! ## Floating point (R196-R198) -/

def faddSem (rm : BitVec 2) (d a b : XReg) := fSem [] d (fun s => fadd32 (s.fx a) (s.fx b) (RMode.ofCode rm.toNat))
def execFadd (rm : BitVec 2) (d a b : XReg) : State → Out := runAlone (faddSem rm d a b 0)
def fsubSem (rm : BitVec 2) (d a b : XReg) := fSem [] d (fun s => fadd32 (s.fx a) (fneg32 (s.fx b)) (RMode.ofCode rm.toNat))
def execFsub (rm : BitVec 2) (d a b : XReg) : State → Out := runAlone (fsubSem rm d a b 0)
def fmulSem (rm : BitVec 2) (d a b : XReg) := fSem [] d (fun s => fmul32 (s.fx a) (s.fx b) (RMode.ofCode rm.toNat))
def execFmul (rm : BitVec 2) (d a b : XReg) : State → Out := runAlone (fmulSem rm d a b 0)
def ffmaSem (rm : BitVec 2) (d a b c : XReg) :=
  fSem [2] d (fun s => ffma32 (s.fx a) (s.fx b) (s.fx c) (RMode.ofCode rm.toNat))
def execFfma (rm : BitVec 2) (d a b c : XReg) : State → Out := runAlone (ffmaSem rm d a b c 0)
def fminSem (d a b : XReg) := fSem [] d (fun s => fminmax .min .f32 (s.fx a) (s.fx b))
def execFmin (d a b : XReg) : State → Out := runAlone (fminSem d a b 0)
def fmaxSem (d a b : XReg) := fSem [] d (fun s => fminmax .max .f32 (s.fx a) (s.fx b))
def execFmax (d a b : XReg) : State → Out := runAlone (fmaxSem d a b 0)
def fcmpSem (cc : BitVec 3) (d a b : XReg) :=
  fSem [] d (fun s => let r := fcompare cc.toNat (Fmt.f32.decode (s.fx a)) (Fmt.f32.decode (s.fx b)); (r.1.toNat, r.2))
def execFcmp (cc : BitVec 3) (d a b : XReg) : State → Out := runAlone (fcmpSem cc d a b 0)

/-! ## Conversion (R199, R59, R62, R63) -/

/-- Integer scalar types of R167: signed or not, and width. -/
def scalarInt (c : Nat) : Option (Bool × Nat) :=
  match c with
  | 5 => some (true, 32) | 6 => some (false, 32) | 7 => some (true, 64) | 8 => some (false, 64) | _ => none

/-- Floating-point scalar types of R167. -/
def scalarFmt (c : Nat) : Fmt :=
  match c with
  | 1 => .bf16 | 2 => .f16 | 3 => .e4m3 | 4 => .e5m2 | _ => .f32

/-- R199: the result of a conversion that draws no random word, its flags, and whether it underflows to zero under R62. -/
def fcvtBase (dt sc rm : Nat) (x : Word) : Nat × Flags × Bool :=
  let mode := RMode.ofCode rm
  match scalarInt dt, scalarInt sc with
  | some (sg, n), _ =>
    let (v, fl) := roundToInt sg n (Fmt.f32.decode (x.toNat % 2 ^ 32)) mode
    (intBits (if sg then 64 else n) v, fl, false)
  | none, some (sg, n) =>
    let v : Int := if sg then (x.setWidth n).toInt else ((x.setWidth n).toNat : Int)
    let (r, fl) := roundTo .f32 (.ofInt v) mode false
    (r, fl, false)
  | none, none =>
    let df := scalarFmt dt
    let sf := scalarFmt sc
    let v := sf.decode (x.toNat % 2 ^ sf.width)
    let (r, fl) := roundTo df v mode false
    (r, if v.isNaN then fl.or Flags.invalid else fl, df.isNarrow && roundsToZero df v r)

/-- R199: the conversion in state: R62's underflow is counted, and under UFM = 1 draws its word (R63). -/
def State.fcvt (s : State) (dt sc rm : Nat) (x : Word) (slot : Nat) (d : XReg) : State :=
  let (r, fl, under) := fcvtBase dt sc rm x
  if !under then (s.raise fl).wb slot d (w64 r)
  else
    let s := s.modMe (fun st => { st with ufcnt := min (st.ufcnt + 1) 0xFFFF })
    let c := s.ctx (s.tile s.focus).ctx
    if !c.liveModes.getLsbD 0 then (s.raise fl).wb slot d (w64 r)
    else
      let st := s.me
      let w := (philox st.draws st.itag.toNat (512 + s.cur) 0 c.ufkey.toNat).1
      let df := scalarFmt dt
      let (r, fl) := roundTo df (Fmt.f32.decode (x.toNat % 2 ^ 32)) (.sr w) false
      let s := s.charge s.focus 49 1 (some s.cur)
      let s := s.modMe (fun st => { st with draws := (st.draws + 1) % 2 ^ 32 })
      (s.raise fl).wb slot d (w64 r)

def fcvtSem (dt sc : BitVec 4) (rm : BitVec 2) (d a : XReg) (slot : Nat) : Sem :=
  { slot, classes := [1, 2], act := fun pre s => s.fcvt dt.toNat sc.toNat rm.toNat (pre.rx a) slot d }
def execFcvt (dt sc : BitVec 4) (rm : BitVec 2) (d a : XReg) : State → Out := runAlone (fcvtSem dt sc rm d a 0)

end Sys2Proof.Machine
end

