-- ==== Sys2Proof/Machine/MemInstr.lean ====
section
/-! DEFINITION. The M class: loads, stores and atomics (R201-R204), stream-bound registers (R205-R208), system registers
(R209). -/

namespace Sys2Proof.Machine

/-! ## Loads, stores, atomics -/

/-- R201: may an access proceed? Its checks in order; a physical address found is kept for the slot's effect. -/
def memGate (a : XReg) (k : Imm) (width : Nat) (acc : Access) (s : State) : Gate :=
  let t := s.focus
  let ea := effAddr (s.rx a) k
  let o := ea.toNat / 65536 % 16
  let off := ea.toNat % 65536
  if !canonical ea then .trap s 0x10 ea
  else if ea.toNat % width ≠ 0 then .trap s 0x11 (memInfo 0 acc ea.toNat)
  else if inCellWindow ea then
    if 12 ≤ o then .trap s 0x13 (memInfo 2 acc ea.toNat)
    else if acc = .read ∧ (s.ctx (s.tile t).ctx).pendTrap ∧ (s.tile t).cellPending (s.fcOf t) (o * 65536 + off) width then
      .trap s 0x23 (w64 (off * 65536 + o))
    -- R336: a read-modify-write goes on once what causally precedes the write it reads is visible at its die
    else if acc = .atomic ∧ ((s.tile t).cellPasts (s.fcOf t) (o * 65536 + off) width true).any (fun i => !s.seenAt (tileDie t) i) then .wait s
    else .go s
  else
    match s.translate (.strand t s.cur) (s.tile t).ctx ea acc (s.super t) false with
    | .ok s pa _ =>
      if pa / 2 ^ 48 % 16 = 1 then .go (s.modTile t (fun u => { u with issue := { u.issue with pa := u.issue.pa.set 2 pa } }))
      else .trap s 0x13 (memInfo 3 acc ea.toNat)
    | .wait s => .wait s
    | .fault s code r =>
      if code = 0x40 then .wait s
      else .trap s code (memInfo r acc ea.toNat)

/-- The byte address of the cell window's ea within the tile's cell space. -/
def cellAddr (ea : Word) : Nat := ea.toNat % 0x100000

/-- R202: LD in the cell window, or a load sent to its memory node with the strand's causal past. -/
def ldAct (t3 : BitVec 3) (d a : XReg) (k : Imm) (pre s : State) : State :=
  let t := s.focus
  let n := s.cur
  let ea := effAddr (pre.rx a) k
  let w := ldWidth t3
  if inCellWindow ea then
    let past := (s.tile t).cellPasts (s.fcOf t) (cellAddr ea) w
    let (s, v) := (s.charge t 34 1 (s.tile t).roundStrand).cellRead t (s.fcOf t) (cellAddr ea) w
    (s.modStrand t n (fun st => { st with past := unionNat st.past past })).wb 2 d (extendLoad w (ldSigned t3) v)
  else
    let pa := (s.tile t).issue.pa.get 0 2
    let ctx := (s.tile t).ctx
    let s := (s.charge t 50 1 (some n)).nodePath ctx t pa w
    let id := s.nextId
    let r : MemReq := { id, ctx, die := tileDie t, src := .core t n 2 d.toNat w (ldSigned t3), pa, va := ea.toNat,
                        op := .load w, past := (s.strand t n).past }
    (s.bump.toNode pa r).awaitReg id 2 d

def ldSem (t3 : BitVec 3) (d a : XReg) (k : Imm) : Sem :=
  { slot := 2, classes := [3], gate := memGate a k (ldWidth t3) .read, act := ldAct t3 d a k, stall := (0x40, 0) }
def execLd (t3 : BitVec 3) (d a : XReg) (k : Imm) : State → Out := runAlone (ldSem t3 d a k)

/-- A write of the strand joins its stores (R343) and, off the tile, its causal past (R332); one to a cell leaves what causally precedes
it, which a scope wider than the tile waits for (R337). -/
def State.noteStore (s : State) (t n i cls : Nat) : State :=
  s.modStrand t n (fun st => { st with
    stores := st.stores ++ [(i, cls)],
    cellPast := if cls = 3 then unionNat st.cellPast (s.livePast st.past) else st.cellPast,
    past := if cls = 3 then st.past else i :: st.past })

/-- R202, R203: ST in the cell window, or a store sent to its memory node; it completes at issue. -/
def stAct (t2 : BitVec 2) (a b : XReg) (k : Imm) (pre s : State) : State :=
  let t := s.focus
  let n := s.cur
  let ea := effAddr (pre.rx a) k
  let w := 2 ^ t2.toNat
  let data := storeBytes w (pre.rx b)
  if inCellWindow ea then
    let f := s.fcOf t
    ((s.charge t 34 1 (s.tile t).roundStrand).cellWrite t f 48 (cellAddr ea) data false (s.strand t n).past).noteStore t n f 3
  else
    let pa := (s.tile t).issue.pa.get 0 2
    let ctx := (s.tile t).ctx
    let s := (s.charge t 51 1 (some n)).nodePath ctx t pa w
    let past := (s.strand t n).past
    let (s, id) := s.issueWrite (tileDie t)
    let r : MemReq := { id, ctx, die := tileDie t, src := .store t n, pa, va := ea.toNat, op := .store data, past, part := s.me.part,
                        stage := (s.tile t).stage }
    (s.toNode pa r).noteStore t n id 0

def stSem (t2 : BitVec 2) (a b : XReg) (k : Imm) : Sem :=
  { slot := 2, classes := [3], gate := memGate a k (2 ^ t2.toNat) .write, act := stAct t2 a b k, stall := (0x41, 0) }
def execSt (t2 : BitVec 2) (a b : XReg) (k : Imm) : State → Out := runAlone (stSem t2 a b k)

/-- R204: an ATOM or CAS: at the cell, or as a request whose value returns. -/
def rmwAct (wide : Bool) (d a : XReg) (k : Imm) (op : State → MemOp) (new : State → Nat → Nat) (pre s : State) : State :=
  let t := s.focus
  let n := s.cur
  let ea := effAddr (pre.rx a) k
  let w := wideBytes wide
  if inCellWindow ea then
    let f := s.fcOf t
    let past := unionNat (s.strand t n).past ((s.tile t).cellPasts f (cellAddr ea) w true)
    let (s, m) := (s.charge t 34 1 (s.tile t).roundStrand).cellLatest t f (cellAddr ea) w
    let s := (s.cellWrite t f 48 (cellAddr ea) (leBytes w (new pre m)) true past).modStrand t n (fun st => { st with past })
    (s.noteStore t n f 3).wb 2 d (extendLoad w true m)
  else
    let pa := (s.tile t).issue.pa.get 0 2
    let ctx := (s.tile t).ctx
    let s := (s.charge t 52 1 (some n)).nodePath ctx t pa w
    let past := (s.strand t n).past
    let (s, id) := s.issueWrite (tileDie t)
    let r : MemReq := { id, ctx, die := tileDie t, src := .core t n 2 d.toNat w true, pa, va := ea.toNat, op := op pre, past,
                        part := s.me.part, stage := (s.tile t).stage }
    ((s.toNode pa r).noteStore t n id 0).awaitReg id 2 d

def atomSem (op : BitVec 4) (wide : Bool) (d a b : XReg) (k : Imm) : Sem :=
  { slot := 2, classes := [3], gate := memGate a k (wideBytes wide) .atomic,
    act := rmwAct wide d a k (fun p => .atom op.toNat wide (p.rx b))
      (fun p m => atomNew op.toNat (8 * wideBytes wide) m ((p.rx b).toNat % 2 ^ (8 * wideBytes wide))),
    stall := (0x42, 0) }
def execAtom (op : BitVec 4) (wide : Bool) (d a b : XReg) (k : Imm) : State → Out := runAlone (atomSem op wide d a b k)

/-- R204: the new value of a CAS on n bits. -/
def casNew (n m v c : Nat) : Nat := if m = v % 2 ^ n then c % 2 ^ n else m

def casSem (wide : Bool) (d a b c : XReg) (k : Imm) : Sem :=
  { slot := 2, classes := [3], gate := memGate a k (wideBytes wide) .atomic,
    act := rmwAct wide d a k (fun p => .cas wide (p.rx b) (p.rx c))
      (fun p m => casNew (8 * wideBytes wide) m (p.rx b).toNat (p.rx c).toNat),
    stall := (0x43, 0) }
def execCas (wide : Bool) (d a b c : XReg) (k : Imm) : State → Out := runAlone (casSem wide d a b c k)

/-! ## Stream-bound registers -/

/-- R205: may SRD proceed? -/
def srdGate (r : SReg) (s : State) : Gate :=
  if (s.me.binding r.toNat).target = .unbound then .go s
  else match s.head s.focus s.cur r.toNat with
    | none => .wait s
    | some k => if k.kind = .poison then .trap s 0x21 (w64 r.toNat) else .go s

/-- R205: the word read, the cursor moved, the token consumed after word 7; its causal past becomes the strand's (R339). -/
def srdAct (d : XReg) (r : SReg) (pre s : State) : State :=
  let t := s.focus
  let n := s.cur
  let b := pre.me.binding r.toNat
  match pre.head t n r.toNat, b.readEnd r.toNat with
  | some k, some e =>
    if k.kind = .eos then s.wb 2 d 0
    else
      let s := s.wb 2 d (k.wordAt b.rcur)
      let s := if b.rcur = 7 then s.modTile t (fun u => (u.consume e).modBinding n r.toNat (fun b => { b with rcur := 0 }))
        else s.modTile t (fun u => u.modBinding n r.toNat (fun b => { b with rcur := b.rcur + 1 }))
      s.modStrand t n (fun st => { st with past := unionNat st.past k.past })
  | _, _ => s.wb 2 d 0

def srdSem (d : XReg) (r : SReg) : Sem :=
  { slot := 2, classes := [3], gate := srdGate r, act := srdAct d r, stall := (0x44, r.toNat) }
def execSrd (d : XReg) (r : SReg) : State → Out := runAlone (srdSem d r)

/-- R206: the status word of a binding. -/
def State.peek (s : State) (r : SReg) : Word :=
  let b := s.me.binding r.toNat
  if b.target = .unbound then 0
  else match s.head s.focus s.cur r.toNat with
    | none => w64 (b.rcur * 8)
    | some k => w64 (k.mask.toNat * 65536 + b.rcur * 8 + k.kind.code * 2 + 1)

def speekSem (d : XReg) (r : SReg) : Sem := { slot := 2, classes := [3], act := fun pre s => s.wb 2 d (pre.peek r) }
def execSpeek (d : XReg) (r : SReg) : State → Out := runAlone (speekSem d r)

/-- R183, R207: may SWR proceed? -/
def swrGate (r : SReg) (s : State) : Gate :=
  let b := s.me.binding r.toNat
  if b.target = .unbound ∨ (s.tile s.focus).canSend s.cur b r.toNat then .go s else .wait s

/-- R207: two lanes of the outgoing token written; the token sent after word 7. -/
def swrAct (r : SReg) (a : XReg) (pre s : State) : State :=
  let t := s.focus
  let n := s.cur
  let b := pre.me.binding r.toNat
  if b.target = .unbound then s
  else
    let s := s.modTile t (fun u => u.modBinding n r.toNat (fun b =>
      { b with part := b.part.putWord b.wcur (pre.rx a), wcur := b.wcur + 1 }))
    if b.wcur = 7 then s.sendPart t n r.toNat else s

def swrSem (r : SReg) (a : XReg) : Sem :=
  { slot := 2, classes := [3], gate := swrGate r, act := swrAct r a, stall := (0x46, r.toNat) }
def execSwr (r : SReg) (a : XReg) : State → Out := runAlone (swrSem r a)

/-! ## System registers and bindings -/

def getsSem (d : XReg) (num : BitVec 12) : Sem :=
  { slot := 2, classes := [3], act := fun pre s => s.wb 2 d (pre.getSys pre.focus pre.cur num.toNat) }
def execGets (d : XReg) (num : BitVec 12) : State → Out := runAlone (getsSem d num)

/-- R209: a SETS takes effect when its bundle completes. -/
def setsSem (num : BitVec 12) (a : XReg) : Sem :=
  { slot := 2, classes := [3], act := fun pre s => s.modTile s.focus (fun u =>
      { u with issue := { u.issue with sets := u.issue.sets ++ [(num.toNat, pre.rx a)] } }) }
def execSets (num : BitVec 12) (a : XReg) : State → Out := runAlone (setsSem num a)

/-- R208: the other register of the tile that holds the port a binding asks for. -/
def bindHolder (b : BindTarget) (s : State) (r : SReg) : Option (Nat × Nat) :=
  match b with
  | .port p => match (s.tile s.focus).portHolder p.toNat with
    | some (n, k) => if n = s.cur ∧ k = r.toNat then none else some (n, k)
    | none => none
  | _ => none

/-- The port a binding asks for, counted from 1; 0 for none. -/
def bindPort : BindTarget → Nat
  | .port p => p.toNat + 1
  | _ => 0

/-- R208: SBIND waits for the arcs of the partly written tokens it sends. -/
def sbindGate (r : SReg) (b : BindTarget) (s : State) : Gate :=
  let u := s.tile s.focus
  let other := match bindHolder b s r with
    | some (n, k) => u.canUnbind n k
    | none => true
  if u.canUnbind s.cur r.toNat && other then .go s else .wait s

/-- R208: the old binding undone, the port's other holder unbound, the new binding made. -/
def sbindAct (r : SReg) (b : BindTarget) (pre s : State) : State :=
  let t := s.focus
  let n := s.cur
  let s := s.unbind t n r.toNat
  let s := match bindHolder b pre r with
    | some (k, m) => s.unbind t k m
    | none => s
  s.modTile t (fun u => u.modBinding n r.toNat (fun _ =>
    { target := match b with
      | .port p => .port p.toNat
      | .fabric => .fabric
      | .nothing => .unbound }))

def sbindSem (r : SReg) (b : BindTarget) : Sem :=
  { slot := 2, classes := [3], gate := sbindGate r b, act := sbindAct r b, stall := (0x49, r.toNat + 8 * bindPort b) }
def execSbind (r : SReg) (b : BindTarget) : State → Out := runAlone (sbindSem r b)

end Sys2Proof.Machine
end

