-- ==== Sys2Proof/Machine/Control.lean ====
section
/-! DEFINITION. The B class (R210-R214): branches, calls and loops, the ends of a task, traps and the return from a handler. -/

namespace Sys2Proof.Machine

/-- The issuing tile's bundle in issue changed. -/
def State.modIssue (s : State) (f : Issue → Issue) : State := s.modTile s.focus (fun u => { u with issue := f u.issue })

/-- R166, R210: a transfer to a PC. -/
def State.goTo (s : State) (pc : BitVec 32) : State := s.modIssue (fun b => { b with nextPc := pc, taken := true })

/-- R210: a transfer by an offset from the bundle's PC, taken when the condition holds of the state before the bundle. -/
def brSemOf (cond : State → Bool) (off : Imm) : Sem :=
  { slot := 5, classes := [6], act := fun pre s => if cond pre then s.goTo (pre.me.pc + off) else s }

def brSem (off : Imm) : Sem := brSemOf (fun _ => true) off
def execBr (off : Imm) : State → Out := runAlone (brSem off)
def beqSem (a b : XReg) (off : Imm) : Sem := brSemOf (fun s => s.rx a == s.rx b) off
def execBeq (a b : XReg) (off : Imm) : State → Out := runAlone (beqSem a b off)
def bneSem (a b : XReg) (off : Imm) : Sem := brSemOf (fun s => s.rx a != s.rx b) off
def execBne (a b : XReg) (off : Imm) : State → Out := runAlone (bneSem a b off)
def bltSem (a b : XReg) (off : Imm) : Sem := brSemOf (fun s => decide ((s.rx a).toInt < (s.rx b).toInt)) off
def execBlt (a b : XReg) (off : Imm) : State → Out := runAlone (bltSem a b off)
def bgeSem (a b : XReg) (off : Imm) : Sem := brSemOf (fun s => decide ((s.rx b).toInt ≤ (s.rx a).toInt)) off
def execBge (a b : XReg) (off : Imm) : State → Out := runAlone (bgeSem a b off)
def bltuSem (a b : XReg) (off : Imm) : Sem := brSemOf (fun s => decide ((s.rx a).toNat < (s.rx b).toNat)) off
def execBltu (a b : XReg) (off : Imm) : State → Out := runAlone (bltuSem a b off)
def bgeuSem (a b : XReg) (off : Imm) : Sem := brSemOf (fun s => decide ((s.rx b).toNat ≤ (s.rx a).toNat)) off
def execBgeu (a b : XReg) (off : Imm) : State → Out := runAlone (bgeuSem a b off)
def bzSem (a : XReg) (off : Imm) : Sem := brSemOf (fun s => s.rx a == 0) off
def execBz (a : XReg) (off : Imm) : State → Out := runAlone (bzSem a off)
def bnzSem (a : XReg) (off : Imm) : Sem := brSemOf (fun s => s.rx a != 0) off
def execBnz (a : XReg) (off : Imm) : State → Out := runAlone (bnzSem a off)

/-- R210: a transfer to xa[31:0]. -/
def toReg (a : XReg) : Sem := { slot := 5, classes := [6], act := fun pre s => s.goTo ((pre.rx a).setWidth 32) }
def jrSem (a : XReg) : Sem := toReg a
def execJr (a : XReg) : State → Out := runAlone (jrSem a)
def retSem (a : XReg) : Sem := toReg a
def execRet (a : XReg) : State → Out := runAlone (retSem a)

/-- R210: CALL writes the next sequential PC. -/
def callSem (d : XReg) (off : Imm) : Sem :=
  { slot := 5, classes := [6], act := fun pre s =>
      (s.wb 5 d ((s.tile s.focus).issue.nextPc.setWidth 64)).goTo (pre.me.pc + off) }
def execCall (d : XReg) (off : Imm) : State → Out := runAlone (callSem d off)

/-- R210: LOOP counts xa down in slot 5. -/
def loopSem (a : XReg) (off : Imm) : Sem :=
  { slot := 5, classes := [6], act := fun pre s =>
      if 1 < (pre.rx a).toNat then (s.wb 5 a (pre.rx a - 1)).goTo (pre.me.pc + off) else s.wb 5 a 0 }
def execLoop (a : XReg) (off : Imm) : State → Out := runAlone (loopSem a off)

/-! ## Ends of a task, traps -/

/-- R211: the bundle that ends a task waits until every partial outgoing token can be sent. -/
def endGate (s : State) : Gate := if (s.tile s.focus).canUnbindAll s.cur then .go s else .wait s

/-- What the B slot does at completion. -/
def State.atEnd (s : State) (a : BAct) : State := s.modIssue (fun b => { b with act := a })

def yieldSem : Sem :=
  { slot := 5, classes := [6], illegal := fun s => s.me.handler, gate := endGate,
    act := fun _ s => s.atEnd (.ends .yield), stall := (0xCD, 0) }
def execYield : State → Out := runAlone yieldSem

/-- R38, R211: is q an input queue of the issuing task's stage? -/
def State.inputQueue (s : State) (q : Nat) : Bool :=
  let u := s.tile s.focus
  match u.stage with
  | some (slot, g) => ((s.pipe u.ctx slot).stage g).desc.inputs.contains q
  | none => false

def waitqSem (q : QNum) : Sem :=
  { slot := 5, classes := [6], illegal := fun s => s.me.handler || !s.inputQueue q.toNat, gate := endGate,
    act := fun _ s => s.atEnd (.ends (.waitq q.toNat)), stall := (0xCE, q.toNat) }
def execWaitq (q : QNum) : State → Out := runAlone (waitqSem q)

def doneSem : Sem :=
  { slot := 5, classes := [6], gate := endGate, act := fun _ s => s.atEnd (.ends .done), stall := (0xCF, 0) }
def execDone : State → Out := runAlone doneSem

def trapSem (code : Imm) : Sem :=
  { slot := 5, classes := [6], act := fun _ s => s.atEnd (.trap 0x38 (code.setWidth 64)) }
def execTrap (code : Imm) : State → Out := runAlone (trapSem code)

def brkSem (code : Imm) : Sem :=
  { slot := 5, classes := [6], act := fun _ s => s.atEnd (.trap 0x39 (code.setWidth 64)) }
def execBrk (code : Imm) : State → Out := runAlone (brkSem code)

def tretSem : Sem :=
  { slot := 5, classes := [6], illegal := fun s => !s.me.handler, act := fun _ s => s.atEnd .tret }
def execTret : State → Out := runAlone tretSem

end Sys2Proof.Machine
end

