-- ==== Sys2Proof/Machine/SyncInstr.lean ====
section
/-! DEFINITION. The Q class: queues (R347-R353), the fabric (R354-R357), tokens (R358-R360), membership sets and barriers
(R361, R362), fences (R343), early trigger (R363), energy (R364, R365), invalidation (R366). -/

namespace Sys2Proof.Machine

/-- The issuing task's pipeline slot and stage. -/
def State.myStage (s : State) : Option (Nat × Nat) := (s.tile s.focus).stage
/-- The issuing tile's context. -/
def State.myCtx (s : State) : Nat := (s.tile s.focus).ctx
/-- The issuing task's pipeline. -/
def State.myPipe (s : State) : Pipeline := s.pipe s.myCtx ((s.myStage.map (fun p => p.1)).getD 0)

/-- R347: an output queue of the issuing stage. -/
def State.outputQueue (s : State) (q : Nat) : Bool :=
  match s.myStage with
  | some (_, g) => (s.myPipe.stage g).desc.outputs.contains q
  | none => false

/-- R347: a queue of the issuing task's pipeline. -/
def State.pipeQueue (s : State) (q : Nat) : Bool := s.myStage.isSome && decide (q < s.myPipe.queues.length)

/-- A Q-class slot. -/
def qSem (op : Nat × Nat) (illegal : State → Bool) (gate : State → Gate) (act : State → State → State) : Sem :=
  { slot := 4, classes := [5], illegal, gate, act, stall := op }

/-! ## Queues -/

/-- R350: the item a QPUSH pushes. -/
def pushItem (pre s : State) (a b : XReg) : Item :=
  let seqin := match pre.myStage with
    | some (_, g) => (pre.myPipe.stage g).desc.seqin
    | none => false
  let tk : Word := pre.rx b
  { payload := pre.rx a :: (List.range 6).map (fun i => pre.rx (BitVec.ofNat 5 (i + 1))) ++ [0],
    tag := if b = 0 then (if seqin then pre.me.itag else 0) else tk.extractLsb' 0 32,
    key := if b = 0 then 0 else tk.extractLsb' 32 32, past := s.me.past }

/-- The task's table entry. -/
def State.myEntry (s : State) : Nat := s.me.entry.getD 0
/-- The task's entry of its stage's task table. -/
def State.myTask (s : State) : TaskEntry :=
  match s.myStage with
  | some (_, g) => (s.myPipe.stage g).tasks.get {} s.myEntry
  | none => {}

/-- R350: how a push is decided: refused with a code, or made, with or without a reservation. -/
inductive PushCase
  | code (n : Nat)
  | reserved (j : Nat)
  | free
  | spill
  deriving DecidableEq, Repr

/-- R350, in its order. -/
def State.pushCase (s : State) (q : Nat) : PushCase :=
  match s.myStage with
  | none => .code 1
  | some (_, g) =>
    let p := s.myPipe
    let x := p.queue q
    let j := (p.stage g).desc.outputs.idxOf q
    if x.closed then .code 2
    else if x.poisoned then .code 3
    else if 0 < s.myTask.held j then .reserved j
    else if 0 < p.free q then .free
    else if x.desc.spill then .spill
    else .code 1

/-- R129, R350: does the push enter the task's latest braid entry? -/
def State.braidPush (s : State) : Bool :=
  match s.myStage with
  | some (_, g) => (s.myPipe.stage g).desc.ord && decide (0 < s.myTask.braids)
  | none => false

/-- The push made on a queue: into the braid entry, or delivered; `toSpill` when only the spill area has room for it (R350). -/
def State.pushMade (s : State) (q : Nat) (it : Item) (toSpill : Bool) : PushOut :=
  match s.myStage with
  | none => .wait s
  | some (slot, g) =>
    let c := s.myCtx
    let t := s.focus
    if s.braidPush then
      let e := s.myEntry
      let latest := ((((s.pipe c slot).stage g).braid.filter (fun b => b.owner == e && !b.closed)).map (fun b => b.serial)).foldl max 0
      .done (s.modStage c slot g (fun x => { x with
        braid := x.braid.map (fun b => if b.serial == latest && b.owner == e then { b with pushes := b.pushes ++ [(q, it, t)] } else b) }))
    else
      let k := ((s.pipe c slot).queue q).desc.k
      match s.deliver c slot q (s.cursorOf t slot q k) (some t) it toSpill with
      | .done s => .done (s.bumpCursor t slot q k)
      | r => r

/-- R290, R350: a push waits only for the spill area, and for a queue that is SPILL-BLOCKED. -/
def qpushGate (q : QNum) (a b : XReg) (s : State) : Gate :=
  match s.pushCase q.toNat with
  | .code _ => .go s
  | .spill =>
    if s.braidPush then
      let x := s.myPipe.queue q.toNat
      let own := s.cursorOf s.focus ((s.myStage.map (fun p => p.1)).getD 0) q.toNat x.desc.k % x.desc.k
      if x.spillRoom own && !s.spillBlocked s.myCtx ((s.myStage.map (fun p => p.1)).getD 0) q.toNat then .go s else .wait s
    else match s.pushMade q.toNat (pushItem s s a b) true with
      | .wait s => .wait s
      | _ => .go s
  | _ => match s.pushMade q.toNat (pushItem s s a b) false with
    | .wait s => .wait s
    | _ => .go s

/-- R350: the push made, with its code; it seals the die's write batch (R334). -/
def qpushAct (d : XReg) (q : QNum) (a b : XReg) (pre s : State) : State :=
  let t := s.focus
  let n := s.cur
  let s := s.sealBatch (tileDie t)
  match s.pushCase q.toNat with
  | .code k => s.wb 4 d (w64 k)
  | k =>
    let s := match k, s.myStage with
      | .reserved j, some (slot, g) =>
        (s.modQueue s.myCtx slot q.toNat (fun x => { x with reserved := x.reserved - 1 })).modTask s.myCtx slot g s.myEntry
          (fun e => { e with reserved := modNth e.reserved j (fun r => r - 1) })
      | _, _ => s
    match s.pushMade q.toNat (pushItem pre s a b) (k == .spill) with
    | .done s => (s.charge t 44 1 (some n)).wb 4 d 0
    | .wait s => s.wb 4 d 1
    | .failed s addr => (s.failStore s.myCtx t n s.me.part s.myStage .spillf addr).wb 4 d 3

def qpushSem (d : XReg) (q : QNum) (a b : XReg) : Sem :=
  { qSem (0x90, q.toNat) (fun s => !s.outputQueue q.toNat) (qpushGate q a b) (qpushAct d q a b) with
    late := some (.qpush d q a b) }
def execQpush (d : XReg) (q : QNum) (a b : XReg) : State → Out := runAlone (qpushSem d q a b)

/-- R348: the registers an item taken sets, the code standing over them; the item's causal past joins the strand's. -/
def State.loadItem (s : State) (d : XReg) (it : Item) : State :=
  let w (i : Nat) : Word := if it.poison then 0 else it.payload.getD i 0
  let s := s.charge s.focus 45 1 (some s.cur)
  let s := s.modMe (fun st => { st with item := w 0, itag := it.tag, past := unionNat st.past it.past })
  let s := (List.range 6).foldl (fun s i => s.wb 4 (BitVec.ofNat 5 (i + 1)) (w (i + 1))) s
  s.wb 4 d (if it.poison then 4 else 0)

/-- R126, R127, R129: may the issuing strand take an item of q in this step? -/
def State.canTake (s : State) (q : Nat) : Bool :=
  match s.myStage with
  | none => false
  | some (slot, g) =>
    s.myPipe.strandReady g && s.turnOk s.myCtx slot q s.focus s.cur && (s.takeItem s.myCtx slot q s.focus s.cur).isSome

/-- An item taken by the issuing strand, with its reservations and braid entry. -/
def State.takeMine (s : State) (q : Nat) : Option (Item × State) :=
  match s.myStage with
  | none => none
  | some (slot, g) =>
    match s.takeItem s.myCtx slot q s.focus s.cur with
    | none => none
    | some (it, s) => some (it, s.popEffects s.myCtx slot g s.myEntry it)

/-- The pop request of the issuing strand. -/
def State.myPop (s : State) : PopReq := { tile := s.focus, strand := s.cur, stream := none }

/-- R127: the item that queue q's divider has given a strand's waiting pop. -/
def Strand.grantOf (st : Strand) (q : Nat) : Option Item := st.granted.bind (fun p => if p.1 = q then some p.2 else none)

/-- R127, R348: QPOP goes on with an item its divider gave it, with one it is first in turn for, or when q is closed and
empty; otherwise its request waits at the divider. -/
def qpopGate (q : QNum) (s : State) : Gate :=
  match s.myStage with
  | none => .wait s
  | some (slot, _) =>
    let x := s.myPipe.queue q.toNat
    if (s.me.granted.map (fun p => p.1)) == some q.toNat then .go s
    else if s.myPipe.drained q.toNat then .go s
    else if (x.waiting.filter (fun r => r != s.myPop)).isEmpty && s.canTake q.toNat then .go s
    else .wait (s.askPop s.myCtx slot q.toNat s.myPop)

/-- R348: QPOP. -/
def qpopAct (d : XReg) (q : QNum) (_ s : State) : State :=
  match s.myStage with
  | none => s
  | some (slot, _) =>
    let s := s.modQueue s.myCtx slot q.toNat (fun x => { x with waiting := x.waiting.erase s.myPop })
    match s.me.grantOf q.toNat with
    | some it => (s.modMe (fun st => { st with granted := none })).loadItem d it
    | none =>
      if s.myPipe.drained q.toNat then s.wb 4 d 1
      else match s.takeMine q.toNat with
        | some (it, s) => s.loadItem d it
        | none => s.wb 4 d 1

def qpopSem (d : XReg) (q : QNum) : Sem :=
  qSem (0x91, q.toNat) (fun s => !s.inputQueue q.toNat) (qpopGate q) (qpopAct d q)
def execQpop (d : XReg) (q : QNum) : State → Out := runAlone (qpopSem d q)

/-- R290, R348: has a queue no item, on chip or in spill, that a pop could take? -/
def State.nothingThere (s : State) (q : Nat) : Bool :=
  let x := s.myPipe.queue q
  (x.choose q).isNone && decide (x.spilled = 0)

/-- R128, R290: does the item a pop would take stand on chip? -/
def Queue.onChip (x : Queue) (q : Nat) : Bool :=
  match x.choose q with
  | some (j, _, _) => !(x.sub j).items.isEmpty
  | none => false

/-- R290: a pop of a queue with items waits while the one it would take is not on chip, or while the queue is SPILL-BLOCKED. -/
def State.spillHolds (s : State) (slot q : Nat) : Bool :=
  !s.nothingThere q && (s.spillBlocked s.myCtx slot q || !(s.myPipe.queue q).onChip q)

/-- R290, R348: QTRY waits only for the return of a spilled item that it may take (log 13); its request then stands at the divider. -/
def qtryGate (q : QNum) (s : State) : Gate :=
  match s.myStage with
  | none => .go s
  | some (slot, g) =>
    if (s.me.granted.map (fun p => p.1)) == some q.toNat then .go s
    else
      let s1 := s.serveAll s.myCtx slot q.toNat (s.myPipe.queue q.toNat).waiting.length
      if s1.myPipe.strandReady g && s1.turnOk s1.myCtx slot q.toNat s1.focus s1.cur && s1.spillHolds slot q.toNat then
        .wait (s1.askPop s1.myCtx slot q.toNat s1.myPop)
      else .go s

/-- R348: QTRY, behind the requests that wait already. -/
def qtryAct (d : XReg) (q : QNum) (_ s : State) : State :=
  match s.myStage with
  | none => s
  | some (slot, g) =>
    let s := s.modQueue s.myCtx slot q.toNat (fun x => { x with waiting := x.waiting.erase s.myPop })
    match s.me.grantOf q.toNat with
    | some it => (s.modMe (fun st => { st with granted := none })).loadItem d it
    | none =>
      let s := s.serveAll s.myCtx slot q.toNat (s.myPipe.queue q.toNat).waiting.length
      if s.myPipe.drained q.toNat then s.wb 4 d 1
      else if s.nothingThere q.toNat || !s.turnOk s.myCtx slot q.toNat s.focus s.cur then s.wb 4 d 2
      else if !s.myPipe.strandReady g then s.wb 4 d 3
      else match s.takeMine q.toNat with
        | some (it, s) => s.loadItem d it
        | none => s.wb 4 d 2

def qtrySem (d : XReg) (q : QNum) : Sem := qSem (0x92, q.toNat) (fun s => !s.inputQueue q.toNat) (qtryGate q) (qtryAct d q)
def execQtry (d : XReg) (q : QNum) : State → Out := runAlone (qtrySem d q)

/-- R352: the state of a queue. -/
def State.queueWord (s : State) (c slot q : Nat) : Word :=
  let p := s.pipe c slot
  let x := p.queue q
  w64 ((decide (0 < x.spilled)).toNat * 2 ^ 35 + (s.spillBlocked c slot q).toNat * 2 ^ 34 + x.poisoned.toNat * 2 ^ 33
    + x.closed.toNat * 2 ^ 32 + p.free q % 65536 * 65536 + x.items % 65536)

def qstatSem (d : XReg) (q : QNum) : Sem :=
  qSem (0x93, q.toNat) (fun s => !s.pipeQueue q.toNat) Gate.go
    (fun _ s => s.wb 4 d (s.queueWord s.myCtx ((s.myStage.map (fun p => p.1)).getD 0) q.toNat))
def execQstat (d : XReg) (q : QNum) : State → Out := runAlone (qstatSem d q)

def qcloseSem (q : QNum) : Sem :=
  qSem (0x94, q.toNat) (fun s => !s.pipeQueue q.toNat) Gate.go
    (fun _ s => s.modQueue s.myCtx ((s.myStage.map (fun p => p.1)).getD 0) q.toNat (fun x => { x with closed := true }))
def execQclose (q : QNum) : State → Out := runAlone (qcloseSem q)

/-- R351: QRES. -/
def qresAct (d : XReg) (q : QNum) (a : XReg) (pre s : State) : State :=
  match s.myStage with
  | none => s
  | some (slot, g) =>
    let j := (s.myPipe.stage g).desc.outputs.idxOf q.toNat
    let n := (pre.rx a).toNat
    if n = 0 then s.wb 4 d (w64 (s.myTask.held j))
    else if n ≤ s.myPipe.free q.toNat then (s.reserve s.myCtx slot g s.myEntry j n).wb 4 d 1
    else s.wb 4 d 0

def qresSem (d : XReg) (q : QNum) (a : XReg) : Sem :=
  qSem (0x95, q.toNat) (fun s => !s.outputQueue q.toNat) Gate.go (qresAct d q a)
def execQres (d : XReg) (q : QNum) (a : XReg) : State → Out := runAlone (qresSem d q a)

/-! ## The fabric -/

/-- R354: FCFG asks for a load and waits for its outcome. -/
def fcfgGate (a : XReg) (s : State) : Gate :=
  let t := s.focus
  let n := s.cur
  if s.me.fcfg.isSome then .go s
  else if (s.rx a).toNat % 64 ≠ 0 then .go (s.modMe (fun st => { st with fcfg := some 1 }))
  else if (s.tile t).load.isSome then .wait s
  else .wait (s.modTile t (fun u => { u with load := some { va := (s.rx a).toNat, strand := some n } }))

def fcfgSem (d a : XReg) : Sem :=
  qSem (0x98, 0) (fun _ => false) (fcfgGate a)
    (fun _ s => (s.modMe (fun st => { st with fcfg := none })).wb 4 d (s.me.fcfg.getD 0))
def execFcfg (d a : XReg) : State → Out := runAlone (fcfgSem d a)

/-- R357: FARG. -/
def fargSem (cell : BitVec 4) (e : BitVec 5) (a : XReg) : Sem :=
  qSem (0x99, 0) (fun s => !(s.tile s.focus).hasElem cell.toNat e.toNat) Gate.go
    (fun pre s => (s.charge s.focus 23 1 (some s.cur)).modTile s.focus
      (fun u => { u with fargs := u.fargs ++ [(cell.toNat, e.toNat, (pre.rx a).setWidth 32)] }))
def execFarg (cell : BitVec 4) (e : BitVec 5) (a : XReg) : State → Out := runAlone (fargSem cell e a)

/-- R355, R356: a slot that waits while a round is in progress on the tile. -/
def roundGate (s : State) : Gate := if (s.tile s.focus).fstat.run then .wait s else .go s

def fgoSem : Sem := qSem (0x9A, 0) (fun _ => false) roundGate (fun _ s => s.startRound s.focus s.cur)
def execFgo : State → Out := runAlone fgoSem

def fstatSem (d : XReg) : Sem :=
  qSem (0x9B, 0) (fun _ => false) Gate.go (fun pre s => s.wb 4 d (pre.tile pre.focus).fstat.word)
def execFstat (d : XReg) : State → Out := runAlone (fstatSem d)

def fdrnSem (d : XReg) : Sem :=
  qSem (0x9C, 0) (fun _ => false) roundGate (fun pre s => s.wb 4 d (pre.tile pre.focus).fstat.word)
def execFdrn (d : XReg) : State → Out := runAlone (fdrnSem d)

/-! ## Tokens between strands -/

/-- R358: where a TSEND goes: nowhere (BADDEST), to a strand of the own package, or by a port to another package. -/
inductive Dest
  | bad
  | here (tile strand : Nat)
  | away (pkg port : Nat)
  deriving DecidableEq, Repr

/-- R358, R370: the destination of a global strand address. -/
def State.tokenDest (s : State) (addr : BitVec 32) : Dest :=
  let pkg := (addr.extractLsb' 13 19).toNat
  let die := (addr.extractLsb' 9 4).toNat
  let tile := 64 * die + (addr.extractLsb' 3 6).toNat
  if 8 < die then .bad
  else if pkg = Config.pkgid.toNat then
    if (s.part (s.ctx s.myCtx).part).tiles.contains tile then .here tile (addr.extractLsb' 0 3).toNat else .bad
  else match s.routePort s.focus s.cur pkg with
    | some p => .away pkg p
    | none => .bad

/-- R358: TSEND; it seals the die's write batch (R334). -/
def tsendAct (d a b : XReg) (pre s : State) : State :=
  let t := s.focus
  let n := s.cur
  let c := s.myCtx
  let addr : BitVec 32 := (pre.rx a).setWidth 32
  let tag : Lane := (pre.rx a).extractLsb' 32 32
  let pay : Lane := (pre.rx b).setWidth 32
  let s := s.sealBatch (tileDie t)
  match s.tokenDest addr with
  | .bad => s.wb 4 d 1
  | .here u m =>
    let s := (s.modMe (fun st => { st with sent := st.sent + 1 })).modCtx c (fun x =>
      { x with lane := x.lane ++ [(t, n, u, m, { tag, payload := pay, past := s.me.past })] })
    (s.chargePath c t u 16).wb 4 d 0
  | .away pkg p =>
    let id := s.nextId
    let s := (s.bump.modMe (fun st => { st with sent := st.sent + 1 })).modPkg (fun x =>
      { x with flights := x.flights ++ [{ tag := id, tile := t, id := 32 + n, n := 0, ctx := c, window := 0, port := p, addr := 0,
                                          isWrite := false, wid := 0 }] })
    let lane := (s.ctx c).tokenLane pkg
    let req : RemoteReq := { srcPkg := Config.pkgid.toNat, srcCtx := c, srcTile := t, srcStrand := n, dstPkg := pkg, dstCtx := 0, lane,
                             addr := 0, kind := .token tag pay addr, tag := id }
    -- R102, R367: the way to the port
    ((s.chargePath c t (portTile p) 16).toLane p lane { ctx := some c, lane, dst := pkg, packet := .request req }).wb 4 d 0

def tsendSem (d a b : XReg) : Sem :=
  { qSem (0xA0, 0) (fun _ => false) (fun s => if 4 ≤ s.me.sent then .wait s else .go s) (tsendAct d a b) with
    late := some (.tsend d a b) }
def execTsend (d a b : XReg) : State → Out := runAlone (tsendSem d a b)

/-- R360: the oldest token of a tag in the issuing strand's mailbox. -/
def State.mail (s : State) (tag : Lane) : Option Mail := s.me.mailbox.find? (fun m => m.tag == tag)

/-- R360: a token taken, with its causal past; 0 when there is none. -/
def takeMail (d : XReg) (tag : Lane) (_ s : State) : State :=
  match s.mail tag with
  | none => s.wb 4 d 0
  | some m =>
    (s.modMe (fun st => { st with mailbox := st.mailbox.erase m, past := unionNat st.past m.past })).wb 4 d
      (0x8000000000000000#64 ||| m.payload.setWidth 64)

def twaitSem (d : XReg) (tag : Imm) : Sem :=
  qSem (0xA1, 0) (fun _ => false) (fun s => if (s.mail tag).isSome then .go s else .wait s) (takeMail d tag)
def execTwait (d : XReg) (tag : Imm) : State → Out := runAlone (twaitSem d tag)
def tpollSem (d : XReg) (tag : Imm) : Sem := qSem (0xA2, 0) (fun _ => false) Gate.go (takeMail d tag)
def execTpoll (d : XReg) (tag : Imm) : State → Out := runAlone (tpollSem d tag)

/-! ## Membership sets and barriers -/

/-- R361: the handle xa names. -/
def State.handle (s : State) (a : XReg) : Nat := (s.rx a).toNat % 65536
/-- R361: a handle of 256 or above is out of range. -/
def badHandle (a : XReg) (s : State) : Bool := decide (256 ≤ s.handle a)
/-- A set of a context; a set that does not exist has no member. -/
def Context.set (c : Context) (h : Nat) : MSet := c.sets.get {} h

/-- R362: the phase closed: members take part in the next, late arrivals stand in it. -/
def MSet.close (m : MSet) : MSet :=
  { m with phase := (m.phase + 1) % 2 ^ 48, participants := m.members, arrived := m.late, late := [],
           past := m.past.set m.phase m.pastOpen, pastOpen := m.pastLate, pastLate := [] }

/-- R362: does the open phase close? -/
def MSet.full (m : MSet) : Bool := !m.members.isEmpty && m.participants.all (fun t => m.arrived.contains t)

/-- R362: the phases that close now: at most the open one and, on late arrivals, the next. -/
def MSet.settle (m : MSet) : MSet := if m.full then (if m.close.full then m.close.close else m.close) else m

/-- R361, R362: a tile joins. -/
def MSet.join (m : MSet) (t : Nat) : MSet :=
  if m.members.isEmpty then { members := [t], participants := [t] }
  else if m.members.contains t then m else { m with members := m.members ++ [t] }

/-- R361, R362: a tile leaves, its mark with it. -/
def MSet.leave (m : MSet) (t : Nat) : MSet :=
  let r (l : List Nat) : List Nat := l.filter (· != t)
  ({ m with members := r m.members, participants := r m.participants, arrived := r m.arrived, late := r m.late } : MSet).settle

/-- R361: a context's set changed; a set with no member ceases to exist. -/
def Context.putSet (c : Context) (h : Nat) (m : MSet) : Context :=
  { c with sets := if m.members.isEmpty then c.sets.erase h else c.sets.set h m }

/-- R361: a tile leaves every set of its context. -/
def Context.leaveAll (c : Context) (t : Nat) : Context :=
  c.sets.foldl (fun d p => if p.2.members.contains t then d.putSet p.1 (p.2.leave t) else d) c

/-- R362: an arrival of a member, and the phase it arrives in. -/
def MSet.arrive (m : MSet) (t : Nat) (past : List Nat) : MSet × Nat :=
  if m.participants.contains t then
    (({ m with arrived := if m.arrived.contains t then m.arrived else m.arrived ++ [t],
               pastOpen := unionNat m.pastOpen past } : MSet).settle, m.phase)
  else
    ({ m with late := if m.late.contains t then m.late else m.late ++ [t], pastLate := unionNat m.pastLate past },
      (m.phase + 1) % 2 ^ 48)

/-- R13, R102, R367, R429: a barrier message to the scheduler. -/
def State.leadPath (s : State) : State := s.chargePath s.myCtx s.focus (s.leadTile s.myCtx) 16

def joinSem (a : XReg) : Sem :=
  qSem (0xA3, 0) (badHandle a) Gate.go (fun pre s => s.leadPath.modCtx s.myCtx (fun c =>
    c.putSet (pre.handle a) ((c.set (pre.handle a)).join s.focus)))
def execJoin (a : XReg) : State → Out := runAlone (joinSem a)

def leaveSem (a : XReg) : Sem :=
  qSem (0xA4, 0) (badHandle a) Gate.go (fun pre s => s.leadPath.modCtx s.myCtx (fun c =>
    if (c.set (pre.handle a)).members.contains s.focus then c.putSet (pre.handle a) ((c.set (pre.handle a)).leave s.focus) else c))
def execLeave (a : XReg) : State → Out := runAlone (leaveSem a)

/-- R362: GARR. -/
def garrAct (d a : XReg) (pre s : State) : State :=
  let h := pre.handle a
  let m := (s.ctx s.myCtx).set h
  let s := s.leadPath
  if m.members.contains s.focus then
    let (m', ph) := m.arrive s.focus s.me.past
    (s.modCtx s.myCtx (fun c => c.putSet h m')).wb 4 d (w64 ph)
  else s.wb 4 d (0x8000000000000000#64 ||| w64 m.phase)

def garrSem (d a : XReg) : Sem := qSem (0xA6, 0) (badHandle a) Gate.go (garrAct d a)
def execGarr (d a : XReg) : State → Out := runAlone (garrSem d a)

/-- R362: has a phase of a set closed? Phases count modulo 2^48. -/
def MSet.closed (m : MSet) (ph : Nat) : Bool := decide ((m.phase + 2 ^ 48 - ph - 1) % 2 ^ 48 < 2 ^ 47)

/-- R362: the set and phase that a strand's unissued GBAR has arrived in: a handler entered while a GBAR waits has its own. -/
def Strand.gbarNow (st : Strand) : Option (Nat × Nat) := if st.handler then st.gbarH else st.gbar

/-- R362: GBAR arrives once in its set, then waits until the phase it arrived in has closed. -/
def gbarGate (a : XReg) (s : State) : Gate :=
  let t := s.focus
  let h := s.handle a
  let c := s.myCtx
  let m := (s.ctx c).set h
  if !m.members.contains t then .go s
  else
    match s.me.gbarNow.filter (fun p => p.1 == h) with
    | some (_, ph) => if m.closed ph then .go s else .wait s
    | none =>
      let (m', ph) := m.arrive t s.me.past
      let s := (s.leadPath.modCtx c (fun c => c.putSet h m')).modMe (fun st =>
        if st.handler then { st with gbarH := some (h, ph) } else { st with gbar := some (h, ph) })
      if m'.closed ph then .go s else .wait s

def gbarSem (a : XReg) : Sem :=
  qSem (0xA5, 0) (badHandle a) (gbarGate a) (fun pre s =>
    match pre.me.gbarNow with
    | some (h, ph) => s.modMe (fun st => { st with past := unionNat st.past (((s.ctx s.myCtx).set h).past.get [] ph) })
    -- R367: a non-member's message goes to the scheduler too
    | none => s.leadPath)
def execGbar (a : XReg) : State → Out := runAlone (gbarSem a)

/-! ## Fences and early trigger -/

/-- R337: is what causally precedes a strand's cell stores visible where a scope asks for it: at its die, or on every die? -/
def State.cellsSeen (s : State) (t n scope : Nat) : Bool :=
  let l := (s.strand t n).cellPast
  if scope < 2 then true else if scope = 2 then l.all (s.seenAt (tileDie t)) else l.all s.seenEverywhere

/-- R337, R343: is a store of strand n performed at a scope, or resolved as failed? -/
def State.storeDone (s : State) (t n scope : Nat) (w : Nat × Nat) : Bool :=
  if w.2 = 3 then decide (w.1 + 4 ≤ s.fcOf t) && s.cellsSeen t n scope
  else match scope with
    | 0 => true
    | 1 => !s.flying.contains w.1
    | 2 => s.seenAt (tileDie t) w.1
    | _ => s.seenEverywhere w.1

/-- R376: has every write that a strand's commands have sent to another package been answered, or resolved as lost? -/
def State.podDone (s : State) (t n : Nat) : Bool :=
  !s.pkg.flights.any (fun f => f.isWrite && f.tile == t && f.ctx == (s.tile t).ctx
    && (((s.tile t).cmds.find? (fun c => c.1 == f.id)).map (fun c => c.2.strand)) == some n)

/-- R334, R343, R376: FENCE seals the batch at die scope or wider, and waits for the strand's earlier stores; FENCE.pod waits for the
answers to its remote writes too (log 104). -/
def fenceGate (scope : BitVec 3) (s : State) : Gate :=
  let t := s.focus
  let s := if 2 ≤ scope.toNat then s.sealBatch (tileDie t) else s
  if s.me.stores.all (fun w => s.storeDone t s.cur scope.toNat w) && (scope.toNat < 4 || s.podDone t s.cur) then .go s else .wait s

def fenceSem (scope : BitVec 3) (d : XReg) : Sem :=
  qSem (0xA7, scope.toNat) (fun _ => false) (fenceGate scope) (fun pre s =>
    (s.modMe (fun st => { st with
      fail := {}, stores := st.stores.filter (fun w => !s.storeDone s.focus s.cur 3 w), cellPast := s.livePast st.cellPast })).wb 4 d
      (pre.me.fail.word true))
def execFence (scope : BitVec 3) (d : XReg) : State → Out := runAlone (fenceSem scope d)

/-- R363: TRIG seals the batch and leaves its count to be sent once the strand's stores are performed. -/
def trigAct (_ s : State) : State :=
  let t := s.focus
  let n := s.cur
  let s := s.sealBatch (tileDie t)
  match s.myStage with
  | none => s
  | some (slot, _) =>
    let st := s.me
    s.modCtx s.myCtx (fun c => { c with
      trigQueue := c.trigQueue ++ [{ tile := t, strand := n, slot, waits := unionNat ((st.stores.filter (fun w => w.2 != 3)).map (fun w => w.1)) st.cellPast,
                                     cellFc := ((st.stores.filter (fun w => w.2 == 3)).map (fun w => w.1 + 4)).foldl max 0, past := st.past }] })

def trigSem : Sem := { qSem (0xA8, 0) (fun _ => false) Gate.go trigAct with late := some .trig }

/-- R332, edge 1: what a slot kept for the bundle's load does once the value has returned, and whether it has acted: it has not while
it has to wait (R290). -/
def lateAct (i : Instr) (s : State) : State × Bool :=
  let go (m : Sem) : State × Bool := match m.gate s with
    | .go s => (m.act s s, true)
    | .wait s => (s, false)
    | .trap s _ _ => (s, true)
  match i with
  | .qpush d q a b => go (qpushSem d q a b)
  | .tsend d a b => go (tsendSem d a b)
  | .trig => go trigSem
  | _ => (s, true)

def execTrig : State → Out := runAlone trigSem

/-! ## Energy -/

def emtrTaskSem (d : XReg) : Sem := qSem (0xB0, 0) (fun _ => false) Gate.go (fun pre s => s.wb 4 d (w64 pre.me.echg))
def execEmtrTask (d : XReg) : State → Out := runAlone (emtrTaskSem d)
def emtrCtxSem (d : XReg) : Sem :=
  qSem (0xB0, 1) (fun _ => false) Gate.go (fun pre s => s.wb 4 d (w64 (pre.tile pre.focus).emtr))
def execEmtrCtx (d : XReg) : State → Out := runAlone (emtrCtxSem d)

/-- R365: EBGT has the effect of SETS EBUDGET when its bundle completes. -/
def ebgtSem (a : XReg) : Sem :=
  qSem (0xB1, 0) (fun _ => false) Gate.go (fun pre s =>
    s.modIssue (fun b => { b with sets := b.sets ++ [(0x050, (pre.rx a).setWidth 64)] }))
def execEbgt (a : XReg) : State → Out := runAlone (ebgtSem a)

/-! ## Invalidation -/

/-- R366: the context INVL and INVW name. -/
def invCtx (b : XReg) (s : State) : Nat := ((s.rx b).extractLsb' 54 10).toNat

/-- R146: the accesses an invalidation waits for: those of the context in its range that stand at memory nodes, its accesses to other
packages, and every write applied and not yet visible on every die. -/
def State.invalReqs (s : State) (v : Inval) : List Nat :=
  let queued := s.dies.flatMap (fun d => d.2.nodes.flatMap (fun k =>
    (k.2.filter (fun r => r.ctx == v.ctx && decide (v.lo ≤ r.va % 2 ^ 57) && decide (r.va % 2 ^ 57 < v.hi))).map (fun r => r.id)))
  queued ++ (s.pkg.flights.filter (fun f => f.ctx == v.ctx)).map (fun f => f.tag) ++ s.log.map (fun r => r.id)

/-- Does a request stand at a memory node? -/
def State.atNode (s : State) (i : Nat) : Bool := s.dies.any (fun d => d.2.nodes.any (fun k => k.2.any (fun r => r.id == i)))

/-- R146: is an access still to be performed: at a node, on its way to another package, or applied and not visible everywhere? -/
def State.unperformed (s : State) (i : Nat) : Bool :=
  s.atNode i || s.pkg.flights.any (fun f => f.tag == i) || s.log.any (fun r => r.id == i)

/-- Every write and read-modify-write made so far that is not performed at package scope. -/
def State.openWrites (s : State) : List Nat :=
  s.dies.flatMap (fun d => d.2.nodes.flatMap (fun k => (k.2.filter (fun r => match r.op with
    | .load _ => false
    | _ => true)).map (fun r => r.id))) ++ s.log.map (fun r => r.id)

/-- R146, R366: the invalidation xa and xb name. -/
def State.invalOf (s : State) (a b : XReg) : Inval :=
  let c := invCtx b s
  let n := ((s.rx b).extractLsb' 0 54).toNat
  let lo := if n = 0 then 0 else (s.rx a).toNat % 2 ^ 57 / 4096 * 4096
  let hi := if n = 0 then 2 ^ 57 else min (lo + 4096 * n) (2 ^ 57)
  { id := s.nextId, ctx := c, lo, hi, part := (s.ctx c).part, writes := s.openWrites }

/-- R146, R147: an invalidation starts: its translations are removed, and leaves with M = 1 are read again. -/
def State.startInval (s : State) (v : Inval) : State :=
  let s := (s.bump.purge v)
  let s := (List.range 9).foldl (fun s d => s.recheckMigrating d) s
  { s with invals := s.invals ++ [v] }

/-- Is an invalidation under way? -/
def State.invalOpen (s : State) (i : Nat) : Bool := s.invals.any (fun v => v.id == i)

def invlSem (a b : XReg) : Sem :=
  { qSem (0xB8, 0) (fun s => decide (288 < invCtx b s)) Gate.go (fun pre s =>
      if !(s.ctx (invCtx b pre)).live then s
      else
        let v := { pre.invalOf a b with id := s.nextId }
        (s.startInval v).modMe (fun st => { st with invls := v.id :: st.invls.filter s.invalOpen })) with priv := true }
def execInvl (a b : XReg) : State → Out := runAlone (invlSem a b)

/-- R366: INVW starts its invalidation once and waits for it and the strand's earlier INVLs. -/
def invwGate (a b : XReg) (s : State) : Gate :=
  let s := match s.me.invw with
    | some _ => s
    | none =>
      if !(s.ctx (invCtx b s)).live then s.modMe (fun st => { st with invw := some 0 })
      else
        let v := s.invalOf a b
        (s.startInval v).modMe (fun st => { st with invw := some v.id })
  let mine := (s.me.invw.map s.invalOpen).getD false
  if mine || s.me.invls.any s.invalOpen then .wait s else .go s

def invwSem (a b : XReg) : Sem :=
  { qSem (0xB9, 0) (fun s => decide (288 < invCtx b s)) (invwGate a b)
      (fun _ s => s.modMe (fun st => { st with invw := none, invls := [] })) with priv := true }
def execInvw (a b : XReg) : State → Out := runAlone (invwSem a b)

/-- R145, R146: one invalidation's progress. Until every write made before it is performed at package scope a walk may still read an
old entry; once they are, what such walks have filled is removed too, and the accesses then under way are those it waits for. -/
def State.advanceInval (s : State) (v : Inval) : State × Inval :=
  if v.settled || v.writes.any s.unperformed then (s, v) else (s.purge v, { v with settled := true, reqs := s.invalReqs v })

/-- R146, R157: INVALIDATION_COMPLETE: every invalidation whose accesses are performed at package scope, or have faulted, ends; what has
been prefetched while it was under way goes with it. -/
def execInvalidationCompleteState (s : State) : State :=
  let (s, l) := s.invals.foldl (fun (p : State × List Inval) v => ((p.1.advanceInval v).1, p.2 ++ [(p.1.advanceInval v).2])) (s, [])
  let ended (v : Inval) : Bool := v.settled && !v.reqs.any s.unperformed
  { (l.filter ended).foldl State.purgeFetch s with invals := l.filter (fun v => !ended v) }

end Sys2Proof.Machine
end

