-- ==== Sys2Proof/Machine/StreamInstr.lean ====
section
/-! DEFINITION. The C class (R304-R327): pattern writes, the issue of stream commands with their checks, orderings, waits and
aborts, and carried-state slots. -/

namespace Sys2Proof.Machine

/-- A C-class slot. -/
def cSem (op : Nat × Nat) (gate : State → Gate) (act : State → State → State) : Sem :=
  { slot := 3, classes := [4], gate, act, stall := op }

/-! ## Patterns (R309-R311) -/

/-- Pattern register p of the issuing strand changed. -/
def State.modPat (s : State) (p : PReg) (f : Pattern → Pattern) : State :=
  s.modMe (fun st => { st with p := st.p.set p.toNat (f (st.p.get 0 p.toNat)) })

/-- R309: BASE and the format fields. -/
def Pattern.setBase (p : Pattern) (base : Word) (imm : BitVec 20) : Pattern :=
  let p := Pattern.put p 0 64 base
  let p := Pattern.put p 64 4 (imm.extractLsb' 0 4)
  let p := Pattern.put p 68 4 (imm.extractLsb' 4 4)
  let p := Pattern.put p 72 5 (imm.extractLsb' 8 5)
  let p := Pattern.put p 77 2 (imm.extractLsb' 13 2)
  let p := Pattern.put p 79 1 (imm.extractLsb' 15 1)
  let p := Pattern.put p 80 2 (imm.extractLsb' 16 2)
  Pattern.put p 82 2 (imm.extractLsb' 18 2)

def psetbSem (p : PReg) (a : XReg) (imm : BitVec 20) : Sem :=
  cSem (0x60, 0) Gate.go (fun pre s => s.modPat p (fun x => Pattern.setBase x (pre.rx a) imm))
def execPsetb (p : PReg) (a : XReg) (imm : BitVec 20) : State → Out := runAlone (psetbSem p a imm)

def psetdExtSem (p : PReg) (k : BitVec 2) (a b : XReg) : Sem :=
  cSem (0x61, 0) Gate.go (fun pre s => s.modPat p (fun x =>
    Pattern.put (Pattern.put x (256 + 192 * k.toNat) 32 ((pre.rx a).setWidth 32)) (256 + 192 * k.toNat + 32) 32
      ((pre.rx b).setWidth 32)))
def execPsetdExt (p : PReg) (k : BitVec 2) (a b : XReg) : State → Out := runAlone (psetdExtSem p k a b)

def psetdStrSem (p : PReg) (k : BitVec 2) (a _b : XReg) : Sem :=
  cSem (0x61, 1) Gate.go (fun pre s => s.modPat p (fun x =>
    Pattern.put x (256 + 192 * k.toNat + 64) 40 ((pre.rx a).setWidth 40)))
def execPsetdStr (p : PReg) (k : BitVec 2) (a b : XReg) : State → Out := runAlone (psetdStrSem p k a b)

def psetdBndSem (p : PReg) (k : BitVec 2) (a b : XReg) : Sem :=
  cSem (0x61, 2) Gate.go (fun pre s => s.modPat p (fun x =>
    Pattern.put (Pattern.put x (256 + 192 * k.toNat + 128) 32 ((pre.rx a).setWidth 32)) (256 + 192 * k.toNat + 160) 32
      ((pre.rx b).setWidth 32)))
def execPsetdBnd (p : PReg) (k : BitVec 2) (a b : XReg) : State → Out := runAlone (psetdBndSem p k a b)

def psetfSem (p : PReg) (a b : XReg) (imm : Imm) : Sem :=
  cSem (0x62, 0) Gate.go (fun pre s => s.modPat p (fun x =>
    Pattern.put (Pattern.put (Pattern.put x 128 64 (pre.rx a)) 192 64 (pre.rx b)) 96 32 imm))
def execPsetf (p : PReg) (a b : XReg) (imm : Imm) : State → Out := runAlone (psetfSem p a b imm)

/-! ## Issue of a command (R305) -/

/-- A pattern register of the issuing strand. -/
def State.pat (s : State) (p : PReg) : Pattern := s.me.p.get 0 p.toNat

/-- R324: is an SBAR edge of a class for a command? -/
def Sbar.covers (b : Sbar) (c : Cmd) : Bool := c.classes.any (fun k => b.cls == 4 || b.cls == k)

/-- R298, R305, R324, R325, R339: a command with the orderings it starts under. -/
def State.orderCmd (s : State) (t id : Nat) (c : Cmd) : Cmd :=
  let u := s.tile t
  let st := u.strand c.strand
  let link := match u.sords.find? (fun p => p.1 == id) with
    | some p => (u.cmd p.2).map (fun e => e.order)
    | none => none
  let bars := st.sbars.filter (fun b => b.covers c)
  { c with
    order := u.nextOrder, part := st.part, link,
    after := (u.cmds.filter (fun e => e.2.orders c && link != some e.2.order)).map (fun e => e.2.order),
    barred := bars.flatMap (fun b => b.cmds), afterStores := bars.flatMap (fun b => b.stores),
    past := bars.foldl (fun l b => unionNat l b.past) st.swPast }

/-- R306: an id's status word as its command issues, and R339: what an earlier command left under it gone. -/
def Tile.openId (t : Tile) (id : Nat) : Tile :=
  { t with status := t.status.set id { state := 1 }, donePast := t.donePast.erase id, sords := t.sords.erase id,
           nextOrder := t.nextOrder + 1 }

/-- R305, R315: a command that completes at issue with a code, with no token placed (log 113); a fresh tag of a sequence completes with it. -/
def State.refuseCmd (s : State) (t id : Nat) (c : Cmd) (code : Nat) : State :=
  let s := s.modStatus t id (fun x => { x with state := 2, code })
  if c.seq ≠ 0 ∧ code ≠ 4 then s.modSeq c.ctx c.slot c.seq (fun r => r.finish c.itag) else s

/-- R371, R372, R375: the package that a virtual address of a context leads to, where its page is mapped to a window the context
may reach; none elsewhere. -/
def State.farPackage (s : State) (ctx a : Nat) : Option Nat :=
  match s.walk ctx a with
  | .leaf level _ e =>
    let p := levelBits level
    let pa := pteFrame e / 2 ^ p * 2 ^ p + a % 2 ^ p
    let win := (s.ctx ctx).windows.get {} (pa / 2 ^ 45 % 64)
    if decide (8 ≤ pa / 2 ^ 48 % 16) && !pteM e && win.out && decide (pa % 2 ^ 45 < win.size) then some win.rpkg else none
  | _ => none

/-- R375: where a command's accesses through a pattern begin: at its first element, or at BASE where indices come (log 20). -/
def Cmd.firstAddr (c : Cmd) (p : Pattern) : Option Nat :=
  if c.indexed then some p.base.toNat
  else if Pattern.total p = 0 then none
  else match c.elemAddr p 0 none with
    | .at a => some a
    | _ => none

/-- R370, R375: the destination of a remote pattern cannot be reached. -/
def State.destGone (s : State) (t : Nat) (c : Cmd) (p : Pattern) : Bool :=
  Pattern.cls p == 2 && (match c.firstAddr p with
    | some a => (s.farPackage c.ctx a).any (fun d => (s.routePort t c.strand d).isNone)
    | none => false)

/-- R375: DEADLINK of a command whose destination has become unreachable. SFILL reaches no memory (R317). -/
def State.deadAtIssue (s : State) (t : Nat) (c : Cmd) : Option Nat :=
  match c.kind with
  | .sfill _ => none
  | _ => if s.destGone t c c.pat || s.destGone t c c.pat2 then some 20 else none

/-- R305, R315, R375: a command issues under its id, or completes there with a failed check. -/
def issueAct (id : SId) (mk : State → Cmd) (check : State → Cmd → Option Nat) (pre s : State) : State :=
  let t := s.focus
  let n := s.cur
  let u := s.tile t
  let (slot, g) := u.stage.getD (0, 0)
  let c := { mk pre with strand := n, slot, stage := g, ctx := u.ctx, itag := (u.strand n).itag }
  let c := s.orderCmd t id.toNat c
  let s := (s.charge t 36 1 (some n)).modTile t (fun u => u.openId id.toNat)
  if c.seq ≠ 0 ∧ (s.seqOf c.ctx slot c.seq).taken c.itag then s.refuseCmd t id.toNat c 4
  else match (check pre c).or (pre.deadAtIssue t c) with
    | some code => s.refuseCmd t id.toNat c code
    | none =>
      let s := if c.seq ≠ 0 then s.modSeq c.ctx slot c.seq (fun r =>
        -- R315: an extent of 0 completes the tag at once
        if c.isReduce && c.pat.countFrom (if c.indexed then 1 else 0) == 0 then r.finish c.itag
        else { r with flying := c.itag :: r.flying }) else s
      let s := match c.kind with
        | .srec va _ => s.modSlot c.ctx va (fun x => { x with pins := x.pins + 1 })
        | _ => s
      s.modTile t (fun u => { u with cmds := u.cmds.set id.toNat c })

/-- R305: a command waits while its id is occupied. -/
def idGate (id : SId) (s : State) : Gate := if ((s.tile s.focus).cmd id.toNat).isSome then .wait s else .go s

/-- A C-class slot that issues a command. -/
def cmdSem (op : Nat) (id : SId) (mk : State → Cmd) (check : State → Cmd → Option Nat) : Sem :=
  cSem (op, 0) (idGate id) (issueAct id mk check)

/-- R294: BADPAT where a check fails. -/
def badPat (ok : Bool) : Option Nat := if ok then none else some 1

/-- A command over one pattern. -/
def mkCmd (kind : CmdKind) (port : Nat) (cport : Option Nat) (pat : Pattern) (xb : Word) : Cmd :=
  { kind, strand := 0, slot := 0, stage := 0, ctx := 0, order := 0, port, cport, pat, xb }

def slaSem (sp : Port) (p : PReg) (b : XReg) (id : SId) : Sem :=
  cmdSem 0x68 id (fun s => mkCmd .sla sp.toNat none (s.pat p) (s.rx b)) (fun _ c => badPat (Pattern.ok c.pat true))
def execSla (sp : Port) (p : PReg) (b : XReg) (id : SId) : State → Out := runAlone (slaSem sp p b id)

def ssaSem (sp : Port) (p : PReg) (b : XReg) (id : SId) : Sem :=
  cmdSem 0x69 id (fun s => mkCmd .ssa sp.toNat none (s.pat p) (s.rx b)) (fun _ c => badPat (Pattern.ok c.pat false))
def execSsa (sp : Port) (p : PReg) (b : XReg) (id : SId) : State → Out := runAlone (ssaSem sp p b id)

def sliSem (sp : Port) (p : PReg) (spc : Port) (id : SId) : Sem :=
  cmdSem 0x6A id (fun s => mkCmd .sli sp.toNat (some spc.toNat) (s.pat p) 0)
    (fun _ c => badPat (Pattern.ok c.pat true && sp != spc))
def execSli (sp : Port) (p : PReg) (spc : Port) (id : SId) : State → Out := runAlone (sliSem sp p spc id)

def ssiSem (sp : Port) (p : PReg) (spc : Port) (id : SId) : Sem :=
  cmdSem 0x6B id (fun s => mkCmd .ssi sp.toNat (some spc.toNat) (s.pat p) 0)
    (fun _ c => badPat (Pattern.ok c.pat false && sp != spc))
def execSsi (sp : Port) (p : PReg) (spc : Port) (id : SId) : State → Out := runAlone (ssiSem sp p spc id)

/-- R301: does an operation combine elements of a format? -/
def reduceOk (op : Nat) (f : Fmt) : Bool :=
  if op = 0 then f == .i32 || f == .n32 || f == .f32
  else if op ≤ 2 then f == .i32 || f == .n32
  else if op ≤ 6 then f == .f32
  else f == .raw32

/-- R301, R314, R368: the checks of a reducing command; floating-point operations have no remote form. -/
def reduceCheck (op : Nat) (_ : State) (c : Cmd) : Option Nat :=
  badPat (!(Pattern.cls c.pat == 2 && Pattern.mem c.pat == .f32) && Pattern.ok c.pat false && Pattern.mfmt c.pat == Pattern.pfmt c.pat && reduceOk op (Pattern.mem c.pat)
    && c.cport != some c.port)

def sraSem (op : BitVec 4) (sp : Port) (p : PReg) (b : XReg) (id : SId) (ret : Bool) (seq : BitVec 6) : Sem :=
  cmdSem 0x6C id (fun s => mkCmd (.sra op.toNat ret seq.toNat) sp.toNat none (s.pat p) (s.rx b)) (reduceCheck op.toNat)
def execSra (op : BitVec 4) (sp : Port) (p : PReg) (b : XReg) (id : SId) (ret : Bool) (seq : BitVec 6) : State → Out :=
  runAlone (sraSem op sp p b id ret seq)

def sriSem (op : BitVec 4) (sp : Port) (p : PReg) (spc : Port) (id : SId) (ret : Bool) (seq : BitVec 6) : Sem :=
  cmdSem 0x6D id (fun s => mkCmd (.sri op.toNat ret seq.toNat) sp.toNat (some spc.toNat) (s.pat p) 0) (reduceCheck op.toNat)
def execSri (op : BitVec 4) (sp : Port) (p : PReg) (spc : Port) (id : SId) (ret : Bool) (seq : BitVec 6) : State → Out :=
  runAlone (sriSem op sp p spc id ret seq)

/-- R300, R316: SMC takes the members of its set as it issues. -/
def smcSem (sp : Port) (p : PReg) (b : XReg) (id : SId) : Sem :=
  cmdSem 0x6F id
    (fun s =>
      let h := (s.rx b).toNat % 65536
      { mkCmd (.smc h) sp.toNat none (s.pat p) 0 with members := ((s.ctx s.myCtx).set h).members })
    (fun s c => if !Pattern.ok c.pat true then some 1
      else if ((s.ctx s.myCtx).sets.find? (fun x => x.1 == (s.rx b).toNat % 65536)).isNone then some 21 else none)
def execSmc (sp : Port) (p : PReg) (b : XReg) (id : SId) : State → Out := runAlone (smcSem sp p b id)

/-- R317: formats SFILL admits. -/
def fillOk (v : Nat) (p : Pattern) : Bool :=
  (match v with
    | 0 => (patFmt (Pattern.pfmt p)).isSome
    | 1 => Pattern.pfmt p == 0 || Pattern.pfmt p == 10 || Pattern.pfmt p == 13
    | _ => Pattern.pfmt p == 0 || Pattern.pfmt p == 13)
  && decide (1 ≤ Pattern.lpt p) && decide (Pattern.lpt p ≤ 16) && decide (Pattern.space p ≤ 1) && decide (Pattern.ocls p ≤ 2)
  && !(Pattern.space p == 1 && Pattern.ocls p != 0)

def sfillSem (v : BitVec 2) (sp : Port) (p : PReg) (b : XReg) (id : SId) : Sem :=
  cmdSem 0x70 id (fun s => mkCmd (.sfill v.toNat) sp.toNat none (s.pat p) (s.rx b)) (fun _ c => badPat (fillOk v.toNat c.pat))
def execSfill (v : BitVec 2) (sp : Port) (p : PReg) (b : XReg) (id : SId) : State → Out := runAlone (sfillSem v sp p b id)

def scpySem (sat : Bool) (pd pa : PReg) (id : SId) : Sem :=
  cmdSem 0x71 id (fun s => { mkCmd (.scpy sat) 0 none (s.pat pd) 0 with pat2 := s.pat pa })
    (fun _ c => badPat (Pattern.ok c.pat false && Pattern.ok c.pat2 true && Pattern.pfmt c.pat == Pattern.pfmt c.pat2
      && Pattern.total c.pat == Pattern.total c.pat2))
def execScpy (sat : Bool) (pd pa : PReg) (id : SId) : State → Out := runAlone (scpySem sat pd pa id)

def sqinSem (sp : Port) (q : QNum) (id : SId) : Sem :=
  cmdSem 0x72 id (fun _ => mkCmd (.sqin q.toNat) sp.toNat none 0 0) (fun s _ => if s.inputQueue q.toNat then none else some 2)
def execSqin (sp : Port) (q : QNum) (id : SId) : State → Out := runAlone (sqinSem sp q id)

def sqoutSem (sp : Port) (q : QNum) (id : SId) : Sem :=
  cmdSem 0x73 id (fun _ => mkCmd (.sqout q.toNat) sp.toNat none 0 0) (fun s c =>
    if s.outputQueue q.toNat && !((s.pipe c.ctx c.slot).stage c.stage).desc.ord then none else some 2)
def execSqout (sp : Port) (q : QNum) (id : SId) : State → Out := runAlone (sqoutSem sp q id)

/-- R323: SREC's checks. The carries are read from the slot when its turn on the ports comes (R305, R324). -/
def srecSem (sp spc : Port) (a : XReg) (id : SId) (depth : BitVec 5) : Sem :=
  cmdSem 0x6E id
    (fun s => mkCmd (.srec (s.rx a).toNat (depth.toNat + 1)) sp.toNat (some spc.toNat) 0 0)
    (fun s c => if sp = spc then some 1
      else match c.kind with
        | .srec va d => match s.slotAt c.ctx va with
          | some x => if x.holder = some s.focus ∧ 64 * d ≤ x.size then none else some 3
          | none => some 3
        | _ => none)
def execSrec (sp spc : Port) (a : XReg) (id : SId) (depth : BitVec 5) : State → Out := runAlone (srecSem sp spc a id depth)

/-! ## Ordering and waiting -/

/-- R324: SBAR leaves an edge behind the strand's earlier commands and stores of the class. -/
def sbarAct (m : BitVec 3) (_ s : State) : State :=
  let t := s.focus
  let n := s.cur
  let u := s.tile t
  let k := m.toNat
  let cmds := (u.cmds.filter (fun c => c.2.strand == n && c.2.classes.any (fun x => k == 4 || k == x))).map (fun c => c.2.order)
  let st := s.me
  let stores := st.stores.filter (fun w => (k == 4 || k == w.2) && !s.barStoreDone t w)
  -- R339: what those stores, and the commands of the class that have completed, leave before the accesses that come later
  let made := unionNat ((stores.filter (fun w => w.2 != 3)).map (fun w => w.1)) (if 3 ≤ k then st.cellPast else [])
  let past := s.livePast ((st.clsPast.filter (fun p => k == 4 || k == p.1)).foldl (fun l p => unionNat l p.2) made)
  let live (b : Sbar) : Bool :=
    !(s.livePast b.past).isEmpty || b.cmds.any (fun o => (u.byOrder o).isSome) || b.stores.any (fun w => !s.barStoreDone t w)
  let new : List Sbar := if cmds.isEmpty && stores.isEmpty && past.isEmpty then [] else [{ cls := k, cmds, stores, past }]
  s.modMe (fun st => { st with sbars := st.sbars.filter live ++ new })

def sbarSem (m : BitVec 3) : Sem := cSem (0x74, 0) Gate.go (sbarAct m)
def execSbar (m : BitVec 3) : State → Out := runAlone (sbarSem m)

/-- R306, R326, R339: the status word returned; with STATE 2 the command's accesses precede what follows. -/
def swaitAct (d : XReg) (id : SId) (pre s : State) : State :=
  let t := s.focus
  let w := pre.statusWord t id.toNat
  let past := if ((pre.tile t).status.get {} id.toNat).state = 2 then (pre.tile t).donePast.get [] id.toNat else []
  (s.modMe (fun st => { st with past := unionNat st.past past, swPast := unionNat st.swPast past })).wb 3 d w

def swaitDoneSem (d : XReg) (id : SId) : Sem :=
  cSem (0x75, id.toNat) (fun s => if ((s.tile s.focus).status.get {} id.toNat).state = 1 then .wait s else .go s) (swaitAct d id)
def execSwaitDone (d : XReg) (id : SId) : State → Out := runAlone (swaitDoneSem d id)

def swaitMarkSem (d : XReg) (id : SId) (n : BitVec 27) : Sem :=
  cSem (0x75, id.toNat) (fun s =>
    let x := (s.tile s.focus).status.get {} id.toNat
    if x.state = 1 ∧ x.count < n.toNat then .wait s else .go s) (swaitAct d id)
def execSwaitMark (d : XReg) (id : SId) (n : BitVec 27) : State → Out := runAlone (swaitMarkSem d id n)

def swaitPollSem (d : XReg) (id : SId) : Sem := cSem (0x75, id.toNat) Gate.go (swaitAct d id)
def execSwaitPoll (d : XReg) (id : SId) : State → Out := runAlone (swaitPollSem d id)

/-- R327: SABT. -/
def sabtSem (id : SId) : Sem := cSem (0x76, 0) Gate.go (fun _ s => s.stopCmd s.focus id.toNat 5 false)
def execSabt (id : SId) : State → Out := runAlone (sabtSem id)

/-- R325: SORD. -/
def sordSem (id id2 : SId) : Sem :=
  cSem (0x77, 0) Gate.go (fun _ s => s.modTile s.focus (fun u => { u with sords := u.sords.set id2.toNat id.toNat }))
def execSord (id id2 : SId) : State → Out := runAlone (sordSem id id2)

/-! ## Carried-state slots (R291, R321, R322) -/

/-- Virtual addresses of the 4 KiB pages of a slot. -/
def slotPages (va size : Nat) : List Nat := (List.range ((size + 4095) / 4096)).map (fun i => va + 4096 * i)

/-- The physical addresses of a run of pages, with those of them that are replicated, or why not. -/
inductive PagesXl
  | ok (s : State) (pas reps : List Nat)
  | wait (s : State)
  | fault (s : State) (code reason va : Nat)

/-- Each page of a run translated in order. -/
def State.xlPages (s : State) (who : Requester) (ctx : Nat) (a : Access) (super : Bool) : List Nat → PagesXl
  | [] => .ok s [] []
  | va :: rest =>
    match s.translate who ctx (w64 va) a super false with
    | .ok s pa rep =>
      match s.xlPages who ctx a super rest with
      | .ok s l reps => .ok s (pa :: l) (if rep then pa :: reps else reps)
      | r => r
    | .wait s => .wait s
    | .fault s code reason => .fault s code reason va

/-- Bytes of a slot in its backing pages, as their home nodes hold them. -/
def State.backing (s : State) (size : Nat) (pas : List Nat) : List Byte :=
  pas.flatMap (fun pa => (List.range (min size 4096 / 8)).flatMap (fun i => leBytes 8 (s.nodeWord (pa / 8 + i)).toNat))

/-- R288: does any page of a run wait behind an access that stands at its node? -/
def State.pagesBusy (s : State) (pas : List Nat) (n : Nat) (write : Bool) : Bool := pas.any (fun pa => s.nodeBusy pa (min n 4096) write)

/-- R102, R419: the HBM traffic of a slot's bytes and the L2 traffic at its slot memory. -/
def State.chargeSlot (s : State) (ctx d size : Nat) (pas : List Nat) (toSlot : Bool) : State :=
  let n := (min size 4096 + 63) / 64
  let s := pas.foldl (fun s pa =>
    let h := pa / 2 ^ 44 % 16
    ((s.uncore h ctx .hbm n (18 + ((nodeOf s.pkg.ordering pa).2 - 64 + firstStack h))).chargeBridges ctx h d n).countReqs d h n) s
  s.uncore d ctx (if toSlot then .l2Write else .l2Read) ((size + 63) / 64) (uncoreDomain d)

/-- R291: is a slot pinned? -/
def Slot.pinned (x : Slot) : Bool := x.holder.isSome || decide (0 < x.pins)

/-- R291: a resident slot written back to its backing address and dropped; none while its pages cannot be reached. -/
def State.slotOut (s : State) (x : Slot) : Option State × State :=
  match s.xlPages (.scheduler x.ctx) x.ctx .write false (slotPages x.va x.size) with
  | .ok s pas reps =>
    if s.pagesBusy pas x.size true then (none, s)
    else
    let d := s.reqDie (.scheduler x.ctx)
    let s := s.chargeSlot x.ctx x.die x.size pas false
    let s := (List.range pas.length).foldl (fun s i =>
      s.devWrite d x.ctx (pas.getD i 0) ((x.bytes.drop (4096 * i)).take 4096) (reps.contains (pas.getD i 0))) s
    (some { s with slots := s.slots.filter (fun y => !(y.ctx == x.ctx && y.va == x.va)) }, s)
  | .wait s => (none, s)
  | .fault s _ _ _ => (none, s)

/-- R291: slots and bytes of slot memory in use on a die, and whether a slot of a size fits. -/
def State.slotFits (s : State) (d size : Nat) : Bool :=
  let l := s.slots.filter (fun x => x.die == d)
  decide (l.length < 8192) && decide (l.foldl (fun n x => n + x.size) 0 + size ≤ 33554432)

/-- R291, R321: space for a slot, or a wait that the slot manager answers. -/
def slotRoom (s : State) (d size : Nat) : Gate :=
  if s.slotFits d size then .go (s.modDie d (fun x => { x with slotNeed := 0 }))
  else .wait (s.modDie d (fun x => { x with slotNeed := max x.slotNeed size }))

/-- R321: the checks and waits of SSLOT. -/
def sslotGate (a : XReg) (z : BitVec 4) (s : State) : Gate :=
  let t := s.focus
  let d := tileDie t
  let ea := s.rx a
  let va := ea.toNat
  let size := 2 ^ (8 + z.toNat)
  if !canonical ea then .trap s 0x10 ea
  else if va % size ≠ 0 then .trap s 0x11 (memInfo 0 .atomic va)
  else match s.xlPages (.strand t s.cur) s.myCtx .atomic (s.super t) (slotPages va size) with
  | .wait s => .wait s
  | .fault s code r v =>
    if code = 0x40 then .wait s
    else if code = 0x10 then .trap s 0x10 (w64 v)
    else .trap s code (memInfo r .atomic v)
  | .ok s pas _ =>
    if pas.any (fun pa => pa / 2 ^ 48 % 16 != 0) then .trap s 0x13 (memInfo 6 .atomic va)
    else
      let s := s.modTile t (fun u => { u with issue := { u.issue with
        pa := (List.range pas.length).foldl (fun m i => AMap.set m (16 + i) (pas.getD i 0))
          (u.issue.pa.filter (fun (p : Nat × Nat) => decide (p.1 < 16))) } })
      match s.slotAt s.myCtx va with
      | none => if s.pagesBusy pas size false then .wait s else slotRoom s d size
      | some x =>
        match x.holder with
        | some h =>
          if h ≠ t then .wait s
          else if x.size = size then .go s
          else .trap s 0x13 (memInfo 6 .atomic va)
        | none =>
          if x.size = size then (if x.die = d then .go s else slotRoom s d size)
          else if 0 < x.pins then .wait s
          else match s.slotOut x with
            | (some s, _) => slotRoom s d size
            | (none, s) => .wait s

/-- R321: the slot acquired and held. -/
def sslotAct (dst a : XReg) (z : BitVec 4) (zero : Bool) (pre s : State) : State :=
  let t := s.focus
  let va := (pre.rx a).toNat
  let size := 2 ^ (8 + z.toNat)
  let ctx := s.myCtx
  let pas := ((s.tile t).issue.pa.filter (fun (p : Nat × Nat) => decide (16 ≤ p.1))).map (fun (p : Nat × Nat) => p.2)
  let hold (s : State) : State := s.modTile t (fun u => if u.holds.contains (va, size) then u else { u with holds := u.holds ++ [(va, size)] })
  match s.slotAt ctx va with
  | some _ =>
    ((hold s).bump.modSlot ctx va (fun x => { x with holder := some t, die := tileDie t, used := s.nextId })).wb 3 dst 1
  | none =>
    let bytes := if zero then List.replicate size 0 else s.backing size pas
    let x : Slot := { ctx, va, size, die := tileDie t, bytes, holder := some t, used := s.nextId, pins := 0 }
    let s := if zero then s else s.chargeSlot ctx (tileDie t) size pas true
    ({ (hold s).bump with slots := s.slots ++ [x] }).wb 3 dst (if zero then 2 else 0)

def sslotSem (d a : XReg) (z : BitVec 4) (zero : Bool) : Sem := cSem (0x78, 0) (sslotGate a z) (sslotAct d a z zero)
def execSslot (d a : XReg) (z : BitVec 4) (zero : Bool) : State → Out := runAlone (sslotSem d a z zero)

/-- R322: a tile's hold on a slot ended. -/
def State.release (s : State) (t ctx va : Nat) : State :=
  match s.slotAt ctx va with
  | some x =>
    if x.holder = some t then
      (s.modSlot ctx va (fun x => { x with holder := none })).modTile t (fun u => { u with holds := u.holds.filter (fun h => h.1 != va) })
    else s
  | none => s

def srelSem (a : XReg) : Sem := cSem (0x79, 0) Gate.go (fun pre s => s.release s.focus s.myCtx (pre.rx a).toNat)
def execSrel (a : XReg) : State → Out := runAlone (srelSem a)

end Sys2Proof.Machine
end

