-- ==== Sys2Proof/Machine/StreamEngine.lean ====
section
/-! DEFINITION. The stream engine of a tile: elements granted their accesses (R292, R296, R303, R312-R318), values packed into
tokens (R294, R295), tokens taken (R308, R313, R320, R323), multicasts (R300, R316), and the completion of commands (R306). -/

namespace Sys2Proof.Machine

/-- R387, R393: the engine of a tile that is frozen does nothing, nor does that of a stopping tile once its firings have run to their last
element; until then it fills the cell words that they wait for, and places nothing. -/
def Tile.engineOff (u : Tile) : Bool := u.freeze || (u.stopping && u.cells.all (fun (p : Nat × Cell) => p.2.held.isNone))

/-! ## Accesses of elements -/

/-- Where an element's access goes (R296, R372): it waits, it faults with a code, a cell, a memory node, a remote window. -/
inductive Target
  | wait (s : State)
  | stop (s : State) (code : Nat)
  | cell (s : State)
  | node (s : State) (pa : Nat) (rep : Bool)
  | away (s : State) (w off : Nat)

/-- R374: requests of a context outstanding in a window. -/
def Package.inWindow (p : Package) (ctx w : Nat) : Nat :=
  (p.flights.filter (fun f => f.ctx == ctx && f.window == w && (decide (f.id < 32) || decide (64 ≤ f.id)))).length

/-- R140-R149, R296, R372, R374: where the access at address a of a pattern goes. -/
def State.elemTarget (s : State) (t id : Nat) (c : Cmd) (p : Pattern) (a : Nat) (acc : Access) (atomic : Bool) : Target :=
  if Pattern.space p = 1 then .cell s
  else match s.translate (.command t id) c.ctx (w64 a) acc (s.super t) atomic with
  | .wait s => .wait s
  | .fault s code r => .stop s (streamCode code r)
  | .ok s pa rep =>
    let region := pa / 2 ^ 48 % 16
    let cls := if 8 ≤ region then 2 else if region = 1 then 0 else 1
    if cls ≠ Pattern.ocls p then .stop s 12
    else if cls = 2 then
      let w := pa / 2 ^ 45 % 64
      let off := pa % 2 ^ 45
      let win := (s.ctx c.ctx).windows.get {} w
      if !win.out then .stop s 19
      else if win.size ≤ off then .stop s 17
      else if (s.routePort t c.strand win.rpkg).isNone then .stop s 20
      else if 16 ≤ s.pkg.inWindow c.ctx w then .wait s
      else .away s w off
    else .node s pa rep

/-- How an element's access was made: it waits, it faults, it is under way or done. -/
inductive Made
  | wait (s : State)
  | stop (s : State) (code : Nat)
  | made (s : State)

/-- An element put in flight, in place of its own entry when it is sent again. -/
def Cmd.putFlight (c : Cmd) (f : Flight) : Cmd :=
  { c with flight := if c.flight.any (fun g => g.n == f.n) then c.flight.map (fun g => if g.n = f.n then f else g) else c.flight ++ [f] }

/-- R370-R374: a remote request of a command's element sent toward its window. -/
def State.sendAway (s : State) (t id n : Nat) (c : Cmd) (w off : Nat) (kind : RemoteKind) (tag : Nat) (isWrite : Bool) : State :=
  let win := (s.ctx c.ctx).windows.get {} w
  match s.routePort t c.strand win.rpkg with
  | none => s
  | some p =>
    let req : RemoteReq := { srcPkg := Config.pkgid.toNat, srcCtx := c.ctx, srcTile := t, srcStrand := c.strand, dstPkg := win.rpkg,
                             dstCtx := win.rctx, lane := win.lane, addr := (win.base + off) % 2 ^ 64, kind, tag }
    -- R102: the way to the port
    ((s.chargePath c.ctx t (portTile p) 64).toLane p win.lane { ctx := some c.ctx, lane := win.lane, dst := win.rpkg, packet := .request req }).modPkg (fun x =>
      { x with flights := x.flights ++ [{ tag, tile := t, id, n, ctx := c.ctx, window := w, port := p, addr := off, isWrite, wid := tag }] })

/-- R419: has the read of an element a request of its own? -/
def Cmd.newBlock (c : Cmd) (a : Nat) : Bool := c.lastBlock != some (a / 64)

/-- R292: the engine of a tile has granted the one memory request of this fc. -/
def State.tookGrant (s : State) (t : Nat) : State := s.modTile t (fun u => { u with granted := true })

/-- R306: flags of a command's conversions and reductions. -/
def State.statusFlags (s : State) (t id : Nat) (f : BitVec 5) : State := s.modStatus t id (fun x => { x with flags := x.flags ||| f })

/-- R296, R303, R312: the read of element n at address a; `again` where the element was read before a stop, and class 32 is charged
already (R330). -/
def State.startRead (s : State) (t id n : Nat) (c : Cmd) (p : Pattern) (a : Nat) (again : Bool) : Made :=
  match s.elemTarget t id c p a .read false with
  | .wait s => .wait s
  | .stop s k => .stop s k
  | .cell s =>
    let s := if c.newBlock a then s.tookGrant t else s
    let s := if c.newBlock a && !again then s.charge t 32 1 (s.tile t).roundStrand else s
    let key := wordKey 1 (a / 8)
    let past := unionNat ((s.tile t).cellPasts (s.fcOf t) a p.bytes) ((s.tile t).linkPast c key)
    let (s, v) := s.cellRead t (s.fcOf t) a p.bytes
    let s := s.statusFlags t id (widenFlags p v).bits
    let i := s.nextId
    .made (s.bump.modCmd t id (fun c => { (c.readFrom key past).putFlight { n, req := i, va := a, val := some (some (widen p v)), past } with
      lastBlock := some (a / 64) }))
  | .node s pa rep =>
    let s := if c.newBlock a then ((s.tookGrant t).nodePath c.ctx t pa 64).nodeEvent (tileDie t) c.ctx pa false false else s
    let i := s.nextId
    let own := (c.writes.filter (fun w => w.2 == a / 8)).map (fun w => w.1)
    let r : MemReq := { id := i, ctx := c.ctx, die := tileDie t, src := .elem t id n, pa, va := a, op := .load p.bytes,
                        past := unionNat c.past own, rep, linked := ((s.tile t).linkedTo c).isSome }
    .made ((s.bump.toNode pa r).modCmd t id (fun c => { c.putFlight { n, req := i, va := a } with lastBlock := some (a / 64) }))
  | .away s w off =>
    let i := s.nextId
    .made (((s.tookGrant t).bump.sendAway t id n c w off (.read p.bytes) i false).modCmd t id (fun c => c.putFlight { n, req := i, va := a }))

/-- R312, R325: a write of a command noted: it stands until it is performed; the first stored address is kept (R346). -/
def State.noteWrite (s : State) (t id i a : Nat) : State :=
  s.modCmd t id (fun c => { c with writes := c.writes ++ [(i, a / 8)], firstStored := some (c.firstStored.getD a) })

/-- R296, R312, R318: the write of element n at address a. -/
def State.startWrite (s : State) (t id n : Nat) (c : Cmd) (p : Pattern) (a v : Nat) (past : List Nat) : Made :=
  match s.elemTarget t id c p a .write false with
  | .wait s => .wait s
  | .stop s k => .stop s k
  | .cell s =>
    let key := wordKey 1 (a / 8)
    let past := unionNat past ((s.tile t).linkPast c key)
    let s := ((s.tookGrant t).charge t 33 1 (s.tile t).roundStrand).cellWrite t (s.fcOf t) (16 + id) a (leBytes p.bytes v) false
      (unionNat c.past past)
    .made ((s.modStatus t id (fun x => x.add 1)).modCmd t id (fun c => { c.readFrom key past with firstStored := some (c.firstStored.getD a) }))
  | .node s pa rep =>
    let s := ((s.tookGrant t).nodePath c.ctx t pa p.bytes).nodeEvent (tileDie t) c.ctx pa true false
    let (s, i) := s.issueWrite (tileDie t)
    let r : MemReq := { id := i, ctx := c.ctx, die := tileDie t, src := .elem t id n, pa, va := a, op := .store (leBytes p.bytes v),
                        past := unionNat c.past past, part := c.part, stage := some (c.slot, c.stage), rep, linked := ((s.tile t).linkedTo c).isSome }
    .made ((s.toNode pa r).noteWrite t id i a)
  | .away s w off =>
    let (s, i) := (s.tookGrant t).issueWrite (tileDie t)
    .made ((s.sendAway t id n c w off (.write (leBytes p.bytes v)) i true).noteWrite t id i a)

/-- R314: the operation a reducing code names among FMIN, FMAX, FMINP and FMAXP. -/
def reduceMinMax (op : Nat) : MinMax :=
  match op with
  | 3 => .min
  | 4 => .max
  | 5 => .minp
  | _ => .maxp

/-- R301, R314: the new value of a reduction step on a 32-bit location, with flags. -/
def reduceNew (op : Nat) (f : Fmt) (old v pad : Nat) : Nat × Flags :=
  match op with
  | 0 => if f = .f32 then fadd32 old v .rne else ((old + v) % 2 ^ 32, .none)
  | 1 => (atomNew (if f = .i32 then 1 else 3) 32 old v, .none)
  | 2 => (atomNew (if f = .i32 then 2 else 4) 32 old v, .none)
  | 3 | 4 | 5 | 6 => fminmax (reduceMinMax op) .f32 old v
  | 7 => (old &&& v, .none)
  | 8 => (old ||| v, .none)
  | 9 => (old ^^^ v, .none)
  | 10 => (v, .none)
  | _ => (if old = pad then v else old, .none)

/-- R368: the remote atomic of a reduction step, with the codes of ATOM and 9 for compare and swap. -/
def remoteReduce (op : Nat) (f : Fmt) (v pad : Nat) : RemoteKind :=
  let code := match op with
    | 0 => 0
    | 1 => if f = .i32 then 1 else 3
    | 2 => if f = .i32 then 2 else 4
    | 7 => 5
    | 8 => 6
    | 9 => 7
    | 10 => 8
    | _ => 9
  .atomic code false (w64 (if code = 9 then pad else v)) (w64 v)

/-- R315: may a contribution of the command be applied: has it no sequence, or is F its tag? -/
def State.atFrontier (s : State) (c : Cmd) : Bool := c.seq == 0 || (s.seqOf c.ctx c.slot c.seq).frontier == c.itag

/-- R302: does a memory node still take a tagged contribution that has to wait there: has its room one place left (log 5)? -/
def State.reductionFits (s : State) (pa : Nat) : Bool :=
  let (d, k) := nodeOf s.pkg.ordering pa
  decide ((((s.die d).nodes.get [] k).filter (fun r => r.seq.isSome)).length < Config.reductionRoom)

/-- R301, R302, R314: the reduction step of element n at address a. -/
def State.startReduce (s : State) (t id n : Nat) (c : Cmd) (a v : Nat) (past : List Nat) : Made :=
  let p := c.pat
  let pad := (Pattern.pad p).toNat
  match s.elemTarget t id c p a .atomic true with
  | .wait s => .wait s
  | .stop s k => .stop s k
  | .cell s =>
    let f := s.fcOf t
    let key := wordKey 1 (a / 8)
    let got := unionNat ((s.tile t).cellPasts f a 4 true) ((s.tile t).linkPast c key)
    -- R336: the write it reads has its causal past visible at the cell's die; R203: a later atomic of this fc stands already
    if !s.atFrontier c || !got.all (fun i => s.seenAt (tileDie t) i) || (s.tile t).atomicAfter f (16 + id) a then .wait s
    else
      let k := (s.tile t).roundStrand
      let (s, old) := (((s.tookGrant t).charge t 32 1 k).charge t 33 1 k).cellLatest t f a 4
      let (new, fl) := reduceNew c.op (Pattern.mem p) old v pad
      let s := s.cellWrite t f (16 + id) a (leBytes 4 new) true (unionNat got (unionNat c.past past))
      let s := (s.statusFlags t id fl.bits).modStatus t id (fun x => x.add 1)
      .made (s.modCmd t id (fun c =>
        let c := { c.readFrom key (unionNat got past) with firstStored := some (c.firstStored.getD a) }
        if c.returns then c.putFlight { n, va := a, val := some (some old), past := got } else c))
  | .node s pa _ =>
    -- R302: the lowest incomplete tag always enters
    if !s.atFrontier c && !s.reductionFits pa then .wait s
    else
    let s := ((s.tookGrant t).nodePath c.ctx t pa 4).nodeEvent (tileDie t) c.ctx pa true true
    let (s, i) := if c.seq = 0 then s.issueWrite (tileDie t) else s.issueHeld
    let r : MemReq := { id := i, ctx := c.ctx, die := tileDie t, src := .elem t id n, pa, va := a,
                        op := .reduce c.op (Pattern.mfmt p) (w32 v) (Pattern.pad p), past := unionNat c.past past, part := c.part,
                        stage := some (c.slot, c.stage),
                        seq := if c.seq = 0 then none else some (c.slot, c.seq, c.itag), linked := ((s.tile t).linkedTo c).isSome }
    .made (((s.toNode pa r).noteWrite t id i a).modCmd t id (fun c => if c.returns then c.putFlight { n, req := i, va := a } else c))
  | .away s w off =>
    if !s.atFrontier c then .wait s
    else
      let (s, i) := (s.tookGrant t).issueWrite (tileDie t)
      .made (((s.sendAway t id n c w off (remoteReduce c.op (Pattern.mem p) v pad) i true).noteWrite t id i a).modCmd t id
        (fun c => if c.returns then c.putFlight { n, req := i, va := a } else c))

/-! ## Grants (R292) -/

/-- R144, R303: does an element of the command wait on its translation? -/
def State.cmdMiss (s : State) (t id : Nat) : Bool :=
  (s.die (tileDie t)).misses.any (fun m => m.who == .command t id && m.ctx == (s.tile t).ctx && (match m.stand with
    | .walk | .migrate | .needPage | .page _ | .held => true
    | _ => false))

/-- R288: does a request of the command find its node's address-compare queue full and wait there, with its stream behind it? -/
def State.behindFull (s : State) (t id : Nat) : Bool :=
  s.dies.any (fun d => d.2.nodes.any (fun k => ((k.2.filter (fun r => r.linked)).drop 16).any (fun r => match r.src with
    | .elem u i _ => u == t && i == id
    | _ => false)))

/-- R303: a fault at an element: nothing more is formed. -/
def State.faultCmd (s : State) (t id code : Nat) : State := s.modCmd t id (fun c => { c with fault := some code })

/-- R303, R372, R375: a fault at element n, made before: nothing more is formed, and nothing from it on is delivered. -/
def Cmd.faultAt (c : Cmd) (n code : Nat) : Cmd :=
  if c.flight.any (fun g => g.n == n) then
    { c with fault := some code, flight := c.flight.filter (fun g => decide (g.n < n)) } else c

/-- That fault on a tile where the context runs. -/
def State.faultCmdAt (s : State) (t id n code : Nat) : State := s.modCmd t id (fun c => c.faultAt n code)

/-- Reads of a load taken ahead of its port (log 8). -/
def readAhead : Nat := 64

/-- R312, R313: a load forms its next element, or sends again one it had to give up (R328). -/
def State.grantRead (s : State) (t id : Nat) (c : Cmd) : State × Bool :=
  match c.flight.find? (fun f => f.val.isNone && f.req == 0) with
  | some f => match s.startRead t id f.n c c.pat f.va true with
    | .wait s => (s, false)
    | .stop s k => (s.faultCmdAt t id f.n k, true)
    | .made s => (s, true)
  | none =>
    let c := c.skipEmpty
    let s := s.modCmd t id Cmd.skipEmpty
    if readAhead ≤ c.flight.length then (s, false)
    else match c.nextElem with
    | .wait | .stop => (s, false)
    | .invalid => (s.modCmd t id (fun c => (c.putFlight { n := c.next, val := some none }).advance), true)
    | .elem .pad => (s.modCmd t id (fun c => (c.putFlight { n := c.next, val := some (some (Pattern.pad c.pat).toNat) }).advance), true)
    | .elem (.fault k) => (s.faultCmd t id k, true)
    | .elem (.at a) =>
      if s.linkHolds t c c.pat false (a / 8) then (s, false)
      else match s.startRead t id c.next c c.pat a false with
      | .wait s => (s, false)
      | .stop s k => (s.faultCmd t id k, true)
      | .made s => (s.modCmd t id Cmd.advance, true)

/-- R308, R312, R314: a store or reduction forms its next element with the next value of its port. -/
def State.grantStore (s : State) (t id : Nat) (c : Cmd) : State × Bool :=
  let c := c.skipEmpty
  let s := s.modCmd t id Cmd.skipEmpty
  match c.vals with
  | [] => (s, false)
  | (v, vp) :: rest =>
    let past := unionNat vp c.indexPast
    let go (s : State) : State := s.modCmd t id (fun c => { c.advance with vals := rest })
    let skip (old : Option Nat) : State :=
      go (s.modCmd t id (fun c => if c.returns then c.putFlight { n := c.next, val := some old } else c))
    match c.nextElem, v with
    | .wait, _ => (s, false)
    | .stop, _ => (s, false)
    | .invalid, _ => (skip none, true)
    | .elem _, none => (skip none, true)
    | .elem .pad, some _ => (skip (some (Pattern.pad c.pat).toNat), true)
    | .elem (.fault k), some _ => (s.faultCmd t id k, true)
    | .elem (.at a), some b =>
      if s.linkHolds t c c.pat true (a / 8) then (s, false)
      else
        let (bits, fl) := narrow c.pat b false
        let made := if c.isReduce then s.startReduce t id c.next c a b past
          else s.startWrite t id c.next c c.pat a bits past
        match made with
        | .wait s => (s, false)
        | .stop s k => (s.faultCmd t id k, true)
        | .made s => (go (if c.isReduce then s else s.statusFlags t id fl.bits), true)

/-- R318: a copy reads its next origin element, or writes the one it has read. -/
def State.grantCopy (s : State) (t id : Nat) (c : Cmd) (sat : Bool) : State × Bool :=
  let finish (m : Made) (f : State → State) : State × Bool :=
    match m with
    | .wait s => (s, false)
    | .stop s k => (s.faultCmd t id k, true)
    | .made s => (f s, true)
  match c.flight with
  | [] =>
    if Pattern.total c.pat2 ≤ c.next then (s, false)
    else match c.elemAddr c.pat2 c.next none with
    | .pad => (s.modCmd t id (fun c => c.putFlight { n := c.next, val := some (some (Pattern.pad c.pat2).toNat) }), true)
    | .fault k => (s.faultCmd t id k, true)
    | .at a => if s.linkHolds t c c.pat2 false (a / 8) then (s, false) else finish (s.startRead t id c.next c c.pat2 a false) (fun s => s)
  | f :: _ =>
    match f.val with
    | none =>
      if f.req ≠ 0 then (s, false)
      else match s.startRead t id f.n c c.pat2 f.va true with
        | .stop s k => (s.faultCmdAt t id f.n k, true)
        | m => finish m (fun s => s)
    | some v =>
      let next (s : State) : State := s.modCmd t id (fun c => { c with flight := [], next := c.next + 1 })
      match c.elemAddr c.pat c.next none with
      | .pad => (next s, true)
      | .fault k => (s.faultCmd t id k, true)
      | .at a =>
        if s.linkHolds t c c.pat true (a / 8) then (s, false)
        else
          let (bits, fl) := narrow c.pat (v.getD 0) sat
          let w := c.pat.bytes
          finish (s.startWrite t id c.next c c.pat a bits f.past) (fun s =>
            let s := if (c.bytes + 63) / 64 < (c.bytes + w + 63) / 64 then s.charge t 43 1 (some c.strand) else s
            next ((s.statusFlags t id fl.bits).modCmd t id (fun c => { c with bytes := c.bytes + w })))

/-- A command at its end: its EOS follows its last token (R295, R306, R308). -/
def State.endCmd (s : State) (t id code : Nat) : State :=
  s.modCmd t id (fun c => { c with
    ending := some code, eos := true,
    out := if c.delivers && !c.eos then c.out ++ [({ kind := .eos }, 0)] else c.out,
    drain := (if c.valsEnd then [] else c.dataPort.toList) ++ (if c.idxEnd then [] else c.indexPort.toList) })

/-- R319: SQIN asks its queue's divider for an item its port can take now; a closed, empty queue ends it. -/
def State.grantPop (s : State) (t id : Nat) (c : Cmd) (q : Nat) : State × Bool :=
  if !(s.tile t).portTurnAt c.order c.port || !(s.tile t).portOpen c.port then (s, false)
  else if (s.pipe c.ctx c.slot).drained q then (s.endCmd t id (if c.poisoned then 6 else 0), true)
  else (s.askPop c.ctx c.slot q { tile := t, strand := c.strand, stream := some id }, false)

/-- R323: the carries of a slot's bytes, oldest first. -/
def carriesOf (bytes : List Byte) (d : Nat) : List Token :=
  (List.range d).map (fun i => { lanes := (List.range 16).map (fun l => BitVec.ofNat 32 (leNat ((bytes.drop (64 * i + 4 * l)).take 4))),
                                 mask := 0xFFFF })

/-- R305, R323, R324: SREC starts once its turn on both ports has come: the slot's carries go to spc and into the ring. -/
def State.startRec (s : State) (t id : Nat) (c : Cmd) (va d : Nat) : State :=
  if c.next ≠ 0 ∨ !((s.tile t).portTurnAt c.order c.port && c.cport.all ((s.tile t).portTurnAt c.order)) then s
  else
    let l := carriesOf (((s.slotAt c.ctx va).map (fun x => x.bytes)).getD []) d
    s.modCmd t id (fun c => { c with next := 1, ring := l, out := l.map (fun k => (k, 1)) })

/-- Is a request an element of command id of tile t? -/
def MemSrc.isOf (x : MemSrc) (t id : Nat) : Bool := match x with
  | .elem u i _ => u == t && i == id
  | _ => false

/-- R328: has a command of the tile a contribution withdrawn at a stop that has still to be sent again? -/
def State.owesAgain (s : State) (t id : Nat) : Bool :=
  (s.ctx (s.tile t).ctx).withdrawn.any (fun r => r.src.isOf t id)

/-- R292, R298, R288: what a grant to a command would do; whether it formed an element. -/
def State.grantOne (s : State) (t id : Nat) : State × Bool :=
  match (s.tile t).cmd id with
  | none => (s, false)
  | some c =>
    if c.ending.isSome || c.fault.isSome || !c.unordered || s.cmdMiss t id || s.behindFull t id || s.owesAgain t id then (s, false)
    else match c.kind with
    | .sla | .sli | .smc _ => s.grantRead t id c
    | .ssa | .ssi | .sra .. | .sri .. => s.grantStore t id c
    | .scpy sat => s.grantCopy t id c sat
    | .sqin q => s.grantPop t id c q
    | .srec va d => (s.startRec t id c va d, false)
    | .sfill _ | .sqout _ => (s, false)

/-! ## Ends of commands -/

/-- R303, R308, R312-R318: a command past its last element, at a fault, or out of values. -/
def State.settleCmd (s : State) (t id : Nat) : State :=
  match (s.tile t).cmd id with
  | none => s
  | some c =>
    if c.ending.isSome then s
    else
      let c := c.skipEmpty
      let short := decide (c.flight.length < Pattern.perToken c.pat)
      let fin := c.nextElem == .stop
      match c.kind with
      | .sla | .sli | .smc _ =>
        if (match c.kind with | .smc _ => c.members.isEmpty | _ => false) then s.endCmd t id 0
        else match c.fault with
        | some k => if short then s.stopCmd t id k false else s
        | none =>
          if !fin then s
          else if c.idxPoison then (if short then s.stopCmd t id 6 false else s)
          else if c.flight.isEmpty then s.endCmd t id 0 else s
      | .ssa | .ssi | .sra .. | .sri .. =>
        let ready := !c.returns || short
        match c.fault with
        | some k => if ready then s.stopCmd t id k false else s
        | none =>
          let beyond := decide (Pattern.perToken c.pat ≤ c.vals.length) || c.marks.any (fun m => decide (c.next ≤ m))
          let s := if fin && beyond then s.modStatus t id (fun x => { x with extra := true }) else s
          let s := if fin then s.modCmd t id (fun c => { c with vals := [] }) else s
          if (fin && (c.idxPoison || c.valsPoison)) || (c.valsPoison && c.vals.isEmpty) then
            if ready then s.stopCmd t id 6 false else s
          else if fin then
            if c.valsEnd && (c.idxEnd || !c.indexed) && c.flight.isEmpty then s.endCmd t id 0 else s
          else if c.valsEnd && c.vals.isEmpty && c.nextElem != .wait && c.flight.isEmpty then s.endCmd t id 7
          else s
      | .scpy _ => match c.fault with
        | some k => s.stopCmd t id k false
        | none => if fin && c.flight.isEmpty then s.endCmd t id 0 else s
      | .sfill _ => if fin && c.flight.isEmpty then s.endCmd t id 0 else s
      | .sqin _ | .sqout _ | .srec .. => s

/-- R298, R324: the orderings of every command of the tile brought up to date. -/
def State.refreshAll (s : State) (t : Nat) : State :=
  s.modTile t (fun u => { u with cmds := u.cmds.map (fun (p : Nat × Cmd) => (p.1, s.refreshEdges t p.1 p.2)) })

/-- The first command, in round-robin order, that can form an element; a request that it makes takes the grant of this fc. -/
def State.grantFirst (s : State) (t : Nat) : List Nat → State
  | [] => s
  | id :: rest =>
    match s.grantOne t id with
    | (s, true) => (s.modTile t (fun u => if u.granted then { u with rrGrant := id } else u)).settleCmd t id
    | (s, false) => (s.settleCmd t id).grantFirst t rest

/-- R140, R328: a contribution withdrawn at a stop sent again, translated afresh: an old translation may be gone by now (R146). One whose
element now faults is not made, and its command ends with the code. -/
def State.sendAgain (s : State) (t : Nat) (r : MemReq) : State :=
  let done (s : State) : State := s.modCtx r.ctx (fun x => { x with withdrawn := x.withdrawn.filter (fun q => q.id != r.id) })
  match r.src with
  | .elem _ id n =>
    match (s.tile t).cmd id with
    | none => (done s).dropWrite r.id
    | some c =>
      let store : Option (List Byte) := match r.op with
        | .store data => some data
        | _ => none
      match s.elemTarget t id c c.pat r.va (if store.isSome then .write else .atomic) store.isNone with
      | .wait s => s
      | .stop s k => (((done s).dropWrite r.id).modCmd t id (fun c => { c with fault := some k })).faultCmdAt t id n k
      | .cell s => (done s).dropWrite r.id
      | .node s pa rep => (((done (s.tookGrant t)).nodePath c.ctx t pa 8).nodeEvent (tileDie t) c.ctx pa true store.isNone).toNode pa { r with pa, rep }
      | .away s w off =>
        let kind := match r.op with
          | .store data => .write data
          | .reduce op fmt v pad => remoteReduce op (Fmt.ofHeader fmt) v.toNat pad.toNat
          | _ => .read 0
        (done (s.tookGrant t)).sendAway t id n c w off kind r.id true
  | _ => (done s).dropWrite r.id

/-- R328: the first withdrawn contribution of a tile whose command waits on no translation, sent again; none when there is none. -/
def State.nextAgain (s : State) (t : Nat) : State :=
  match (s.ctx (s.tile t).ctx).withdrawn.find? (fun r => match r.src with
      | .elem u id _ => u == t && !s.cmdMiss t id
      | _ => false) with
  | some r => s.sendAgain t r
  | none => s

/-- R292: STREAM_REQUEST_GRANT: one memory request in each fc. -/
def execStreamRequestGrantState (s : State) (t : Nat) : State :=
  if (s.tile t).engineOff || (s.tile t).granted then s
  else
    let s := (s.refreshAll t).nextAgain t
    let rr := (s.tile t).rrGrant
    if (s.tile t).granted then s else s.grantFirst t ((List.range 32).map (fun i => (rr + 1 + i) % 32))

/-! ## Data and tokens toward the fabric -/

/-- R336: has a returned read-modify-write's history reached the tile's die? -/
def State.respReady (s : State) (t : Nat) (r : MemResp) : Bool := !r.rmw || r.past.all (fun i => s.seenAt (tileDie t) i)

/-- R294: an element's returned bits as the port's, with the flags of the conversion (R52, R306). -/
def Cmd.taken (c : Cmd) (v : Nat) : Nat × Flags :=
  match c.kind with
  | .scpy _ => (widen c.pat2 v, widenFlags c.pat2 v)
  | .sra .. | .sri .. => (v, .none)
  | _ => (widen c.pat v, widenFlags c.pat v)

/-- Does an element of the command wait for the answer to a request? -/
def Cmd.wants (c : Cmd) (req : Nat) : Bool := c.flight.any (fun f => f.req == req && f.val.isNone)

/-- R339: a command that has its answer to a request: the value in its element, and the answer's causal past. -/
def Cmd.given (c : Cmd) (req data : Nat) (past : List Nat) : Cmd :=
  let at' := (c.flight.filter (fun f => f.req == req && f.val.isNone)).foldl (fun (d : Cmd) f => d.readFrom (wordKey 0 (f.va / 8)) past) c
  { at' with flight := c.flight.map (fun f => if f.req = req ∧ f.val.isNone then
      { f with val := some (some (c.taken data).1), past } else f) }

/-- R312, R339: an answer handed to a command; one that no element waits for is dropped. -/
def State.giveAnswer (s : State) (t id : Nat) (r : MemResp) : State :=
  match (s.tile t).cmd id with
  | none => s
  | some c => if c.wants r.id then (s.statusFlags t id (c.taken r.data).2.bits).modCmd t id (fun c => c.given r.id r.data r.past) else s

/-- R312: the first answer for the command taken. -/
def State.takeResp (s : State) (t id : Nat) : State :=
  match s.resps.find? (fun r => r.1 == t && (match r.2.src with | .elem _ i _ => i == id | _ => false) && s.respReady t r.2) with
  | none => s
  | some (_, r) => { s with resps := s.resps.filter (fun x => x.2.id != r.id) }.giveAnswer t id r

/-- R295: one lane of a token from the values of its positions. -/
def packLane (w : Nat) (l : List (Option Nat)) : Option Nat :=
  if l.any (fun v => v.isNone) then none
  else some ((l.foldr (fun v n => (v.getD 0) % 2 ^ w + 2 ^ w * n) 0) % 2 ^ 32)

/-- R295: values packed into a DATA token; a lane with an invalid position is invalid. -/
def Pattern.pack (p : Pattern) (vals : List (Option Nat)) (past : List Nat) : Token :=
  let w := p.portFmt.width
  let n := 32 / w
  let lane (i : Nat) : Option Nat :=
    let l := (vals.drop (n * i)).take n
    if l.isEmpty then none else packLane w l
  let lanes := (List.range 16).map lane
  { lanes := lanes.map (fun v => w32 (v.getD 0)),
    mask := BitVec.ofNat 16 (((List.range 16).filter (fun i => ((lanes.getD i none)).isSome)).foldl (fun m i => m + 2 ^ i) 0), past }

/-- R295: the values of a token's positions, none for those of an invalid lane. -/
def Pattern.unpack (p : Pattern) (k : Token) : List (Option Nat) :=
  let w := p.portFmt.width
  (List.range (Pattern.lpt p)).flatMap (fun i => (List.range (32 / w)).map (fun j =>
    if k.mask.getLsbD i then some ((k.lanes.getD i 0).toNat / 2 ^ (w * j) % 2 ^ w) else none))

/-- R317: does element n of a fill stand at a padded position? -/
def Pattern.padded (p : Pattern) (n : Nat) : Bool :=
  let cs := p.coords n none
  (List.range cs.length).any (fun i => decide (cs.getD i 0 < p.lo i) || decide (p.hi i ≤ cs.getD i 0))

/-- R317: element n of SFILL. -/
def Cmd.fillValue (c : Cmd) (v n : Nat) : Nat :=
  let p := c.pat
  if Pattern.padded p n then (Pattern.pad p).toNat
  else match v with
  | 0 => c.xb.toNat % 2 ^ p.portFmt.width
  | 1 => (c.xb.toNat % 2 ^ 32 + n * (Pattern.pad p).toNat) % 2 ^ 32
  | _ =>
    let j := n / 4
    let base := (Pattern.base p).toNat
    let (w0, w1, w2, w3) := philox (j % 2 ^ 32) (j / 2 ^ 32) (base % 2 ^ 32) (base / 2 ^ 32) c.xb.toNat
    [w0, w1, w2, w3].getD (n % 4) 0

/-- R317, R330: a fill forms the elements of its next token. -/
def State.formFill (s : State) (t id : Nat) : State :=
  match (s.tile t).cmd id with
  | none => s
  | some c => match c.kind with
    | .sfill v =>
      if c.ending.isSome then s
      else
        let k := min (Pattern.perToken c.pat - c.flight.length) (Pattern.total c.pat - c.next)
        let ns := (List.range k).map (fun i => c.next + i)
        let s := if v = 2 then s.charge t 49 (ns.filter (fun n => n % 4 == 0)).length (some c.strand) else s
        s.modCmd t id (fun c => { c with
          next := c.next + k, flight := c.flight ++ ns.map (fun n => { n, val := some (some (c.fillValue v n)) }) })
    | _ => s

/-- R294, R295: the next token of a command's elements: full, or the last. -/
def Cmd.nextToken (c : Cmd) : Option (Token × Nat) :=
  let per := Pattern.perToken c.pat
  let chunk := c.flight.take per
  let last := c.fault.isNone && !c.idxPoison && !c.valsPoison && (c.skipEmpty.nextElem == .stop || (c.isStore && c.valsEnd && c.vals.isEmpty))
  if !chunk.isEmpty && (chunk.length == per || last) && chunk.all (fun f => f.val.isSome) then
    some (Pattern.pack c.pat (chunk.map (fun f => f.val.getD none)) (chunk.foldl (fun l f => unionNat l f.past) []), chunk.length)
  else none

/-- The command with its first token gone. -/
def Cmd.dropToken (c : Cmd) : Cmd :=
  match c.out with
  | _ :: r => { c with out := r }
  | [] => { c with flight := c.flight.drop (Pattern.perToken c.pat) }

/-- What stands first in line for the port. -/
def Cmd.headToken (c : Cmd) : Option (Token × Nat) :=
  match c.out with
  | x :: _ => some x
  | [] => if c.ending.isSome then none else match c.kind with
    | .sla | .sli | .smc _ | .sfill _ => c.nextToken
    | .sra _ true _ | .sri _ true _ => c.nextToken
    | _ => none

/-- R300, R316: a token sent to every member, behind what each port already has. -/
def State.sendMembers (s : State) (t id : Nat) (c : Cmd) (k : Token) (n : Nat) : State :=
  let s := c.members.foldl (fun s m =>
    (s.chargePath c.ctx t m 80).modTile m (fun u =>
      if u.mcast.any (fun x => x.src == t && x.id == id) then
        { u with mcast := u.mcast.map (fun x => if x.src = t ∧ x.id = id then { x with toks := x.toks ++ [k] } else x) }
      else { u with mcast := u.mcast ++ [{ port := c.port, src := t, id, order := u.nextOrder, toks := [k] }],
                    nextOrder := u.nextOrder + 1 })) s
  s.modCmd t id (fun c => { c.dropToken with sent := c.sent ++ [n], permits := c.permits - 1 })

/-- R295, R306, R330: the first token of a command placed on its port, or sent to the members of its set. -/
def State.placeToken (s : State) (t id : Nat) : State :=
  match (s.tile t).cmd id with
  | none => s
  | some c =>
    match c.headToken with
    | none => s
    | some (k, n) =>
      match c.kind with
      | .smc _ => if 0 < c.permits then s.sendMembers t id c k n else s
      | _ => match c.outPort with
        | none => s
        | some p =>
          if !(s.tile t).portTurnAt c.order p || !(s.tile t).portFree p then s
          else
            let s := match c.kind with
              | .sqin _ => s
              | _ => s.charge t c.tokenClass 1 (some c.strand)
            let s := s.emitFrom t (spEnd p) c.order k
            let s := if c.isReduce then s else s.modStatus t id (fun x => x.add n)
            s.modCmd t id Cmd.dropToken

/-- R181: the tokens that ports have begun to place go on to the routes they have still to reach. -/
def State.pumpPorts (s : State) (t : Nat) : State := if (s.tile t).stopping then s else s.modTile t (fun u => u.pump (s.fcOf t))

/-- R312: STREAM_DATA_RETURN: an answer of a command taken, and its next token placed. -/
def execStreamDataReturnState (s : State) (t id : Nat) : State :=
  if (s.tile t).engineOff then s
  else ((((s.pumpPorts t).takeResp t id).formFill t id).placeToken t id).settleCmd t id

/-! ## Multicast members (R300) -/

/-- R300: MULTICAST_SPACE_RETURN: a member's port delivers the first token it holds; when every member has delivered a
token, its elements count and the source has one permit more. -/
def execMulticastSpaceReturnState (s : State) (t id m : Nat) : State :=
  let s := if (s.tile m).engineOff then s else s.pumpPorts m
  let u := s.tile m
  match u.mcast.find? (fun x => x.src == t && x.id == id) with
  | none => s
  | some x =>
    match x.toks with
    | [] => s
    | k :: rest =>
      if u.engineOff || !u.portTurnAt x.order x.port || !u.portFree x.port then s
      else
        let strand := ((s.tile t).cmd id).map (fun c => c.strand)
        let s := (s.charge t 41 1 strand).emitFrom m (spEnd x.port) x.order k
        let s := s.modTile m (fun u => { u with
          mcast := if k.kind = .eos then u.mcast.filter (fun y => !(y.src == t && y.id == id))
            else u.mcast.map (fun y => if y.src = t ∧ y.id = id then { y with toks := rest } else y) })
        s.creditSmc t id (fun c => { c with delivered := c.delivered.set m (c.delivered.get 0 m + 1) })

/-! ## Tokens from the fabric -/

/-- R218, R305: the token a command may take at a port now. -/
def State.portHead (s : State) (t : Nat) (c : Cmd) (p : Nat) : Option Token :=
  if (s.tile t).portTurnAt c.order p then (s.tile t).arcAt (spEnd p) (s.fcOf t) else none

/-- A token consumed at a port, charged to the command's class (R330). -/
def State.consumeAt (s : State) (t : Nat) (c : Cmd) (p : Nat) : State :=
  let s := match c.kind with
    | .srec .. | .sqout _ => s
    | _ => s.charge t c.tokenClass 1 (some c.strand)
  s.modTile t (fun u => u.consume (spEnd p))

/-- R308: a stopped command discards a token of a port it drains, up to and including an EOS. -/
def State.drainPort (s : State) (t id : Nat) (c : Cmd) : List Nat → Option State
  | [] => none
  | p :: rest =>
    match s.portHead t c p with
    | none => s.drainPort t id c rest
    | some k =>
      let s := s.consumeAt t c p
      -- R308: a HDR or POISON token that an SSI or SRI took before its last element was known
      let s := if c.indexPort = some p ∧ k.kind = .eos ∧ !c.marks.isEmpty then s.modStatus t id (fun x => { x with extra := true }) else s
      let s := if c.indexPort = some p ∧ k.kind = .data ∧ c.pat.countFrom 1 ≠ 0 then s.modCmd t id (fun c => { c with marks := [] }) else s
      some (if k.kind = .eos then s.modCmd t id (fun c => { c with drain := c.drain.filter (· != p) }) else s)

/-- R297, R308, R313: an index token taken. -/
def State.takeIndex (s : State) (t id : Nat) (c : Cmd) : Option State :=
  match c.indexPort with
  | none => none
  | some p =>
    if c.idxEnd || c.idxPoison || 16 ≤ c.idx.length then none
    else match s.portHead t c p with
    | none => none
    | some k =>
      let s := s.consumeAt t c p
      some (match k.kind with
        | .eos => s.modCmd t id (fun c => { c with idxEnd := true })
        | .poison => s.modCmd t id (fun c => { c with idxPoison := true })
        | .hdr => s
        | .data => s.modCmd t id (fun c => { c with
            idx := c.idx ++ (List.range 16).map (fun i => (if k.mask.getLsbD i then some (k.lanes.getD i 0) else none, k.past)) }))

/-- Values a store takes ahead of its elements (log 8). -/
def valuesAhead : Nat := 256

/-- R308, R312: a data token of a store or reduction taken. -/
def State.takeData (s : State) (t id : Nat) (c : Cmd) : Option State :=
  match c.isStore, c.dataPort with
  | true, some p =>
    if c.valsEnd || c.valsPoison then none
    else match s.portHead t c p with
    | none => none
    | some k =>
      let beyond := c.skipEmpty.nextElem == .stop || (!c.indexed && decide (Pattern.total c.pat - c.next ≤ c.vals.length))
      let extra (s : State) : State :=
        if beyond then s.modStatus t id (fun x => { x with extra := true })
        else if c.indexed then s.modCmd t id (fun c => { c with marks := c.marks ++ [c.next + c.vals.length] })
        else s
      match k.kind with
      | .eos => some ((s.consumeAt t c p).modCmd t id (fun c => { c with valsEnd := true }))
      | .poison => some (extra ((s.consumeAt t c p).modCmd t id (fun c => { c with valsPoison := true, poisoned := true })))
      | .hdr => some (extra (s.consumeAt t c p))
      | .data =>
        if beyond then some (extra (s.consumeAt t c p))
        else if valuesAhead ≤ c.vals.length then none
        else some ((s.consumeAt t c p).modCmd t id (fun c => { c with vals := c.vals ++ (Pattern.unpack c.pat k).map (fun v => (v, k.past)) }))
  | _, _ => none

/-- R320: the item of a token taken by SQOUT. -/
def Cmd.queueItem (c : Cmd) (relaxed : Bool) (k : Token) : Item :=
  if k.kind = .poison then { tag := c.itag, poison := true, past := unionNat c.past k.past }
  else
    { payload := (List.range 8).map (fun i => k.wordAt i), tag := c.itag,
      key := if relaxed then k.laneOrZero 0 else 0, past := unionNat c.past k.past }

/-- R320, R324: SQOUT takes a token when its push can be made. -/
def State.takeOut (s : State) (t id : Nat) (c : Cmd) (q : Nat) : Option State :=
  if !c.unordered then none
  else match s.portHead t c c.port with
  | none => none
  | some k =>
    let eat (s : State) : State := s.consumeAt t c c.port
    match k.kind with
    | .eos => some (((eat s).modCmd t id (fun c => { c with valsEnd := true })).endCmd t id 0)
    | .hdr => some (eat s)
    | _ =>
      let pl := s.pipe c.ctx c.slot
      let x := pl.queue q
      if x.closed then some ((eat s).stopCmd t id 2 false)
      else if x.poisoned then some ((eat s).stopCmd t id 6 false)
      else if pl.free q = 0 ∧ !x.desc.spill then none
      else match s.deliver c.ctx c.slot q (s.cursorOf t c.slot q x.desc.k) (some t) (c.queueItem x.desc.relaxed k)
          (pl.free q == 0) with
        | .wait _ => none
        | .done s =>
          some ((((eat s).bumpCursor t c.slot q x.desc.k).charge t 44 1 (some c.strand)).modStatus t id (fun y => y.add 1))
        | .failed s addr => some (((eat s).failStore c.ctx t c.strand c.part (some (c.slot, c.stage)) .spillf addr).stopCmd t id 6 false)

/-- R323: the ring written to the slot, oldest first, invalid lanes as zero. -/
def ringBytes (l : List Token) : List Byte := l.flatMap (fun k => (List.range 16).flatMap (fun i => leBytes 4 (k.laneOrZero i).toNat))

/-- R323: SREC takes a token from spd. -/
def State.takeRec (s : State) (t id : Nat) (c : Cmd) (va d : Nat) : Option State :=
  if c.next = 0 ∨ 4 ≤ c.out.length then none
  else match s.portHead t c c.port with
  | none => none
  | some k =>
    let s := s.consumeAt t c c.port
    some (match k.kind with
      | .data => s.modCmd t id (fun c => { c with out := c.out ++ [(k, 1)], ring := (c.ring ++ [k]).drop 1 })
      | .hdr => s.modCmd t id (fun c => { c with out := c.out ++ [(k, 0)] })
      | .poison => s.modCmd t id (fun c => { c with out := c.out ++ [(k, 0)], poisoned := true })
      | .eos =>
        let s := if c.poisoned then s
          else s.modSlot c.ctx va (fun x => { x with bytes := ringBytes c.ring ++ x.bytes.drop (64 * d), used := s.nextId })
        ((s.bump.modCmd t id (fun c => { c with valsEnd := true })).endCmd t id (if c.poisoned then 6 else 0)))

/-- R308: STREAM_TOKEN_TAKE: a command consumes one token from a port it takes from. -/
def execStreamTokenTakeState (s : State) (t id : Nat) : State :=
  if (s.tile t).engineOff then s
  else
    let s := s.refreshAll t
    match (s.tile t).cmd id with
    | none => s
    | some c =>
    let out :=
      if !c.drain.isEmpty then s.drainPort t id c c.drain
      else if c.ending.isSome then none
      else match c.kind with
      | .sqout q => s.takeOut t id c q
      | .srec va d => s.takeRec t id c va d
      | _ => match s.takeIndex t id c with
        | some s => some s
        | none => s.takeData t id c
    (out.getD s).settleCmd t id

/-! ## Completion (R306) -/

/-- R327: has an access of the command not ended: a request at a node or toward another package, or an answer not taken? -/
def State.accessOpen (s : State) (t id : Nat) : Bool :=
  s.dies.any (fun d => d.2.nodes.any (fun k => k.2.any (fun r => r.src.isOf t id))) || s.resps.any (fun r => r.2.src.isOf t id)
    || s.pkg.flights.any (fun f => f.tile == t && f.id == id)

/-- R298, R306, R312, R326, R327: may a stopped command complete: its tokens placed, its ports drained, its accesses ended, its writes
performed? -/
def State.canComplete (s : State) (t id : Nat) (c : Cmd) : Bool :=
  c.ending.isSome && c.out.isEmpty && c.drain.isEmpty
    && c.members.all (fun m => decide (c.delivered.get 0 m = c.sent.length))
    && !(s.tile t).emitting.any (fun p => p.2.owner == c.order)
    && !s.accessOpen t id && c.writes.all (fun w => s.seenEverywhere w.1)
    && !(s.tile t).cellWrites.any (fun w => w.rank == 16 + id && decide (s.fcOf t < w.fc + 4))

/-- R325, R339: by word, what a command that completes leaves before the accesses of one linked behind it. -/
def Cmd.leaves (c : Cmd) : AMap (List Nat) :=
  c.writes.foldl (fun m w => m.set (wordKey 0 w.2) (unionNat (m.get [] (wordKey 0 w.2)) [w.1])) c.accAt

/-- R298, R324, R325, R339: a command behind one that has completed: what it no longer waits on, and the causal past it has of it. -/
def Cmd.behind (d c : Cmd) (past : List Nat) : Cmd :=
  let waited := d.after.contains c.order || d.barred.contains c.order
  let linked := d.link == some c.order
  { d with
    after := d.after.filter (· != c.order), barred := d.barred.filter (· != c.order), link := if linked then none else d.link,
    past := if waited then unionNat d.past past else d.past,
    linkAt := if linked then c.leaves.foldl (fun (m : AMap (List Nat)) p => m.set p.1 (unionNat (m.get [] p.1) p.2)) d.linkAt else d.linkAt }

/-- R306, R308, R315, R339, R346: STREAM_COMPLETE: a command completes with its code. -/
def execStreamCompleteState (s : State) (t id : Nat) : State :=
  match (s.tile t).cmd id with
  | none => s
  | some c =>
    if !s.canComplete t id c then s
    else
      let code := c.ending.getD 0
      let past := unionNat (unionNat c.acc c.past) (c.writes.map (fun w => w.1))
      let s := (s.modStatus t id (fun x => { x with state := 2, code })).notePipeWrites c.ctx c.slot past
      let s := match code, c.firstStored with
        | 6, some a => s.failStore c.ctx t c.strand c.part (some (c.slot, c.stage)) .pstore a
        | _, _ => s
      let s := if c.seq = 0 then s else s.modSeq c.ctx c.slot c.seq (fun r => if r.flying.contains c.itag then r.finish c.itag else r)
      let s := match c.kind with
        | .srec va _ => s.modSlot c.ctx va (fun x => { x with pins := x.pins - 1 })
        | _ => s
      s.modTile t (fun u => { u with
        cmds := (u.cmds.erase id).map (fun (p : Nat × Cmd) => (p.1, p.2.behind c past)),
        donePast := u.donePast.set id past,
        strands := u.strands.map (fun (p : Nat × Strand) => (p.1, { p.2 with
          clsPast := if p.1 = c.strand then c.classes.foldl (fun (m : AMap (List Nat)) k => m.set k (s.livePast (unionNat (m.get [] k) past))) p.2.clsPast
            else p.2.clsPast,
          sbars := p.2.sbars.map (fun (b : Sbar) => if b.cmds.contains c.order then
            { b with cmds := b.cmds.filter (· != c.order), past := unionNat b.past past } else b) })) })

end Sys2Proof.Machine
end

