-- ==== Sys2Proof/Machine/MemNode.lean ====
section
/-! DEFINITION. Memory nodes (R288, R204, R301, R302, R315), the return of values (R186, R336), batches and replica lines (R334,
R340, R341), tokens between strands (R359), slot write-back (R291) and spill return (R290). -/

namespace Sys2Proof.Machine

/-- A step of an engine: its effect, as a next state. -/
def engine (f : State → State) (s : State) : Out := .next (f s)

/-! ## A request applied -/

/-- R335, R341, R385: bytes a request reads, of a replicated page as its replica holds them; a word that fails its check reads as zero
and is logged. -/
def State.memRead (s : State) (r : MemReq) (n : Nat) : State × List Byte × List Nat :=
  let (bytes, past) := if r.rep then s.heldBytes r.pa n else s.readBytes r.die r.pa n r.past
  let bad := s.memBad.filter (fun w => decide (r.pa / 8 ≤ w) && decide (w ≤ (r.pa + n - 1) / 8))
  let bytes := (List.range n).map (fun i => if bad.contains ((r.pa + i) / 8) then 0 else bytes.getD i 0)
  (bad.foldl (fun s w => s.eccHit r.ctx (eccRecord 2 (r.pa / 2 ^ 44 % 16) 0 0 0 0 (8 * w) (s.die r.die).fc)) s, bytes, past)

/-- R333, R336, R385: what a read-modify-write reads: the newest value at the home node, with that write and its past. -/
def State.memLatest (s : State) (r : MemReq) (n : Nat) : State × Nat × List Nat :=
  let w := r.pa / 8
  let past := match s.log.find? (fun x => x.word == w) with
    | some x => x.id :: x.past
    | none => []
  if s.memBad.contains w then
    (s.eccHit r.ctx (eccRecord 2 (r.pa / 2 ^ 44 % 16) 0 0 0 0 (8 * w) (s.die r.die).fc), 0, past)
  else (s, (s.nodeWord w).toNat / 2 ^ (8 * (r.pa % 8)) % 2 ^ (8 * n), past)

/-- The tile an answer goes to. -/
def MemSrc.tile : MemSrc → Nat
  | .core t _ _ _ _ _ => t
  | .store t _ => t
  | .elem t _ _ => t
  | .device | .host .. | .ingress .. => 0

/-- A port. -/
def State.linkPort (s : State) (port : Nat) : LinkPort := s.pkg.ports.get {} port
/-- A port changed. -/
def State.modPort (s : State) (port : Nat) (f : LinkPort → LinkPort) : State :=
  s.modPkg (fun p => { p with ports := p.ports.set port (f (p.ports.get {} port)) })

/-- R375, R376: an answer to another package that leaves once the writes it reports are performed: by its port, or where that has died by
the next ready one. -/
def State.sendReply (s : State) (port : Nat) (f : Flit) (waits : List Nat) : State :=
  s.modPort (if s.unitReady (portUnit port) then port else (s.routePort 576 0 f.dst).getD port)
    (fun p => { p with replies := p.replies ++ [(waits, f)] })

/-- R346: the answer that a request has been refused. -/
def Flit.refused (f : Flit) : Flit :=
  match f.packet with
  | .response r => { f with packet := .response { r with accepted := false, data := [] } }
  | _ => f

/-- R372, R376: an answer to another package, n bytes of data. -/
def State.remoteAnswer (s : State) (port lane dst tag ctx : Nat) (data : List Byte) (waits : List Nat) : State :=
  s.sendReply port { ctx := some ctx, lane, dst, packet := .response { tag, accepted := true, data } } waits

/-! ## Queue pairs of the host port (R87, R88) -/

/-- An answer of the RDMA engine. -/
def State.rdmaAnswer (s : State) (vf qp : Nat) (r : RdmaReply) : State := s.modPkg (fun p => { p with rdma := p.rdma ++ [(vf, qp, r)] })

/-- The key of a queue pair of a virtual function. -/
def qpKey (vf qp : Nat) : Nat := 16 * vf + qp

/-- A queue pair's state. -/
def State.setQp (s : State) (vf qp : Nat) (x : QpState) : State := s.modPkg (fun p => { p with qps := p.qps.set (qpKey vf qp) x })

/-- R88: a request that cannot be made for good: a remote-access NAK, and the queue pair in error. -/
def State.qpError (s : State) (vf qp : Nat) : State := (s.setQp vf qp .error).rdmaAnswer vf qp .accessError

/-- The request of a name that a queue pair has under way. -/
def State.qpJob (s : State) (vf qp job : Nat) : Option HostJob :=
  match s.pkg.qps.get .normal (qpKey vf qp) with
  | .busy j => if j.job = job then some j else none
  | _ => none

/-- R88, R335, R339: one part of a queue pair's request is answered: what it brings stands by its offset, and what it has read from joins
the request's past. -/
def State.hostGot (s : State) (vf qp job lo : Nat) (data : List Byte) (past : List Nat) : State :=
  match s.qpJob vf qp job with
  | some j => s.setQp vf qp (.busy { j with
      open' := j.open' - 1, got := if j.write then j.got else j.got.set lo data, past := unionNat j.past past })
  | none => s

/-- R88, R346: the queue pairs whose WRITE has made a store that its node refuses: the request cannot be made. -/
def State.refuseJobs (s : State) (i : Nat) : State :=
  s.pkg.qps.foldl (fun (s : State) (q : Nat × QpState) => match q.2 with
    | .busy j => if j.waits.contains i then s.qpError (q.1 / 16) (q.1 % 16) else s
    | .owed waits _ => if waits.contains i then s.qpError (q.1 / 16) (q.1 % 16) else s
    | _ => s) s

/-- An answer of n bytes sent back. -/
def State.answer (s : State) (r : MemReq) (n data : Nat) (past : List Nat) (rmw : Bool) : State :=
  match r.src with
  | .ingress port lane dst tag =>
    let s := s.remoteAnswer port lane dst tag r.ctx (leBytes n data) (if rmw then [r.id] else s.livePast past)
    if rmw then s.modPort port (fun p => { p with past := unionNat p.past (s.livePast past) }) else s
  | .host vf qp job lo => s.hostGot vf qp job lo (leBytes n data) past
  | _ => { s with resps := s.resps ++ [(r.src.tile, { id := r.id, src := r.src, data, past, rmw })] }

/-- R203, R385: the result of a read-modify-write at its node; over a word whose check failed it is written with the zero that was
read, and the word is sound again. -/
def State.putResult (s : State) (r : MemReq) (n new : Nat) (past : List Nat) : State :=
  let w := r.pa / 8
  if s.memBad.contains w then
    ({ s with memBad := s.memBad.filter (· != w) } : State).applyWrite r.id r.die (8 * w)
      (leBytes 8 (new % 2 ^ (8 * n) * 2 ^ (8 * (r.pa % 8)))) past
  else s.applyWrite r.id r.die r.pa (leBytes n new) past

/-- R306: an element performed counts for its command, with its flags. -/
def State.performed (s : State) (r : MemReq) (fl : Flags) : State :=
  match r.src with
  | .elem t id _ => match (s.tile t).cmd id with
    | some c => if c.writes.any (fun w => w.1 == r.id) then (s.statusFlags t id fl.bits).modStatus t id (fun x => x.add 1) else s
    | none => s
  | _ => s

/-- R341: a write to a replicated page, applied at the writer's replica, goes to every other one. -/
def State.replicate (s : State) (r : MemReq) : State := s.sendLine r.die r.ctx r.pa r.id r.past

/-- R204, R288, R301: one request applied at its node. -/
def State.applyReq (s : State) (r : MemReq) : State :=
  let core := match r.src with
    | .elem .. | .device | .host .. => false
    | _ => true
  let meter (s : State) (w a : Bool) : State := if core then s.nodeEvent r.die r.ctx r.pa w a else s
  match r.op with
  | .load n =>
    let (s, bytes, past) := (meter s false false).memRead r n
    s.answer r n (leNat bytes) past false
  | .store data =>
    let s := (meter s true false).performed r .none
    let s := if data.length = 8 then { s with memBad := s.memBad.filter (· != r.pa / 8) } else s
    let s := s.applyWrite r.id r.die r.pa data r.past
    if r.rep then s.replicate r else s
  | .atom op wide v =>
    let n := wideBytes wide
    let (s, m, past) := (meter s true true).memLatest r n
    let new := atomNew op (8 * n) m (v.toNat % 2 ^ (8 * n))
    (s.putResult r n new (unionNat r.past past)).answer r n m past true
  | .cas wide v c =>
    let n := wideBytes wide
    let (s, m, past) := (meter s true true).memLatest r n
    (s.putResult r n (casNew (8 * n) m v.toNat c.toNat) (unionNat r.past past)).answer r n m past true
  | .reduce op fmt v pad =>
    let (s, m, past) := s.memLatest r 4
    let (new, fl) := reduceNew op (Fmt.ofHeader fmt) m v.toNat pad.toNat
    let s := if r.seq.isSome then s.joinBatch r.die r.id else s
    let s := (s.performed r fl).putResult r 4 new (unionNat r.past past)
    let ret : Bool := match r.src with
      | .elem t id _ => (((s.tile t).cmd id).map (fun c => c.flight.any (fun f => f.req == r.id))).getD false
      | _ => false
    if ret then s.answer r 4 m past true else s


/-- R288: do two requests touch a common aligned 8-byte word, one of them to change it? -/
def MemReq.meets (a b : MemReq) : Bool := a.pa / 8 == b.pa / 8 && !(a.reads && b.reads)

/-- R288, R325: does a request of a linked command wait at its node: beyond the 16 that the address-compare queue holds, behind an
older one there on its word, or until the command it is linked behind has performed its own access to that word? -/
def State.waitsForLink (s : State) (d k : Nat) (r : MemReq) : Bool :=
  r.linked && (
    let q := ((s.die d).nodes.get [] k).filter (fun x => x.linked)
    let older := q.takeWhile (fun x => x.id != r.id)
    decide (16 ≤ older.length) || older.any (fun x => x.meets r) || (match r.src with
      | .elem t id _ => match (s.tile t).cmd id with
        | some c => match (s.tile t).linkedTo c with
          | some (i, e) => s.stillMaking t i e 0 (r.va / 8) (!r.reads)
          | none => false
        | none => false
      | _ => false))

/-- R334, R341: does a write to a replicated page wait at its replica for its causal past, or an access behind one to its line? -/
def State.waitsForPast (s : State) (d k : Nat) (r : MemReq) : Bool :=
  r.rep && ((match r.op with
    | .store _ => !r.past.all (fun i => s.seenAt r.die i && s.seenAt d i)
    | _ => false)
    || (((s.die d).nodes.get [] k).takeWhile (fun x => x.id != r.id)).any (fun x => x.rep && x.pa / 64 == r.pa / 64))

/-- R288, R315, R341: does a request wait at its node? -/
def State.heldReq (s : State) (d k : Nat) (r : MemReq) : Bool := s.waitsForTag r || s.waitsForLink d k r || s.waitsForPast d k r

/-- R288: may a request of a node be applied: does it not wait there, and has no older one that does not wait a word in common with it? -/
def State.nextFor (s : State) (d k : Nat) (r : MemReq) : Bool :=
  !s.heldReq d k r
    && !(((s.die d).nodes.get [] k).takeWhile (fun x => x.id != r.id)).any (fun x => x.meets r && !s.heldReq d k x)

/-- R17, R27: the units that hold the memory node k of die d: the die, and an octet or a stack. -/
def nodeUnits (d k : Nat) : List Nat := [d, if k < 64 then 9 + 8 * d + k / 8 else 81 + firstStack d + (k - 64)]

/-- R346: has a unit of a node failed under R29? -/
def State.nodeFailed (s : State) (d k : Nat) : Bool := (nodeUnits d k).any (fun u => s.unit u == .failed)

/-- R346: an answer to another package that waits for a write that is refused: the target has refused the store. -/
def State.refuseReply (s : State) (i : Nat) : State :=
  s.modPkg (fun p => { p with ports := p.ports.map (fun (q : Nat × LinkPort) => (q.1, { q.2 with
    replies := q.2.replies.map (fun (r : List Nat × Flit) => if r.1.contains i then (r.1, r.2.refused) else r) })) })

/-- R346: a store or read-modify-write that its node refuses: failed and resolved. The value of a read-modify-write is not stated (log
102); a write of the host port fails its queue pair's request, and has no strand to tell (log 97). -/
def State.refuseReq (s : State) (r : MemReq) : State :=
  let fail (t n : Nat) : State := s.failStore r.ctx t n r.part r.stage .refused r.va
  let free (n : Nat) : Nat := Config.refusedValue s.fresh % 2 ^ (8 * n)
  match r.src with
  | .store t n => (fail t n).dropWrite r.id
  | .core t n _ _ width _ =>
    { ((fail t n).dropWrite r.id).answer r width (free width) r.past false with fresh := s.fresh + 1 }
  | .elem t id _ =>
    let s' := (fail t ((((s.tile t).cmd id).map (fun (c : Cmd) => c.strand)).getD 0)).dropWrite r.id
    if (((s.tile t).cmd id).map (fun c => c.wants r.id)).getD false then { s'.answer r 4 (free 4) r.past false with fresh := s.fresh + 1 } else s'
  | .device | .host .. => ((s.dropWrite r.id).refuseReply r.id).refuseJobs r.id
  | .ingress port lane dst tag => (s.dropWrite r.id).sendReply port { ctx := some r.ctx, lane, dst, packet := .response { tag, accepted := false, data := [] } } []

/-- R339: what the accesses of the command it is linked behind have left at a word, joined to the past of a linked command's access. -/
def State.linkReq (s : State) (r : MemReq) : State × MemReq :=
  match r.src with
  | .elem t id _ => match (s.tile t).cmd id with
    | some c =>
      let l := s.livePast ((s.tile t).linkPast c (wordKey 0 (r.va / 8)))
      if l.isEmpty then (s, r)
      else (s.modCmd t id (fun c => c.readFrom (wordKey 0 (r.va / 8)) l), { r with past := unionNat r.past l })
    | none => (s, r)
  | _ => (s, r)

/-- The first request of a node that a choice picks, taken from it and applied; a write at a failed unit's node is refused (R346). -/
def State.applyFirst (s : State) (d k : Nat) (pick : MemReq → Bool) : State :=
  match ((s.die d).nodes.get [] k).find? pick with
  | none => s
  | some r =>
    let s := s.modDie d (fun x => { x with nodes := x.nodes.set k ((x.nodes.get [] k).filter (fun q => q.id != r.id)) })
    if s.nodeFailed d k && !r.reads then s.refuseReq r else (s.linkReq r).1.applyReq (s.linkReq r).2

/-! ## Values returned to a core -/

/-- R332, edge 1: a held bundle whose values have all returned and that kept a QPUSH, TSEND or TRIG for them: it is carried out, and
the bundle completes. -/
def State.finishLate (s : State) (t : Nat) : State :=
  match (s.tile t).held with
  | none => s
  | some b =>
    match b.late with
    | none => s
    | some i =>
      if !b.waits.isEmpty then s
      else match lateAct i (({ s with focus := t } : State).modTile t (fun u => { u with issue := { b with late := none } })) with
        | (s', done) =>
          let b' := (s'.tile t).issue
          let s' := ({ s' with focus := s.focus } : State).modTile t (fun u => { u with issue := {} })
          if done then s'.completeBundle t b' else s'

/-- R186, R332, R336: a value taken for the tile's held bundle: the first that may return; its causal past becomes the strand's. -/
def State.takeLoad (s : State) (t : Nat) : State :=
  match s.resps.find? (fun r => r.1 == t && (match r.2.src with | .core .. => true | _ => false) && s.respReady t r.2) with
  | none => s
  | some (_, r) =>
    let s := { s with resps := s.resps.filter (fun x => x.2.id != r.id) }
    match r.src with
    | .core _ n _ _ width signed =>
      let s := s.modStrand t n (fun st => { st with past := unionNat st.past r.past })
      s.returnValue t r.id (extendLoad width signed r.data)
    | _ => s

/-- R186: LOAD_RETURN. -/
def execLoadReturn (t : Nat) : State → Out := engine (fun s => (s.takeLoad t).finishLate t)

/-! ## Batches and replica lines (R334, R341) -/

/-- R334: is batch n of a die visible at a die that has seen k of its batches? Counts are modulo 2^48. -/
def batchSeen (k n : Nat) : Bool := decide ((k + 2 ^ 48 - n) % 2 ^ 48 < 2 ^ 47)

/-- R334: the next sealed batch of a die at another, once all of it is in its own die's visible set and its causal past is in
the other's; its replica lines are applied with it. -/
def State.showBatch (s : State) (a b : Nat) : State :=
  let k := (s.die b).vclk.get 0 a
  match (s.die a).sealedBatches.find? (fun p => p.1 == (k + 1) % 2 ^ 48) with
  | none => s
  | some (n, ids) =>
    let recs := s.log.filter (fun r => ids.contains r.id)
    if a = b ∨ !ids.all (fun i => s.seenAt a i) ∨ !recs.all (fun r => r.past.all (fun i => ids.contains i || s.seenAt b i)) then s
    else
      let s := { s with log := s.log.map (fun (r : WriteRec) => if ids.contains r.id && !r.seen.contains b then { r with seen := b :: r.seen } else r) }
      let s := s.modDie b (fun x => { x with vclk := x.vclk.set a n })
      let mine := s.lines.filter (fun l => l.dst == b && ids.contains l.wid)
      let s := mine.foldl (fun s l => s.applyLine l) (State.settle s)
      s.modDie a (fun x => { x with sealedBatches := x.sealedBatches.filter (fun p =>
        !((List.range 9).all (fun e => e == a || batchSeen ((s.die e).vclk.get 0 a) p.1))) })

/-- R334: WRITE_BATCH_SEAL. -/
def execWriteBatchSeal (d : Nat) : State → Out := engine (fun s => s.sealBatch d)

/-- R341: the first line on its way to a die arrives, with the batch of its write when that is not visible there yet. -/
def State.nextLine (s : State) (e : Nat) : State :=
  match s.lines.find? (fun l => l.dst == e) with
  | none => s
  | some l =>
    match s.log.find? (fun r => r.id == l.wid) with
    | some r =>
      if r.seen.contains e then (if l.past.all (fun i => s.seenAt e i) then s.applyLine l else s)
      else if r.die = e then s
      else s.showBatch r.die e
    | none => s.applyLine l

/-! ## Tokens between strands (R359) -/

/-- A tile of a context: as it is saved while the context does not run, else as it stands. -/
def State.tileOf (s : State) (c t : Nat) : Option Tile :=
  match (s.ctx c).saved with
  | some m => (m.find? (fun p => p.1 == t)).map (fun p => p.2)
  | none => if (s.tile t).ctx = c then some (s.tile t) else none

/-- A tile of a context changed where it stands. -/
def State.modTileOf (s : State) (c t : Nat) (f : Tile → Tile) : State :=
  match (s.ctx c).saved with
  | some m => s.modCtx c (fun x => { x with saved := some (m.map (fun (p : Nat × Tile) => if p.1 = t then (t, f p.2) else p)) })
  | none => if (s.tile t).ctx = c then s.modTile t f else s

/-- R358, R359: the first token of a lane that no earlier one of its strands holds back and whose mailbox has room. -/
def nextMail (s : State) (c : Nat) : List (Nat × Nat × Nat × Nat × Mail) → List (Nat × Nat × Nat × Nat) → Option (Nat × Nat × Nat × Nat × Mail)
  | [], _ => none
  | (t, n, u, m, k) :: rest, seen =>
    let room := match s.tileOf c u with
      | some x => decide ((x.strand m).mailbox.length < 8)
      | none => false
    if room && !seen.contains (t, n, u, m) then some (t, n, u, m, k)
    else nextMail s c rest ((t, n, u, m) :: seen)

/-- R359: TOKEN_DELIVER: a token into the mailbox of its context at its destination strand. -/
def execTokenDeliver (c : Nat) : State → Out := engine (fun s =>
  match nextMail s c (s.ctx c).lane [] with
  | none => s
  | some (t, n, u, m, k) =>
    let s := s.modCtx c (fun x => { x with lane := x.lane.erase (t, n, u, m, k) })
    let s := s.modTileOf c u (fun x => x.modStrand m (fun st => { st with mailbox := st.mailbox ++ [k] }))
    if t < 576 then s.modTileOf c t (fun x => x.modStrand n (fun st => { st with sent := st.sent - 1 })) else s)

/-! ## Slots and spill -/

/-- R291: SLOT_WRITEBACK: a die that needs slot memory writes back and drops its least recently used unpinned slot. -/
def execSlotWriteback (d : Nat) : State → Out := engine (fun s =>
  let need := (s.die d).slotNeed
  if need = 0 || s.slotFits d need then s
  else
    let l := s.slots.filter (fun x => x.die == d && !x.pinned)
    match l.find? (fun x => l.all (fun y => decide (x.used ≤ y.used))) with
    | none => s
    | some x => match s.slotOut x with
      | (some s, _) => s
      | (none, s) => s)

/-- R290: a spilled item read back from its 128 bytes. -/
def Item.fromSpill (i : Item) (b : List Byte) : Item :=
  { i with payload := (List.range 8).map (fun k => w64 (leNat ((b.drop (8 * k)).take 8))),
           tag := w32 (leNat ((b.drop 64).take 4)), key := w32 (leNat ((b.drop 68).take 4)) }

/-- R290: the oldest spilled item of a sub-queue with on-chip room returns. -/
def State.spillBack (s : State) (c slot q : Nat) : State :=
  let x := (s.pipe c slot).queue q
  match (List.range x.desc.k).find? (fun j => !(x.sub j).spilled.isEmpty && decide ((x.sub j).items.length < x.desc.subCap)) with
  | none => s
  | some j =>
    let y := x.sub j
    let cap := x.desc.spillCap
    let pos := (y.spillPos + cap - y.spilled.length) % cap
    let va := x.desc.spillVa j pos
    match s.translate (.spill c slot q) c (w64 va) .read false false with
    | .wait s => s
    | .fault s _ _ => s.spillFail c slot q va
    | .ok s' pa _ =>
      match y.spilled with
      | [] => s'
      | it :: rest =>
        -- R288: behind what stands at the node
        if s.nodeBusy pa 128 false then s
        else
        let s := s'.spillEvents c slot q j pa false
        let b := (List.range 16).flatMap (fun i => leBytes 8 (s.nodeWord (pa / 8 + i)).toNat)
        s.modQueue c slot q (fun x => x.modSub j (fun y => { y with items := y.items ++ [it.fromSpill b], spilled := rest }))

/-! ## Steps of the engines written in earlier files -/

/-- R147: MIGRATE_RECHECK. -/
def execMigrateRecheck (d : Nat) : State → Out := engine (fun s => s.recheckMigrating d)
/-- R146: INVALIDATION_COMPLETE. -/
def execInvalidationComplete : State → Out := engine execInvalidationCompleteState
/-- R153: INDEX_FETCH. -/
def execIndexFetch (t : Nat) : State → Out := engine (fun s => execIndexFetchState s t)
/-- R157: PREFETCH_FILL. -/
def execPrefetchFill (t n : Nat) : State → Out := engine (fun s => execPrefetchFillState s t n)
/-- R383: PENDING_TRAP_TAKE. -/
def execPendingTrapTake (t : Nat) : State → Out := engine (fun s => execPendingTrapState s t)
/-- R127: DIVIDER_ASSIGN. -/
def execDividerAssign (c slot q : Nat) : State → Out := engine (fun s => execDividerAssignState s c slot q)
/-- R231: CELL_WRITE_VISIBLE. -/
def execCellWriteVisible (t : Nat) : State → Out := engine (fun s => execCellWriteVisibleState s t)
/-- R292: STREAM_REQUEST_GRANT. -/
def execStreamRequestGrant (t : Nat) : State → Out := engine (fun s => execStreamRequestGrantState s t)
/-- R312: STREAM_DATA_RETURN. -/
def execStreamDataReturn (t id : Nat) : State → Out := engine (fun s => execStreamDataReturnState s t id)
/-- R308: STREAM_TOKEN_TAKE. -/
def execStreamTokenTake (t id : Nat) : State → Out := engine (fun s => execStreamTokenTakeState s t id)
/-- R306: STREAM_COMPLETE. -/
def execStreamComplete (t id : Nat) : State → Out := engine (fun s => execStreamCompleteState s t id)
/-- R300: MULTICAST_SPACE_RETURN. -/
def execMulticastSpaceReturn (t id m : Nat) : State → Out := engine (fun s => execMulticastSpaceReturnState s t id m)

end Sys2Proof.Machine
end

