-- ==== Sys2Proof/Machine/Firing.lean ====
section
/-! DEFINITION. Groups and firings of a tile's fabric (R216-R225, R232-R237), elements held by a watermark (R269), and the end of a
round (R227, R228, R384). -/

namespace Sys2Proof.Machine

/-! ## What a group needs (R219, R223-R225, R276) -/

/-- What a ready group consumes and the arcs it needs: input ports in ascending order, and destination endpoints. -/
structure Need where
  ports : List Nat
  arcs : List Nat
  deriving DecidableEq, Repr

/-- The token on an input port of a cell that a group sees in fc f (R218). -/
def Tile.inTok (u : Tile) (c p f : Nat) : Option Token := u.arcAt (cellIn c p) f

/-- A token as an operand (R232). -/
def Token.opnd (k : Token) : Opnd := { kind := k.kind, lanes := k.lanes, mask := k.mask, port := true }

/-- R64, R219: header latches of the tokens consumed. -/
def latchHeaders (ins : List (Nat × Token)) (l : AMap Lane) : AMap Lane :=
  ins.foldl (fun (l : AMap Lane) p =>
    if p.2.kind = .hdr ∧ p.2.mask.getLsbD 0 then l.set p.1 (p.2.lanes.getD 0 0 &&& 0x1FFFFFFF) else l) l

/-- R219: the frame tag of a firing that consumes these tokens, in ascending port: the first one's, or 0. -/
def firingFrame (ins : List (Nat × Token)) : Nat := ((ins.head?).map (fun p => p.2.frame)).getD 0

/-- R232: an operand of an element of cell state x, given the tokens on the cell's ports. -/
def Cell.select (x : Cell) (ins : Nat → Option Token) (byp : List VReg) (frame : Nat) (e : Elem) (i : Nat) : Opnd :=
  let s := e.sel i
  if s < 4 then
    match ins s with
    | some k => k.opnd
    | none => { mask := 0, port := true }
  else if s < 12 then
    let r := x.v.get {} (s - 4)
    { lanes := r.lanes, mask := r.mask }
  else if s < 16 then
    let r := byp.getD (s - 12) { mask := 0 }
    { lanes := r.lanes, mask := r.mask }
  else if s = 16 then { lanes := List.replicate 16 e.k }
  else if s = 18 then { lanes := (List.range 16).map w32 }
  else if s = 19 then { lanes := List.replicate 16 (x.latches.get 0x7F 0) }
  else if s = 20 then { lanes := List.replicate 16 (w32 frame) }
  else {}

/-- Ports of a mask. -/
def maskPorts (m : BitVec 4) : List Nat := (List.range 4).filter (fun p => m.getLsbD p)

/-- Arcs of the output ports of a mask. -/
def Tile.outArcs (u : Tile) (c : Nat) (m : BitVec 2) : List Nat :=
  (List.range 2).flatMap (fun k => if m.getLsbD k then u.dests (cellOut c k) else [])

/-- R220: the bypass history a firing of group g starts with. -/
def Cell.startBypass (x : Cell) (g : Nat) : List VReg := if x.lastGroup = some g then x.bypass else []

/-- R224, R405: AMRG's logged choice under replay: the record addressed to the cell. -/
def amrgRecord (ord c : Nat) (r : Crumb) : Bool := r.kind == 4 && r.sub == c && r.tile == ord

/-- R224: the operand, 0 or 1, whose token AMRG consumes: the logged one under replay, else the one that arrived first. A select that
names no port brings no token. -/
def State.amrgPick (s : State) (t c f : Nat) (e : Elem) : Option Nat :=
  let u := s.tile t
  let a := if e.sel 0 < 4 then u.inTok c (e.sel 0) f else none
  let b := if e.sel 1 < 4 then u.inTok c (e.sel 1) f else none
  if (s.ctx u.ctx).rpl = 2 then
    match (s.ctx u.ctx).replayed.find? (amrgRecord (s.ordinal u.ctx t) c) with
    | none => none
    | some r => if r.a = 0 then a.map (fun _ => 0) else b.map (fun _ => 1)
  else match a, b with
    | none, none => none
    | some _, none => some 0
    | none, some _ => some 1
    | some x, some y => if x.since ≤ y.since then some 0 else some 1

/-- R225: the route RET takes for a frame tag: the f-th from the port it drives, or the first when there is none, with whether
the tag can be routed; no route at all where it drives no port. -/
def Tile.retRoute (u : Tile) (c : Nat) (e : Elem) (f : Nat) : Option Nat × Bool :=
  let ds := if e.out = 0 then [] else u.dests (cellOut c (if e.out % 2 = 1 then 0 else 1))
  if 1 ≤ f ∧ f ≤ ds.length then (some (ds.getD (f - 1) 0), true)
  else (ds.head?, false)

/-- R223, R224: an operand as selection sees it for a firing that consumes the tokens of these ports, with the headers it latches and
the frame tag it takes (R219). -/
def State.selectAt (s : State) (t c g f : Nat) (e : Elem) (ports : List Nat) (i : Nat) : Opnd :=
  let u := s.tile t
  let x := u.cell c
  let ins := ports.filterMap (fun p => (u.inTok c p f).map (fun k => (p, k)))
  ({ x with latches := latchHeaders ins x.latches } : Cell).select (fun p => u.inTok c p f) (x.startBypass g) (firingFrame ins) e i

/-- R224: the IMASK ports MERGE consumes when its control has the given truth. -/
def mergePorts (e : Elem) (truth : Bool) : List Nat :=
  (List.range 4).filter (fun p => p == e.sel 2 || p == e.sel (if truth then 1 else 0))

/-- R224: MERGE's choice: the truth of its control. A control read from in0's header or the frame tag is that of the firing the choice
itself makes: the first choice that agrees with it stands (log 94). -/
def State.mergeChoice (s : State) (t c g f : Nat) (e : Elem) : Option Bool :=
  [false, true].find? (fun b =>
    (mergePorts e b).all (fun p => ((s.tile t).inTok c p f).isSome) && trueLane (s.selectAt t c g f e (mergePorts e b) 2) == b)

/-- R219, R223-R225, R276: what a group needs in fc f, if its tokens are there. -/
def State.groupNeed (s : State) (t c g f : Nat) (ci : CellImage) : Option Need :=
  let u := s.tile t
  let d := ci.groups.getD g {}
  let e := ci.elem d.first
  let ins (p : Nat) : Option Token := u.inTok c p f
  let outs := u.outArcs c d.omask
  let all := maskPorts d.imask
  if !d.present then none
  else if d.count = 1 ∧ e.oper = 0x182 then
    (s.amrgPick t c f e).map (fun i => { ports := [e.sel i], arcs := outs })
  else if d.count = 1 ∧ (e.oper = 0x240 ∨ e.oper = 0x241) then
    let m := u.mg g
    let out0 := u.dests (cellOut c 0)
    match m.call with
    | some i => if e.sel i < 4 ∧ (ins (e.sel i)).isSome then some { ports := [e.sel i], arcs := out0 } else none
    | none => if m.finished then none else some { ports := [], arcs := out0 }
  else if d.count = 1 ∧ e.oper = 0x181 then
    (s.mergeChoice t c g f e).map (fun b => { ports := mergePorts e b, arcs := outs })
  else if !all.all (fun p => (ins p).isSome) then none
  else if d.count = 1 ∧ e.oper = 0x180 then
    let at' := s.selectAt t c g f e all
    some { ports := all, arcs := (steerPorts e (at' 0) (at' 1)).flatMap (fun k => u.dests (cellOut c k)) }
  else if d.count = 1 ∧ e.oper = 0x188 then
    let fr := firingFrame (all.filterMap (fun p => (ins p).map (fun k => (p, k))))
    some { ports := all, arcs := (u.retRoute c e fr).1.toList }
  else some { ports := all, arcs := outs }

/-! ## Selection (R218, R222) -/

/-- A cell's groups that may be ready, with their needs. -/
abbrev Cands := List (Nat × List (Nat × Need))

/-- R219: cells with no firing in progress, and their groups whose tokens are there. -/
def State.cands (s : State) (t f : Nat) : Cands :=
  let u := s.tile t
  match u.image with
  | none => []
  | some im =>
    (im.cells.map (fun (p : Nat × CellImage) =>
      let x := u.cell p.1
      if x.held.isSome || decide (f < x.busyUntil) then (p.1, [])
      else (p.1, (List.range 4).filterMap (fun g => (s.groupNeed t p.1 g f p.2).map (fun n => (g, n)))))).filter (fun q => !q.2.isEmpty)

/-- R222: a cell's groups in the order it would choose them: those refused 8 times or more first, each part by number. -/
def Cell.order (x : Cell) (l : List (Nat × Need)) : List (Nat × Need) :=
  let late (n : Nat × Need) : Bool := decide (8 ≤ x.refusals.get 0 n.1)
  l.filter late ++ l.filter (fun n => !late n)

/-- Arcs into cell c that a firing with a need frees. -/
def Need.frees (c : Nat) (n : Need) : List Nat := n.ports.map (cellIn c)

/-- A selection under way: firings that take place, and, cell by cell, candidates not decided yet, in the order of R222. -/
structure Sel where
  picks : List (Nat × Nat × Need) := []
  open' : Cands := []
  deriving DecidableEq, Repr

/-- Arcs that the firings of a selection free. -/
def Sel.freed (l : Sel) : List Nat := l.picks.flatMap (fun p => p.2.2.frees p.1)
/-- Arcs that they or an open candidate could free. -/
def Sel.possible (l : Sel) : List Nat := l.freed ++ l.open'.flatMap (fun q => q.2.flatMap (fun n => n.2.frees q.1))
/-- R218: are the arcs of a need free, given arcs that are freed? -/
def Need.free (u : Tile) (freed : List Nat) (n : Need) : Bool := n.arcs.all (fun a => !u.arcFull a || freed.contains a)

/-- R218, R222: one round of deciding: a candidate whose arcs nothing can free goes; a cell's first candidate whose arcs are free for
certain is its choice, and ends its list. -/
def Sel.round (u : Tile) (l : Sel) : Sel :=
  let poss := l.possible
  let sure := l.freed
  let trim (q : List (Nat × Need)) : List (Nat × Need) :=
    let q := q.filter (fun n => n.2.free u poss)
    let k := (q.takeWhile (fun n => !n.2.free u sure)).length
    q.take (k + 1)
  let op := (l.open'.map (fun (q : Nat × List (Nat × Need)) => (q.1, trim q.2))).filter (fun q => !q.2.isEmpty)
  let now := op.filterMap (fun q => match q.2.head? with
    | some n => if n.2.free u sure then some (q.1, n) else none
    | none => none)
  { picks := l.picks ++ now, open' := op.filter (fun q => !now.any (fun p => p.1 == q.1)) }

/-- Rounds until nothing changes; every round before that drops or decides a candidate. -/
def Sel.close (u : Tile) : Nat → Sel → Sel
  | 0, l => l
  | n + 1, l => let k := l.round u; if k = l then l else Sel.close u n k

/-- R218: what is left open waits on cycles of arcs. Every firing on a cycle that is otherwise ready takes place: the first open
candidate of the lowest cell is taken to fire, unless its own arcs could then not be freed (log 94 says which of two crossing cycles
that picks). Each step decides a candidate. -/
def Sel.solve (u : Tile) : Nat → Sel → Option Sel
  | 0, l => some l
  | n + 1, l =>
    let l := l.close u (4 * l.open'.length + 1)
    if !l.picks.all (fun p => p.2.2.free u l.possible) then none
    else match l.open' with
      | (c, x :: r) :: q =>
        match Sel.solve u n { picks := l.picks ++ [(c, x)], open' := q } with
        | some k => some k
        | none => Sel.solve u n { l with open' := (c, r) :: q }
      | _ => some l

/-- R218, R222: the firings that start in fc f, by cell. -/
def State.firings (s : State) (t f : Nat) : List (Nat × Nat × Need) :=
  let u := s.tile t
  let l := s.cands t f
  ((Sel.solve u (4 * l.length + 1) { open' := l.map (fun (q : Nat × List (Nat × Need)) => (q.1, (u.cell q.1).order q.2)) }).map (fun k => k.picks)).getD []

/-- R218: groups of a cell whose tokens are there and whose arcs are free or freed by the firings that start. -/
def Cands.readyUnder (u : Tile) (fs : List (Nat × Nat × Need)) (l : Cands) : Cands :=
  let freed := ({ picks := fs } : Sel).freed
  (l.map (fun (q : Nat × List (Nat × Need)) => (q.1, q.2.filter (fun n => n.2.free u freed)))).filter (fun q => !q.2.isEmpty)

/-- R219: the groups ready in fc f, by cell. -/
def State.ready (s : State) (t f : Nat) : Cands := (s.cands t f).readyUnder (s.tile t) (s.firings t f)

/-- R219, R222, R224: a chosen group starts: it consumes its tokens, latches headers and takes its frame tag. -/
def State.startFiring (s : State) (t f c : Nat) (ready : List (Nat × Need)) (g : Nat) (n : Need) : State :=
  let u := s.tile t
  let ins := n.ports.filterMap (fun p => (u.arc (cellIn c p)).map (fun k => (p, k)))
  let e := match u.image.bind (fun i => i.cell c) with
    | some ci => ci.elem (ci.groups.getD g {}).first
    | none => 0
  let s := if e.oper = 0x182 then
      let port := if n.ports = [e.sel 0] then 0 else 1
      let ord := s.ordinal u.ctx t
      let s := s.record u.ctx { kind := 4, sub := c, tile := ord, a := port }
      if (s.ctx u.ctx).rpl = 2 then
        match s.takeRecord u.ctx (amrgRecord ord c) with
        | some (_, s) => s
        | none => s
      else s
    else s
  let s := s.charge t 21 1 (some u.fstat.rstr)
  s.modTile t (fun u =>
    (n.ports.foldl (fun (v : Tile) p => v.consume (cellIn c p)) u).modCell c (fun x => { x with
      latches := latchHeaders ins x.latches,
      lastGroup := some g,
      refusals := ready.foldl (fun (l : AMap Nat) m => l.set m.1 (if m.1 = g then 0 else l.get 0 m.1 + 1)) x.refusals,
      held := some { group := g, elem := 0, frame := firingFrame ins, ins, bypass := x.startBypass g, start := f } }))

/-- R219, R387: the cells of a tile whose round runs choose their groups; none does while its context is being stopped. -/
def State.chooseGroups (s : State) (t : Nat) : State :=
  let u := s.tile t
  let f := s.fcOf t
  if !u.fstat.run || u.stopping then s
  else
    let fs := s.firings t f
    let l := s.ready t f
    fs.foldl (fun s p => s.startFiring t f p.1 (AMap.get [] l p.1) p.2.1 p.2.2) s

/-! ## Executing an element (R236) -/

/-- R232, R261: operands that an element's entry names. -/
def elemArity (e : Elem) : Nat :=
  if isVector e.oper then vecArity e
  else if e.oper < 0x1C0 then structArity e.oper
  else if e.oper < 0x200 then cellMemArity e
  else if e.oper < 0x240 then matrixArity e.oper
  else if e.oper < 0x280 then 1
  else islandArity e.oper

/-- R260: the port operands an execution reads, as PPOL tests them. -/
def ppolOperands (e : Elem) (o : List Opnd) (taken : Option Opnd) : List Opnd :=
  match e.oper with
  | 0x181 => [o.getD 2 {}, if trueLane (o.getD 2 {}) then o.getD 1 {} else o.getD 0 {}]
  | 0x182 | 0x240 | 0x241 => taken.toList
  | _ => o

/-- R234-R282: what an element does: its operator's effect, before its result is written, kept and emitted. -/
def State.elemDone (s : State) (t c idx : Nat) (h : Held) (e : Elem) (o : List Opnd) : Done :=
  let u := s.tile t
  let x := s.ctx u.ctx
  let v : EEnv := { cell := c, elem := idx, ufm := x.liveModes.getLsbD 0, ascale := x.liveModes.getLsbD 6, key := x.ufkey.toNat,
                    tag := u.roundTag.toNat, frame := h.frame }
  let taken := (h.ins.head?).map (fun p => p.2.opnd)
  if isVector e.oper then
    match passKind o (e.oper != 0x107) with
    | some r => { s, res := r, computed := false, outs := outsOf e h.frame r, classes := [(vecClass e, 1)] }
    | none =>
      let (r, y) := vecOp v e o (u.cell c)
      { s := s.modTile t (fun u => u.modCell c (fun _ => y)), res := r, outs := outsOf e h.frame r,
        -- R101: one Philox block for each draw of R63
        classes := (vecClass e, 1) :: (if y.draws = (u.cell c).draws then [] else [(49, y.draws - (u.cell c).draws)]) }
  else if e.oper < 0x1C0 then structOp v e o taken t s
  else if e.oper < 0x200 then
    match passKind o true with
    | some r => { s, res := r, computed := false, outs := outsOf e h.frame r, classes := [(16, 1)] }
    | none => cellMemOp v e o t s
  else if e.oper < 0x240 then matrixOp v e o t s
  else if e.oper < 0x280 then mergeOp v e h.group o taken t s
  else islandOp v e o t s

/-- R217, R218, R236, R339: a token placed on every route from an output port. -/
def State.emitCell (s : State) (t c port : Nat) (k : Token) : State :=
  let ds := (s.tile t).dests (cellOut c port)
  let f := s.fcOf t
  (s.charge t 20 ds.length (some (s.tile t).fstat.rstr)).modTile t (fun u => ds.foldl (fun (v : Tile) d => v.place d f k) u)

/-- R225: RET sends its operand on one route, or POISON on the first with BADRET. -/
def State.sendRet (s : State) (t c : Nat) (e : Elem) (h : Held) (a : Opnd) (past : List Nat) : State :=
  let u := s.tile t
  let (d, ok) := u.retRoute c e h.frame
  let k : Token := if ok then { kind := a.kind, lanes := a.lanes, mask := a.mask, past } else { kind := .poison, past }
  let s := if ok then s else s.modTile t (fun u => { u with fstat := { u.fstat with badret := true } })
  match d with
  | some d => (s.charge t 20 1 (some u.fstat.rstr)).modTile t (fun v => v.place d (s.fcOf t) k)
  | none => s

/-- R269, R299: does an element read a word that a stream is still to fill? -/
def State.elemHeld (s : State) (t c : Nat) (e : Elem) (o : List Opnd) : Bool :=
  decide (0x1C0 ≤ e.oper) && decide (e.oper ≤ 0x1C4) && (passKind o true).isNone
    && (cellReads e o).any (fun p => s.fillHolds t (65536 * c + p.2))

/-- R203, R268: does an ATMC come behind a stream reduction or a scalar ATOM or CAS of the same fc on one of its words (log 92)? -/
def State.atomicLate (s : State) (t c : Nat) (e : Elem) (o : List Opnd) : Bool :=
  e.oper == 0x1C4 && (passKind o true).isNone && (cellReads e o).any (fun p => (s.tile t).atomicAfter (s.fcOf t) c (65536 * c + p.2))

/-- R219, R220, R234-R237: element `h.elem` of the firing executes: result, register, bypass history, tokens, charges, PPOL. -/
def State.execElement (s : State) (t c : Nat) (h : Held) (gd : Group) (e : Elem) (o : List Opnd) : State :=
  let idx := gd.first + h.elem
  let rstr := (s.tile t).fstat.rstr
  let f := s.fcOf t
  let past := h.ins.foldl (fun l p => unionNat l p.2.past) []
  let taken := (h.ins.head?).map (fun p => p.2.opnd)
  let s := if e.ppol && (ppolOperands e o taken).any (fun x => x.port && x.kind == .poison) then
      s.postCause t rstr 0x22 (w64 (idx * 16 + c)) else s
  let d : Done := if e.oper = 0x188 then
      { s := s.sendRet t c e h (o.getD 0 {}) past, res := (o.getD 0 {}).res, classes := [(15, 1)] }
    else s.elemDone t c idx h e o
  let s := d.classes.foldl (fun s p => s.charge t p.1 p.2 (some rstr)) d.s
  let s := d.outs.foldl (fun s p =>
    s.emitCell t c p.1 { kind := p.2.1.kind, lanes := p.2.1.lanes, mask := p.2.1.mask, frame := p.2.2, past }) s
  let r : VReg := { lanes := d.res.lanes, mask := d.res.mask }
  let byp := (r :: h.bypass).take 4
  s.modTile t (fun u => { u with active := true }.modCell c (fun x =>
    let x := if d.computed && !e.wbs then { x with v := x.v.set e.dreg r } else x
    if gd.count ≤ h.elem + 1 then { x with held := none, bypass := byp, busyUntil := f + 1 }
    else { x with held := some { h with elem := h.elem + 1, bypass := byp, start := f - h.elem } }))

/-- R219, R269: the element due in cell c executes unless a watermark holds it; `only` asks for a cell-memory read alone. -/
def State.runElement (s : State) (t c : Nat) (only : Bool) : State :=
  let u := s.tile t
  match (u.cell c).held, u.image.bind (fun i => i.cell c) with
  | some h, some ci =>
    let gd := ci.groups.getD h.group {}
    let e := ci.elem (gd.first + h.elem)
    let o := (List.range (elemArity e)).map ((u.cell c).select (fun p => (h.ins.find? (fun q => q.1 == p)).map (fun q => q.2)) h.bypass h.frame e)
    if s.fcOf t < h.start + h.elem then s
    else if only && !(decide (0x1C0 ≤ e.oper) && decide (e.oper ≤ 0x1C4)) then s
    else if s.elemHeld t c e o || s.atomicLate t c e o then s
    else s.execElement t c h gd e o
  | _, _ => s

/-- R269, R387: is every firing in progress on a tile held by a watermark? -/
def State.firingsHeld (s : State) (t : Nat) : Bool :=
  let u := s.tile t
  u.cells.all (fun (p : Nat × Cell) => match p.2.held, u.image.bind (fun i => i.cell p.1) with
    | some h, some ci =>
      let e := ci.elem ((ci.groups.getD h.group {}).first + h.elem)
      s.elemHeld t p.1 e ((List.range (elemArity e)).map
        (p.2.select (fun q => (h.ins.find? (fun (x : Nat × Token) => x.1 == q)).map (fun (x : Nat × Token) => x.2)) h.bypass h.frame e))
    | _, _ => true)

/-- R227: the EOS tokens that have reached the heads of a tile's bindings accepted. -/
def State.acceptEnds (s : State) (t : Nat) : State := s.modTile t (fun u => u.acceptEnds (s.fcOf t))

/-- R219: GROUP_FIRING. -/
def execGroupFiringState (s : State) (t c : Nat) : State := ((s.acceptEnds t).chooseGroups t).runElement t c false
/-- R269: ELEMENT_WATERMARK_RESUME. -/
def execElementWatermarkResumeState (s : State) (t c : Nat) : State := s.runElement t c true

/-! ## The end of a round (R227, R228, R384) -/

/-- R227: stream ports and registers bound into the round, as sources and as destinations. -/
def Tile.roundSources (u : Tile) : List Nat := (u.routes.map (fun r => r.src)).filter (fun e => decide (0x60 ≤ e) && decide (e < 0x78))
/-- The destinations among them. -/
def Tile.roundSinks (u : Tile) : List Nat := (u.routes.map (fun r => r.dst)).filter (fun e => decide (0x60 ≤ e) && decide (e < 0x78))

/-- R227, R228: no firing is in progress and no group is ready. -/
def State.quietFabric (s : State) (t : Nat) : Bool :=
  (s.tile t).cells.all (fun p => p.2.held.isNone && decide (p.2.busyUntil ≤ s.fcOf t)) && (s.ready t (s.fcOf t)).isEmpty

/-- R227: may the round end as complete? -/
def State.roundDone (s : State) (t : Nat) : Bool :=
  let u := s.tile t
  u.fstat.run && !u.stopping && (!u.roundSources.isEmpty || !u.roundSinks.isEmpty)
    && u.roundSources.all (fun e => decide (0x70 ≤ e) || u.eosOut.contains e)
    && u.roundSinks.all (fun e => u.eosIn.contains e) && s.quietFabric t

/-- R384: the round's end: the flags of every cell to FFLAGS of the round's strand, and cleared. -/
def State.endRound (s : State) (t : Nat) : State :=
  let u := s.tile t
  let fl := u.cells.foldl (fun (b : BitVec 5) p => b ||| p.2.flags) 0
  (s.modStrand t u.fstat.rstr (fun st => { st with fflags := st.fflags ||| fl })).modTile t
    (fun u => { u with cells := u.cells.map (fun (p : Nat × Cell) => (p.1, { p.2 with flags := 0 })) })

/-- R227: ROUND_COMPLETE. -/
def execRoundCompleteState (s : State) (t : Nat) : State :=
  let s := s.acceptEnds t
  if !s.roundDone t then s
  else
    let u := s.tile t
    let stays (p : Nat × Token) : Bool := decide (0x80 ≤ p.1)
    let left := (u.arcs.filter (fun p => !stays p)).length
    (s.modTile t (fun u => { u with
      arcs := u.arcs.filter stays,
      fstat := { u.fstat with disc := min left 255, cmpl := true, run := false } })).endRound t

/-- R305: the command or multicast whose turn it is at a port. -/
def Tile.portUser (u : Tile) (p : Nat) : Option (Nat × Cmd) :=
  u.cmds.find? (fun c => c.2.holdsPort p && u.portTurnAt c.2.order p)

/-- R228: has a command an element in flight: a read that has not returned, a write that has not reached its node, or a request of another
package not answered? -/
def State.cmdFlying (s : State) (t id : Nat) (c : Cmd) : Bool :=
  c.flight.any (fun f => f.val.isNone && f.req != 0) || c.writes.any (fun w => s.flying.contains w.1)
    || s.pkg.flights.any (fun f => f.tile == t && f.id == id)

/-- R228: does a port's token stand on a full arc? -/
def Tile.arcHeld (u : Tile) (p : Nat) : Bool :=
  match u.emitting.find? (fun q => q.1 == spEnd p) with
  | some (_, e) => e.left.head?.any u.arcFull
  | none => match u.dests (spEnd p) with
    | [] => false
    | d :: _ => u.arcFull d

/-- R228, R319: is an SQIN's next token waiting on a full arc: has its queue an item, and its port no room for the token? -/
def State.popHeld (s : State) (t : Nat) (c : Cmd) : Bool :=
  match c.kind with
  | .sqin q => ((s.pipe c.ctx c.slot).queue q).items != 0 && ((s.tile t).dests (spEnd c.port)).any (s.tile t).arcFull
  | _ => false

/-- R228: is a command waiting for a token from an endpoint that holds none? -/
def Tile.hungry (u : Tile) (c : Cmd) : Bool :=
  let empty (p : Nat) : Bool := !u.arcFull (spEnd p)
  if c.ending.isSome then c.drain.any empty
  else
    (match c.dataPort with
      | some p => !c.valsEnd && c.vals.isEmpty && empty p
      | none => false)
    || (match c.indexPort with
      | some p => !c.idxEnd && c.idx.isEmpty && empty p
      | none => false)

/-- R228: is a bound stream port blocked? One with an element in flight or in translation is not. -/
def State.portBlocked (s : State) (t p : Nat) : Bool :=
  let u := s.tile t
  if u.emits (spEnd p) then u.arcHeld p
  else match u.portUser p with
    | some (id, c) =>
      if s.cmdFlying t id c || s.cmdMiss t id then false
      else (c.outPort == some p && ((c.headToken.isSome && u.arcHeld p) || s.popHeld t c)) || u.hungry c
    | none => match u.mcast.find? (fun m => m.port == p) with
      | some m => !m.toks.isEmpty && u.arcHeld p
      | none => true

/-- R228: is a bound register blocked: can neither a read nor a write of the round's strand through it proceed? -/
def State.regBlocked (s : State) (t n : Nat) : Bool :=
  let u := s.tile t
  let k := u.fstat.rstr
  let b := (u.strand k).binding n
  if b.target = .fabric then
    let ds := u.dests (regEnd n)
    !((u.roundSinks.contains (regEnd n) && (b.eos.isSome || (u.arcAt (regEnd n) (s.fcOf t)).isSome))
      || (!ds.isEmpty && ds.all (fun d => !u.arcFull d)))
  else true

/-- R228: endpoints bound into the round that have not reached EOS. -/
def Tile.openEnds (u : Tile) : List Nat :=
  (u.roundSources.filter (fun e => !u.eosOut.contains e)) ++ (u.roundSinks.filter (fun e => !u.eosIn.contains e))

/-- R228: is an endpoint blocked? -/
def State.endBlocked (s : State) (t e : Nat) : Bool := if e < 0x70 then s.portBlocked t (e - 0x60) else s.regBlocked t (e - 0x70)

/-- Ports of the round. -/
def Tile.roundPorts (u : Tile) : List Nat := ((u.roundSources ++ u.roundSinks).filter (fun e => decide (e < 0x70))).map (fun e => e - 0x60)

/-- R304, R327: has a command a port? -/
def Cmd.hasPort (c : Cmd) : Bool :=
  match c.kind with
  | .scpy _ => false
  | _ => true

/-- Has a command a port bound into the round? A multicast has that of its own tile. -/
def Tile.inRound (u : Tile) (c : Cmd) : Bool :=
  (c.outPort.toList ++ c.dataPort.toList ++ c.indexPort.toList ++ (match c.kind with
    | .smc _ => [c.port]
    | _ => [])).any (fun p => u.roundPorts.contains p)

/-- R183, R228: is register n of strand k bound to a port or an endpoint of the round? -/
def Tile.boundInRound (u : Tile) (k n : Nat) : Bool :=
  match ((u.strand k).binding n).target with
  | .unbound => false
  | .port p => u.roundPorts.contains p
  | .fabric => (u.roundSources ++ u.roundSinks).contains (regEnd n)

/-- R208, R211, R228: of the bindings a slot undoes, are those whose partial token cannot be sent all bound into the round? -/
def Tile.undoInRound (u : Tile) (l : List (Nat × Nat)) : Bool :=
  (l.filter (fun b => !u.canUnbind b.1 b.2)).all (fun b => u.boundInRound b.1 b.2)

/-- R228: does a wait of the round's strand leave it counted as not issuing? It is an opcode and an operand: SRD and SWR on a register of
the round, SBIND, YIELD, WAITQ and DONE on partial tokens for it, FGO, FDRN, and SWAIT on a command with a port in it. -/
def Tile.roundWait (u : Tile) (w : Nat × Nat) : Bool :=
  let k := u.fstat.rstr
  match w.1 with
  | 0x44 | 0x46 => u.boundInRound k w.2
  | 0x49 => u.undoInRound ((k, w.2 % 8) :: (if w.2 < 8 then [] else (u.portHolder (w.2 / 8 - 1)).toList))
  | 0xCD | 0xCE | 0xCF => u.undoInRound ((List.range 8).map (fun n => (k, n)))
  | 0x9A | 0x9C => true
  | 0x75 => (match u.cmd w.2 with
    | some c => u.inRound c
    | none => false)
  | _ => false

/-- R228: the round's strand is not issuing: its task is suspended or has ended, or its bundle is held by the round alone. -/
def Tile.strandIdle (u : Tile) : Bool :=
  let st := u.strand u.fstat.rstr
  st.state != .run || (u.held.isNone && !st.stall.isEmpty && st.stall.all u.roundWait)

/-- R218: has a token been placed in this fc, so that it stands on its arc only from the next? -/
def State.placing (s : State) (t : Nat) : Bool := (s.tile t).arcs.any (fun (p : Nat × Token) => decide (s.fcOf t < p.2.since))

/-- R228: may the round end as deadlocked? A port that places a token in this fc is not blocked in it. -/
def State.roundStuck (s : State) (t : Nat) : Bool :=
  let u := s.tile t
  u.fstat.run && !u.stopping && !s.roundDone t && s.quietFabric t && !s.placing t && u.openEnds.all (s.endBlocked t) && u.strandIdle

/-- R228: is a cell blocked: has it a group whose tokens are only partly there, or whose output arcs are full? -/
def State.cellBlocked (s : State) (t c : Nat) (ci : CellImage) : Bool :=
  let u := s.tile t
  let f := s.fcOf t
  ci.groups.any (fun g =>
    let ps := maskPorts g.imask
    let n := (ps.filter (fun p => (u.inTok c p f).isSome)).length
    g.present && ((decide (0 < n) && decide (n < ps.length)) || (u.outArcs c g.omask).any (fun a => u.arcFull a)))

/-- Bits of a list of numbers. -/
def bitsOf (w : Nat) (l : List Nat) : BitVec w := l.foldl (fun (b : BitVec w) n => b ||| BitVec.ofNat w (2 ^ n)) 0

/-- R228, R327: ROUND_DEADLOCK. Every running command of the tile that has a port is aborted (log 46). -/
def execRoundDeadlockState (s : State) (t : Nat) : State :=
  let s := s.acceptEnds t
  if !s.roundStuck t then s
  else
    let u := s.tile t
    let ends := u.openEnds
    let cells := ((u.image.map (fun i => i.cells)).getD []).filter (fun p => s.cellBlocked t p.1 p.2)
    let fs : Fstat := { u.fstat with
      sblk := bitsOf 8 ((ends.filter (fun e => decide (0x70 ≤ e))).map (fun e => e - 0x70)),
      pblk := bitsOf 16 ((ends.filter (fun e => decide (e < 0x70))).map (fun e => e - 0x60)),
      cblk := bitsOf 16 (cells.map (fun p => p.1)), dlk := true, run := false }
    let s := s.modTile t (fun u => { u with
      fstat := fs, arcs := u.arcs.filter (fun p => decide (0x80 ≤ p.1)), emitting := [] })
    let s := u.cmds.foldl (fun s p => if p.2.hasPort then s.stopCmd t p.1 5 true else s) s
    (s.endRound t).postCause t fs.rstr 0x20 fs.word

def execGroupFiring (t c : Nat) : State → Out := engine (fun s => execGroupFiringState s t c)
def execElementWatermarkResume (t c : Nat) : State → Out := engine (fun s => execElementWatermarkResumeState s t c)
def execRoundComplete (t : Nat) : State → Out := engine (fun s => execRoundCompleteState s t)
def execRoundDeadlock (t : Nat) : State → Out := engine (fun s => execRoundDeadlockState s t)

end Sys2Proof.Machine
end

