-- ==== Sys2Proof/Machine/Energy.lean ====
section
/-! DEFINITION. From meters to balances (R103, R104), low water and guttering (R110-R112), stops asked for (R386), and the
fabric-clock edge (R21, R101). -/

namespace Sys2Proof.Machine

/-- One nanojoule in units of 2^-14 of 1/16 pJ (R103, R104). -/
def njUnit : Nat := 16000 * 2 ^ 14

/-! ## Stops asked for (R386) -/

/-- R386: order of the states a stop leads to: FAULTED, GUTTERED, READY. -/
def CtxState.rank : CtxState → Nat
  | .faulted => 0 | .guttered => 1 | .ready => 2 | .running => 3

/-- R386: a running context is to be stopped; one sequence serves every event, and the first state of the order is entered. -/
def State.askStop (s : State) (c : Nat) (dest : CtxState) (cause : Nat) : State :=
  if (s.ctx c).state != .running then s
  else s.modCtx c (fun x => match x.stopTo with
    | none => { x with stopTo := some dest, stopCause := cause }
    | some t => if dest.rank < t.rank then { x with stopTo := some dest, stopCause := cause } else x)

/-- R85: the body of an event that carries a balance. -/
def balanceBody (b : Int) : List Byte := leInt 8 (wholeNJ b)

/-- R93: RPL of a modes byte. -/
def rplOf (b : BitVec 8) : Nat := (b.extractLsb' 2 2).toNat

/-- R94, R401: RPL as it holds for a context: that in effect while it runs, else that of its next dispatch. -/
def Context.msgRpl (c : Context) : Nat := if c.state == .running then c.rpl else rplOf c.modes

/-- R111, R405: a balance at or below zero. Under replay the gutter, in whatever state, waits for a STOP record or the log's end. -/
def State.gutter (s : State) (c : Nat) : State :=
  if (s.ctx c).msgRpl = 2 then s
  else match (s.ctx c).state with
  | .running => s.askStop c .guttered 1
  | .ready => (s.modCtx c (fun x => { x with state := .guttered })).event c 0x4003 c (balanceBody (s.ctx c).balance)
  | .guttered | .faulted => s

/-- R112: an ALLOW that leaves the balance above zero ends GUTTERED, or a gutter still under way. -/
def State.ungutter (s : State) (c : Nat) : State :=
  s.modCtx c (fun x =>
    if x.state = .guttered then { x with state := .ready }
    else if x.stopTo = some .guttered then { x with stopTo := some .ready } else x)

/-! ## Applications (R104) -/

/-- R104: saturation of a balance at -2^63 and 2^63 - 1 nJ. -/
def clampBalance (b : Int) : Int := max (-(2 ^ 63 : Int) * njUnit) (min b ((2 ^ 63 - 1 : Int) * njUnit))

/-- R104: a share, increment or charge that reaches the home unit of a context, behind those that reached it before. -/
def State.arrive (s : State) (c : Nat) (amt : Int) : State :=
  s.modDie (s.homeDie c) (fun x => { x with arrivals := x.arrivals ++ [(c, amt)] })

/-- R104, R110, R111: one signed amount applied at the home account unit; `allow` for an ALLOW increment. The house account, which
takes the charges of a context that is not live, is context 0's: it has no threshold and never gutters. -/
def State.applyDelta (s : State) (c : Nat) (amt : Int) (allow : Bool) : State :=
  if c = 0 then s.modCtx 0 (fun x => { x with balance := clampBalance (x.balance + amt) })
  else if !(s.ctx c).live then s.modCtx 0 (fun x => { x with balance := clampBalance (x.balance + amt) })
  else
    let b := clampBalance ((s.ctx c).balance + amt)
    let low := (s.ctx c).lowWater * njUnit
    let s := s.modCtx c (fun x => { x with balance := b })
    let s := if b < low ∧ (s.ctx c).armed then (s.modCtx c (fun x => { x with armed := false })).event c 0x4002 c (balanceBody b)
      else if allow ∧ low ≤ b then s.modCtx c (fun x => { x with armed := true }) else s
    if b ≤ 0 then s.gutter c else if allow then s.ungutter c else s

/-- R104: CHARGE_APPLY: the home unit applies what arrived first, else what its own die's accumulator holds of a context that has
become its own. -/
def execChargeApply (d : Nat) : State → Out := engine (fun s =>
  match (s.die d).arrivals with
  | (c, a) :: rest => (s.modDie d (fun x => { x with arrivals := rest })).applyDelta c a false
  | [] =>
    match (s.die d).accounts.find? (fun (p : Nat × Int) => s.homeDie p.1 == d && p.2 != 0) with
    | none => s
    | some (c, a) => (s.modDie d (fun x => { x with accounts := x.accounts.erase c })).applyDelta c (-a) false)

/-- R104: everything that has reached a die's account unit applied, in the order in which it reached it: what an ALLOW that comes
behind it finds. -/
def State.applyArrivals (s : State) (d : Nat) : State :=
  (s.die d).arrivals.foldl (fun (s : State) (p : Nat × Int) => s.applyDelta p.1 p.2 false)
    (s.modDie d (fun x => { x with arrivals := [] }))

/-- R104: ACCOUNT_FORWARD: the whole nanojoules held for contexts of other home dies go there; fractions stay. -/
def execAccountForward (d : Nat) : State → Out := engine (fun s =>
  let away := (s.die d).accounts.filter (fun (p : Nat × Int) => s.homeDie p.1 != d && p.2 / (njUnit : Int) != 0)
  let s := s.modDie d (fun x => { x with
    forwards := x.forwards + 1,
    accounts := x.accounts.map (fun (p : Nat × Int) => if away.contains p then (p.1, p.2 % (njUnit : Int)) else p) })
  away.foldl (fun (s : State) (p : Nat × Int) =>
    s.modDie (s.homeDie p.1) (fun x => { x with arrivals := x.arrivals ++ [(p.1, -(p.2 / (njUnit : Int) * njUnit))] })) s)

/-- R103: METER_RESIDUE_SEND: the whole nanojoules of a tile's residues. -/
def execMeterResidueSend (t : Nat) : State → Out := engine (fun s =>
  let u := s.tile t
  let k := u.residue / njUnit
  let h := u.houseResidue / njUnit
  if k = 0 ∧ h = 0 then s
  else
    ((s.modTile t (fun u => { u with residue := u.residue % njUnit, houseResidue := u.houseResidue % njUnit })).toAccount
      (tileDie t) u.ctx (k * njUnit : Nat)).toAccount (tileDie t) 0 (h * njUnit : Nat))

/-- R103: a context leaves a tile: its residue rounded up to the next whole nanojoule, and cleared. -/
def State.leaveResidue (s : State) (t : Nat) : State :=
  let u := s.tile t
  let k := (u.residue + njUnit - 1) / njUnit
  (s.modTile t (fun u => { u with residue := 0 })).toAccount (tileDie t) u.ctx (k * njUnit : Nat)

/-! ## The fabric clock (R19-R21, R101) -/

/-- R21, R101, R18: one fc edge at one tile: its time class for the fc that ends (57 when it issued or fired; an unoccupied tile
counts 56 and charges the house account), LCYC one on, and its core and stream engine free to issue and grant again. -/
def State.tileEdge (s : State) (t : Nat) : State :=
  let u := s.tile t
  (s.charge t (if u.stage.isSome && u.active then 57 else 56) 1 none).modTile t (fun u => { u with
    active := false, issued := false, granted := false, lcyc := (u.lcyc + 1) % 2 ^ 64 })

/-- R21, R101, R26: FC_EDGE: one fc edge delivered to every tile of a die; none while a thermal trip stops the clock. -/
def execFcEdge (d : Nat) : State → Out := engine (fun s =>
  if s.pkg.clockStopped then s
  else
    ((List.range 64).foldl (fun s i => s.tileEdge (64 * d + i)) s).modDie d (fun x => { x with fc := (x.fc + 1) % 2 ^ 64 }))

end Sys2Proof.Machine
end

