-- ==== Sys2Proof/Machine/VaIO.lean ====
section
/-! DEFINITION. Reads and writes of virtual memory that the device itself makes: images, dictionaries, descriptors, save areas, logs
(R97, R155, R178, R402, R429). -/

namespace Sys2Proof.Machine

/-- The first address of n bytes from a virtual address in each page they touch. -/
def pagesOf (va n : Nat) : List Nat :=
  (List.range ((va + n + 4095) / 4096 - va / 4096)).map (fun i => if i = 0 then va else (va / 4096 + i) * 4096)

/-- Physical address of the page that byte i of a run at va lies in, given an address in each of its pages. -/
def runPage (va : Nat) (pas : List Nat) (i : Nat) : Nat := pas.getD ((va + i) / 4096 - va / 4096) 0 / 4096 * 4096

/-- Physical address of byte i of a run at va. -/
def runAddr (va : Nat) (pas : List Nat) (i : Nat) : Nat := runPage va pas i + (va + i) % 4096

/-- R142: is byte i of a run on a replicated page, given the addresses among its pages' that are? -/
def runRep (va : Nat) (pas reps : List Nat) (i : Nat) : Bool := reps.any (fun a => a / 4096 * 4096 == runPage va pas i)

/-- R102: the path and node events of a run of bytes in 64-byte blocks, to or from a tile. -/
def State.chargeRun (s : State) (ctx t va n : Nat) (pas : List Nat) (write : Bool) : State :=
  (List.range ((va + n + 63) / 64 - va / 64)).foldl (fun s i =>
    let pa := runAddr va pas (64 * i - va % 64)
    (s.nodePath ctx t pa 64).nodeEvent (tileDie t) ctx pa write false) s

/-- The outcome of a device read. -/
inductive VaRead
  | ok (s : State) (bytes : List Byte)
  | wait (s : State)
  | fault (s : State) (code reason va : Nat)

/-- n bytes read at package scope from a virtual address of a context, on behalf of a requester at tile t. -/
def State.readVa (s : State) (who : Requester) (ctx t va n : Nat) (super : Bool) : VaRead :=
  match s.xlPages who ctx .read super (pagesOf va n) with
  | .ok s' pas _ =>
    -- R288: behind what stands at the nodes
    if (List.range ((va + n + 63) / 64 - va / 64)).any (fun i => s.nodeBusy (runAddr va pas (64 * i - va % 64)) 64 false) then .wait s
    else .ok (s'.chargeRun ctx t va n pas false) ((List.range n).map (fun i => s'.pkgByte (runAddr va pas i)))
  | .wait s => .wait s
  | .fault s c r a => .fault s c r a

/-- Bytes written by the device from die d at the physical addresses of a run, line by line (R142, R341). -/
def State.putRun (s : State) (d ctx va : Nat) (pas reps : List Nat) (data : List Byte) : State :=
  (List.range ((va + data.length + 63) / 64 - va / 64)).foldl (fun s k =>
    let lo := 64 * k - va % 64
    s.devLine d ctx (runAddr va pas lo) ((data.drop lo).take (64 - (va + lo) % 64)) (runRep va pas reps lo)) s

/-- The outcome of a device write. -/
inductive VaWrite
  | ok (s : State)
  | wait (s : State)
  | fault (s : State) (code reason va : Nat)

/-- Bytes written at package scope to a virtual address of a context. -/
def State.writeVa (s : State) (who : Requester) (ctx t va : Nat) (data : List Byte) (super : Bool) : VaWrite :=
  match s.xlPages who ctx .write super (pagesOf va data.length) with
  | .ok s' pas reps =>
    if (List.range ((va + data.length + 63) / 64 - va / 64)).any (fun i => s.nodeBusy (runAddr va pas (64 * i - va % 64)) 64 true) then .wait s
    else .ok ((s'.chargeRun ctx t va data.length pas true).putRun (s.reqDie who) ctx va pas reps data)
  | .wait s => .wait s
  | .fault s c r a => .fault s c r a

end Sys2Proof.Machine
end

