-- ==== Sys2Proof/Machine/Image.lean ====
section
/-! DEFINITION. Fabric images (R172-R178): the checks of the loader in their order, the image they make, and a load (R226, R354). -/

namespace Sys2Proof.Machine

/-! ## Fields -/

/-- n bytes at an offset of an image, little-endian; bytes past its end are zero. -/
def imgNat (d : List Byte) (off n : Nat) : Nat := leNat ((List.range n).map (fun i => d.getD (off + i) 0))

/-- R178: the first non-zero byte of an area. -/
def firstNonZero (d : List Byte) (off n : Nat) : Option Nat := ((List.range n).find? (fun i => d.getD (off + i) 0 != 0)).map (fun i => off + i)

/-- A check that fails at a position. -/
def failAt (bad : Bool) (pos : Nat) : Option Nat := if bad then some pos else none

/-- The first failure of a list of checks. -/
def firstFail (l : List (Option Nat)) : Option Nat := l.findSome? id

/-- R172: number of cells of a mask. -/
def maskCells (m : Nat) : List Nat := (List.range 16).filter (fun c => m.testBit c)

/-- R172: the size of an image. -/
def imageSize (m nr ni : Nat) : Nat := 64 + 544 * m + 8 * ((4 * nr + 7) / 8) + 72 * ni

/-- R178, step 1: the header against R172. -/
def headerFail (d : List Byte) : Option Nat :=
  let mask := imgNat d 2 2
  let nr := imgNat d 4 1
  let ni := imgNat d 5 1
  firstFail
    [failAt (imgNat d 0 2 != 1) 0, failAt (mask == 0) 2, failAt (decide (88 < nr)) 4, failAt (decide (64 < ni)) 5, firstNonZero d 6 2,
     failAt (imgNat d 8 8 != imageSize (maskCells mask).length nr ni) 8, firstNonZero d 16 48]

/-! ## Cell blocks -/

/-- R174: a group descriptor. -/
def decodeGroup (w : Nat) : Group :=
  { first := w % 32, count := w / 32 % 64, imask := BitVec.ofNat 4 (w / 2 ^ 11), omask := BitVec.ofNat 2 (w / 2 ^ 15), present := w.testBit 17 }

/-- R173: a cell block at an offset. -/
def decodeCell (d : List Byte) (off : Nat) : CellImage :=
  { groups := (List.range 4).map (fun g => decodeGroup (imgNat d (off + 4 * g) 4)),
    elems := (List.range (imgNat d (off + 16) 1)).map (fun i => BitVec.ofNat 128 (imgNat d (off + 32 + 16 * i) 16)) }

/-- R174: does element i lie in a group? -/
def Group.has (g : Group) (i : Nat) : Bool := g.present && decide (g.first ≤ i) && decide (i < g.first + g.count)

/-- R178: a group descriptor at an offset: its fields, and the failures that are the group's own. Of two groups that overlap the later one is
reported, and of reserved bits within a word the first byte that is not zero (log 105). -/
def groupFail (d : List Byte) (off : Nat) (c : CellImage) (g : Nat) : Option Nat :=
  let at' := off + 4 * g
  let w := imgNat d at' 4
  let x := c.groups.getD g {}
  let members := (List.range x.count).map (fun i => x.first + i)
  let before := c.groups.take g
  firstFail
    [failAt (!x.present && w % 32 != 0) at', failAt (!x.present && w / 32 % 64 != 0) at',
     failAt (!x.present && x.imask != 0) (at' + 1), failAt (!x.present && x.omask != 0) (at' + 1),
     failAt (x.present && (x.count == 0 || decide (32 < x.count))) at',
     failAt (decide (w / 2 ^ 18 % 64 ≠ 0)) (at' + 2), failAt (decide (w / 2 ^ 24 ≠ 0)) (at' + 3),
     failAt (x.present && decide (c.elems.length < x.first + x.count)) at',
     failAt (x.present && members.any (fun i => before.any (fun y => y.has i))) at',
     failAt (x.present && members.any (fun i => Elem.laste (c.elem i) != (i + 1 == x.first + x.count))) at',
     failAt (x.present && (List.range 2).any (fun k =>
       x.omask.getLsbD k && (members.filter (fun i => (Elem.out (c.elem i)).testBit k)).length != 1)) at']

/-- R179: kinds of cells: memory, matrix, merge, island. -/
inductive CellKind
  | memory | matrix | merge | island
  deriving DecidableEq, Repr

/-- R18, R179: the kind of cell c. -/
def cellKind (c : Nat) : CellKind := if c < 12 then .memory else if c < 14 then .matrix else if c = 14 then .merge else .island

/-- R179: is this an operator code? -/
def operKnown (o : Nat) : Bool :=
  (decide (1 ≤ o) && decide (o ≤ 0x018)) || (decide (0x080 ≤ o) && decide (o ≤ 0x095)) || (decide (0x100 ≤ o) && decide (o ≤ 0x108))
    || (decide (0x140 ≤ o) && decide (o ≤ 0x149)) || (decide (0x180 ≤ o) && decide (o ≤ 0x18B)) || (decide (0x1C0 ≤ o) && decide (o ≤ 0x1C4))
    || (decide (0x200 ≤ o) && decide (o ≤ 0x205)) || (decide (0x240 ≤ o) && decide (o ≤ 0x245)) || (decide (0x280 ≤ o) && decide (o ≤ 0x283))

/-- R179: is an operator valid in a cell of this kind? -/
def operIn (o : Nat) (k : CellKind) : Bool :=
  if 0x180 ≤ o ∧ o ≤ 0x18B ∧ o ≠ 0x189 then true
  else if o < 0x200 then k == .memory
  else if o < 0x240 then k == .matrix
  else if o < 0x280 then k == .merge
  else k == .island

/-- R238-R253, R260, R268, R277, R280: does the operator's entry assign this MODE at all? -/
def modeAssigned (o m : Nat) : Bool :=
  let most := if o = 0x00E then 7
    else if o ≤ 0x006 ∨ (0x010 ≤ o ∧ o ≤ 0x014) then 3
    else if o = 0x091 then 5
    else if o = 0x100 ∨ o = 0x104 ∨ o = 0x105 ∨ o = 0x140 ∨ o = 0x143 ∨ o = 0x244 then 3
    else if o = 0x1C4 then 10
    else if o = 0x240 ∨ o = 0x241 then 5
    else 0
  if o = 0x101 then m == 4 else decide (m ≤ most)

/-- R260: operators that admit only WBS = 1. -/
def wbsOnly (o : Nat) : Bool :=
  [0x180, 0x181, 0x182, 0x183, 0x186, 0x187, 0x188, 0x18B, 0x1C1, 0x1C3, 0x283, 0x200, 0x201, 0x202, 0x204, 0x205, 0x240, 0x241].contains o

/-- R260: operators admitted only as the sole element of their group. -/
def soleOnly (o : Nat) : Bool := [0x182, 0x188, 0x240, 0x241].contains o

/-- R268: the formats ATMC's operations take. -/
def atmcFmt (m s : Nat) : Bool :=
  if m = 0 ∨ m = 2 ∨ m = 3 then s == 10 || s == 13 else if m = 1 ∨ m = 4 ∨ m = 5 then s == 1 else s == 0

/-- R225, R238-R284: the largest AUX an operator's entry admits under any format; none where it admits every value. -/
def auxMost (o : Nat) : Option Nat :=
  if o = 0x011 then some 1
  else if o ≤ 0x101 then some 0
  else match o with
  | 0x102 | 0x103 => some 7
  | 0x107 | 0x18A => none
  | 0x145 | 0x146 | 0x282 => some 15
  | 0x148 | 0x149 | 0x203 | 0x240 | 0x241 | 0x243 | 0x244 | 0x245 | 0x283 => some 1
  | 0x185 => some (2 ^ 16 - 1)
  | 0x187 | 0x242 => some 8
  | 0x202 => some 127
  | 0x281 => some 11
  | _ => some 0

/-- R238, R243-R257, R260-R284: the two formats that an operator's entry admits together, under some setting of its other fields. -/
def fmtPair (o s d : Nat) : Bool :=
  let any (l : List Nat) : Bool := l.contains s
  if o ≤ 0x018 then s == d && decide (s ≤ 6)
  else if o ≤ 0x095 then s == d && (if 0x094 ≤ o then any [0, 10, 13] else s == 0 || (decide (8 ≤ s) && decide (s ≤ 13)))
  else match o with
  | 0x100 => decide (1 ≤ s) && s != 7 && decide (s ≤ 14) && decide (1 ≤ d) && d != 7 && decide (d ≤ 13) && (s != 14 || decide (d ≤ 3))
  | 0x101 => s == 1 && decide (2 ≤ d) && decide (d ≤ 6)
  | 0x102 | 0x103 => s == d
  | 0x104 => any [1, 2, 3] && [4, 5, 6, 8].contains d
  | 0x105 => [1, 2, 3].contains d && any [4, 5, 6, 8]
  | 0x106 => d == 1 && decide (1 ≤ s) && decide (s ≤ 6)
  | 0x107 => s == d && any [4, 5, 6]
  | 0x108 => d == 1 && any [0, 1, 13]
  | 0x140 | 0x141 | 0x142 | 0x143 | 0x240 | 0x241 | 0x242 | 0x244 => s == d && any [1, 10, 13]
  | 0x185 => s == d && any [0, 10, 13]
  | 0x18A => s == 0
  | 0x1C4 => s == d && any [0, 1, 10, 13]
  | 0x200 => decide (2 ≤ s) && decide (s ≤ 8) && d == 0
  | 0x202 => any [2, 3, 4, 5, 6, 8] && d == (if s = 8 then 10 else 1)
  | 0x203 => s == 0 && (d == 1 || d == 10)
  | 0x243 | 0x245 => s == d && any [0, 13]
  | 0x281 => s == 1 && d == 1
  | 0x282 => s == 7 && d == 1
  | _ => s == 0 && d == 0

/-- Formats, MODE, AUX and SAT that a vector operator's entry admits together (R238, R243-R257). -/
def vecAdmits (e : Elem) : Bool :=
  let s := e.sfmt
  let a := e.aux
  fmtPair e.oper s e.dfmt && (match e.oper with
    | 0x011 | 0x148 | 0x149 => decide (a ≤ 1)
    | 0x102 | 0x103 => decide (a < 8) && decide (a < 32 / (Fmt.ofHeader s).width)
    | 0x107 => true
    | 0x140 | 0x143 => a == 0 && (s == 1 || e.mode == 0)
    | 0x145 | 0x146 => decide (a < 16)
    | _ => a == 0)

/-- Formats, MODE, AUX, SAT, WBS, OUT and selects that the entries of R260 to R284 admit together. -/
def otherAdmits (e : Elem) : Bool :=
  let s := e.sfmt
  let a := e.aux
  !e.sat && (!wbsOnly e.oper || e.wbs) && fmtPair e.oper s e.dfmt && (match e.oper with
    | 0x185 => decide (a < 2 ^ 16)
    | 0x186 => a == 0 && e.out == 0
    | 0x187 | 0x242 => decide (1 ≤ a) && decide (a ≤ 8)
    | 0x18A => true
    | 0x1C4 => atmcFmt e.mode s && a == 0
    | 0x202 => decide (a < 128) && (decide (3 < s) || e.sel 2 == 17)
    | 0x203 | 0x243 | 0x245 | 0x283 => decide (a ≤ 1)
    | 0x240 | 0x241 => decide (a ≤ 1) && e.sel 2 == 17
    | 0x244 => decide (a ≤ 1) && (s == 1 || e.mode == 0)
    | 0x281 => decide (a ≤ 11)
    | 0x282 => decide (a < 16)
    | _ => a == 0)

/-- R178, R225, R233, R260: the byte, within its element word, of the first field whose value its operator admits under no setting of the
others: bits of AUX, in bits [80:64], that the entry does not name or a value of it out of range; DREG's WBS in bit 90 clear; SAT in
bit 82 set; SFMT from bit 114 on and DFMT from bit 110 on; OUT in bits [89:88] set on SINK; SEL2, from bit 95 on, other than 17 on MRGU and MRGI. -/
def elemField (e : Elem) : Option Nat :=
  let o := e.oper
  firstFail
    [failAt (!(List.range 16).any (fun d => fmtPair o e.sfmt d)) 14, failAt (!(List.range 16).any (fun s => fmtPair o s e.dfmt)) 13,
     failAt (wbsOnly o && !e.wbs) 11, failAt (o == 0x186 && e.out != 0) 11, failAt (!isVector o && e.sat) 10,
     match auxMost o with
     | some n => failAt (decide (n < e.aux)) 8
     | none => none,
     failAt ((o == 0x187 || o == 0x242) && e.aux == 0) 8, failAt ((o == 0x240 || o == 0x241) && e.sel 2 != 17) 11]

/-- R178: element word i of a cell block at an offset. -/
def elemFail (d : List Byte) (off : Nat) (k : CellKind) (c : CellImage) (i : Nat) : Option Nat :=
  let w := off + 32 + 16 * i
  let e := c.elem i
  let g := c.groups.find? (fun g => g.has i)
  firstFail
    [firstNonZero d (w + 4) 4, failAt (!operKnown e.oper) (w + 14), failAt (e.sfmt == 15) (w + 14), failAt (e.dfmt == 15) (w + 13),
     failAt (decide (20 < e.sel 0)) (w + 13), failAt (decide (20 < e.sel 1)) (w + 12), failAt (decide (20 < e.sel 2)) (w + 11),
     failAt (if e.wbs then e.dreg != 0 else decide (7 < e.dreg)) (w + 11), failAt (!operIn e.oper k) (w + 14),
     failAt (!modeAssigned e.oper e.mode) (w + 10),
     (elemField e).map (fun k => w + k),
     failAt (!(if isVector e.oper then vecAdmits e else otherAdmits e)) w,
     match g with
     | none => some w
     | some g => firstFail
        [failAt (soleOnly e.oper && g.count != 1) w,
         failAt ((List.range 3).any (fun j => decide (e.sel j < 4) && !g.imask.getLsbD (e.sel j))) w,
         failAt ((List.range 2).any (fun j => e.out.testBit j && !g.omask.getLsbD j)) w]]

/-- R178, step 2: a cell block. -/
def cellFail (d : List Byte) (off cell : Nat) : Option Nat :=
  let n := imgNat d (off + 16) 1
  let c := decodeCell d off
  firstFail
    [failAt (n == 0 || decide (32 < n)) (off + 16), firstNonZero d (off + 17) 15,
     (List.range 4).findSome? (groupFail d off c), (List.range n).findSome? (elemFail d off (cellKind cell) c),
     firstNonZero d (off + 32 + 16 * n) (512 - 16 * n)]

/-! ## Routes, initial tokens, the graph -/

/-- R176: may an endpoint stand as a source or a destination, its cell being configured? -/
def endOk (cells : List Nat) (dest : Bool) (e : Nat) : Bool :=
  if e < 0x40 then dest && cells.contains (e / 4)
  else if e < 0x60 then !dest && cells.contains ((e - 0x40) / 2)
  else decide (e < 0x78)

/-- R178, step 3: route entry j. A route neither end of which is a cell's is reported at its entry (log 105). -/
def routeFail (d : List Byte) (off : Nat) (cells : List Nat) (j : Nat) : Option Nat :=
  let at' := off + 4 * j
  let src (i : Nat) : Nat := imgNat d (off + 4 * i) 1
  let dst (i : Nat) : Nat := imgNat d (off + 4 * i + 1) 1
  firstFail
    [failAt (!endOk cells false (src j)) at', failAt (!endOk cells true (dst j)) (at' + 1), firstNonZero d (at' + 2) 2,
     failAt (decide (0x60 ≤ src j) && decide (0x60 ≤ dst j)) at',
     failAt ((List.range j).any (fun i => dst i == dst j)) at',
     failAt (decide (8 ≤ ((List.range j).filter (fun i => src i == src j)).length)) at']

/-- R178, step 4: initial-token entry j. -/
def initFail (d : List Byte) (off : Nat) (cells : List Nat) (j : Nat) : Option Nat :=
  let at' := off + 72 * j
  let dst (i : Nat) : Nat := imgNat d (off + 72 * i + 67) 1
  firstFail
    [failAt (decide (3 < imgNat d (at' + 66) 1)) (at' + 66), failAt (decide (0x40 ≤ dst j) || !endOk cells true (dst j)) (at' + 67),
     firstNonZero d (at' + 68) 4, failAt ((List.range j).any (fun i => dst i == dst j)) at']

/-- R177: an initial token. -/
def decodeInit (d : List Byte) (off : Nat) : Nat × Token :=
  (imgNat d (off + 67) 1,
   { kind := [TKind.data, .hdr, .eos, .poison].getD (imgNat d (off + 66) 1) .data,
     lanes := (List.range 16).map (fun k => w32 (imgNat d (off + 4 * k) 4)), mask := BitVec.ofNat 16 (imgNat d (off + 64) 2) })

/-- R172: offset of the i-th configured cell's block. -/
def blockAt (i : Nat) : Nat := 64 + 544 * i

/-- The image that the bytes lay out (R172-R177). -/
def decodeImage (d : List Byte) : Image :=
  let cells := maskCells (imgNat d 2 2)
  let nr := imgNat d 4 1
  let ro := blockAt cells.length
  let io := ro + 8 * ((4 * nr + 7) / 8)
  { cells := (List.range cells.length).map (fun i => (cells.getD i 0, decodeCell d (blockAt i))),
    routes := (List.range nr).map (fun j => { src := imgNat d (ro + 4 * j) 1, dst := imgNat d (ro + 4 * j + 1) 1 }),
    inits := (List.range (imgNat d 5 1)).map (fun j => decodeInit d (io + 72 * j)) }

/-- R178, steps 1 to 4: the first failure's position. -/
def recordFail (d : List Byte) : Option Nat :=
  let cells := maskCells (imgNat d 2 2)
  let nr := imgNat d 4 1
  let ro := blockAt cells.length
  let io := ro + 8 * ((4 * nr + 7) / 8)
  match headerFail d with
  | some p => some p
  | none => firstFail
    [(List.range cells.length).findSome? (fun i => cellFail d (blockAt i) (cells.getD i 0)),
     (List.range nr).findSome? (routeFail d ro cells), firstNonZero d (ro + 4 * nr) (io - (ro + 4 * nr)),
     (List.range (imgNat d 5 1)).findSome? (initFail d io cells)]

/-- R178, step 5: a group's output port from which no route leaves. -/
def noRouteFail (im : Image) : Option Nat :=
  (List.range im.cells.length).findSome? (fun i => match im.cells[i]? with
    | none => none
    | some (c, x) => (List.range 4).findSome? (fun g =>
        let gd := x.groups.getD g {}
        failAt (gd.present && (List.range 2).any (fun k => gd.omask.getLsbD k && !im.routes.any (fun r => r.src == cellOut c k))) (blockAt i + 4 * g)))

/-- R178: cells one route on from a set, over routes whose input port has no initial token. -/
def Image.nextCells (im : Image) (l : List Nat) : List Nat :=
  (im.routes.filter (fun r => decide (0x40 ≤ r.src) && decide (r.src < 0x60) && decide (r.dst < 0x40) && l.contains ((r.src - 0x40) / 2)
    && !im.inits.any (fun t => t.1 == r.dst))).map (fun r => r.dst / 4)

/-- Cells reached from a set in at most n more routes. -/
def Image.reach (im : Image) : Nat → List Nat → List Nat
  | 0, l => l
  | n + 1, l => im.reach n (unionNat l (im.nextCells l)).eraseDups

/-- R178: the lowest cell on a directed cycle that holds no initial token. -/
def Image.bareCycle (im : Image) : Option Nat := (List.range 16).find? (fun c => (im.reach 16 (im.nextCells [c])).contains c)

/-- R178: a load's outcome: an image, or the code and position of the status. -/
inductive ImageCheck
  | ok (im : Image)
  | refused (code pos : Nat)

/-- R178: the loader's checks. -/
def checkImage (d : List Byte) : ImageCheck :=
  match recordFail d with
  | some p => .refused 1 p
  | none =>
    let im := decodeImage d
    match noRouteFail im with
    | some p => .refused 1 p
    | none => match im.bareCycle with
      | some c => .refused 2 c
      | none => .ok im

/-! ## A load (R226, R354) -/

/-- R354: the status word of a load. -/
def loadStatus (code pos : Nat) : Word := w64 (pos * 2 ^ 32 + code)

/-- A load's end: its outcome to the strand that waits on it. -/
def State.loadDone (s : State) (t : Nat) (l : ImageLoad) (w : Word) : State :=
  let s := s.modTile t (fun u => { u with load := none })
  match l.strand with
  | some n => s.modStrand t n (fun st => { st with fcfg := some w })
  | none => s

/-- R178, R226, R354: an image configured: class 22 for each element word, the arcs into cells emptied and its initial tokens
placed, FARG's constants dropped. A token that still waits at an endpoint goes on to the routes the image keeps. -/
def State.configure (s : State) (t : Nat) (im : Image) (strand : Option Nat) : State :=
  let n := im.cells.foldl (fun n p => n + p.2.elems.length) 0
  let f := s.fcOf t
  let kept (src : Nat) (ds : List Nat) : List Nat := ds.filter (fun d => decide (0x80 ≤ d) || im.routes.contains { src, dst := d })
  (s.charge t 22 n strand).modTile t (fun u => ({ u with
    image := some im, fargs := [], primed := true, arcs := u.arcs.filter (fun p => decide (0x40 ≤ p.1)),
    emitting := (u.emitting.map (fun (p : Nat × Emission) => (p.1, { p.2 with left := kept p.1 p.2.left }))).filter (fun p => !p.2.left.isEmpty) } : Tile).placeInits f)

/-- What a read of an image comes to. -/
inductive ImageRead
  | wait (s : State)
  | fault (s : State) (code va : Nat)
  | got (s : State) (c : ImageCheck)

/-- R178: the image at a virtual address read through the tile's translations and checked; its header, read with it, first. -/
def State.readImage (s : State) (t va : Nat) : ImageRead :=
  let ctx := (s.tile t).ctx
  match s.readVa (.loader t) ctx t va 64 (s.super t) with
  | .wait s => .wait s
  | .fault s c _ a => .fault s c a
  | .ok s1 h =>
    match headerFail h with
    | some p => .got s1 (.refused 1 p)
    | none => match s.readVa (.loader t) ctx t va (imgNat h 8 8) (s.super t) with
      | .wait s => .wait s
      | .fault s c _ a => .fault s c a
      | .ok s d => .got s (checkImage d)

/-- R178, R354: FABRIC_IMAGE_LOAD: a strand's load, once no round is in progress. -/
def execFabricImageLoadState (s : State) (t : Nat) : State :=
  let u := s.tile t
  match u.load with
  | none => s
  | some l =>
    let finish (s : State) (im : Image) : State :=
      if (s.tile t).canConfigure im then (s.configure t im l.strand).loadDone t l 0
      else s.modTile t (fun u => { u with load := some { l with next := some im } })
    if u.fstat.run || u.stopping then s
    else match l.next with
    | some im => finish s im
    | none => match s.readImage t l.va with
      | .wait s => s
      | .fault s c a => if c = 0x40 then s else s.loadDone t l (loadStatus 3 (a % 2 ^ 32))
      | .got s (.refused c p) => s.loadDone t l (loadStatus c p)
      | .got s (.ok im) => finish s im

def execFabricImageLoad (t : Nat) : State → Out := engine (fun s => execFabricImageLoadState s t)

end Sys2Proof.Machine
end

