-- ==== Sys2Proof/Machine/Launch.lean ====
section
/-! DEFINITION. Launching a pipeline: descriptors read and checked (R37-R45), queue memory (R287, R289), tiles granted (R116). -/

namespace Sys2Proof.Machine

/-! ## Descriptors (R37, R38, R40) -/

/-- A check of the field at a byte offset: the offset when it fails. -/
def need (ok : Bool) (off : Nat) : Option Nat := if ok then none else some off

/-- R45: a reserved field of n bytes at an offset. -/
def reserved (d : List Byte) (off n : Nat) : Option Nat := need (imgNat d off n == 0) off

/-- R37: the first offending field of a pipeline descriptor. -/
def pipeFail (d : List Byte) : Option Nat :=
  firstFail [need (imgNat d 0 2 == 1) 0, need (decide (1 ≤ imgNat d 2 1) && decide (imgNat d 2 1 ≤ 64)) 2,
    need (decide (1 ≤ imgNat d 3 1) && decide (imgNat d 3 1 ≤ 128)) 3, need (imgNat d 4 4 == 0) 4,
    need (imgNat d 8 8 % 128 == 0) 8, need (imgNat d 16 8 % 64 == 0) 16, reserved d 24 40]

/-- R38: a list of queue numbers: `n` in use, none twice (R43), 0xFF in the rest. -/
def listFail (d : List Byte) (base n q : Nat) : Option Nat :=
  need ((List.range 8).all (fun j =>
    let v := imgNat d (base + j) 1
    if j < n then decide (v < q) && !(List.range j).any (fun i => imgNat d (base + i) 1 == v) else v == 0xFF)) base

/-- R38: the first offending field of stage descriptor i in a pipeline of q queues. -/
def stageFail (d : List Byte) (i q : Nat) : Option Nat :=
  let mn := imgNat d 2 2
  let mx := imgNat d 4 2
  let ni := imgNat d 8 1
  let no := imgNat d 9 1
  let br := imgNat d 10 2
  let ord := imgNat d 6 1 % 2 == 1
  firstFail [need (imgNat d 0 2 == i) 0, need (decide (1 ≤ mn) && decide (mn ≤ 576)) 2,
    need (decide (mn ≤ mx) && decide (mx ≤ 576)) 4, need (decide (imgNat d 6 1 < 4)) 6,
    need (decide (1 ≤ ni) && decide (ni ≤ 8)) 8, need (decide (no ≤ 8)) 9,
    need (if ord then (List.range 9).any (fun k => br == 2 ^ (k + 4)) else br == 0) 10,
    need (imgNat d 16 8 % 2 == 0) 16, need (decide (1 ≤ imgNat d 28 2) && decide (imgNat d 28 2 ≤ 2048)) 28,
    need (imgNat d 30 2 == 0) 30, need (imgNat d 32 8 % 16 == 0) 32, need (imgNat d 40 8 % 64 == 0) 40,
    listFail d 48 ni q, listFail d 56 no q,
    need ((List.range 8).all (fun j => if j < no then imgNat d (64 + j) 1 != 0 else imgNat d (64 + j) 1 == 0)) 64,
    reserved d 72 56]

/-- R40, R41, R45: the first offending field of queue descriptor j, for a partition of n octets, with its status: BADDESC 4, or BADHOME 16
for a home octet or a k that the partition does not have. -/
def queueFail (d : List Byte) (j n : Nat) : Option (Nat × Nat) :=
  let rel := imgNat d 1 1 == 1
  let lg := imgNat d 2 1
  let cap := imgNat d 4 4
  let sp := imgNat d 10 1 % 2 == 1
  let base := imgNat d 24 8
  let size := imgNat d 32 8
  let desc (ok : Bool) (off : Nat) : Option (Nat × Nat) := if ok then none else some (4, off)
  let home (ok : Bool) (off : Nat) : Option (Nat × Nat) := if ok then none else some (16, off)
  [desc (imgNat d 0 1 == j) 0, desc (decide (imgNat d 1 1 ≤ 1)) 1,
    desc (if rel then decide (1 ≤ lg) && decide (lg ≤ 6) else lg == 0) 2, home (!rel || decide (2 ^ lg ≤ 8 * n)) 2,
    desc (decide (1 ≤ cap) && decide (cap ≤ 16384) && (!rel || cap % 2 ^ lg == 0)) 4, home (decide (imgNat d 8 1 < n)) 8,
    desc (decide (imgNat d 9 1 ≤ 7)) 9, desc (decide (imgNat d 10 1 < 4)) 10, desc (imgNat d 11 5 == 0) 11,
    desc (if sp then base % 4096 == 0 else base == 0) 24,
    desc (if sp then size % 4096 == 0 && decide (4096 ≤ size) && decide (size ≤ 2 ^ 40) else size == 0) 32,
    desc (imgNat d 40 24 == 0) 40].findSome? id

/-- R38: a stage descriptor's fields. -/
def decodeStage (d : List Byte) : StageDesc :=
  { minTiles := imgNat d 2 2, maxTiles := imgNat d 4 2, ord := imgNat d 6 1 % 2 == 1, seqin := imgNat d 6 1 / 2 % 2 == 1,
    hyst := if imgNat d 7 1 = 0 then 32 else imgNat d 7 1,
    inputs := (List.range (imgNat d 8 1)).map (fun j => imgNat d (48 + j) 1),
    outputs := (List.range (imgNat d 9 1)).map (fun j => imgNat d (56 + j) 1),
    ratios := (List.range (imgNat d 9 1)).map (fun j => imgNat d (64 + j) 1),
    braidCap := imgNat d 10 2, budget := BitVec.ofNat 32 (imgNat d 12 4), csb := w64 (imgNat d 16 8),
    entry := BitVec.ofNat 32 (imgNat d 24 4), dictN := imgNat d 28 2, dictBase := w64 (imgNat d 32 8),
    image := w64 (imgNat d 40 8) }

/-- R40: a queue descriptor's fields. -/
def decodeQueue (d : List Byte) : QueueDesc :=
  let rel := imgNat d 1 1 == 1
  { relaxed := rel, k := if rel then 2 ^ imgNat d 2 1 else 1, prio := imgNat d 3 1, capacity := imgNat d 4 4,
    homeOctet := imgNat d 8 1, homeBank := imgNat d 9 1, spill := imgNat d 10 1 % 2 == 1, ext := imgNat d 10 1 / 2 % 2 == 1,
    seed := w64 (imgNat d 16 8), spillBase := imgNat d 24 8, spillSize := imgNat d 32 8 }

/-! ## Queue memory (R39, R41, R289) -/

/-- R41: the banks of a partition by octet ordinal and then by bank, each as 64 times its die plus its number. -/
def Partition.banks (p : Partition) : List Nat := p.tiles

/-- R41, R289: bytes a queue takes in each bank. -/
def QueueDesc.parts (q : QueueDesc) (banks : List Nat) : List (Nat × Nat) :=
  (List.range q.k).map (fun j => (banks.getD ((8 * q.homeOctet + q.homeBank + j) % banks.length) 0, q.subCap * 64))

/-- R39, R122: bytes of a stage's resume queue and task table on its lead die. -/
def StageDesc.resumeBytes (d : StageDesc) : Nat := 8 * d.maxTiles * (64 + 32)

/-- R399: the pipelines that hold queue memory, with the lead dies of their partitions. -/
def State.memoryHolders (s : State) : List (Nat × Pipeline) :=
  s.ctxs.flatMap (fun (c : Nat × Context) => if c.2.live then
    (c.2.pipes.filter (fun (p : Nat × Pipeline) => p.2.active && p.2.started && p.2.ending.isNone)).map (fun (p : Nat × Pipeline) =>
      ((s.part c.2.part).lead, p.2)) else [])

/-- Lowest of a list by a measure, the earliest among equals. -/
def lowestBy {α : Type} (f : α → Int) : List α → Option α
  | [] => none
  | a :: r => match lowestBy f r with
    | none => some a
    | some b => if f a ≤ f b then some a else some b

/-- R289: a stretch of a bank's queue memory: bank, offset, length. -/
abbrev Stretch := Nat × Nat × Nat

/-- R289: the queue memory a queue holds. -/
def Queue.stretches (q : Queue) : List Stretch := q.places.map (fun x => (x.1, x.2, q.desc.subCap * 64))

/-- R289: the lowest offset at which n contiguous bytes of a bank are free (log 52). -/
def freeOffset (used : List Stretch) (bank n : Nat) : Option Nat :=
  let mine := used.filter (fun x => x.1 == bank)
  lowestBy (fun (o : Nat) => (o : Int)) ((0 :: mine.map (fun x => x.2.1 + x.2.2)).filter (fun o =>
    decide (o + n ≤ 2 ^ 20) && mine.all (fun x => decide (o + n ≤ x.2.1) || decide (x.2.1 + x.2.2 ≤ o))))

/-- R289: a queue's parts placed one after the other beside what is used, none when one finds no room. -/
def placeParts (used : List Stretch) : List (Nat × Nat) → Option (List Stretch)
  | [] => some []
  | (b, n) :: rest =>
    match freeOffset used b n with
    | none => none
    | some o => (placeParts ((b, o, n) :: used) rest).map (fun l => (b, o, n) :: l)

/-- R289: the queues of a pipeline placed in ascending number; it ends with the first that finds no room. -/
def placeQueues (used : List Stretch) : List (List (Nat × Nat)) → List (List Stretch)
  | [] => []
  | q :: rest =>
    match placeParts used q with
    | none => []
    | some l => l :: placeQueues (l ++ used) rest

/-- R289: queue memory in use. -/
def State.queueMemory (s : State) : List Stretch := s.memoryHolders.flatMap (fun h => h.2.queues.flatMap Queue.stretches)

/-- R41, R289: where the queues of a pipeline to be launched go, as far as there is room. -/
def State.placed (s : State) (p : Partition) (qs : List QueueDesc) : List (List Stretch) :=
  placeQueues s.queueMemory (qs.map (fun q => q.parts p.banks))

/-- Sum of a list of naturals. -/
def sumNat (l : List Nat) : Nat := l.foldl (· + ·) 0

/-- R45 NOQMEM, R287, R289: the descriptor kind, number and offset at which queue memory runs out: a queue's capacity, or for the lead
die's room for resume queues and task tables the max tiles of stage 0 (log 51). -/
def State.qmemFail (s : State) (p : Partition) (gs : List StageDesc) (qs : List QueueDesc) : Option (Nat × Nat × Nat) :=
  let held := s.memoryHolders
  let mine := qs.map (fun q => q.parts p.banks)
  let bytes (l : List (Nat × Nat)) (d : Nat) : Nat := sumNat ((l.filter (fun x => x.1 / 64 == d)).map (fun x => x.2))
  let onDie (d : Nat) : Nat := sumNat (held.map (fun h => bytes (h.2.queues.flatMap (fun q => q.stretches.map (fun x => (x.1, x.2.2)))) d))
    + bytes (mine.flatMap id) d
  let resume (d : Nat) : Nat := sumNat (held.map (fun h => if h.1 = d then sumNat (h.2.stages.map (fun g => g.desc.resumeBytes)) else 0))
    + (if p.lead = d then sumNat (gs.map StageDesc.resumeBytes) else 0)
  let queues (d : Nat) : Nat := (held.flatMap (fun h => h.2.queues.filter (fun q => q.places.any (fun x => x.1 / 64 == d)))).length
    + (mine.filter (fun l => l.any (fun x => x.1 / 64 == d))).length
  let full (d : Nat) : Bool := decide (4096 < queues d) || decide (64 * 2 ^ 20 < onDie d + resume d)
  if full p.lead && decide (queues p.lead ≤ 4096) && (s.placed p qs).length == qs.length then some (1, 0, 4)
  else (List.range qs.length).findSome? (fun j =>
    if (s.placed p qs).length ≤ j ∨ (mine.getD j []).any (fun x => full (x.1 / 64)) then some (2, j, 4) else none)

/-! ## Checks over several descriptors (R43, R45) -/

/-- R43: where the wiring of queue q breaks: the lowest stage that names it, with the offset of its list, else the queue. -/
def wiringFail (gs : List StageDesc) (qs : List QueueDesc) (q : Nat) : Option (Nat × Nat × Nat) :=
  let ins := (List.range gs.length).filter (fun g => (gs.getD g {}).inputs.contains q)
  let outs := (List.range gs.length).filter (fun g => (gs.getD g {}).outputs.contains q)
  let at' (g : Nat) : Nat × Nat × Nat := (1, g, if (gs.getD g {}).inputs.contains q then 48 else 56)
  if 2 ≤ ins.length then some (at' (ins.headD 0))
  else if !(qs.getD q {}).ext && (ins.isEmpty || outs.isEmpty) then
    match (List.range gs.length).find? (fun g => ins.contains g || outs.contains g) with
    | some g => some (at' g)
    | none => some (2, q, 10)
  else none

/-- A refusal of R45: its status code (R86), descriptor kind, number and offset. -/
structure LaunchFail where
  status : Nat
  kind : Nat
  num : Nat
  off : Nat
  deriving DecidableEq, Repr

/-- R45, R85: the fields a refusal adds to its COMPLETION event. -/
def LaunchFail.body (f : LaunchFail) : List Byte := leBytes 4 f.status ++ leBytes 1 f.kind ++ leBytes 1 f.num ++ leBytes 2 f.off

/-- A refusal at a place in the descriptors. -/
def failTriple (status : Nat) (x : Nat × Nat × Nat) : LaunchFail := { status, kind := x.1, num := x.2.1, off := x.2.2 }

/-- R116, R45: tiles held at minimum by the other active pipelines of a context. -/
def Context.heldTiles (c : Context) : Nat :=
  sumNat (c.pipes.map (fun (p : Nat × Pipeline) => if p.2.active && p.2.started && p.2.ending.isNone then
    sumNat (p.2.stages.map (fun g => if g.retired then 0 else g.desc.minTiles)) else 0))

/-- R43, R45: checks that cover several descriptors, in the order of R45's table; NOTILES is reported at the min tiles of stage 0 (log 51). -/
def State.wideFail (s : State) (c : Nat) (gs : List StageDesc) (qs : List QueueDesc) : Option LaunchFail :=
  let p := s.part (s.ctx c).part
  match (List.range qs.length).findSome? (wiringFail gs qs) with
  | some x => some (failTriple 4 x)
  | none =>
    match (List.range gs.length).findSome? (fun g =>
        let d := gs.getD g {}
        (List.range d.outputs.length).findSome? (fun j =>
          if (qs.getD (d.outputs.getD j 0) {}).capacity < d.ratios.getD j 0 then some (1, g, 64) else none)) with
    | some x => some (failTriple 17 x)
    | none => match s.qmemFail p gs qs with
      | some x => some (failTriple 18 x)
      | none => if p.tiles.length - (s.ctx c).heldTiles < sumNat (gs.map (fun d => d.minTiles)) then some (failTriple 19 (1, 0, 2)) else none

/-! ## Reading the descriptors (R44) -/

/-- Bytes of a copy from an offset on. -/
def cut (d : List Byte) (off n : Nat) : List Byte := (d.drop off).take n

/-- R44: the next descriptor to read, after `n` bytes of the copy: kind, number, address, size; none when all are read. -/
def nextDesc (copy : List Byte) (descVa : Nat) : Option (Nat × Nat × Nat × Nat) :=
  if copy.length < 64 then some (0, 0, descVa, 64)
  else
    let ns := imgNat copy 2 1
    let nq := imgNat copy 3 1
    let i := (copy.length - 64) / 128
    if i < ns then some (1, i, (imgNat copy 8 8 + 128 * i) % 2 ^ 64, 128)
    else
      let j := (copy.length - 64 - 128 * ns) / 64
      if j < nq then some (2, j, (imgNat copy 16 8 + 64 * j) % 2 ^ 64, 64) else none

/-- R45: the check of the copy's descriptors one by one, in the order of R44. -/
def copyFail (copy : List Byte) (octets : Nat) : Option LaunchFail :=
  let ns := imgNat copy 2 1
  let nq := imgNat copy 3 1
  match pipeFail (cut copy 0 64) with
  | some o => some { status := 4, kind := 0, num := 0, off := o }
  | none =>
    match (List.range ns).findSome? (fun i => (stageFail (cut copy (64 + 128 * i) 128) i nq).map (fun o => (1, i, o))) with
    | some x => some (failTriple 4 x)
    | none => (List.range nq).findSome? (fun j =>
        (queueFail (cut copy (64 + 128 * ns + 64 * j) 64) j octets).map (fun o => { status := o.1, kind := 2, num := j, off := o.2 }))

/-! ## Tiles (R116, R120) -/

/-- Pending moves out of a stage. -/
def Context.movesOut (c : Context) (slot g : Nat) : Nat := (c.moves.filter (fun m => !m.fromPool && !m.left && m.fromSlot == slot && m.fromStage == g)).length
/-- Pending moves into a stage. -/
def Context.movesIn (c : Context) (slot g : Nat) : Nat := (c.moves.filter (fun m => !m.home && m.slot == slot && m.stage == g)).length

/-- Stages of the started active pipelines that have not retired, by ascending key (R115, R120). -/
def Context.stageKeys (c : Context) : List (Nat × Nat) :=
  c.pipes.flatMap (fun (p : Nat × Pipeline) => if p.2.active && p.2.started && p.2.ending.isNone then
    ((List.range p.2.stages.length).filter (fun g => !(p.2.stage g).retired)).map (fun g => (p.1, g)) else [])

/-- A stage of a context by key. -/
def Context.stageAt (c : Context) (k : Nat × Nat) : Stage := (c.pipe k.1).stage k.2

/-- R120: tiles a stage can still give without going below its min. -/
def Context.spare (c : Context) (k : Nat × Nat) : Bool :=
  decide ((c.stageAt k).desc.minTiles + c.movesOut k.1 k.2 < (c.stageAt k).tiles.length)

/-- R120: the highest-numbered tile of a stage that is in no pending move. -/
def Context.giveTile (c : Context) (k : Nat × Nat) : Option Nat :=
  ((c.stageAt k).tiles.filter (fun t => !c.moves.any (fun m => m.tile == t))).foldl (fun (b : Option Nat) t => match b with
    | none => some t
    | some u => some (max t u)) none

/-- R123: a tile of the pool takes up a stage. -/
def State.moveFromPool (s : State) (c t slot g : Nat) (grant : Bool) : State :=
  let m : Move := { tile := t, slot, stage := g, fromPool := true, grant, interval := (s.ctx c).interval }
  ((s.modPart (s.ctx c).part (fun p => { p with pool := p.pool.filter (· != t) })).modCtx c (fun x => { x with moves := x.moves ++ [m] })).modTile t
    (fun u => { u with stage := some (slot, g), takeUp := .loading 0 })

/-- R123: a tile of a stage is to leave it for another. -/
def State.moveFromStage (s : State) (c t : Nat) (fromKey : Nat × Nat) (slot g : Nat) (grant : Bool) : State :=
  let m : Move := { tile := t, slot, stage := g, fromPool := false, fromSlot := fromKey.1, fromStage := fromKey.2, grant,
                    interval := (s.ctx c).interval }
  (s.modCtx c (fun x => { x with moves := x.moves ++ [m] })).modTile t (fun u => { u with takeUp := .leaving (some (slot, g)) })

/-- R403, R405: a logged move carried out: its tile from the pool or from the donor it names, when it is there. -/
def State.loggedMove (s : State) (c : Nat) (r : Crumb) : Option State :=
  let t := ((s.part (s.ctx c).part).tiles)[r.tile]?
  let dn := r.b % 65536
  let rc := r.b / 65536 % 65536
  match t with
  | none => none
  | some t =>
    if dn = 0xFFFF then
      if (s.part (s.ctx c).part).pool.contains t then some (s.moveFromPool c t (rc / 8192) (rc % 64) (r.sub == 1)) else none
    else
      let k := (dn / 8192, dn % 64)
      if ((s.ctx c).stageAt k).tiles.contains t && !(s.ctx c).moves.any (fun m => m.tile == t) then
        some (s.moveFromStage c t k (rc / 8192) (rc % 64) (r.sub == 1))
      else none

/-- R116, R405: one tile toward a stage's min: the pool's lowest, else reclaimed from another pipeline; under replay the logged
grant. -/
def State.grantTile (s : State) (c slot g : Nat) : State :=
  let x := s.ctx c
  if x.rpl = 2 then
    match s.takeRecord c (fun r => r.kind == 1 && r.sub == 1 && r.b / 65536 % 65536 == stageKey slot g) with
    | none => s
    | some (r, s) => (s.loggedMove c r).getD (s.replayDiv c r)
  else
    match lowestBy (fun (t : Nat) => (t : Int)) (s.part x.part).pool with
    | some t => s.moveFromPool c t slot g true
    | none =>
      match lowestBy (fun k => (x.stageAt k).lastPressure) (x.stageKeys.filter (fun k => k.1 != slot && x.spare k)) with
      | none => s
      | some k => match x.giveTile k with
        | none => s
        | some t => s.moveFromStage c t k slot g true

/-- R116: the stages of a pipeline take their min tiles in ascending stage number. -/
def State.grantMins (s : State) (c slot : Nat) : State :=
  (List.range (s.pipe c slot).stages.length).foldl (fun s g =>
    (List.range ((s.pipe c slot).stage g).desc.minTiles).foldl (fun s _ =>
      let st := (s.pipe c slot).stage g
      if !st.retired && decide (st.tiles.length + (s.ctx c).movesIn slot g < st.desc.minTiles)
      then s.grantTile c slot g else s) s) s

/-! ## LAUNCH_START -/

/-- R97: the end of a pipeline decided: its token's status and what its event adds. -/
def State.decideEnd (s : State) (c slot status : Nat) (body : List Byte) : State :=
  s.modPipe c slot (fun p => if p.ending.isSome then p else { p with ending := some (status, body) })

/-- R387: may the partition scheduler act for a context: does it run, restored and with no stop asked for? -/
def State.schedules (s : State) (c : Nat) : Bool :=
  (s.ctx c).state == .running && (s.ctx c).stopTo.isNone && (s.ctx c).saved.isNone && (s.ctx c).destroying.isNone

/-- R45: every descriptor of a copy checked, and the pipeline refused or started (R116). -/
def State.startPipe (s : State) (c slot : Nat) : State :=
  let copy := (s.pipe c slot).copy
  let ns := imgNat copy 2 1
  let gs := (List.range ns).map (fun i => decodeStage (cut copy (64 + 128 * i) 128))
  let qs := (List.range (imgNat copy 3 1)).map (fun j => decodeQueue (cut copy (64 + 128 * ns + 64 * j) 64))
  match copyFail copy (s.part (s.ctx c).part).octets.length with
  | some f => s.decideEnd c slot 4 f.body
  | none => match s.wideFail c gs qs with
    | some f => s.decideEnd c slot 4 f.body
    | none =>
      let spots := s.placed (s.part (s.ctx c).part) qs
      let queues : List Queue := (List.range qs.length).map (fun j =>
        { desc := qs.getD j {}, places := (spots.getD j []).map (fun x => (x.1, x.2.1)) })
      let s := s.modPipe c slot (fun p => { p with
        started := true, stages := gs.map (fun d => { desc := d }), queues, seqs := [] })
      -- R128: every tile's push cursors for the new queues start
      let s := (s.part (s.ctx c).part).tiles.foldl (fun s t => s.modTile t (fun u => { u with
        cursors := u.cursors.filter (fun (q : Nat × Nat) => q.1 / queueKey 1 0 != slot) })) s
      s.grantMins c slot

/-- R44, R45, R95, R116: LAUNCH_START: the next descriptor of a launch whose start condition is met is read; with the last the
copy is checked. A started pipeline still short of its min tiles is granted more. -/
def execLaunchStart (c slot : Nat) : State → Out := engine (fun s =>
  let p := s.pipe c slot
  if !p.active || p.ending.isSome || !s.schedules c then s
  else if p.started then s.grantMins c slot
  else if !p.ready then s
  else match (if pipeFail (cut p.copy 0 64) = none ∨ p.copy.length < 64 then nextDesc p.copy p.descVa else none) with
    | none => s.startPipe c slot
    | some (kind, num, va, n) =>
      match s.readVa (.scheduler c) c (s.leadTile c) va n false with
      | .wait s => s
      | .fault s _ _ a => s.decideEnd c slot 4 { status := 20, kind, num, off := (max a va - va) / 8 * 8 : LaunchFail }.body
      | .ok s d =>
        let s := s.modPipe c slot (fun p => { p with copy := p.copy ++ d })
        if (nextDesc (s.pipe c slot).copy p.descVa).isNone ∨ (kind = 0 ∧ (pipeFail d).isSome) then s.startPipe c slot else s)

end Sys2Proof.Machine
end

