-- ==== Sys2Proof/Machine/Stages.lean ====
section
/-! DEFINITION. Tiles that leave and take up stages (R123, R125, R155, R156), preloads (R109, R159, R160), TRIG counts (R99, R363),
and the retirement of stages and pipelines (R97, R117, R397-R399). -/

namespace Sys2Proof.Machine

/-! ## Preloads held (R109, R160) -/

/-- R160: is a tile's preload for the stage it takes up or holds? -/
def State.preloadFits (s : State) (t : Nat) : Bool :=
  let u := s.tile t
  match u.preload, u.stage with
  | some p, some (slot, g) => p.ctx == u.ctx && p.slot == slot && p.stage == g && p.serial == (s.pipe u.ctx slot).handle
  | _, _ => false

/-- R109: as a task of the preloaded stage starts, the charge that the preload holds goes to the tile's context. -/
def State.chargeHeld (s : State) (t : Nat) : State :=
  match (if s.preloadFits t then (s.tile t).preload else none) with
  | none => s
  | some p => (s.modTile t (fun u => { u with preload := none })).meterCtx t p.units

/-- R109, R160: every preload that a test picks is discarded, its charge going to the house account. -/
def State.discardPreloads (s : State) (pick : Nat → Preload → Bool) : State :=
  s.tiles.foldl (fun (s : State) (q : Nat × Tile) => match q.2.preload with
    | some p => if pick q.1 p then (s.modTile q.1 (fun u => { u with preload := none })).meterHouse q.1 p.units else s
    | none => s) s

/-! ## Leaving a stage (R123, steps 1 to 4) -/

/-- R123, step 4: what a tile holds set to zero; its last image stays configured (R115, R398). -/
def Tile.zeroed (u : Tile) : Tile :=
  { u with cells := [], sram := [], sramBad := [], cellWrites := [], matrix := [], merge := {}, tableT := [], tableP := [],
           prevP := (0, []), liveBanks := [], status := [], donePast := [], sords := [], fargs := [], fstat := {}, arcs := [],
           emitting := [], eosOut := [], eosIn := [], checkpoint := [], sramPast := [], primed := false }

/-- A list of naturals with one put in, ascending. -/
def insertNat (x : Nat) : List Nat → List Nat
  | [] => [x]
  | a :: r => if x < a then x :: a :: r else if x = a then a :: r else a :: insertNat x r

/-- R403: a completed move's record. -/
def State.recordMove (s : State) (c : Nat) (m : Move) : State :=
  let dn := if m.fromPool then 0xFFFF else stageKey m.fromSlot m.fromStage
  s.record c { kind := 1, sub := m.grant.toNat, tile := s.ordinal c m.tile, a := m.interval, b := dn + 65536 * stageKey m.slot m.stage }

/-- R125, R132: a pending move of a tile ends, with its record; the tile is its donor's no longer. -/
def State.endMoves (s : State) (t : Nat) : State :=
  let c := (s.tile t).ctx
  (((s.ctx c).moves.filter (fun m => m.tile == t)).foldl (fun (s : State) m =>
    (if m.fromPool || m.left then s else s.modStage c m.fromSlot m.fromStage (fun x => { x with tiles := x.tiles.filter (· != t) })).recordMove c m) s).modCtx c
    (fun x => { x with moves := x.moves.filter (fun m => m.tile != t) })

/-- R117, R125: a tile enters the pool, out of every stage's tiles; a pending move that ends there is complete. -/
def State.toPool (s : State) (t : Nat) : State :=
  let u := s.tile t
  let c := u.ctx
  let s := match u.stage with
    | some (slot, g) => s.modStage c slot g (fun x => { x with tiles := x.tiles.filter (· != t) })
    | none => s
  let s := (s.endMoves t).modPart (s.ctx c).part (fun p => { p with pool := insertNat t p.pool })
  s.modTile t (fun u => { u with stage := none, takeUp := .none, dictN := 0, code := [], codeBad := [] })

/-- R123, step 2: has a leaving tile no task? -/
def Tile.taskless (u : Tile) : Bool := (List.range 8).all (fun n => (u.strand n).state == .idle) && u.held.isNone

/-- R123, step 3: has it no round, no firing, no command and no load? -/
def Tile.drained (u : Tile) : Bool :=
  u.taskless && !u.fstat.run && u.cmds.isEmpty && u.load.isNone && u.cells.all (fun (p : Nat × Cell) => p.2.held.isNone)

/-- R123, step 2: records of tasks already suspended go to the resume queue. -/
def State.pushSuspended (s : State) (t : Nat) : State :=
  (List.range 8).foldl (fun s n => match ((s.tile t).strand n).state with
    | .yielded => s.toResume t n
    | .waiting _ => s.toResume t n
    | _ => s) s

/-- R300: a leaving tile leaves every multicast: its undelivered tokens are discarded and its space tokens count as returned. -/
def State.leaveMulticasts (s : State) (t : Nat) : State :=
  s.tiles.foldl (fun (s : State) (u : Nat × Tile) =>
    (u.2.cmds.filter (fun (k : Nat × Cmd) => k.2.members.contains t)).foldl (fun (s : State) (k : Nat × Cmd) => s.dropMember u.1 k.1 t) s) s

/-- R322: the holds of a tile of a context on its slots ended, where the tile stands. -/
def State.dropHolds (s : State) (c t : Nat) : State :=
  ({ s with slots := s.slots.map (fun x => if x.ctx = c ∧ x.holder = some t then { x with holder := none } else x) } : State).modTileOf c t
    (fun u => { u with holds := [] })

/-- R322, R361, R123: holds and memberships ended, a preload that no task took up discarded, and step 4: zeroing, charged as class 33. -/
def State.clearTile (s : State) (t : Nat) : State :=
  let c := (s.tile t).ctx
  let s := (s.dropHolds c t).modCtx c (fun x => x.leaveAll t)
  let s := if s.preloadFits t then s.discardPreloads (fun u _ => u == t) else s
  (s.charge t 33 Config.clearWrites none).modTile t Tile.zeroed

/-- R117: does a tile of a stage that has completed wait for a lower-numbered one of the stage to return to the pool first, or once its
pipeline has retired for any lower-numbered one of the pipeline? -/
def State.returnsLater (s : State) (t : Nat) : Bool :=
  let u := s.tile t
  let moving (v : Nat) : Bool := (s.ctx u.ctx).moves.any (fun m => m.tile == v)
  match u.stage with
  | some (slot, g) =>
    let gone := !((s.pipe u.ctx slot).stage g).tiles.contains t
    !moving t && s.tiles.any (fun (v : Nat × Tile) => decide (v.1 < t) && v.2.ctx == u.ctx && v.2.takeUp == .leaving none && !moving v.1
      && (match v.2.stage with
        | some k => k.1 == slot && (gone || k.2 == g)
        | none => false))
  | none => false

/-- R117, R123, R125: MOVE_TAKEUP: a tile that leaves its stage goes on to the receiver, or to the pool. -/
def execMoveTakeup (t : Nat) : State → Out := engine (fun s =>
  match (s.tile t).takeUp with
  | .leaving dst =>
    if (s.tile t).stopping then s
    else
      let s := s.pushSuspended t
      let s := if (s.tile t).taskless then s.leaveMulticasts t else s
      if !(s.tile t).drained || (dst.isNone && s.returnsLater t) then s
      else
        let s := s.clearTile t
        match dst with
        | none => s.toPool t
        | some k => s.modTile t (fun u => { u with stage := some k, takeUp := .loading 0 })
  | _ => s)

/-! ## Taking up a stage (R123, step 5; R155, R156) -/

/-- A stage's 48-byte entry as a bundle. -/
def bundleOf (d : List Byte) : Bundle := BitVec.ofNat 384 (leNat d)

/-- R120, R123: step 5 has ended: the move is complete, and the tile starts tasks. -/
def State.takenUp (s : State) (t : Nat) : State :=
  let u := s.tile t
  let c := u.ctx
  match u.stage with
  | none => s
  | some (slot, g) =>
    let s := (s.endMoves t).modStage c slot g (fun x => { x with tiles := insertNat t x.tiles })
    s.modTile t (fun u => { u with takeUp := .none, choosing := true, cur := 7, liveBanks := [] })

/-- R155: LOADFAIL: the copy failed; the tile is left unconfigured and the context enters FAULTED. -/
def State.loadFail (s : State) (t va : Nat) : State :=
  let c := (s.tile t).ctx
  (s.modTile t (fun u => { u with code := [], dictN := 0 })).fatal c { cause := 0x48, tile := t, va, trapv := w64 va }

/-- R155: the copy is whole: entries past n cleared, CSB set on every strand, and the image next. -/
def State.dictDone (s : State) (t : Nat) (d : StageDesc) : State :=
  let s := s.modTile t (fun u => { u with
    code := u.code.filter (fun (p : Nat × Bundle) => decide (p.1 < d.dictN)), codeBad := [], dictN := d.dictN, csb := d.csb })
  if d.image = 0 then s.takenUp t else s.modTile t (fun u => { u with takeUp := .imaging })

/-- R123, R155, R178, R226: STAGE_TAKEUP: the next dictionary entry, or the image, of the stage a tile takes up. -/
def execStageTakeup (t : Nat) : State → Out := engine (fun s =>
  let u := s.tile t
  if u.stopping then s
  else match u.takeUp, u.stage with
  | .loading e, some (slot, g) =>
    let d := ((s.pipe u.ctx slot).stage g).desc
    let pre := if s.preloadFits t then (u.preload.map (fun p => p.entries)).getD [] else []
    if e < pre.length then
      let s := s.modTile t (fun u => { u with code := u.code.set e (pre.getD e 0), takeUp := .loading (e + 1) })
      if e + 1 = d.dictN then s.dictDone t d else s
    else match s.readVa (.loader t) u.ctx t ((d.dictBase.toNat + 48 * e) % 2 ^ 64) 48 (s.super t) with
    | .wait s => s
    | .fault s code _ va => if code = 0x40 then s else s.loadFail t va
    | .ok s b =>
      let s := s.modTile t (fun u => { u with code := u.code.set e (bundleOf b), takeUp := .loading (e + 1) })
      if e + 1 = d.dictN then s.dictDone t d else s
  | .imaging, some (slot, g) =>
    let d := ((s.pipe u.ctx slot).stage g).desc
    match s.readImage t d.image.toNat with
    | .wait s => s
    | .fault s code va => if code = 0x40 then s else s.loadFail t va
    | .got s (.refused _ _) => s.takenUp t
    | .got s (.ok im) => (s.configure t im none).takenUp t
  | _, _ => s)

/-! ## TRIG counts (R99, R363) -/

/-- R337, R363: the first TRIG of a context whose stores are performed at package scope and that no earlier one of its strand precedes.
The cell stores of a tile that the context has left since are all performed. -/
def State.nextTrig (s : State) (c : Nat) : List Trig → List (Nat × Nat) → Option Trig
  | [], _ => none
  | q :: rest, seen =>
    if q.waits.all s.seenEverywhere && ((s.tile q.tile).ctx != c || decide (q.cellFc ≤ s.fcOf q.tile)) && !seen.contains (q.tile, q.strand) then some q
    else s.nextTrig c rest ((q.tile, q.strand) :: seen)

/-- R99, R332: a launch that waits for n TRIGs of a pipeline is ready once they are counted, after those TRIGs. -/
def Pipeline.afterTrig (p up : Pipeline) : Pipeline :=
  if p.active && !p.ready && p.ending.isNone && p.trigHandle == up.handle && decide (1 ≤ p.trigN) && decide (p.trigN ≤ up.trigs) then
    { p with ready := true, startPast := (up.trigPasts.take p.trigN).foldl unionNat [] }
  else p

/-- R99: TRIG_COUNT: a TRIG count reaches the scheduler. -/
def execTrigCount (c : Nat) : State → Out := engine (fun s =>
  match s.nextTrig c (s.ctx c).trigQueue [] with
  | none => s
  | some q =>
    let s := s.modCtx c (fun x => { x with trigQueue := x.trigQueue.erase q })
    let s := s.modPipe c q.slot (fun p => { p with trigs := p.trigs + 1, trigPasts := p.trigPasts ++ [q.past] })
    let up := s.pipe c q.slot
    s.modCtx c (fun x => { x with pipes := x.pipes.map (fun (p : Nat × Pipeline) => (p.1, p.2.afterTrig up)) }))

/-! ## Retirement of a stage (R397, R398) -/

/-- R397: may a stage retire? -/
def State.stageDone (s : State) (c slot g : Nat) : Bool :=
  let p := s.pipe c slot
  let x := p.stage g
  !x.retired && x.desc.inputs.all (fun q => p.drained q) && x.resume.isEmpty && x.braid.isEmpty
    && x.tiles.all (fun t => match s.tileOf c t with
      | some u => (List.range 8).all (fun n => (u.strand n).state == .idle) && u.cmds.isEmpty
      | none => true)

/-- R398, step 1: outputs of a stage for which every producer has retired are closed. -/
def Pipeline.closeOutputs (p : Pipeline) (g : Nat) : Pipeline :=
  (p.stage g).desc.outputs.foldl (fun p q =>
    if p.stages.all (fun x => x.retired || !x.desc.outputs.contains q) then { p with queues := modNth p.queues q (fun y => { y with closed := true }) }
    else p) p

/-- R125: a stage retires: a pending move toward it completes into the pool, and one from it still goes to its receiver. -/
def State.divertMoves (s : State) (c slot g : Nat) : State :=
  let homing := (s.ctx c).moves.filter (fun m => m.slot == slot && m.stage == g && !m.home)
  (homing.foldl (fun (s : State) m => s.modTileOf c m.tile (fun u => { u with takeUp := .leaving none })) s).modCtx c (fun x => { x with
    moves := x.moves.map (fun m => { m with home := m.home || (m.slot == slot && m.stage == g),
                                            left := m.left || (!m.fromPool && m.fromSlot == slot && m.fromStage == g) }) })

/-- R117, R398, step 3: the tiles of a stage that are in no pending move leave for the pool. -/
def State.sendTilesHome (s : State) (c slot g : Nat) : State :=
  ((s.pipe c slot).stage g).tiles.foldl (fun s t =>
    if (s.ctx c).moves.any (fun m => m.tile == t) then s else s.modTileOf c t (fun u => { u with takeUp := .leaving none })) s

/-- R397, R399: does a context still live on, in whatever state short of FAULTED, so that its stages and pipelines may retire? -/
def State.mayRetire (s : State) (c : Nat) : Bool := (s.ctx c).live && (s.ctx c).state != .faulted && (s.ctx c).destroying.isNone

/-- R397, R398: STAGE_RETIRE, of a context that runs or does not. -/
def execStageRetire (c slot g : Nat) : State → Out := engine (fun s =>
  let p := s.pipe c slot
  if !s.mayRetire c || !p.active || !p.started || p.ending.isSome || !decide (g < p.stages.length) || !s.stageDone c slot g then s
  else
    let s := s.modStage c slot g (fun x => { x with retired := true })
    let s := s.modPipe c slot (fun p => p.closeOutputs g)
    let s := ((s.pipe c slot).stage g).tiles.foldl (fun s t =>
      (s.dropHolds c t).modCtx c (fun x => x.leaveAll t)) s
    (s.divertMoves c slot g).sendTilesHome c slot g)

/-! ## The end of a pipeline (R97, R99, R399) -/

/-- R399: has every stage retired, and is every EXT queue with no consumer stage empty? -/
def Pipeline.finished (p : Pipeline) : Bool :=
  p.started && p.stages.all (fun x => x.retired)
    && (List.range p.queues.length).all (fun q => (p.consumer q).isSome || ((p.queue q).items == 0 && (p.queue q).spilled == 0))

/-- R97: the completion token. -/
def Pipeline.token (p : Pipeline) (status : Nat) : Word := w64 (p.userTag * 2 ^ 32 + 2 ^ 31 + status * 2 ^ 16 + p.handle)

/-- R99: what a pipeline's end makes of a launch that names it: started after OK, else ended UPSTREAM. -/
def Pipeline.afterEnd (p : Pipeline) (handle status : Nat) : Pipeline :=
  if p.active && !p.ready && !p.started && p.ending.isNone && p.trigHandle == handle then
    (if status = 0 then { p with ready := true } else { p with ending := some (2, []) })
  else p

/-- R95-R99, R399: a pipeline whose token is written: its event, its handle among the outcomes, its slot free, its dependents. -/
def State.endPipe (s : State) (c slot status : Nat) (body : List Byte) : State :=
  let p := s.pipe c slot
  let s := s.discardPreloads (fun _ q => q.ctx == c && q.slot == slot)
  let s := s.modCtx c (fun x => { x with
    outcomes := (x.outcomes ++ [(p.handle, status == 0)]).drop (x.outcomes.length + 1 - 64),
    pipes := (x.pipes.set slot { serial := p.serial }).map (fun (q : Nat × Pipeline) => (q.1, q.2.afterEnd p.handle status)) })
  s.event c 0x4001 c (leBytes 8 (p.token status).toNat ++ body)

/-- R97: are the writes that a pipeline's token follows performed at package scope, and its TRIGs counted? -/
def State.pipeQuiet (s : State) (c slot : Nat) : Bool :=
  (s.pipe c slot).writes.all s.seenEverywhere && !(s.ctx c).trigQueue.any (fun q => q.slot == slot)

/-- R97, R117, R399: PIPELINE_RETIRE: a pipeline that has finished, been refused or lost its trigger has its token written and
its event sent. A token whose page faults for good is not written. -/
def execPipelineRetire (c slot : Nat) : State → Out := engine (fun s =>
  let p := s.pipe c slot
  if !p.active || !s.mayRetire c then s
  else
    let s := if p.ending.isNone && p.finished then s.decideEnd c slot 0 [] else s
    match (s.pipe c slot).ending with
    | none => s
    | some (status, body) =>
      if !s.pipeQuiet c slot then s
      else if p.tokenVa = 0 then s.endPipe c slot status body
      else match s.writeVa (.scheduler c) c (s.leadTile c) p.tokenVa (leBytes 8 (p.token status).toNat) false with
        | .ok s => s.endPipe c slot status body
        | .wait s => s
        | .fault s code _ _ => if code = 0x40 then s else s.endPipe c slot status body)

end Sys2Proof.Machine
end

