-- ==== Sys2Proof/Machine/Proofer.lean ====
section
/-! DEFINITION. The proofer: intervals and samples (R118, R119), and the moves chosen at an interval's end (R120, R132, R405). -/

namespace Sys2Proof.Machine

/-- R119: occupancy of queue q in units of 1/256. -/
def Pipeline.occ (p : Pipeline) (q : Nat) : Nat :=
  let x := p.queue q
  if x.spilled ≠ 0 then 256 else min 256 (256 * (x.items + p.braided q + x.reserved) / x.desc.capacity)

/-- R39, R119: occupancy of a stage's resume queue. -/
def Stage.resumeOcc (g : Stage) : Nat := min 256 (256 * g.resume.length / (8 * g.desc.maxTiles))

/-- The largest of a list of naturals, 0 for none. -/
def maxNat (l : List Nat) : Nat := l.foldl max 0

/-- R119: one sample of a stage. -/
def Pipeline.sampleOf (p : Pipeline) (g : Nat) : Int :=
  let x := p.stage g
  (max (maxNat (x.desc.inputs.map p.occ)) x.resumeOcc : Nat) - (maxNat (x.desc.outputs.map p.occ) : Nat)

/-- R118: fc counted on the LCYC of the partition's lowest-numbered tile since the open interval began. -/
def State.proofCount (s : State) (pt : Nat) : Nat :=
  ((s.tile (s.part pt).firstTile).lcyc + 2 ^ 64 - (s.part pt).opened) % 2 ^ 64

/-- The running context of a partition, when its scheduler may act for it. -/
def State.runs (s : State) (pt : Nat) : Option Nat :=
  match (s.part pt).running with
  | some c => if s.schedules c then some c else none
  | none => none

/-- R119, R132: PROOF_SAMPLE: sample j at (j + 1) I / 16; under replay it counts, and no pressure is computed. -/
def execProofSample (pt : Nat) : State → Out := engine (fun s =>
  match s.runs pt with
  | none => s
  | some c =>
    let p := s.part pt
    if 16 ≤ p.sample ∨ s.proofCount pt < (p.sample + 1) * p.interval / 16 then s
    else
      let s := if (s.ctx c).rpl = 2 then s else (s.ctx c).stageKeys.foldl (fun s k =>
        let v := (s.pipe c k.1).sampleOf k.2
        s.modStage c k.1 k.2 (fun g => { g with pressure := g.pressure + v, samples := g.samples + 1 })) s
      s.modPart pt (fun p => { p with sample := p.sample + 1 }))

/-- R120: the loop's choices: at most n more moves among the eligible stages, by P. That of a stage whose pipeline started within the
interval is the sum of the samples taken since (log 106). -/
def State.proofLoop (s : State) (pt c : Nat) : Nat → List (Nat × Nat) → State
  | 0, _ => s
  | n + 1, eligible =>
    let x := s.ctx c
    let pr (k : Nat × Nat) : Int := (x.stageAt k).pressure
    let can := eligible.filter (fun k => decide ((x.stageAt k).tiles.length < (x.stageAt k).desc.maxTiles) && x.movesIn k.1 k.2 == 0)
    match lowestBy (fun k => -(pr k)) can with
    | none => s
    | some recv =>
      let th : Int := 16 * (x.stageAt recv).desc.hyst
      let pool := lowestBy (fun (t : Nat) => (t : Int)) (s.part pt).pool
      match (if th < pr recv then pool else none) with
      | some t => (s.moveFromPool c t recv.1 recv.2 false).proofLoop pt c n (eligible.filter (· != recv))
      | none =>
        match lowestBy pr (eligible.filter (fun k => k != recv && x.spare k)) with
        | none => s
        | some don =>
          if pr recv - pr don ≤ th then s
          else match x.giveTile don with
            | none => s
            | some t => (s.moveFromStage c t don recv.1 recv.2 false).proofLoop pt c n (eligible.filter (fun k => k != recv && k != don))

/-- R132, R405: under replay the moves logged for the interval, and no others; at most n. -/
def State.proofReplay (s : State) (c : Nat) : Nat → State
  | 0 => s
  | n + 1 =>
    match s.takeRecord c (fun r => r.kind == 1 && r.sub == 0 && r.a == (s.ctx c).interval) with
    | none => s
    | some (r, s') => ((s'.loggedMove c r).getD (s'.replayDiv c r)).proofReplay c n

/-- R107, R405: the next logged factor of a domain whose interval has come. -/
def State.loggedScale (s : State) (c dom : Nat) : Option (BitVec 16 × State) :=
  (s.takeRecord c (fun r => r.kind == 8 && r.sub == dom && decide (r.a ≤ (s.ctx c).interval))).map (fun p => (BitVec.ofNat 16 p.1.b, p.2))

/-- R107, R403: the tile meters of a partition take up their die's factor at an interval boundary, recorded where it changes. -/
def State.takeTileScales (s : State) (pt c : Nat) : State :=
  (List.range 9).foldl (fun s d =>
    let mine := (s.part pt).tiles.filter (fun t => tileDie t == d)
    let f : BitVec 16 := BitVec.ofNat 16 (s.scaleOf (tileDomain d))
    if mine.all (fun t => (s.tile t).scale == f) then s
    else (mine.foldl (fun s t => s.modTile t (fun u => { u with scale := f })) s).record c
      { kind := 8, sub := tileDomain d, a := (s.ctx c).interval, b := f.toNat }) s

/-- R405: under replay the factors that the log gives for the interval now ending, kept for the context. -/
def State.takeLoggedScales (s : State) (c : Nat) : State :=
  if (s.ctx c).rpl = 2 then
    (List.range 39).foldl (fun s dom => match s.loggedScale c dom with
      | some (f, s) => s.modCtx c (fun x => { x with calib := x.calib.set dom f })
      | none => s) s
  else s

/-- R107, R403, R405: the factors taken up at an interval boundary. -/
def State.takeScales (s : State) (pt c : Nat) : State := (s.takeTileScales pt c).takeLoggedScales c

/-- R406: a log that begins says which factors the meters stand at, where they are not 1.0: those of the tiles, which take up their dies'
with the interval that the dispatch opens, and those of the uncore domains (log 107). -/
def State.logScales (s : State) (pt c : Nat) : State :=
  let tiles := (s.part pt).tiles
  let s := tiles.foldl (fun s t => s.modTile t (fun u => { u with scale := BitVec.ofNat 16 (s.scaleOf (tileDomain (tileDie t))) })) s
  (List.range 39).foldl (fun s dom =>
    if s.scaleOf dom = 0x4000 || (decide (dom < 9) && !tiles.any (fun t => tileDie t == dom)) then s
    else s.record c { kind := 8, sub := dom, a := (s.ctx c).interval, b := s.scaleOf dom }) s

/-- R118, R120: PROOF_INTERVAL_END: moves chosen, and the next interval opened. Under replay it waits until the log has been read: the
record of a move of this interval stands where the move was completed (R405). -/
def execProofIntervalEnd (pt : Nat) : State → Out := engine (fun s =>
  match s.runs pt with
  | none => s
  | some c =>
    let p := s.part pt
    if p.sample < 16 || ((s.ctx c).rpl == 2 && decide ((s.ctx c).replayPos < (s.ctx c).crumbCount)) then s
    else
      let s := if (s.ctx c).rpl = 2 then s.proofReplay c 4 else s.proofLoop pt c 4 (s.ctx c).stageKeys
      let s := (s.ctx c).stageKeys.foldl (fun s k => s.modStage c k.1 k.2 (fun g =>
        { g with lastPressure := if g.samples = 16 then g.pressure else g.lastPressure, pressure := 0, samples := 0 })) s
      ((s.takeScales pt c).modCtx c (fun x => { x with interval := (x.interval + 1) % 2 ^ 32 })).modPart pt (fun p =>
        { p with sample := 0, opened := (p.opened + p.interval) % 2 ^ 64 }))

end Sys2Proof.Machine
end

