-- ==== Sys2Proof/Machine/Records.lean ====
section
/-! DEFINITION. The save area (R385, R390, R391): its pages, what stands in each record, and what a debugger's write leaves (R392). The
format of the records apart from the header, the fault record, the page requests, the ECC log, the code store and cell SRAM is not
stated: the model fixes a place for a strand's registers, the matrix planes and accumulators and the island's tables, and every other
byte is a free value of what its record holds (log 108). -/

namespace Sys2Proof.Machine

/-- R390: byte i of a tile's region where the model fixes no format: a free value of what the record holds (log 108). -/
opaque recordByte : Tile → Nat → Byte
/-- R390: byte i of the scheduler state and the membership sets: a free value of what they hold (log 108). -/
opaque ctxByte : Context → Nat → Byte
/-- R392: what a debugger's write of bytes of no fixed format leaves in a tile: a free value of the tile, the byte offset and the bytes
(log 108). -/
opaque dbgTile : Tile → Nat → List Byte → Tile

/-- Bytes that two ranges share. -/
def overlap (a n b m : Nat) : Nat := min (a + n) (b + m) - max a b

/-! ## Pages (R387, R390) -/

/-- R387, R390: the pages of a context's save area that a save writes and a restore reads: the tile they come from, none for the
context's records, and their offset. Banks that are not live are skipped. -/
def savePages (tiles : List (Nat × Tile)) : List (Option Nat × Nat) :=
  (List.range 32).map (fun i => (none, 4096 * i))
    ++ (List.range tiles.length).flatMap (fun i => match tiles[i]? with
      | none => []
      | some (t, u) => ((List.range 288).filter (fun k => k < 64 || 256 ≤ k || u.liveBanks.contains ((k - 64) / 4))).map
          (fun k => (some t, 0x20000 + i * 0x120000 + 4096 * k)))

/-- R390: the header, COMPLETE apart. -/
def State.saveHeader (s : State) (c : Nat) (done : Bool) : List Byte :=
  let x := s.ctx c
  leBytes 2 1 ++ leBytes 2 c ++ leBytes 4 x.generation ++ leBytes 1 (s.part x.part).octets.length ++ leBytes 1 x.stopCause
    ++ leBytes 1 done.toNat ++ List.replicate 53 0

/-- R385, R390: the ECC log's 4 KiB. -/
def Context.eccBytes (c : Context) : List Byte :=
  let l := leBytes 4 c.eccCount ++ List.replicate 60 0 ++ c.eccLog.flatMap id
  l ++ List.replicate (4096 - l.length) 0

/-- R149, R390: the outstanding page requests, 24 KiB. -/
def Context.requestBytes (c : Context) (id : Nat) : List Byte :=
  let l := c.pageReqs.flatMap (pageReqBytes id c.generation)
  l ++ List.replicate (24576 - l.length) 0

/-! ## A strand's registers (log 108) -/

/-- R182, R191: the 304 bytes at the start of a strand's record: x0-x31, PC, TRAPPC, TRAPV, ITEM, ITAG, BUDGET, TASKCHG, FFLAGS, TRAPC,
the handler bit and UFCNT. -/
def Strand.regBytes (st : Strand) : List Byte :=
  (List.range 32).flatMap (fun n => leBytes 8 (if n = 0 then 0 else (st.x.get 0 n).toNat))
    ++ leBytes 4 st.pc.toNat ++ leBytes 4 st.trappc.toNat ++ leBytes 8 st.trapv.toNat ++ leBytes 8 st.item.toNat
    ++ leBytes 4 st.itag.toNat ++ leBytes 4 st.budget.toNat ++ leBytes 8 st.echg ++ leBytes 1 st.fflags.toNat ++ leBytes 1 st.trapc.toNat
    ++ leBytes 1 st.handler.toNat ++ [0] ++ leBytes 4 st.ufcnt

/-- R392: those registers as their bytes give them; what has been fetched ahead is given up. -/
def Strand.putRegs (st : Strand) (b : List Byte) : Strand :=
  { st with
    x := (List.range 31).foldl (fun (m : AMap Word) n => m.set (n + 1) (w64 (field b (8 * (n + 1)) 8))) st.x,
    pc := BitVec.ofNat 32 (field b 256 4), trappc := BitVec.ofNat 32 (field b 260 4), trapv := w64 (field b 264 8),
    item := w64 (field b 272 8), itag := w32 (field b 280 4), budget := w32 (field b 284 4), echg := field b 288 8 % 2 ^ 48,
    fflags := BitVec.ofNat 5 (field b 296 1), trapc := BitVec.ofNat 8 (field b 297 1), handler := field b 298 1 % 2 == 1,
    ufcnt := field b 300 4, prefetch := [], fetched := none }

/-- R182, R293: the 1,024 bytes at 0x200 of a strand's record: p0-p7. -/
def Strand.patBytes (st : Strand) : List Byte := (List.range 8).flatMap (fun n => leBytes 128 (st.p.get 0 n).toNat)

/-- R392: the pattern registers as their bytes give them. -/
def Strand.putPats (st : Strand) (b : List Byte) : Strand :=
  { st with p := (List.range 8).foldl (fun (m : AMap Pattern) n => m.set n (BitVec.ofNat 1024 (field b (128 * n) 128))) st.p }

/-- R395: a strand's registers without what goes on while it is halted: mail, stores on their way, causes that arrive. -/
def Strand.forDebug (st : Strand) : Strand :=
  { x := st.x, s := st.s, p := st.p, pc := st.pc, state := st.state, prio := st.prio, item := st.item, itag := st.itag, entry := st.entry,
    trapc := st.trapc, trapv := st.trapv, trappc := st.trappc, handler := st.handler, budget := st.budget, echg := st.echg,
    fflags := st.fflags, ufcnt := st.ufcnt, halted := st.halted }

/-! ## Words of matrix and island (R270, R282; log 108) -/

/-- Byte i of words kept by number. -/
def laneByte (m : AMap Lane) (i : Nat) : Byte := (AMap.get 0 m (i / 4)).extractLsb' (8 * (i % 4)) 8
/-- Words as their bytes give them. -/
def lanesOf (m : AMap Lane) (n : Nat) (b : List Byte) : AMap Lane := (List.range n).foldl (fun (m : AMap Lane) i => m.set i (w32 (field b (4 * i) 4))) m
/-- A plane as its bytes give it. -/
def planeOf (b : List Byte) : AMap Byte := (List.range 8192).foldl (fun (m : AMap Byte) i => m.set i (b.getD i 0)) []

/-- A place with a fixed format in a tile's region: its offset, its length, its byte i and the tile with other bytes there. -/
structure Place where
  lo : Nat
  len : Nat
  get : Tile → Nat → Byte
  put : Tile → List Byte → Tile

/-- The matrix state of cell c changed. -/
def Tile.modMatrix (u : Tile) (c : Nat) (f : Matrix → Matrix) : Tile := { u with matrix := u.matrix.set c (f (u.matrix.get {} c)) }

/-- R390: the places the model fixes (log 108). -/
def savePlaces : List Place :=
  (List.range 8).flatMap (fun n =>
    [{ lo := 4096 * n, len := 304, get := fun u i => (u.strand n).regBytes.getD i 0, put := fun u b => u.modStrand n (fun st => st.putRegs b) },
     { lo := 4096 * n + 0x200, len := 1024, get := fun u i => (u.strand n).patBytes.getD i 0, put := fun u b => u.modStrand n (fun st => st.putPats b) }])
  ++ [(12, 0x100000), (13, 0x10A000)].flatMap (fun (c : Nat × Nat) =>
    [{ lo := c.2, len := 8192, get := fun u i => (u.matrix.get {} c.1).active.get 0 i,
       put := fun u b => u.modMatrix c.1 (fun m => { m with active := planeOf b, badActive := [] }) },
     { lo := c.2 + 0x2000, len := 8192, get := fun u i => (u.matrix.get {} c.1).shadow.get 0 i,
       put := fun u b => u.modMatrix c.1 (fun m => { m with shadow := planeOf b, badShadow := [] }) },
     { lo := c.2 + 0x4000, len := 16384, get := fun u i => laneByte (u.matrix.get {} c.1).acc i,
       put := fun u b => u.modMatrix c.1 (fun m => { m with acc := lanesOf m.acc 4096 b }) }])
  ++ [{ lo := 0x115000, len := 16384, get := fun u i => laneByte u.tableT i, put := fun u b => { u with tableT := lanesOf u.tableT 4096 b } },
      { lo := 0x119000, len := 1024, get := fun u i => laneByte u.tableP i, put := fun u b => { u with tableP := lanesOf u.tableP 256 b } }]

/-- The place an offset lies in. -/
def placeAt (i : Nat) : Option Place := savePlaces.find? (fun p => decide (p.lo ≤ i) && decide (i < p.lo + p.len))

/-- R390: what the record that byte i of a tile's region lies in holds, the rest of the tile left out. -/
def Tile.recordOf (u : Tile) (i : Nat) : Tile :=
  if i < 0x8000 then { strands := [(i / 4096, u.strand (i / 4096))] }
  else if i < 0x10000 then
    { image := u.image, fargs := u.fargs, fstat := u.fstat, cells := u.cells, checkpoint := u.checkpoint, roundTag := u.roundTag }
  else if i < 0x28000 then { cmds := u.cmds, status := u.status, sords := u.sords, mcast := u.mcast }
  else if i < 0x114000 then { matrix := u.matrix }
  else if i < 0x115000 then { merge := u.merge }
  else if i < 0x11A000 then {}
  else { holds := u.holds, cursors := u.cursors, liveBanks := u.liveBanks, takeUp := u.takeUp, freeze := u.freeze }

/-- R390: byte i of a tile's region. -/
def Tile.saveByte (u : Tile) (i : Nat) : Byte :=
  if 0x28000 ≤ i ∧ i < 0x40000 then (u.code.get 0 ((i - 0x28000) / 48)).extractLsb' (8 * ((i - 0x28000) % 48)) 8
  else if 0x40000 ≤ i ∧ i < 0x100000 then u.sram.get 0 (i - 0x40000)
  else match placeAt i with
    | some p => p.get u (i - p.lo)
    | none => recordByte (u.recordOf i) i

/-- R390: a page of the save area: the header, the fault record, the ECC log, the page requests, or a page of a tile's region. -/
def State.savePage (s : State) (c : Nat) (who : Option Nat) (off : Nat) : List Byte :=
  let x := s.ctx c
  match who with
  | some t =>
    let at' := (off - 0x20000) % 0x120000
    (List.range 4096).map (fun n => (s.tile t).saveByte (at' + n))
  | none =>
    if off = 0 then
      let l := s.saveHeader c false ++ (match x.fault with | some r => State.faultBody r | none => List.replicate 64 0)
      l ++ (List.range (4096 - 128)).map (fun n => ctxByte { pipes := x.pipes, outcomes := x.outcomes, interval := x.interval, moves := x.moves } (128 + n))
    else if off = 0x1000 then x.eccBytes
    else if off < 0x8000 then cut (x.requestBytes c) (off - 0x2000) 4096
    else (List.range 4096).map (fun n => ctxByte { sets := x.sets } (off + n))

/-! ## A debugger's write (R392) -/

/-- R390, R392: one byte written to the code store or to cell SRAM. -/
def Tile.dbgPut (u : Tile) (i : Nat) (b : Byte) : Tile :=
  if 0x28000 ≤ i ∧ i < 0x40000 then
    let k := i - 0x28000
    let old := u.code.get 0 (k / 48)
    let m : Bundle := (0xFF#384) <<< (8 * (k % 48))
    { u with code := u.code.set (k / 48) ((old &&& ~~~m) ||| ((b.setWidth 384) <<< (8 * (k % 48)))) }
  else { u with sram := u.sram.set (i - 0x40000) b, cellWrites := u.cellWrites.filter (fun w => w.addr != i - 0x40000), liveBanks := unionNat [(i - 0x40000) / 16384] u.liveBanks }

/-- Does an offset lie in the code store or in cell SRAM? -/
def plainByte (i : Nat) : Bool := decide (0x28000 ≤ i) && decide (i < 0x100000)

/-- R392: bytes written to a place with a fixed format. -/
def Place.write (p : Place) (u : Tile) (o : Nat) (data : List Byte) : Tile :=
  if overlap o data.length p.lo p.len = 0 then u
  else p.put u ((List.range p.len).map (fun i =>
    if o ≤ p.lo + i ∧ p.lo + i < o + data.length then data.getD (p.lo + i - o) 0 else p.get u i))

/-- R392: what a tile's record takes from another tile, the places of fixed format kept. -/
def Tile.takeRecord (u v : Tile) (i : Nat) : Tile :=
  let keep (w : Tile) : Tile := savePlaces.foldl (fun w p => if p.lo / 4096 = i / 4096 ∨ (0x100000 ≤ i ∧ 0x100000 ≤ p.lo) then p.put w ((List.range p.len).map (p.get u)) else w) w
  if i < 0x8000 then
    let n := i / 4096
    let st := u.strand n
    keep { u with strands := u.strands.set n { v.strand n with
      halted := st.halted, stepOnce := st.stepOnce, byBrk := st.byBrk, part := st.part, stores := st.stores, past := st.past,
      cellPast := st.cellPast, clsPast := st.clsPast, swPast := st.swPast, sbars := st.sbars, sent := st.sent, granted := st.granted,
      grantSub := st.grantSub } }
  else if i < 0x10000 then
    { u with fargs := v.fargs, fstat := { v.fstat with run := u.fstat.run }, cells := v.cells, checkpoint := v.checkpoint, roundTag := v.roundTag }
  else if i < 0x28000 then { u with cmds := v.cmds, status := v.status, sords := v.sords }
  else if i < 0x114000 then keep { u with matrix := v.matrix }
  else if i < 0x115000 then { u with merge := v.merge }
  else if i < 0x11A000 then u
  else { u with holds := v.holds, cursors := v.cursors, liveBanks := v.liveBanks }

/-- R390: a byte of a record, one in each of a tile's records. -/
def recordStarts : List Nat := (List.range 8).map (fun n => 4096 * n) ++ [0x8000, 0x10000, 0x100000, 0x114000, 0x11A000]

/-- R390: the bytes of the record that starts at an offset. -/
def recordLen (i : Nat) : Nat :=
  if i < 0x8000 then 4096 else if i < 0x10000 then 0x8000 else if i < 0x28000 then 0x18000 else if i < 0x114000 then 0x14000
  else if i < 0x115000 then 4096 else 0x6000

/-- R392: bytes written to a tile's region: those of fixed format as they are written, a record with another byte written free. -/
def Tile.dbgWrite (u : Tile) (o : Nat) (data : List Byte) : Tile :=
  let free (i : Nat) : Bool := !plainByte i && (placeAt i).isNone
  let hit (r : Nat) : Bool := (List.range data.length).any (fun i => free (o + i) && decide (r ≤ o + i) && decide (o + i < r + recordLen r))
  let v := dbgTile u o data
  let u := (recordStarts.filter hit).foldl (fun w r => w.takeRecord v r) u
  let u := savePlaces.foldl (fun u p => p.write u o data) u
  (List.range data.length).foldl (fun u i => if plainByte (o + i) then u.dbgPut (o + i) (data.getD i 0) else u) u

end Sys2Proof.Machine
end

