-- ==== Sys2Proof/Machine/Sched.lean ====
section
/-! DEFINITION. The partition scheduler: slices and dispatch (R91, R92, R115), the stop sequence (R386, R387), saving and restoring
(R388-R391), and the end of a destroyed context (R400). -/

namespace Sys2Proof.Machine

/-! ## Runnable contexts (R91, R92) -/

/-- R91: has a context an active pipeline whose start condition is met? -/
def Context.hasWork (c : Context) : Bool := c.pipes.any (fun (p : Nat × Pipeline) => p.2.active && (p.2.ready || p.2.started))

/-- R26, R91: is a context runnable? -/
def State.runnable (s : State) (c : Nat) : Bool :=
  let x := s.ctx c
  x.live && x.state == .ready && x.hasWork && decide (0 < x.balance) && x.destroying.isNone && !s.pkg.tripped

/-- R90: the contexts resident in a partition, ascending. -/
def State.residents (s : State) (pt : Nat) : List Nat :=
  (s.ctxs.filter (fun (p : Nat × Context) => p.1 != 0 && p.2.live && p.2.part == pt)).map (fun (p : Nat × Context) => p.1)

/-- R92: the next runnable context in ascending id after the last, wrapping. -/
def State.nextRunnable (s : State) (pt : Nat) : Option Nat :=
  let l := (s.residents pt).filter s.runnable
  match l.find? (fun c => decide ((s.part pt).last < c)) with
  | some c => some c
  | none => l.head?

/-- R92, R405: SLICE_END: the running context is pre-empted when another is runnable; else a fresh slice. Under replay slices end
at STOP records only. -/
def execSliceEnd (pt : Nat) : State → Out := engine (fun s =>
  match s.runs pt with
  | none => s
  | some c =>
    if (s.ctx c).rpl = 2 || !(s.residents pt).any (fun d => d != c && s.runnable d) then s else s.askStop c .ready 0)

/-! ## Preloads (R159) -/

/-- R159: the stage a tile is known to serve next, with its context: the receiver of its pending move, or what it holds, or moves to,
in the context that the scheduler has chosen to dispatch next. -/
def State.nextStage (s : State) (t : Nat) : Option (Nat × Nat × Nat) :=
  let goal (c : Nat) (u : Tile) : Option (Nat × Nat × Nat) := match u.takeUp with
    | .leaving (some (slot, g)) => some (c, slot, g)
    | _ => u.stage.map (fun k => (c, k.1, k.2))
  let u := s.tile t
  match u.takeUp with
  | .leaving (some (slot, g)) => some (u.ctx, slot, g)
  | _ =>
    match s.nextRunnable (s.ctx u.ctx).part with
    | some c => if c = u.ctx ∨ u.ctx = 0 then none
        else ((s.ctx c).saved.bind (fun m => (m.find? (fun (q : Nat × Tile) => q.1 == t)).bind (fun q => goal c q.2)))
    | none => none

/-- R109, R159: PRELOAD: up to 256 dictionary entries and the first cell block of the image of a tile's next stage. -/
def execPreload (t : Nat) : State → Out := engine (fun s =>
  match s.nextStage t with
  | none => s
  | some (c, slot, g) =>
    if (s.tile t).preload.isSome then s
    else
      let p := s.pipe c slot
      let d := (p.stage g).desc
      let n := min 256 d.dictN
      match s.readVa (.loader t) c t d.dictBase.toNat (48 * n) false with
      | .wait s => s
      | .fault s _ _ _ => s
      | .ok s b =>
        let (s, bank) := if d.image = 0 then (s, []) else match s.readVa (.loader t) c t (d.image.toNat + 64) 544 false with
          | .ok s k => (s, k)
          | .wait s => (s, [])
          | .fault s _ _ _ => (s, [])
        let units := tileCoef.getD 55 0 * n + tileCoef.getD 33 0 * ((bank.length + 63) / 64)
        let k : Preload := { ctx := c, slot, stage := g, serial := p.handle,
                             entries := (List.range n).map (fun i => bundleOf (cut b (48 * i) 48)), bank, units }
        s.modTile t (fun u => { u with preload := some k }))

/-! ## Tiles at dispatch and at a stop -/

/-- R115: a tile cleared, its counter, its translations and its meter kept; context c holds it. -/
def Tile.cleared (u : Tile) (c : Nat) : Tile :=
  { ctx := c, lcyc := u.lcyc, issued := u.issued, granted := u.granted, active := u.active, utlb := u.utlb, windows := u.windows,
    winRR := u.winRR, residue := u.residue, houseResidue := u.houseResidue, scale := u.scale, preload := u.preload }

/-- Tiles of a partition on which a context runs. -/
def State.tilesOf (s : State) (c : Nat) : List Nat := (s.part (s.ctx c).part).tiles.filter (fun t => (s.tile t).ctx == c)

/-- R103, R387: a context leaves its tiles; they are saved and stand idle. -/
def State.leaveTiles (s : State) (c : Nat) (keep : Bool) : State :=
  let l := s.tilesOf c
  let saved := l.map (fun t => (t, s.tile t))
  let s := l.foldl (fun s t => (s.leaveResidue t).modTile t (fun u => u.cleared 0)) s
  let s := s.modCtx c (fun x => { x with saved := if keep then some (x.saved.getD saved) else none })
  s.modPart (s.ctx c).part (fun p => { p with running := none, pool := [] })

/-! ## The stop sequence, steps 1 to 4 (R387) -/

/-- R328, R330, R387: a command at its element boundary: reads not yet delivered are made again after restore; the block of a cell
pattern read last is remembered, so that the repeat charges its uncore events alone. -/
def Cmd.atBoundary (c : Cmd) : Cmd :=
  let again := c.isLoad || (match c.kind with | .scpy _ => true | _ => false)
  let cells := match c.kind with
    | .scpy _ => Pattern.space c.pat2 == 1
    | _ => Pattern.space c.pat == 1
  if again then
    { c with lastBlock := if cells then c.lastBlock else none, flight := c.flight.map (fun (f : Flight) => if f.req = 0 then f else { f with req := 0, val := none, past := [] }) }
  else c

/-- R387, steps 3 and 4: tokens on arcs go to the checkpoint buffer, commands stop, fetched bundles are given up. -/
def Tile.checkpointed (u : Tile) : Tile :=
  { u with
    checkpoint := u.arcs, arcs := [],
    cmds := u.cmds.map (fun (p : Nat × Cmd) => (p.1, p.2.atBoundary)),
    strands := u.strands.map (fun (p : Nat × Strand) => (p.1, { p.2 with fetched := none, prefetch := [] })) }

/-- R388, steps 2 to 5: what a saved tile holds put back on the physical tile. -/
def Tile.restored (saved u : Tile) : Tile :=
  { saved with
    arcs := saved.checkpoint, checkpoint := [], lcyc := u.lcyc, issued := u.issued, granted := u.granted, active := u.active,
    utlb := u.utlb, windows := u.windows, winRR := u.winRR, residue := u.residue, houseResidue := u.houseResidue, scale := u.scale,
    preload := u.preload, emtr := u.emtr, stopping := false }

/-- Does a node's request come from one of some tiles? -/
def MemReq.ofTiles (r : MemReq) (l : List Nat) : Bool :=
  match r.src with
  | .core t .. | .store t _ | .elem t _ _ => l.contains t
  | .device | .host .. | .ingress .. => false

/-- R387: has a command something under way that ends by itself: an access, a walk, a write that is not performed at its scope? -/
def State.cmdMoving (s : State) (t id : Nat) (c : Cmd) : Bool :=
  s.accessOpen t id || !c.writes.all (fun w => s.seenEverywhere w.1) || !c.afterStores.isEmpty
    || (s.tile t).cellWrites.any (fun w => w.rank == 16 + id && decide (s.fcOf t < w.fc + 4))
    || (s.die (tileDie t)).misses.any (fun m => m.who == .command t id && m.stand == .walk)

/-- R147, R149: does a command wait on a page of the host, or on a leaf that the host migrates? -/
def State.cmdPaged (s : State) (t id : Nat) : Bool :=
  (s.die (tileDie t)).misses.any (fun m => m.who == .command t id && (match m.stand with
    | .migrate | .needPage | .page _ | .held => true
    | _ => false))

/-- R303, R387: does a command of a stopping tile wait for what no stopped tile can give it: a page, a token, a place for its own tokens,
a port or a tag, a multicast's members, an earlier command, a debugger? Whether the earlier command waits so too is asked of that one. -/
def State.cmdStuck (s : State) (t id : Nat) (c : Cmd) : Bool :=
  let u := s.tile t
  u.engineOff || s.cmdPaged t id || (!s.cmdMoving t id c
    && (!c.after.isEmpty || !c.barred.isEmpty || !c.out.isEmpty || u.hungry c || !s.atFrontier c
      || u.emitting.any (fun p => p.2.owner == c.order)
      || c.members.any (fun m => c.delivered.get 0 m != c.sent.length)
      || c.dataPort.any (fun p => !u.portTurnAt c.order p) || c.indexPort.any (fun p => !u.portTurnAt c.order p)
      || (match c.kind with
        | .sqin _ => true
        | .sqout q => decide ((s.pipe c.ctx c.slot).free q = 0)
        | _ => false)
      || (match c.nextElem with
        | .elem (.at a) => s.linkHolds t c c.pat (c.fillsCells || c.isStore) (a / 8)
        | _ => false)))

/-- R260, R387: have the firings on some tiles run to their last elements? One that a watermark holds runs on as its words are filled; it is
saved where it stands only when no command of the tiles can go on (log 60). -/
def State.firingsOver (s : State) (l : List Nat) : Bool :=
  l.all (fun t => (s.tile t).cells.all (fun (p : Nat × Cell) => p.2.held.isNone))
    || (l.all s.firingsHeld && l.all (fun t => (s.tile t).cmds.all (fun (k : Nat × Cmd) => s.cmdStuck t k.1 k.2)))

/-- R387, step 4: have the stores that tiles sent to memory nodes completed there, and the answers of their read-modify-writes
come back? Contributions held for their tag, and what is linked behind them, are not waited for (R328). -/
def State.nodesQuiet (s : State) (l : List Nat) : Bool :=
  s.dies.all (fun (d : Nat × Die) => d.2.nodes.all (fun (q : Nat × List MemReq) => q.2.all (fun r =>
      !r.ofTiles l || s.waitsForTag r || s.waitsForLink d.1 q.1 r)))
    && s.resps.all (fun (r : Nat × MemResp) => !(l.contains r.1 && r.2.rmw) || s.respReady r.1 r.2)

/-- R328: an element applied is applied once: the answers that returning reductions still wait for are taken. -/
def State.takeOwed (s : State) (l : List Nat) : State :=
  (s.resps.filter (fun (r : Nat × MemResp) => l.contains r.1 && r.2.rmw)).foldl (fun (s : State) (r : Nat × MemResp) => match r.2.src with
    | .elem t id _ => s.giveAnswer t id r.2
    | _ => s) s

/-- R328: contributions waiting at memory nodes withdrawn, with the answers that no bundle waits for; reads are made again. -/
def State.withdraw (s : State) (c : Nat) (l : List Nat) : State :=
  let s := s.takeOwed l
  let mine := s.dies.flatMap (fun (d : Nat × Die) => d.2.nodes.flatMap (fun (q : Nat × List MemReq) => q.2.filter (fun r => r.ofTiles l)))
  { s with
    dies := s.dies.map (fun (d : Nat × Die) => (d.1, { d.2 with
      nodes := d.2.nodes.map (fun (q : Nat × List MemReq) => (q.1, q.2.filter (fun r => !r.ofTiles l))) })),
    resps := s.resps.filter (fun (r : Nat × MemResp) => !l.contains r.1) }.modCtx c (fun x => { x with
      withdrawn := mine.filter (fun (r : MemReq) => !r.reads) ++ x.withdrawn })

/-- R127: pop requests of a context's tiles leave the dividers; their bundles and commands ask again. -/
def State.withdrawAsks (s : State) (c : Nat) : State :=
  s.modCtx c (fun x => { x with pipes := x.pipes.map (fun (p : Nat × Pipeline) =>
    (p.1, { p.2 with queues := p.2.queues.map (fun q => { q with waiting := [] }) })) })

/-- R403: a STOP record for each tile of the partition, for the causes that have a sub-field. -/
def State.recordStop (s : State) (c : Nat) : State :=
  if 4 ≤ (s.ctx c).stopCause then s
  else (s.part (s.ctx c).part).tiles.foldl (fun s t =>
    s.record c { kind := 7, sub := (s.ctx c).stopCause, tile := s.ordinal c t, b := ((s.tileOf c t).map (fun u => u.steps)).getD 0 }) s

/-- R150, R151: a command of a context off its tiles ends as FAULT where it stands: its status says so, and its tokens, with the POISON
and EOS that follow, stand in the checkpoint buffer at the arcs they go to, on every member's tile for a multicast. -/
def State.faultOut (s : State) (c t i : Nat) : State :=
  match (s.tileOf c t).bind (fun u => u.cmd i) with
  | none => s
  | some k =>
    let k := if k.stopped then k else k.stop 8 false
    let put (u : Tile) (p : Nat) (l : List Token) : Tile := { u with
      checkpoint := u.checkpoint ++ (u.dests (spEnd p)).flatMap (fun d => l.map (fun x => (d, x))) }
    let s := s.modTileOf c t (fun u => { u with
      cmds := u.cmds.filter (fun (q : Nat × Cmd) => q.1 != i),
      status := u.status.set i { u.status.get {} i with code := 8, state := 2 } })
    let out := k.out.map (fun x => x.1)
    if k.members.isEmpty then (match k.outPort with
      | some p => s.modTileOf c t (fun u => put u p out)
      | none => s)
    else k.members.foldl (fun s m => s.modTileOf c m (fun u => match u.mcast.find? (fun x => x.src == t && x.id == i) with
      | some x => { put u x.port (x.toks ++ out) with mcast := u.mcast.filter (fun y => !(y.src == t && y.id == i)) }
      | none => u)) s

/-- R150: the commands of a stopped context that a failed page has ended. -/
def State.faultOuts (s : State) (c : Nat) (l : List Nat) : State :=
  l.foldl (fun s t => ((s.tile t).cmds.filter (fun (k : Nat × Cmd) => k.2.ending == some 8 || (k.2.ending.isNone && k.2.fault == some 8))).foldl
    (fun (s : State) (k : Nat × Cmd) => s.faultOut c t k.1) s) s

/-- R160: a pre-emption discards every preload on the context's tiles but those for the incoming context. -/
def State.dropPreloads (s : State) (c : Nat) : State :=
  let next := s.nextRunnable (s.ctx c).part
  s.discardPreloads (fun t q => (s.tilesOf c).contains t && next != some q.ctx)

/-- R387, steps 1 to 4: cores and engines stop; when they have, tokens and iterators are recorded. -/
def State.stopSteps (s : State) (c : Nat) : State :=
  let l := s.tilesOf c
  let s := l.foldl (fun s t => s.modTile t (fun u => { u with stopping := true })) s
  if !l.all (fun t => (s.tile t).held.isNone) || !s.firingsOver l || !s.nodesQuiet l then s
  else
    let s := ((s.withdraw c l).withdrawAsks c).recordStop c
    let s := (l.foldl (fun s t => s.modTile t Tile.checkpointed) s).faultOuts c l
    (s.dropPreloads c).modCtx c (fun x => { x with stopped := true, saveAt := 0 })

/-! ## Destroying a context (R400) -/

/-- R97, R400: writes that the tokens of a destroyed context's pipelines follow. -/
def State.ctxWrites (s : State) (c : Nat) : List Nat :=
  let tiles : List Tile := (s.tilesOf c).map s.tile ++ (((s.ctx c).saved.getD []).map (fun (p : Nat × Tile) => p.2))
  ((s.ctx c).pipes.flatMap (fun (p : Nat × Pipeline) => p.2.writes))
    ++ tiles.flatMap (fun u =>
      u.strands.flatMap (fun (p : Nat × Strand) => (p.2.stores.filter (fun w => w.2 != 3)).map (fun w => w.1))
        ++ u.cmds.flatMap (fun (p : Nat × Cmd) => p.2.writes.map (fun w => w.1)))

/-- R400, R429: the translation of a completion token's page as a context ends: what the lead die's TLB holds, else a walk's leaf
with its right to write, which is filled; a walk that finds none asks no page. It waits where M = 1 (R147), and walks again where the
entry has changed under it (R140). -/
def State.killXlate (s : State) (c va : Nat) : Xl :=
  let d := (s.part (s.ctx c).part).lead
  match s.tlbLookup (.scheduler c) c va .write with
  | (s, some e) => s.use c d va e .write false false
  | (s, none) =>
    let s := s.uncore d c .walk (walkSteps s c va) (uncoreDomain d)
    match s.walk c va with
    | .leaf level addr e =>
      if pteM e then .wait s
      else match s.fillFrom c va .write level addr e with
        | some (s, t) => (s.fillDie d t).use c d va t .write false false
        | none => .wait s
    | .noLeaf | .bad => .fault s 0x11 0

/-- R400, step 2: a pipeline of an ending context: its token written where its page has a valid leaf that admits it, and its event
sent. -/
def State.killToken (s : State) (c slot status : Nat) : State :=
  let p := s.pipe c slot
  let gone (s : State) : State := (s.modPipe c slot (fun p => { p with active := false })).event c 0x4001 c (leBytes 8 (p.token status).toNat)
  if p.tokenVa = 0 then gone s
  else match s.killXlate c p.tokenVa with
    | .wait s => s
    | .fault s _ _ => gone s
    | .ok s' pa rep =>
      let d := (s.part (s.ctx c).part).lead
      if 8 ≤ pa / 2 ^ 48 % 16 then gone s'
      -- R288: behind what stands at the node
      else if s.nodeBusy pa 8 true then s
      else gone (((s'.nodePath c (s.leadTile c) pa 8).nodeEvent d c pa true false).devLine d c pa (leBytes 8 (p.token status).toNat) rep)

/-- R143, R400, step 4: a context's translations removed package-wide. -/
def State.forget (s : State) (c : Nat) : State :=
  let keep (l : List TlbEntry) : List TlbEntry := l.filter (fun e => e.ctx != c)
  { s with
    dies := s.dies.map (fun (d : Nat × Die) => (d.1, { d.2 with
      tlb := d.2.tlb.map (fun (q : Nat × List TlbEntry) => (q.1, keep q.2)), misses := d.2.misses.filter (fun m => m.ctx != c) })),
    tiles := s.tiles.map (fun (p : Nat × Tile) => (p.1, { p.2 with
      utlb := keep p.2.utlb, windows := p.2.windows.map (fun (q : Nat × List TlbEntry) => (q.1, keep q.2)) })),
    slots := s.slots.filter (fun x => x.ctx != c), invals := s.invals.filter (fun v => v.ctx != c) }

/-- R400: steps 3 to 6 of a destruction, once every token is written: the final balance is the home unit's with the charges that have
reached it, the residues of tiles on its die among them (log 66). -/
def State.finishDestroy (s : State) (c rid : Nat) : State :=
  let x := s.ctx c
  let s := if x.state = .running then s.leaveTiles c false else s
  let s := s.applyArrivals (s.homeDie c)
  let s := (s.discardPreloads (fun _ q => q.ctx == c)).forget c
  let body := leBytes 8 0 ++ balanceBody (s.ctx c).balance ++ leBytes 8 x.crumbCount
  (s.modCtx c (fun x => { generation := x.generation, part := x.part })).send 0 0x8004 rid body

/-- R328, R400: contributions withdrawn at a stop are never sent again. -/
def State.dropWithdrawn (s : State) (c : Nat) : State :=
  ((s.ctx c).withdrawn.foldl (fun s r => s.dropWrite r.id) s).modCtx c (fun x => { x with withdrawn := [] })

/-- R400: a destruction goes on: steps 1 to 4 of the stop sequence for a running context, its pipelines' tokens once its writes are
performed, then its end. -/
def State.goDestroy (s : State) (c rid : Nat) : State :=
  let s := if (s.ctx c).state == .running && !(s.ctx c).stopped then s.stopSteps c else s
  if (s.ctx c).state == .running && !(s.ctx c).stopped then s
  else
    let s := s.dropWithdrawn c
    if !(s.ctxWrites c).all s.seenEverywhere then s
    else
    let status := if (s.ctx c).state = .faulted then 1 else 3
    let s := ((s.ctx c).pipes.filter (fun (p : Nat × Pipeline) => p.2.active)).foldl (fun (s : State) (p : Nat × Pipeline) => s.killToken c p.1 status) s
    if (s.ctx c).pipes.any (fun (p : Nat × Pipeline) => p.2.active) then s else s.finishDestroy c rid

/-! ## Saving (R387 step 5, R389-R391) -/

/-- R429: who translates a page of the save area, and from where it travels. -/
def State.saver (s : State) (c : Nat) (t : Option Nat) : Requester × Nat :=
  match t with
  | some t => (.saver t, t)
  | none => (.scheduler c, s.leadTile c)

/-- R386, R391, R111: the state a context enters when its save ends, with its events. -/
def State.enterStopped (s : State) (c : Nat) : State :=
  let next := ((s.ctx c).stopTo).getD .ready
  let s := (s.leaveTiles c true).modCtx c (fun x => { x with state := next, stopTo := none, stopped := false, saveAt := 0 })
  match next with
  -- R391: the record as it stands now, whatever page has been written before
  | .faulted => (s.modCtx c (fun x => { x with recordDue := true })).sendFault c ((s.ctx c).fault.getD {})
  | .guttered => s.event c 0x4003 c (balanceBody (s.ctx c).balance)
  | _ => s

/-- R386, R387, R400: STOP_SEQUENCE. A restore that a stop meets is given up: what was saved stands. -/
def execStopSequence (c : Nat) : State → Out := engine (fun s =>
  match (s.ctx c).destroying with
  | some rid => s.goDestroy c rid
  | none =>
    if (s.ctx c).stopTo.isNone || (s.ctx c).stopped || (s.ctx c).state != .running then s
    else if (s.ctx c).saved.isSome then ((s.recordStop c).dropPreloads c).enterStopped c
    else s.stopSteps c)

/-- R389: SAVEFAULT, whatever the context was saved for: it ends as FAULTED, its save area as far as it was written. -/
def State.saveFault (s : State) (c va : Nat) : State :=
  (s.modCtx c (fun x => { x with
    fault := some { cause := 0x45, va, trapv := w64 va }, stopTo := some .faulted, stopCause := 0x45 })).enterStopped c

/-- R387 step 5, R389, R391: SAVE_COMPLETE: the next page of the save area is written, and after the last COMPLETE, and the
context enters its new state. A context that faulted while it did not run has its fault record written. -/
def execSaveComplete (c : Nat) : State → Out := engine (fun s =>
  let x := s.ctx c
  if x.destroying.isSome then s
  else if x.recordDue then
    match s.writeVa (.scheduler c) c (s.leadTile c) (x.saveArea + 64) (State.faultBody (x.fault.getD {})) false with
    | .ok s => s.modCtx c (fun x => { x with recordDue := false })
    | .wait s => s
    | .fault s _ _ _ => s.modCtx c (fun x => { x with recordDue := false })
  else if !x.stopped then s
  else
    let pages := savePages ((s.tilesOf c).map (fun t => (t, s.tile t)))
    let (who, off, data) := match pages[x.saveAt]? with
      | some (t, off) => (t, off, s.savePage c t off)
      | none => (none, 0, s.saveHeader c true)
    let (req, t) := s.saver c who
    match s.writeVa req c t (x.saveArea + off) data false with
    | .wait s => s
    | .fault s _ _ va => s.saveFault c va
    | .ok s =>
      let s := (s.charge t 53 ((data.length + 63) / 64) none).modCtx c (fun x => { x with saveAt := x.saveAt + 1 })
      if pages.length ≤ x.saveAt then (s.modCtx c (fun x => { x with saveComplete := true })).enterStopped c else s)

/-! ## Dispatch and restore (R92, R115, R388) -/

/-- R151: the accesses of a context whose pages came while it was out walk again. -/
def State.walkAgain (s : State) (c : Nat) : State :=
  { s with dies := s.dies.map (fun (d : Nat × Die) => (d.1, { d.2 with
      misses := d.2.misses.map (fun m => if m.ctx == c && m.stand == .held then { m with stand := .walk } else m) })) }

/-- R388: every tile restored, and the pool as it was; contributions withdrawn are sent again by their stream engines. -/
def State.putBack (s : State) (c : Nat) : State :=
  let x := s.ctx c
  let saved := x.saved.getD []
  let s := saved.foldl (fun (s : State) (p : Nat × Tile) =>
    if p.2.stage.isSome then s.modTile p.1 (fun u => p.2.restored u)
    else s.modTile p.1 (fun u => { u with cursors := p.2.cursors, steps := p.2.steps, holds := p.2.holds,
                                          strands := p.2.strands.map (fun (q : Nat × Strand) => (q.1, { mailbox := q.2.mailbox, fail := q.2.fail, sent := q.2.sent, past := q.2.past, stores := q.2.stores })) })) s
  let s := s.modPart x.part (fun p => { p with
    pool := (saved.filter (fun (q : Nat × Tile) => q.2.stage.isNone)).map (fun (q : Nat × Tile) => q.1) })
  (s.modCtx c (fun x => { x with saved := none, rested := false, saveAt := 0 })).walkAgain c

/-- R389: a restore that cannot be made: the context ends as FAULTED with SAVEFAULT and is not restored. -/
def State.restoreFault (s : State) (c va : Nat) : State :=
  let r : FaultRec := { cause := 0x45, va, trapv := w64 va }
  let s := ((s.part (s.ctx c).part).tiles.foldl (fun s t => if (s.tile t).ctx = c then (s.leaveResidue t).modTile t (fun u => u.cleared 0) else s) s)
  ((s.modPart (s.ctx c).part (fun p => { p with running := none, pool := [] })).modCtx c (fun x => { x with
    state := .faulted, fault := some r, stopTo := none, saveAt := 0, recordDue := true })).sendFault c r

/-- R385, R388, R389: the next page of the save area read back; with the last, the context resumes. -/
def State.restoreStep (s : State) (c : Nat) : State :=
  let x := s.ctx c
  match if x.rested then none else (savePages (x.saved.getD []))[x.saveAt]? with
  | none => s.putBack c
  | some (who, off) =>
    let (req, t) := s.saver c who
    match s.xlPages req c .read false [x.saveArea + off] with
    | .wait s => s
    | .fault s _ _ va => s.restoreFault c va
    | .ok s pas _ =>
      let pa := pas.headD 0
      let bad := s.memBad.filter (fun w => decide (pa / 8 ≤ w) && decide (w < pa / 8 + 512))
      if bad.isEmpty then
        ((s.chargeRun c t (x.saveArea + off) 4096 pas false).charge t 54 64 none).modCtx c (fun x => { x with saveAt := x.saveAt + 1 })
      else
        (bad.foldl (fun s w => s.eccHit c (eccRecord 2 (pa / 2 ^ 44 % 16) 0 0 0 0 (8 * w) (s.fcOf t))) s).restoreFault c (x.saveArea + off)

/-- R93, R118, R401: what a dispatch makes effective: modes, log range and interval; a log begun or a replay begun. -/
def State.takeModes (s : State) (pt c : Nat) : State :=
  let old := (s.ctx c).rpl
  let s := s.modCtx c (fun x => { x with liveModes := x.modes, liveLog := (x.logBase, x.logSize), calib := if rplOf x.modes = 2 then x.calib else [] })
  let new := (s.ctx c).rpl
  let s := s.modPart pt (fun p => { p with interval := p.nextInterval, sample := 0, opened := (s.tile p.firstTile).lcyc })
  let s := s.modCtx c (fun x => { x with pipes := x.pipes.map (fun (p : Nat × Pipeline) =>
    (p.1, { p.2 with stages := p.2.stages.map (fun g => { g with pressure := 0, samples := 0 }) })) })
  if new = old ∨ (new ≠ 1 ∧ new ≠ 2) then s
  else
    let s := s.modCtx c (fun x =>
      let x := if new = 1 then { x with
          crumbs := x.hostCrumbs, hostCrumbs := [], crumbCount := 0, trunc := false, logStarted := false, recFixt := x.fixed }
        else x
      { x with saved := x.saved.map (fun m => m.map (fun (p : Nat × Tile) => (p.1, { p.2 with steps := 0 }))) })
    if new = 1 then s.logScales pt c else s

/-- R92, R115: a context dispatched: every tile cleared, the clearing charged to the house account. -/
def State.dispatch (s : State) (pt c : Nat) : State :=
  let l := (s.part pt).tiles
  let s := s.discardPreloads (fun t q => l.contains t && q.ctx != c)
  let s := l.foldl (fun s t => (s.modTile t (fun u => u.cleared c)).meterHouse t (tileCoef.getD 33 0 * Config.clearWrites)) s
  let s := (s.takeModes pt c).modPart pt (fun p => { p with running := some c, last := c, pool := l })
  s.modCtx c (fun x => { x with state := .running, saveAt := 0, saveComplete := false })

/-- R91, R359, R401: a running context with no runnable work whose tiles are all in the pool and at rest is READY again; its mailboxes,
failure records and step counts are kept for its next dispatch. -/
def State.restIfIdle (s : State) (pt c : Nat) : State :=
  let p := s.part pt
  if s.schedules c && !(s.ctx c).hasWork && (s.ctx c).moves.isEmpty && p.tiles.all (fun t => p.pool.contains t) && s.nodesQuiet p.tiles then
    (s.leaveTiles c true).modCtx c (fun x => { x with state := .ready, rested := true })
  else s

/-- R92, R115, R388: CONTEXT_DISPATCH: the next runnable context dispatched on an idle partition; a restore under way goes on;
a context without work rests. -/
def execContextDispatch (pt : Nat) : State → Out := engine (fun s =>
  match (s.part pt).running with
  | some c =>
    if (s.ctx c).saved.isSome && (s.ctx c).stopTo.isNone && (s.ctx c).destroying.isNone then s.restoreStep c else s.restIfIdle pt c
  | none =>
    if !(s.part pt).formed then s
    else match s.nextRunnable pt with
      | none => s
      | some c => s.dispatch pt c)

end Sys2Proof.Machine
end

