-- ==== Sys2Proof/Machine/Select.lean ====
section
/-! DEFINITION. Strand selection (R184, R189) and the start of a task (R185, R122, R396). -/

namespace Sys2Proof.Machine

/-- R184, R348, R420: strands of a stage that have started for an item their first bundle has yet to pop (log 8). -/
def State.claims (s : State) (x : Stage) : Nat :=
  x.tiles.foldl (fun n t => n + ((s.tile t).strands.filter (fun (p : Nat × Strand) => p.2.claim && p.2.state == .run)).length) 0

/-- R184: items in the input queues of a stage. -/
def Pipeline.inputItems (p : Pipeline) (x : Stage) : Nat := x.desc.inputs.foldl (fun n q => n + (p.queue q).items) 0

/-- R189: the priority of a strand that is ready to issue (R184, R396), none for one that is not. -/
def State.readiness (s : State) (t n : Nat) : Option Nat :=
  let u := s.tile t
  let st := u.strand n
  match u.stage with
  | none => none
  | some (slot, g) =>
    let p := s.pipe u.ctx slot
    let x := p.stage g
    let holds (q : Nat) : Bool := decide (0 < (p.queue q).items)
    if st.halted then none
    else match st.state with
      | .run => none
      | .yielded => some st.prio
      | .waiting q => if st.granted.isSome || (holds q && p.strandReady g) || p.drained q then some st.prio else none
      | .idle =>
        match x.resume with
        | r :: _ => some r.recPrio
        | [] =>
          if p.strandReady g && decide (s.claims x < p.inputItems x) then some (maxNat ((x.desc.inputs.filter holds).map (fun q => (p.queue q).desc.prio)))
          else none

/-- R189: the strand chosen: of highest priority, the first after the strand that ended a task, which itself comes last. -/
def State.chooseStrand (s : State) (t : Nat) : Option Nat :=
  let cur := (s.tile t).cur
  let others := ((List.range 7).map (fun i => (cur + 1 + i) % 8)).filterMap (fun n => (s.readiness t n).map (fun k => (n, k)))
  let top := maxNat (others.map (fun p => p.2))
  match others.find? (fun p => p.2 == top) with
  | some (n, _) => some n
  | none => (s.readiness t cur).map (fun _ => cur)

/-- R185: a strand's registers at a task start; x1-x6, PC, ITEM, ITAG and the task's entry are those the strand holds. -/
def Strand.startTask (st : Strand) (budget : BitVec 32) (past : List Nat) : Strand :=
  { st with
    x := st.x.filter (fun (r : Nat × Word) => decide (r.1 ≤ 6)), s := [], p := [], state := .run, fflags := 0, ufcnt := 0, draws := 0,
    part := st.part + 1, trapc := 0, trapv := 0, trappc := 0, handler := false, echg := 0, budget, prefetch := [], fetched := none, stall := [], fcfg := none,
    gbar := none, gbarH := none,
    past := unionNat st.past past }

/-- R122: a strand with what a continuation record holds. -/
def Strand.ofRecord (st : Strand) (r : Item) : Strand :=
  { st with
    x := (List.range 6).foldl (fun m i => AMap.set m (i + 1) (r.recX (i + 1))) [], pc := r.recPc, item := r.recItem, itag := r.tag,
    entry := some r.key.toNat, prio := r.recPrio, claim := false }

/-- R185: a task started on a strand: a suspended one, the first record of the resume queue, or a fresh one. A record with WQ = 1
waits again on its queue (R122), and the core chooses again. The record's class 47 (R113) is charged before the task starts, so that the
clearing of ECHG takes it out of the new task's TASKCHG (DEDUCED, log 66). -/
def State.startStrand (s : State) (t n : Nat) : State :=
  let u := s.tile t
  match u.stage with
  | none => s
  | some (slot, g) =>
    let p := s.pipe u.ctx slot
    let d := (p.stage g).desc
    let go (s : State) : State :=
      ((s.chargeHeld t).modStrand t n (fun st => st.startTask d.budget p.startPast)).modTile t (fun u => { u with
        cur := n, choosing := false })
    match (u.strand n).state with
    | .idle =>
      match (p.stage g).resume with
      | r :: rest =>
        let s := (s.charge t 47 1 (some n)).modStage u.ctx slot g (fun x => { x with resume := rest })
        let s := s.modStrand t n (fun st => st.ofRecord r)
        match r.recWait with
        | some q => s.modStrand t n (fun st => { st with state := .waiting q })
        | none => go s
      | [] =>
        let (s, e) := s.takeEntry u.ctx slot g
        go (s.modStrand t n (fun st => { st with x := [], pc := d.entry, item := 0, itag := 0, entry := some e, claim := true }))
    | _ => go s

/-- R123, R189, R387: may a tile's core choose a strand now? -/
def Tile.mayChoose (u : Tile) : Bool :=
  u.choosing && !u.stopping && u.held.isNone && u.takeUp == .none && u.stage.isSome

/-- R189: STRAND_SELECT. -/
def execStrandSelect (t : Nat) : State → Out := engine (fun s =>
  if !(s.tile t).mayChoose then s
  else match s.chooseStrand t with
    | none => s
    | some n => s.startStrand t n)

end Sys2Proof.Machine
end

