-- ==== Sys2Proof/Machine/Lamp.lean ====
section
/-! DEFINITION. The lamplighter: readiness of units (R27-R30), power, temperature and the fabric clock (R26), calibration windows
and shared costs (R107, R108), health and wear (R32-R35), and package reset. -/

namespace Sys2Proof.Machine

/-! ## Units (R27-R30) -/

/-- R12: the die that holds HBM stack k of the package. -/
def stackDie (k : Nat) : Nat := [0, 0, 1, 2, 2, 3, 5, 6, 6, 7, 8, 8].getD k 0

/-- R27: the die that holds unit u. -/
def unitDie (u : Nat) : Nat :=
  if u < 9 then u else if u < 81 then (u - 9) / 8 else if u < 93 then stackDie (u - 81) else if u < 221 then portDie (u - 93) else 4

/-- R27: neighbours of a die nearer die 4 in bridge hops. -/
def nearerDies (d : Nat) : List Nat := (List.range 9).filter (fun e => bridgeHops d e == 1 && decide (bridgeHops e 4 < bridgeHops d 4))

/-- R369: does the chosen topology use a port? -/
def portUsed (p : Nat) : Bool := if Config.topologyTorus && decide (p < 120) then true else Config.portWired p

/-- R30: the state of every unit in 56 bytes. -/
def State.mapBits (s : State) : Nat := (List.range 222).foldl (fun n u => n + (s.unit u).code * 4 ^ u) 0

/-- R30: the readiness map. -/
def State.mapBytes (s : State) : List Byte := leBytes 56 s.mapBits ++ leBytes 4 s.pkg.mapSeq ++ List.replicate 4 0

/-- R32-R34: the unit whose indicators a unit's estimate comes from: its own, or its die's for an octet and the host port. -/
def healthUnit (u : Nat) : Nat := if (9 ≤ u ∧ u < 81) ∨ u = 221 then unitDie u else u

/-- R32: the indicators of a unit, by the codes of R35: a die has two, a stack and a port one each. -/
def unitIndicators (u : Nat) : List Nat := if u < 9 then [1, 4] else if u < 81 then [] else if u < 93 then [2] else if u < 221 then [3] else []

/-- R32: the samples an indicator keeps: those of 168 hours at one every 10 or every 1 minutes; power-grid stress is one integral. -/
def samplesKept (ind : Nat) : Nat := if ind = 4 then 1 else if ind = 2 then 10080 else 1008

/-- R32: the present duty of a unit: the means of its activity and of its temperature over the last 168 hours. -/
def State.presentDuty (s : State) (u : Nat) : Nat × Nat :=
  let l := s.pkg.duty.get [] u
  (sumNat (l.map (fun p => p.1)) / l.length, sumNat (l.map (fun p => p.2)) / l.length)

/-- R32, R33: what one indicator of a unit predicts at a refresh, at the unit's present duty. -/
def State.wearOf (s : State) (u n ind : Nat) : Health :=
  let (e, l, k) := Config.wearEstimate u ind n (s.pkg.wear.get [] (8 * u + ind)) (s.presentDuty u)
  { estimate := e % 2 ^ 32, low := l % 2 ^ 32, high := k % 2 ^ 32, indicator := ind }

/-- R33: of the predictions of a unit's indicators the one with the smallest estimate (of equal ones the first). -/
def smallestHealth : List Health → Health
  | [] => {}
  | a :: r => r.foldl (fun b h => if h.estimate < b.estimate then h else b) a

/-- R34: the fields of a unit with indicators of its own: 0 once failed, all ones in its first 168 hours of service, else its
smallest estimate. -/
def State.ownHealth (s : State) (u n : Nat) : Health :=
  if s.unit u == .failed then { estimate := 0, low := 0, high := 0 }
  else if !Config.inService u n then {}
  else smallestHealth ((unitIndicators u).map (s.wearOf u n))

/-- R34, R35: a unit's fields at a refresh: an octet and the host port take those of their die, unless failed themselves (log 89). -/
def State.healthOf (s : State) (u n : Nat) (old : Health) : Health :=
  let h := if s.unit u == .failed then { estimate := 0, low := 0, high := 0 } else s.ownHealth (healthUnit u) n
  { h with noticed := old.noticed }

/-- R33, R34: the health record refreshed: a wear notice for each estimate whose low end crosses below 720 hours. Where no
estimate is reported (a failed unit, the first 168 hours) nothing crosses (log 89). -/
def State.refreshHealth (s : State) : State :=
  let n := (s.pkg.refreshes + 1) % 2 ^ 32
  let s := s.modPkg (fun p => { p with refreshes := n, healthSeq := p.mapSeq, healthClock := p.clockMHz, healthHot := p.hottest })
  (List.range 222).foldl (fun s u =>
    let old := s.pkg.health.get {} u
    let h := s.healthOf u n old
    let estimated := h.indicator != 0
    let crossed := estimated && decide (h.low < 720)
    let s := s.modPkg (fun p => { p with
      health := p.health.set u { h with noticed := if estimated then crossed else old.noticed } })
    if crossed && !old.noticed then s.event 0 0x4006 0 (leBytes 2 u ++ leBytes 2 0 ++ leBytes 4 h.low) else s) s

/-- R30, R33: a unit's state changed: the map sequence number rises, the event carries the new map, the record is refreshed. -/
def State.setUnit (s : State) (u : Nat) (x : UnitState) : State :=
  let s := s.modPkg (fun p => { p with units := p.units.set u x, mapSeq := (p.mapSeq + 1) % 2 ^ 32 })
  (s.event 0 0x4005 0 s.mapBytes).refreshHealth

/-- R28: has a unit all that its test needs? -/
def State.testable (s : State) (u : Nat) : Bool :=
  s.unit u == .untested
    && (if u < 9 then (nearerDies u).all (fun d => s.unitReady d) else s.unitReady (unitDie u))
    && (decide (u < 93) || decide (221 ≤ u) || portUsed (u - 93))

/-- R28: the units tested before a unit of the first three groups. -/
def testOrder : List Nat := [4, 221, 1, 3, 5, 7, 0, 2, 6, 8]

/-- R28: a die or the host port stays untested: a die on every way of its test to die 4 has failed. -/
def State.neverTested (s : State) (u : Nat) : Bool :=
  let failed (d : Nat) : Bool := s.unit d == .failed
  if u < 9 then (nearerDies u).any (fun d => failed d || (nearerDies d).any failed) else failed (unitDie u)

/-- R28: a die or the host port whose test is under way or to come. -/
def State.testPending (s : State) (u : Nat) : Bool :=
  s.unit u == .testing || (s.unit u == .untested && !s.neverTested u)

/-- R28: is it a unit's turn? Dies and the host port enter testing in their order; when those are done, a die's other units go
one at a time, ascending (log 67). -/
def State.testTurn (s : State) (u : Nat) : Bool :=
  if testOrder.contains u then (testOrder.takeWhile (fun v => v != u)).all (fun v => !s.testable v)
  else
    testOrder.all (fun v => !s.testPending v) && (List.range 222).all (fun v => testOrder.contains v || unitDie v != unitDie u || v == u
      || (s.unit v != .testing && (decide (u < v) || !s.testable v)))

/-- R28: UNIT_TEST_START. -/
def execUnitTestStart (u : Nat) : State → Out := engine (fun s =>
  if decide (u < 222) && s.testable u && s.testTurn u then s.setUnit u .testing else s)

/-- R28, R30: UNIT_TEST_DONE. -/
def execUnitTestDone (u : Nat) (pass : Bool) : State → Out := engine (fun s =>
  if s.unit u == .testing then s.setUnit u (if pass then .ready else .failed) else s)

/-! ## Failure in service (R29, R346) -/

/-- R31: units a partition holds: its octets, the stacks of its memory dies, its ports, and the dies that hold them. -/
def Partition.units (p : Partition) : List Nat :=
  let o := p.octets.map (fun k => 9 + k)
  let k := ((List.range 12).filter (fun k => p.dies.contains (stackDie k))).map (fun k => 81 + k)
  let q := p.ports.map (fun k => 93 + k)
  (List.range 222).filter (fun u => o.contains u || k.contains u || q.contains u
    || (decide (u < 9) && (o ++ k ++ q).any (fun v => unitDie v == u)))

/-- The partitions formed now. -/
def State.formedParts (s : State) : List (Nat × Partition) := s.parts.filter (fun (p : Nat × Partition) => p.2.formed)

/-- R29: is a unit one of a formed partition's? -/
def State.unitInUse (s : State) (u : Nat) : Bool := s.formedParts.any (fun (p : Nat × Partition) => p.2.units.contains u)

/-- R346: the stores and read-modify-writes that wait at a failed unit's nodes are refused. -/
def State.refuseAt (s : State) (u : Nat) : State :=
  let out := s.dies.flatMap (fun (d : Nat × Die) => d.2.nodes.flatMap (fun (q : Nat × List MemReq) =>
    if (nodeUnits d.1 q.1).contains u then q.2.filter (fun r => !r.reads) else []))
  let s := { s with dies := s.dies.map (fun (d : Nat × Die) => (d.1, { d.2 with
    nodes := d.2.nodes.map (fun (q : Nat × List MemReq) => (q.1, q.2.filter (fun r => !out.any (fun o => o.id == r.id)))) })) }
  out.foldl (fun s r => s.refuseReq r) s

/-- R29, R378, R386: UNITFAIL for every context of a partition. -/
def State.unitFault (s : State) (pt u : Nat) : State :=
  (s.residents pt).foldl (fun s c =>
    let run := (s.ctx c).state == .running && (s.ctx c).stopTo != some .faulted
    let s := s.fatal c { cause := 0x47, trapv := w64 u }
    if run then s.modCtx c (fun x => { x with stopCause := 3 }) else s) s

/-- R29: a ready unit fails in service. -/
def State.failUnit (s : State) (u : Nat) : State :=
  let s := (s.setUnit u .failed).refuseAt u
  s.formedParts.foldl (fun (s : State) (p : Nat × Partition) => if p.2.units.contains u then s.unitFault p.1 u else s) s

/-- R29: UNIT_FAIL_IN_SERVICE. -/
def execUnitFailInService (u : Nat) : State → Out := engine (fun s => if s.unitReady u then s.failUnit u else s)

/-! ## Power and temperature (R26) -/

/-- The die with the hottest sensor, and its reading. -/
def hottestDie (l : List Int) : Nat × Int :=
  (List.range l.length).foldl (fun (b : Nat × Int) i => if b.2 < l.getD i 0 then (i, l.getD i 0) else b) (0, l.headD 0)

/-- R26: a trip: every context is pre-empted, and the host is told. -/
def State.trip (s : State) (l : List Int) : State :=
  let (d, x) := hottestDie l
  let s := s.modPkg (fun p => { p with tripped := true, tripClear := false })
  let s := (s.ctxs.map (fun (p : Nat × Context) => p.1)).foldl (fun s c => s.askStop c .ready 2) s
  s.event 0 0x4007 0 (leBytes 1 d ++ leBytes 1 0 ++ leInt 2 x)

/-- R26: a trip in force: the clock stops once no context runs, and starts when the host has cleared it and every sensor reads
below 95 C. -/
def State.tripped (s : State) : State :=
  if !s.pkg.tripped then s
  else if s.pkg.tripClear && s.pkg.hottest.all (fun x => decide (x < 95 * 16)) then
    s.modPkg (fun p => { p with tripped := false, tripClear := false, clockStopped := false })
  else if s.ctxs.all (fun (p : Nat × Context) => p.2.state != .running) then s.modPkg (fun p => { p with clockStopped := true })
  else s

/-- R26: POWER_CHECK, each 1 ms: power in milliwatts, and the hottest reading of each die in 1/16 C. A mean is compared exactly:
the sum of the readings with the bound times their number. -/
def execPowerCheck (mw : Nat) (hot : List Int) : State → Out := engine (fun s =>
  let power := (s.pkg.power ++ [mw]).drop (s.pkg.power.length + 1 - 10)
  let cool := decide (sumNat power < 4370000 * power.length)
  let n := if cool then min (s.pkg.coolMs + 1) 10 else 0
  let down := (power.length == 10 && decide (4600000 * power.length < sumNat power)) || hot.any (fun x => decide (100 * 16 < x))
  let up := n == 10 && !hot.any (fun x => decide (95 * 16 < x))
  let s := s.modPkg (fun p => { p with
    power, coolMs := n, hottest := hot,
    clockMHz := if down then max 750 (p.clockMHz - 50) else if up then min 1500 (p.clockMHz + 50) else p.clockMHz })
  (if hot.any (fun x => decide (115 * 16 ≤ x)) && !s.pkg.tripped then s.trip hot else s).tripped)

/-! ## Calibration and shared costs (R107, R108) -/

/-- R108: one share of a cost: to the context's home unit, or to the house for a fixed tariff; what is left of the cost. -/
def State.share (s : State) (c : Nat) (nj : Int) : State :=
  if nj = 0 then s
  else s.arrive (if (s.ctx c).fixed then 0 else c) (-(nj * njUnit))

/-- R108: a cost in 2^-14 of 1/16 pJ split by weights out of a total, each share rounded toward zero to whole nanojoules; the
remainder goes to the house account. -/
def State.split (s : State) (cost : Int) (weights : List (Nat × Nat)) (total : Nat) : State :=
  let nj (w : Nat) : Int := Int.tdiv (cost * w) (total * njUnit)
  let given := weights.foldl (fun (n : Int) p => n + (if total = 0 then 0 else nj p.2)) 0
  let s := if total = 0 then s else weights.foldl (fun (s : State) (p : Nat × Nat) => s.share p.1 (nj p.2)) s
  s.arrive 0 (-(cost - given * njUnit))

/-- R107: the next factor of a domain. -/
def nextScale (f m c : Nat) : Nat :=
  if c = 0 then f else max 0x2000 (min 0x7FFF (max (f * 63 / 64) (min (f * 65 / 64) (f * m / c))))

/-- R107: one domain's window closed with the rail energy m it measured, in 1/16 pJ; of the residual, `own` is the house's before
the split: the lamplighter's and the idle host port's energy (R24, R108, log 90). -/
def State.closeDomain (s : State) (dom m own : Nat) : State :=
  let w := s.pkg.windowCharges.get [] dom
  let c := s.pkg.windowScaled.get 0 dom
  let f := s.scaleOf dom
  let g := nextScale f (m * 2 ^ 14) c
  let s := if own = 0 then s else s.arrive 0 (-((own * 2 ^ 14 : Nat) : Int))
  let s := s.split ((m * 2 ^ 14 : Nat) - (c : Nat) - ((own * 2 ^ 14 : Nat) : Int)) w (sumNat (w.map (fun p => p.2)))
  let s := s.modPkg (fun p => { p with
    scales := p.scales.set dom (BitVec.ofNat 16 g), windowCharges := p.windowCharges.erase dom, windowScaled := p.windowScaled.erase dom })
  if c = 0 ∨ dom < 9 then s
  else
    -- R403: uncore meters take the factor up at the start of the next window, whether or not a recording context runs then
    (s.ctxs.filter (fun (p : Nat × Context) => p.2.live)).foldl (fun (s : State) (p : Nat × Context) =>
      s.record p.1 { kind := 8, sub := dom, a := p.2.interval, b := g }) s

/-- R108, R141: bytes on stack k of a page of 2^p bytes that a leaf gives a context. -/
def State.leafBytes (s : State) (ctx k p : Nat) (e : Word) : Nat :=
  let part := s.part (s.ctx ctx).part
  let die := stackDie k
  let a := pteFrame e / 2 ^ p * 2 ^ p
  let off := a % 2 ^ 44
  let cap := s.pkg.ordering.stackGiB * 2 ^ 30
  let on := overlap off (2 ^ p) (cap * (k - firstStack die)) cap
  let m := min (Nat.log2 part.dies.length) 3
  if a / 2 ^ 48 % 16 ≠ 0 ∨ off < part.base ∨ part.base + part.length < off + 2 ^ p then 0
  else match ptePlace e with
    | 0 => if pteHome e = die then on else 0
    | 1 =>
      if p < 12 + m then
        (List.range (2 ^ (p - 12))).foldl (fun n i => match s.place ctx die (4096 * i) p e false with
          | .ok pa => if nodeOf s.pkg.ordering pa = (die, 64 + (k - firstStack die)) then n + 4096 else n
          | .error _ => n) 0
      else if (part.dies.take (2 ^ m)).contains die then on / 2 ^ m else 0
    | 2 => if part.dies.contains die then on else 0
    | _ => 0

/-- R108, R136: bytes on stack k of every page under a table of a level; `n` levels remain. -/
def State.tableBytes (s : State) (ctx k : Nat) : Nat → Nat → Nat
  | 0, _ => 0
  | level + 1, table =>
    if !tableAddrOk s.pkg.ordering table then 0
    else
      (List.range 512).foldl (fun n i =>
        let e := Memory.word s.mem ((table + 8 * i) / 8)
        if !pteValid e then n
        else if pteKind e = 0 then (if tableOk s.pkg.ordering level e then n + s.tableBytes ctx k level (pteFrame e) else n)
        else if pteKind e = 1 && leafOk level i e then n + s.leafBytes ctx k (levelBits level) e
        else n) 0

/-- R108: resident bytes of a context on stack k. -/
def State.residentBytes (s : State) (ctx k : Nat) : Nat := s.tableBytes ctx k 5 (s.ctx ctx).root

/-- The contexts live now. -/
def State.liveCtxs (s : State) : List Nat := (s.ctxs.filter (fun (p : Nat × Context) => p.2.live)).map (fun (p : Nat × Context) => p.1)

/-- R108: lanes of a port reserved to a context: those its windows name, the port being its partition's; a lane that several
contexts name counts for the lowest. -/
def State.laneOwner (s : State) (port lane : Nat) : Option Nat :=
  s.liveCtxs.find? (fun c => (s.part (s.ctx c).part).ports.contains port
    && (s.ctx c).windows.any (fun (w : Nat × Window) => (w.2.out || w.2.inn) && w.2.lane == lane))

/-- R108: weights of a port's idle energy. -/
def State.laneWeights (s : State) (port : Nat) : List (Nat × Nat) :=
  s.liveCtxs.filterMap (fun c =>
    let n := ((List.range 16).filter (fun l => s.laneOwner port l == some c)).length
    if n = 0 then none else some (c, n))

/-- R102: what the window's HBM error scrubbing (64-byte accesses of each stack) and link retransmissions (flits of each port) charge
the house account. -/
def State.chargeUpkeep (s : State) (scrubs flits : Nat → Nat) : State :=
  let s := (List.range 12).foldl (fun s k => if scrubs k = 0 then s else s.uncore (stackDie k) 0 .hbm (scrubs k) (18 + k)) s
  (List.range 128).foldl (fun s p => if flits p = 0 then s else s.uncore (portDie p) 0 .flit (flits p) (linkDomain (portDie p))) s

/-- R107, R108: CALIBRATION_WINDOW: the windows of the 39 domains closed, and the shared costs of a millisecond split. Its operands
are measurements of the outside: the rail energy of each domain, what the lamplighter and the idle host port drew of domain 38, the
64-byte accesses of each stack's scrubbing, and the flits each port sent again. -/
def execCalibrationWindow (rail : List Nat) : State → Out := engine (fun s =>
  let s := s.chargeUpkeep (fun k => rail.getD (40 + k) 0) (fun p => rail.getD (52 + p) 0)
  let s := (List.range 39).foldl (fun s dom => s.closeDomain dom (rail.getD dom 0) (if dom = hostDomain then rail.getD 39 0 else 0)) s
  let refresh : Int := (38400 * 1000 * 2 ^ 14 : Nat)
  let idle : Int := (25600 * 1000 * 2 ^ 14 : Nat)
  let s := ((List.range 12).filter (fun k => s.unitReady (81 + k))).foldl (fun s k =>
    let w := (s.liveCtxs.map (fun c => (c, s.residentBytes c k))).filter (fun (p : Nat × Nat) => p.2 != 0)
    s.split refresh w (sumNat (w.map (fun p => p.2)))) s
  ((List.range 128).filter (fun p => s.unitReady (portUnit p))).foldl (fun s p => s.split idle (s.laneWeights p) 16) s)

/-! ## Health and wear (R32-R36) -/

/-- R32: WEAR_SAMPLE: an indicator of a unit sampled: the frequency shifts of a die's 16 oscillators, a stack's corrected errors
per hour, the horizontal and vertical eye openings of a port's lanes, or a die's integral of current above the rated value. With a sample
of 168 hours comes the activity and temperature of the unit then, of which the present duty is the mean (log 5). -/
def execWearSample (u ind : Nat) (v : WearReading) : State → Out := engine (fun s =>
  if (unitIndicators u).contains ind then
    s.modPkg (fun p => { p with
      wear := p.wear.set (8 * u + ind) ((v.values :: p.wear.get [] (8 * u + ind)).take (samplesKept ind)),
      duty := if ind = 4 then p.duty else p.duty.set u ((v.duty :: p.duty.get [] u).take (samplesKept ind)) })
  else s)

/-- R33: HEALTH_REFRESH. -/
def execHealthRefresh : State → Out := engine State.refreshHealth

/-- R35: the entry of unit u. -/
def State.healthEntry (s : State) (u : Nat) : List Byte :=
  let h := s.pkg.health.get {} u
  leBytes 4 h.estimate ++ leBytes 4 h.low ++ leBytes 4 h.high ++ leBytes 1 h.indicator ++ leBytes 1 (s.unit u).code ++ leBytes 2 0

/-- R35: the health record. The counts of malformed and of dropped messages are those at the read: whether they stand as of the last
refresh, as clock setting and hottest reading do, is not said (log 70). -/
def State.healthBytes (s : State) : List Byte :=
  leBytes 2 1 ++ leBytes 2 222 ++ leBytes 4 s.pkg.refreshes ++ leBytes 4 s.pkg.healthSeq ++ leBytes 4 0
    ++ (List.range 222).flatMap s.healthEntry
    ++ (List.range 9).flatMap (fun d => leBytes 2 s.pkg.healthClock ++ leInt 2 (s.pkg.healthHot.getD d 0) ++ leBytes 4 0)
    ++ leBytes 8 s.pkg.malformed ++ leBytes 8 (sumNat ((List.range 289).map (fun e => (s.pkg.endpoints.get {} e).drops)))

/-- R36: the identity record. -/
def State.identityBytes (s : State) : List Byte :=
  leBytes 2 1 ++ [0x42#8, 0x30#8] ++ leBytes 2 1 ++ leBytes 1 s.pkg.ordering.code
    ++ leBytes 1 (if !s.pkg.configured then 0xFF else if Config.topologyTorus then 0 else 1)
    ++ leBytes 4 Config.errataRevision.toNat ++ leBytes 4 Config.firmware.toNat ++ leBytes 8 Config.serial.toNat
    ++ leBytes 4 Config.pkgid.toNat ++ leBytes 2 s.pkg.ordering.stackGiB ++ List.replicate 34 0

/-! ## Package reset -/

/-- R28, R369: PACKAGE_RESET: the machine as after reset, then configured in its topology by the lamplighter; what the outside
does next goes on. -/
def execPackageReset : State → Out := engine (fun s =>
  { State.reset with
    pkg := { State.reset.pkg with ordering := s.pkg.ordering, configured := true }, fresh := s.fresh, agenda := s.agenda })

end Sys2Proof.Machine
end

