-- ==== Sys2Proof/Machine/HostPort.lean ====
section
/-! DEFINITION. The requests of the host port's queue pairs (R87, R88): their parts, sent to memory nodes or toward another package as
those of a stream are, and their answers; and the steps of memory nodes (R288, R301), which answer some of them. -/

namespace Sys2Proof.Machine

/-- R87: the host port's mesh stop. -/
def hostStop : Nat := 283

/-- R339: the host-port engine comes to have events in its causal past. -/
def State.hostSaw (s : State) (l : List Nat) : State := s.modPkg (fun p => { p with hostPast := unionNat (s.livePast p.hostPast) l })

/-- R88: an answer that leaves once the writes it reports are performed at package scope. -/
def State.owe (s : State) (vf qp : Nat) (waits : List Nat) (r : RdmaReply) : State :=
  if waits.all s.seenEverywhere then (s.setQp vf qp .normal).rdmaAnswer vf qp r else s.setQp vf qp (.owed waits r)

/-- R88: answers whose writes have been performed leave. -/
def State.releaseQps (s : State) : State :=
  s.pkg.qps.foldl (fun (s : State) (q : Nat × QpState) => match q.2 with
    | .owed waits r => if waits.all s.seenEverywhere then s.owe (q.1 / 16) (q.1 % 16) waits r else s
    | _ => s) s

/-- R331, R335, R339: the next bytes of a job, within one word, asked of the node of their address: a write or a read of the host-port
engine, an observer on die 4. The path and the node's event are charged with the first of a 64-byte block (R102). -/
def State.partHere (s : State) (vf qp : Nat) (j : HostJob) (pa : Nat) : State :=
  let k := min (j.len - j.next) (8 - (j.va + j.next) % 8)
  let s := if j.next = 0 ∨ (j.va + j.next) % 64 = 0 then (s.nodePath vf hostStop pa 64).nodeEvent 4 vf pa j.write false else s
  let r : MemReq := { id := s.nextId, ctx := vf, die := 4, src := if j.write then .device else .host vf qp j.job j.next, pa, va := j.va + j.next,
                      op := if j.write then .store ((j.data.drop j.next).take k) else .load k,
                      past := s.livePast s.pkg.hostPast, rep := runRep j.va j.pas j.reps j.next }
  let s := if j.write then (s.issueWrite 4).1 else s.bump
  (s.toNode pa r).setQp vf qp (.busy { j with
    next := j.next + k, open' := if j.write then j.open' else j.open' + 1, waits := if j.write then r.id :: j.waits else j.waits })

/-- R370-R374: the next bytes of a job whose address lies in a remote window, at most 64 aligned bytes of the target (R368), sent as the
host-port engine's request; none while the window has no credit. A window that does not admit them ends the request (R88, R372). -/
def State.partAway (s : State) (vf qp : Nat) (j : HostJob) (pa : Nat) : Option State :=
  let w := pa / 2 ^ 45 % 64
  let off := pa % 2 ^ 45
  let win := (s.ctx vf).windows.get {} w
  if !win.out || decide (win.size ≤ off) then some (s.qpError vf qp)
  else match s.routePort 576 0 win.rpkg with
    | none => some (s.qpError vf qp)
    | some p =>
      if 16 ≤ s.pkg.inWindow vf w then none
      else
        let to' := (win.base + off) % 2 ^ 64
        let k := min (min (j.len - j.next) (4096 - (j.va + j.next) % 4096)) (64 - to' % 64)
        let tag := s.nextId
        let s := if j.write then (s.issueWrite 4).1 else s.bump
        let r : RemoteReq := { srcPkg := Config.pkgid.toNat, srcCtx := vf, srcTile := 576, srcStrand := 0, dstPkg := win.rpkg, dstCtx := win.rctx,
                               lane := win.lane, addr := to', kind := if j.write then .write ((j.data.drop j.next).take k) else .read k, tag }
        let f : Flit := { ctx := some vf, lane := win.lane, dst := win.rpkg, packet := .request r }
        some ((((s.chargePath vf hostStop (portTile p) 64).toLane p win.lane f).modPkg (fun x => { x with
            flights := x.flights ++ [{ tag, tile := 576, id := 64 + qp, n := j.next, ctx := vf, window := w, port := p, addr := j.job,
                                       isWrite := j.write, wid := tag }] })).setQp vf qp
          (.busy { j with next := j.next + k, open' := if j.write then j.open' else j.open' + 1,
                          waits := if j.write then tag :: j.waits else j.waits }))

/-- R88, R387: the parts of a queue pair's request that can be sent now, at most n; none for a context in a stop sequence. -/
def State.sendParts (s : State) (vf qp : Nat) : Nat → State
  | 0 => s
  | n + 1 =>
    match s.pkg.qps.get .normal (qpKey vf qp) with
    | .busy j =>
      if j.len ≤ j.next ∨ (s.ctx vf).stopTo.isSome then s
      else
        let pa := runAddr j.va j.pas j.next
        if 8 ≤ pa / 2 ^ 48 % 16 then match s.partAway vf qp j pa with
          | some s => s.sendParts vf qp n
          | none => s
        else (s.partHere vf qp j pa).sendParts vf qp n
    | _ => s

/-- R88: a queue pair's request whose parts are all made: a WRITE is acknowledged once its stores are performed at package scope; a READ is
answered once what it has read is. -/
def State.finishJob (s : State) (vf qp : Nat) (j : HostJob) : State :=
  if j.write then (s.hostSaw j.waits).owe vf qp j.waits .ack
  else ((s.frame vf j.len).hostSaw (s.livePast j.past)).owe vf qp (s.livePast j.past) (.data (j.got.flatMap (fun p => p.2)))

/-- R87, R88: a queue pair's request goes on; one of a context that is no longer live cannot be made. -/
def State.advanceQp (s : State) (vf qp : Nat) : State :=
  match s.pkg.qps.get .normal (qpKey vf qp) with
  | .busy j =>
    if !(s.ctx vf).live || (s.ctx vf).destroying.isSome then s.qpError vf qp
    else
      let s := s.sendParts vf qp (j.len + 1)
      match s.pkg.qps.get .normal (qpKey vf qp) with
      | .busy j => if j.len ≤ j.next ∧ j.open' = 0 then s.finishJob vf qp j else s
      | _ => s
  | _ => s

/-- R88: every queue pair's request goes on, and the answers that may leave do. -/
def State.advanceQps (s : State) : State :=
  (s.pkg.qps.foldl (fun (s : State) (q : Nat × QpState) => s.advanceQp (q.1 / 16) (q.1 % 16)) s).releaseQps

/-- R88: a request made, or its queue pair stalled on a page. -/
def State.rdmaDo (s : State) (vf qp va : Nat) (write : Bool) (len : Nat) (data : List Byte) : State :=
  let n := if write then data.length else len
  match s.xlPages (.hostPort vf qp) vf (if write then .write else .read) false (pagesOf va n) with
  | .wait s => s.setQp vf qp (.stalled va write len data)
  | .fault s _ _ _ => s.qpError vf qp
  | .ok s pas reps =>
    (s.bump.setQp vf qp (.busy { job := s.nextId, va, write, len := n, data, pas, reps })).advanceQp vf qp

/-! ## Memory nodes -/

/-- R288: MEMORY_NODE_APPLY: the first request of a node that no older one there holds back. -/
def execMemoryNodeApply (d k : Nat) : State → Out := engine (fun s =>
  (s.applyFirst d k (fun r => r.seq.isNone && s.nextFor d k r)).advanceQps)

/-- R301, R302, R315: REDUCTION_APPLY: the first contribution of a reduction sequence whose tag F has reached, behind older requests for
its word. -/
def execReductionApply (d k : Nat) : State → Out := engine (fun s =>
  (s.applyFirst d k (fun r => r.seq.isSome && s.nextFor d k r)).advanceQps)

end Sys2Proof.Machine
end

