-- ==== Sys2Proof/Machine/Links.lean ====
section
/-! DEFINITION. Scale-up links (R368-R377): requests that arrive at a port, responses, flits sent, and dead ports. -/

namespace Sys2Proof.Machine

/-! ## Flits -/

/-- R102, R109, R372: one flit sent or received on a port, charged to a context or to the house account (log 90). -/
def State.flitEvent (s : State) (port : Nat) (c : Option Nat) : State :=
  match c with
  | some c => s.uncore (portDie port) c .flit 1 (linkDomain (portDie port))
  | none => s.uncore (portDie port) 0 .flit 1 (linkDomain (portDie port))

/-- R376: responses whose writes are performed at package scope join their lanes. -/
def State.releaseReplies (s : State) (port : Nat) : State :=
  let ready := (s.linkPort port).replies.filter (fun r => r.1.all s.seenEverywhere)
  let s := s.modPort port (fun p => { p with replies := p.replies.filter (fun r => !ready.contains r) })
  ready.foldl (fun s r => s.toLane port r.2.lane r.2) s

/-- R373: the lane a port sends from next: the first after the last one served, in round-robin order, that holds a flit and has
room at the far end. -/
def State.nextLane (s : State) (port : Nat) : Option Nat :=
  let p := s.linkPort port
  ((List.range 16).map (fun i => (p.rr + 1 + i) % 16)).find? (fun l => !(p.lanes.get [] l).isEmpty && Config.laneRoom port l s.fresh)

/-- R373: LINK_FLIT_SEND: one flit of a port enters its link. -/
def execLinkFlitSend (port : Nat) : State → Out := engine (fun s =>
  if !s.unitReady (portUnit port) then s
  else
    let s := s.releaseReplies port
    match s.nextLane port with
    | none => { s with fresh := s.fresh + 1 }
    | some l =>
      match (s.linkPort port).lanes.get [] l with
      | [] => s
      | f :: rest =>
        { (s.modPort port (fun p => { p with lanes := p.lanes.set l rest, rr := l, sent := p.sent ++ [f] })).flitEvent port f.ctx with
          fresh := s.fresh + 1 })

/-! ## Requests of other packages (R372) -/

/-- R372: does a window of context c admit a sender? -/
def State.admits (s : State) (c : Nat) (r : RemoteReq) : Bool :=
  (s.ctx c).live && (s.ctx c).windows.any (fun (w : Nat × Window) => w.2.inn && w.2.rpkg == r.srcPkg && w.2.rctx == r.srcCtx)

/-- R372, R376: an answer that leaves once the writes it reports are performed. -/
def State.reply (s : State) (port : Nat) (c : Option Nat) (r : RemoteReq) (accepted : Bool) (data : List Byte) (waits : List Nat) : State :=
  s.sendReply port { ctx := c, lane := r.lane, dst := r.srcPkg, packet := .response { tag := r.tag, accepted, data } } waits

/-- A request of another package as it goes to its node, after the port's earlier writes. -/
def ingressReq (s : State) (port c pa va : Nat) (src : MemSrc) (op : MemOp) (rep : Bool) : MemReq :=
  { id := s.nextId, ctx := c, die := portDie port, src, pa, va, op, past := (s.linkPort port).past, rep }

/-- R333, R342: a write the ingress port makes, after its earlier ones, sent to its node; its name. -/
def State.ingressWrite (s : State) (port c pa va : Nat) (data : List Byte) (rep : Bool) : State × Nat :=
  let r := ingressReq s port c pa va .device (.store data) rep
  let (s, i) := s.issueWrite (portDie port)
  let s := s.toNode pa { r with id := i }
  (s.modPort port (fun p => { p with past := unionNat [i] (s.livePast p.past) }), i)

/-- R342: bytes written word by word. -/
def State.ingressRun (s : State) (port c pa va : Nat) (rep : Bool) : Nat → List Byte → State × List Nat
  | 0, _ => (s, [])
  | n + 1, data =>
    if data.isEmpty then (s, [])
    else
      let k := 8 - pa % 8
      let (s, i) := s.ingressWrite port c pa va (data.take k) rep
      let (s, l) := s.ingressRun port c (pa + k) (va + k) rep n (data.drop k)
      (s, i :: l)

/-- R204, R368: a remote atomic as its node performs it: code 9 is compare and swap. -/
def remoteAtom (op : Nat) (wide : Bool) (v c : Word) : MemOp := if op = 9 then .cas wide v c else .atom op wide v

/-- R102, R342: the way of an access of n bytes from a port to its node. The mesh stop at which a port's traffic enters is not stated
(log 7). -/
def State.portPath (s : State) (port c pa n : Nat) : State :=
  let (d, k) := nodeOf s.pkg.ordering pa
  s.chargeHops c (portDie port) d (pathHops (portTile port) (64 * d + k % 64)) n

/-- R333, R342, R372: an admitted access at its translated address goes to its node, behind what stands there. -/
def State.ingressAccess (s : State) (port c : Nat) (r : RemoteReq) (pa : Nat) (rep : Bool) : State :=
  let die := portDie port
  let s := s.portPath port c pa 64
  let src : MemSrc := .ingress port r.lane r.srcPkg r.tag
  match r.kind with
  | .read len => (s.toNode pa (ingressReq s port c pa r.addr src (.load len) rep)).bump
  | .write data =>
    -- R368: a request covers at most 64 aligned bytes, one write of its node
    let (s, l) := (s.nodeEvent die c pa true false).ingressRun port c pa r.addr rep 9 data
    s.reply port (some c) r true [] l
  | .atomic op wide v e =>
    let q := ingressReq s port c pa r.addr src (remoteAtom op wide v e) rep
    let (s, i) := s.issueWrite die
    (s.toNode pa { q with id := i }).modPort port (fun p => { p with past := unionNat [i] (s.livePast p.past) })
  | .token _ _ _ => s

/-- The access a remote request makes. -/
def remoteAccess : RemoteKind → Access
  | .read _ => .read
  | .write _ => .write
  | .atomic .. => .atomic
  | .token .. => .read

/-- R359: a token for a strand of this package: into the lane of the context that a window maps its sender to. -/
def State.ingressToken (s : State) (port : Nat) (r : RemoteReq) (tag pay addr : BitVec 32) : State :=
  let tile := 64 * (addr.extractLsb' 9 4).toNat + (addr.extractLsb' 3 6).toNat
  match s.liveCtxs.find? (fun c => s.admits c r && (s.part (s.ctx c).part).tiles.contains tile) with
  | none => ((s.flitEvent port none).modPort port (fun p => { p with dropped := p.dropped + 1 })).reply port none r false [] []
  | some c =>
    let k : Mail := { tag, payload := pay, past := s.livePast (s.linkPort port).past }
    (((s.flitEvent port (some c)).modCtx c (fun x =>
      { x with lane := x.lane ++ [(0xFFFF, 0, tile, (addr.extractLsb' 0 3).toNat, k)] })).reply port (some c) r true [] [])

/-- R372: one request taken at a port; none when it waits on its translation. -/
def State.ingressOne (s : State) (port : Nat) (r : RemoteReq) : Option State × State :=
  let c := r.dstCtx
  if !s.admits c r then (some ((s.flitEvent port none).reply port none r false [] []), s)
  else match s.translate (.ingress port) c (w64 r.addr) (remoteAccess r.kind) false (remoteAccess r.kind == Access.atomic) with
    | .wait s => (none, s)
    | .fault s _ _ => (some ((s.flitEvent port (some c)).reply port (some c) r false [] []), s)
    | .ok s pa rep =>
      let s := s.flitEvent port (some c)
      if 8 ≤ pa / 2 ^ 48 % 16 then (some (s.reply port (some c) r false [] []), s)
      else (some (s.ingressAccess port c r pa rep), s)

/-- R374: do two requests come from one context to one context, so that they share a window's buffer? -/
def sameWay (a b : RemoteReq) : Bool := a.srcPkg == b.srcPkg && a.srcCtx == b.srcCtx && a.dstCtx == b.dstCtx

/-- R342, R374: the requests of a port taken in the order they arrived; one that waits, `kept`, holds back those of its own contexts
alone. -/
def State.ingressAll (s : State) (port : Nat) : List RemoteReq → List RemoteReq → State
  | [], kept => s.modPort port (fun p => { p with inbox := kept })
  | r :: rest, kept =>
    if kept.any (fun k => sameWay k r) then s.ingressAll port rest (kept ++ [r])
    else match s.ingressOne port r with
      | (some s, _) => s.ingressAll port rest kept
      | (none, s) => s.ingressAll port rest (kept ++ [r])

/-- R375: word to a package that a request of it is lost at a dead link of this one (log 98). -/
def State.tellLost (s : State) (port : Nat) (r : RemoteReq) : State :=
  s.sendReply port { ctx := none, lane := r.lane, dst := r.srcPkg, packet := .response { tag := r.tag, accepted := false, data := [], lost := true } } []

/-- R370, R375: a request that passes through this package goes on by its path; one with no path is lost here, and its sender told. -/
def State.passOn (s : State) (port : Nat) (r : RemoteReq) : State :=
  let s := s.flitEvent port none
  match s.routePort r.srcTile r.srcStrand r.dstPkg with
  | none => s.tellLost port r
  | some p => s.toLane p r.lane { ctx := none, lane := r.lane, dst := r.dstPkg, packet := .request r }

/-- R372: REMOTE_INGRESS: a request arrives at a port. -/
def execRemoteIngress (port : Nat) (r : RemoteReq) : State → Out := engine (fun s =>
  if !s.unitReady (portUnit port) then s
  else if r.dstPkg ≠ Config.pkgid.toNat then s.passOn port r
  else match r.kind with
    | .token tag pay addr => s.ingressToken port r tag pay addr
    | _ =>
      let s := s.modPort port (fun p => { p with inbox := p.inbox ++ [r] })
      s.ingressAll port (s.linkPort port).inbox [])

/-! ## Responses (R346, R372, R376) -/

/-- A command of a context changed where its tile stands. -/
def State.modCmdOf (s : State) (c t id : Nat) (f : Cmd → Cmd) : State :=
  s.modTileOf c t (fun u => { u with cmds := u.cmds.map (fun (p : Nat × Cmd) => if p.1 = id then (id, f p.2) else p) })

/-- The command a flight belongs to. -/
def State.flightCmd (s : State) (f : RemoteFlight) : Option Cmd := (s.tileOf f.ctx f.tile).bind (fun u => u.cmd f.id)

/-- R346: the address a lost or refused store was made to. -/
def State.flightVa (s : State) (f : RemoteFlight) : Nat :=
  (((s.flightCmd f).bind (fun c => c.writes.find? (fun w => w.1 == f.wid))).map (fun w => 8 * w.2)).getD 0 + f.addr % 8

/-- R372, R375: a request that fails: a store is a failed store, a read ends its command with a code, a token is gone; one of the host
port ends its queue pair's request (R88). -/
def State.flightFails (s : State) (f : RemoteFlight) (k : FailKind) (code : Nat) : State :=
  if 64 ≤ f.id then
    let s := if f.isWrite then s.dropWrite f.wid else s
    if (s.qpJob f.ctx (f.id - 64) f.addr).isSome then s.qpError f.ctx (f.id - 64) else s
  else if 32 ≤ f.id then s.modTileOf f.ctx f.tile (fun u => u.modStrand (f.id - 32) (fun st => { st with sent := st.sent - 1 }))
  else if f.isWrite then
    let c := (s.flightCmd f).getD { kind := .ssa, strand := 0, slot := 0, stage := 0, ctx := f.ctx, order := 0 }
    let s := (s.failStore f.ctx f.tile c.strand c.part (some (c.slot, c.stage)) k (s.flightVa f)).dropWrite f.wid
    if c.returns then s.modCmdOf f.ctx f.tile f.id (fun c => c.faultAt f.n code) else s
  else s.modCmdOf f.ctx f.tile f.id (fun c => if c.wants f.tag then c.faultAt f.n code else c)

/-- R306, R376: a request that its target has accepted: a write is performed at pod scope and counts, a value is its element's. -/
def State.flightDone (s : State) (f : RemoteFlight) (data : List Byte) : State :=
  if 64 ≤ f.id then (if f.isWrite then s.dropWrite f.wid else s.hostGot f.ctx (f.id - 64) f.addr f.n data [])
  else if 32 ≤ f.id then s.modTileOf f.ctx f.tile (fun u => u.modStrand (f.id - 32) (fun st => { st with sent := st.sent - 1 }))
  else
    let s := if f.isWrite then
        (s.dropWrite f.wid).modTileOf f.ctx f.tile (fun u =>
          if ((u.cmd f.id).map (fun c => c.writes.any (fun w => w.1 == f.wid))).getD false then
            { u with status := u.status.set f.id ((u.status.get {} f.id).add 1) }
          else u)
      else s
    if !((s.flightCmd f).map (fun c => c.wants f.tag)).getD false then s
    else if (s.ctx f.ctx).state == .running && !(s.ctx f.ctx).stopped && (s.ctx f.ctx).saved.isNone then
      -- R328, R377: the answer of a request applied is kept at a stop
      { s with resps := s.resps ++ [(f.tile, { id := f.tag, src := .elem f.tile f.id f.n, data := leNat data, past := [], rmw := f.isWrite })] }
    else s.modCmdOf f.ctx f.tile f.id (fun c => c.given f.tag (leNat data) [])

/-- R109, R370, R376: a response to package dst arrives at a port on a lane. One for another package goes on, by the
path of a request of the host-port engine's number (log 98). -/
def State.respArrives (s : State) (port dst lane : Nat) (r : RemoteResp) : State :=
  if dst ≠ Config.pkgid.toNat then
    let s := s.flitEvent port none
    match s.routePort 576 0 dst with
    | none => s
    | some p => s.toLane p lane { ctx := none, lane, dst, packet := .response r }
  else match s.pkg.flights.find? (fun f => f.tag == r.tag) with
  -- R109: a response that no context waits for is the house account's
  | none => s.flitEvent port none
  | some f =>
    let s := (s.modPkg (fun p => { p with flights := p.flights.filter (fun g => g.tag != r.tag) })).flitEvent port (some f.ctx)
    if r.accepted then s.flightDone f r.data else if r.lost then s.flightFails f .deadlink 20 else s.flightFails f .refused 19

/-- R376: REMOTE_RESPONSE. -/
def execRemoteResponse (a : RespArrival) : State → Out := engine (fun s => (s.respArrives a.port a.dst a.lane a.resp).advanceQps)

/-! ## Dead ports (R375) -/

/-- R375: a flit that waited at a dead port takes the next ready port; without one its request is lost, and its sender told. -/
def State.moveFlit (s : State) (port : Nat) (f : Flit) : State :=
  match f.packet with
  | .response _ =>
    match s.routePort 576 0 f.dst with
    | some p => s.toLane p f.lane f
    | none => s
  | .request r =>
    match s.routePort r.srcTile r.srcStrand f.dst with
    | some p => (s.toLane p f.lane f).modPkg (fun x => { x with
        flights := x.flights.map (fun g => if g.tag = r.tag ∧ r.srcPkg = Config.pkgid.toNat then { g with port := p } else g) })
    | none =>
      match s.pkg.flights.find? (fun g => g.tag == r.tag && r.srcPkg == Config.pkgid.toNat) with
      | none => s.tellLost port r
      | some g => (s.modPkg (fun p => { p with flights := p.flights.filter (fun h => h.tag != g.tag) })).flightFails g .deadlink 20

/-- R375: LINK_DEAD: a port fails: requests sent on it are lost, and those that wait take another port. Requests that have arrived
are served. -/
def execLinkDead (port : Nat) : State → Out := engine (fun s =>
  if !s.unitReady (portUnit port) then s
  else
    let waiting := (s.linkPort port).lanes.flatMap (fun (p : Nat × List Flit) => p.2)
    let replies := (s.linkPort port).replies
    let s := (s.failUnit (portUnit port)).modPort port (fun p => { p with lanes := [], replies := [] })
    let s := replies.foldl (fun (s : State) (x : List Nat × Flit) => match s.routePort 576 0 x.2.dst with
      | some p => s.modPort p (fun q => { q with replies := q.replies ++ [x] })
      | none => s) s
    let tags := waiting.filterMap (fun f => match f.packet with | .request r => if r.srcPkg = Config.pkgid.toNat then some r.tag else none | .response _ => none)
    let lost := s.pkg.flights.filter (fun f => f.port == port && !tags.contains f.tag)
    let s := s.modPkg (fun p => { p with flights := p.flights.filter (fun f => !(f.port == port && !tags.contains f.tag)) })
    (waiting.foldl (fun s f => s.moveFlit port f) (lost.foldl (fun s f => s.flightFails f .deadlink 20) s)).advanceQps)

end Sys2Proof.Machine
end

