-- ==== Sys2Proof/Machine/HostCmd.lean ====
section
/-! DEFINITION. Lantern commands (R81-R86): headers, replies and refusals; partitions, contexts, allowances, modes, records and
windows on endpoint 0 (R31, R89, R90, R93, R110, R118, R135, R371, R400, R401, R419); STATREAD. -/

namespace Sys2Proof

/-- The payload's field [lo + n - 1 : lo]. -/
def Lmsg.at (m : Lmsg) (lo n : Nat) : Nat := field m.payload lo n
/-- A signed field of 8 bytes. -/
def Lmsg.int (m : Lmsg) (lo : Nat) : Int := (BitVec.ofNat 64 (m.at lo 8)).toInt
/-- Are the bytes [hi : lo] zero? -/
def Lmsg.zero (m : Lmsg) (lo hi : Nat) : Bool := m.at lo (hi + 1 - lo) == 0
/-- Does the payload have the length its type has? -/
def Lmsg.len (m : Lmsg) (n : Nat) : Bool := m.payload.length == n

end Sys2Proof

namespace Sys2Proof.Machine

/-! ## Messages taken and answered -/

/-- R81: does a message's tag verify under the endpoint's key? -/
def Endpoint.verifies (e : Endpoint) (m : Lmsg) : Bool :=
  match e.key with
  | some k => m.tag == lanternTag k m.ty m.ep m.seq m.rid false m.payload
  | none => false

/-- R81, R83: a message sent, as the datagram that carries it. -/
def Msg.datagram (x : Msg) : Datagram :=
  { header := lanternHeader x.ty x.ep x.body.length x.seq x.rid, payload := lanternText x.key x.ep x.seq true x.body,
    tag := lanternTag x.key x.ty x.ep x.seq x.rid true x.body }

/-- R81: a datagram with its payload decrypted under the key of the endpoint its header names; one without a key keeps it as it came. -/
def State.opened (s : State) (d : Datagram) : Datagram :=
  let ep := field d.header 4 2
  match (s.pkg.endpoints.get {} ep).key with
  | some k => { d with payload := lanternText k ep (field d.header 8 8) false d.payload }
  | none => d

/-- R81: does a message pass the checks of its endpoint: a key, a tag that verifies, a sequence number in the window and new? -/
def Endpoint.admits (e : Endpoint) (m : Lmsg) : Bool :=
  e.verifies m && decide ((e.highest : Int) - 64 < m.seq) && !e.accepted.contains m.seq

/-- R81: a message's sequence number taken. -/
def Endpoint.accept (e : Endpoint) (seq : Nat) : Endpoint :=
  let h := max e.highest seq
  { e with highest := h, accepted := (seq :: e.accepted).filter (fun x => decide ((h : Int) - 64 < x)) }

/-- R82: commands outstanding on an endpoint. -/
def State.outstanding (s : State) (ep : Nat) : Nat :=
  if ep = 0 then (s.ctxs.filter (fun (p : Nat × Context) => p.2.destroying.isSome)).length
  else ((s.ctx ep).hostOps.filter (fun o => o.kind != 4)).length

/-- R84: the reply to a command: its status and the fields that follow. -/
def State.answerCmd (s : State) (ty : Nat) (m : Lmsg) (status : Nat) (body : List Byte) : State :=
  s.send m.ep (ty + 0x8000) m.rid (leBytes 4 status ++ leBytes 4 0 ++ body)

/-- R81, R83: what becomes of a message of type `ty` before its command is looked at: taken, or dropped with no reply. -/
def State.takeMsg (s : State) (m : Lmsg) : Option State × State :=
  if 288 < m.ep ∨ 8896 < m.payload.length then (none, s.modPkg (fun p => { p with malformed := (p.malformed + 1) % 2 ^ 64 }))
  else
    let e := s.pkg.endpoints.get {} m.ep
    if e.admits m then
      (some ((s.modPkg (fun p => { p with endpoints := p.endpoints.set m.ep (e.accept m.seq) })).frame m.ep (48 + m.payload.length)), s)
    else (none, s.modPkg (fun p => { p with endpoints := p.endpoints.set m.ep { e with drops := e.drops + 1 } }))

/-- R84: the message type of a waiting command. -/
def HostOp.ty (o : HostOp) : Nat :=
  match o.kind with
  | 0 => 0x0102
  | 1 => 0x0103
  | 2 => 0x0104
  | _ => 0x0101

/-- A command's outcome: a status with further fields of its reply, or a reply that comes later. -/
inductive Reply
  | now (s : State) (status : Nat) (body : List Byte)
  | later (s : State)

/-- A refusal. -/
def refuse (s : State) (status : Nat) : Reply := .now s status []
/-- Done. -/
def ok (s : State) (body : List Byte := []) : Reply := .now s 0 body

/-- R31: the body of a PARTFORM reply. -/
def State.formBody (s : State) (u : Nat) : List Byte := leBytes 4 s.pkg.mapSeq ++ leBytes 2 u

/-- R84: the further fields of a command's reply that a refusal before its own checks gives: those of PARTFORM. -/
def State.refusedBody (s : State) (ty : Nat) : List Byte := if ty = 1 then s.formBody 0xFFFF else []

/-- R81-R86: a command received: dropped, refused as BUSY or for its endpoint, or carried out and answered. -/
def hostCommand (ty : Nat) (mgmt : Bool) (m : Lmsg) (f : State → Reply) : State → Out := engine (fun s =>
  match s.takeMsg m with
  | (none, s) => s
  | (some s, _) =>
    if 256 ≤ s.outstanding m.ep then s.answerCmd ty m 1 (s.refusedBody ty)
    else if mgmt && m.ep != 0 then s.answerCmd ty m 2 (s.refusedBody ty)
    else if !mgmt && m.ep == 0 then s.answerCmd ty m 3 []
    else match f s with
      | .now s status body => s.answerCmd ty m status body
      | .later s => s)

/-- R133: a canonical virtual address aligned to a power of two. -/
def vaOk (v align : Nat) : Bool := canonical (w64 v) && v % align == 0

/-- A command on a context it names in bytes [1:0]: NOCTX for one that is not live or is being destroyed. -/
def State.withCtx (s : State) (c : Nat) (f : Context → Reply) : Reply :=
  let x := s.ctx c
  if !x.live || x.destroying.isSome then refuse s 9 else f x

/-! ## Partitions (R31, R89, R135) -/

/-- The set bits of a mask, ascending. -/
def maskBits (n m : Nat) : List Nat := (List.range n).filter (fun i => m.testBit i)

/-- R135: is the range [o, o + n) free on every die of a list and below its capacity? -/
def State.rangeFree (s : State) (dies : List Nat) (o n : Nat) : Bool :=
  dies.all (fun d => decide (o + n ≤ Config.hbmCapacity s.pkg.ordering d)
    && s.formedParts.all (fun (p : Nat × Partition) => !p.2.dies.contains d || overlap o n p.2.base p.2.length == 0))

/-- R135: the lowest offset for a range of n bytes: 0 or where another partition's range ends. -/
def State.findBase (s : State) (dies : List Nat) (n : Nat) : Option Nat :=
  let ends := s.formedParts.map (fun (p : Nat × Partition) => p.2.base + p.2.length)
  lowestBy (fun (o : Nat) => (o : Int)) ((0 :: ends).filter (fun o => s.rangeFree dies o n))

/-- R31, R89, R135: PARTFORM. A used number, octet or port is found before a unit that is not ready (log 75). -/
def State.partForm (s : State) (m : Lmsg) : Reply :=
  let n := m.at 0 1
  let octets := maskBits 72 (m.at 4 9)
  let dies := maskBits 9 (m.at 2 2)
  let ports := maskBits 128 (m.at 16 16)
  let p : Partition := { formed := true, octets, dies, ports, lead := (octets.headD 0) / 8 }
  if !m.len 32 || decide (71 < n) || !m.zero 1 1 || decide (512 ≤ m.at 2 2) || !m.zero 13 15 || octets.isEmpty then
    .now s 4 (s.formBody 0xFFFF)
  else if (s.part n).formed || s.formedParts.any (fun (q : Nat × Partition) =>
      q.2.octets.any octets.contains || q.2.ports.any ports.contains) then .now s 5 (s.formBody 0xFFFF)
  else match p.units.find? (fun u => !s.unitReady u) with
    | some u => .now s 6 (s.formBody u)
    | none =>
      let len := if dies.isEmpty then 0 else octets.length * Config.octetShare s.pkg.ordering / dies.length / 2097152 * 2097152
      match (if dies.isEmpty then some 0 else s.findBase dies len) with
      | none => .now s 7 (s.formBody 0xFFFF)
      | some o => .now (s.modPart n (fun _ => { p with base := o, length := len })) 0 (s.formBody 0xFFFF)

def execPartform (m : Lmsg) : State → Out := hostCommand 0x0001 true m (fun s => s.partForm m)

/-- R89: PARTFREE. -/
def execPartfree (m : Lmsg) : State → Out := hostCommand 0x0002 true m (fun s =>
  let n := m.at 0 1
  if !m.len 1 || decide (71 < n) then refuse s 4
  else if !(s.part n).formed then refuse s 8
  else if !(s.residents n).isEmpty then refuse s 5
  else ok (s.modPart n (fun _ => {})))

/-! ## Contexts (R90, R93, R400) -/

/-- R93: a modes byte a descriptor may hold. -/
def modesOk (b : Nat) : Bool := decide (b < 128) && b / 4 % 4 != 3

/-- R90, R93: crumb-log base and size in range for a replay field. -/
def logOk (rpl base size : Nat) : Bool :=
  if rpl = 0 then base == 0 && size == 0 else vaOk base 4096 && size % 4096 == 0 && decide (65536 ≤ size)

/-- R90: is every field of a context descriptor in range? -/
def ctxOk (m : Lmsg) : Bool :=
  m.len 128 && decide (1 ≤ m.at 0 2) && decide (m.at 0 2 ≤ 288) && decide (m.at 2 1 ≤ 71) && modesOk (m.at 3 1)
    && decide (100 ≤ m.at 4 4) && decide (m.at 4 4 ≤ 100000) && m.at 8 8 % 4096 == 0 && decide (m.at 8 8 < 2 ^ 52)
    && decide (1 ≤ m.int 24) && vaOk (m.at 40 8) 2 && vaOk (m.at 48 8) 4096
    && logOk (m.at 3 1 / 4 % 4) (m.at 56 8) (m.at 64 8) && m.zero 72 127

/-- R90, R110: CTXCREATE. -/
def execCtxcreate (m : Lmsg) : State → Out := hostCommand 0x0003 true m (fun s =>
  let c := m.at 0 2
  let pt := m.at 2 1
  if !(ctxOk m) then refuse s 4
  else if (s.ctx c).live then refuse s 9
  else if !(s.part pt).formed then refuse s 8
  else if 16 ≤ (s.residents pt).length then refuse s 10
  else
    let b : Int := m.int 24 * njUnit
    let g := ((s.ctx c).generation + 1) % 2 ^ 32
    let s := s.modCtx c (fun _ => {
      live := true, generation := g, part := pt, modes := BitVec.ofNat 8 (m.at 3 1),
      -- R105: the tariff holds from creation; the other modes take effect at a dispatch
      liveModes := BitVec.ofNat 8 (m.at 3 1) &&& 2#8, slice := m.at 4 4, root := m.at 8 8,
      ufkey := w64 (m.at 16 8), lowWater := m.int 32, armed := true, balance := b, handler := w64 (m.at 40 8),
      saveArea := m.at 48 8, logBase := m.at 56 8, logSize := m.at 64 8 })
    ok (s.applyDelta c 0 false) (leBytes 4 g))

/-- R400: CTXDESTROY: its reply comes when the destruction ends; commands that wait are refused with NOCTX. -/
def execCtxdestroy (m : Lmsg) : State → Out := hostCommand 0x0004 true m (fun s =>
  let c := m.at 0 2
  if !m.len 2 || decide (288 < c) then refuse s 4
  else s.withCtx c (fun x =>
    let s := (x.hostOps.filter (fun o => o.kind != 4)).foldl (fun s o => s.answerCmd o.ty o.msg 9 []) s
    .later ((s.modCtx c (fun x => { x with destroying := some m.rid, hostOps := [] })).goDestroy c m.rid)))

/-- R82: KEYSET: an endpoint's key set, its sequence counts reset; the reply to a KEYSET of endpoint 0 is the first under the new key
(log 75). -/
def execKeyset (m : Lmsg) : State → Out := hostCommand 0x0005 true m (fun s =>
  let e := m.at 0 2
  if !m.len 40 || decide (288 < e) || !m.zero 2 7 then refuse s 4
  else
    let k : Endpoint := { s.pkg.endpoints.get {} e with key := some (m.payload.drop 8), highest := 0, accepted := [], sentSeq := 0 }
    ok (s.modPkg (fun p => { p with endpoints := p.endpoints.set e k })))

/-- R104, R110, R112: ALLOW, behind the charges that reached the home unit before it. -/
def execAllow (m : Lmsg) : State → Out := hostCommand 0x0006 true m (fun s =>
  let c := m.at 0 2
  if !m.len 16 || decide (288 < c) || !m.zero 2 7 then refuse s 4
  else s.withCtx c (fun _ =>
    let s := (s.applyArrivals (s.homeDie c)).applyDelta c (m.int 8 * njUnit) true
    ok s (leInt 8 (wholeNJ (s.ctx c).balance))))

/-- R93, R401: MODESET: modes, log base and size of a context that is READY or GUTTERED. -/
def execModeset (m : Lmsg) : State → Out := hostCommand 0x0007 true m (fun s =>
  let c := m.at 0 2
  let b := m.at 2 1
  if !m.len 24 || decide (288 < c) || !m.zero 3 7 || !modesOk b || !logOk (b / 4 % 4) (m.at 8 8) (m.at 16 8) then refuse s 4
  else s.withCtx c (fun x =>
    let change := decide (b / 4 % 4 ≠ (x.modes.extractLsb' 2 2).toNat)
    match x.state with
    | .running => refuse s 5
    | .faulted => refuse s 12
    | _ =>
      if change && x.pipes.any (fun (p : Nat × Pipeline) => p.2.active) then refuse s 5
      else ok (s.modCtx c (fun x =>
        let x := { x with modes := BitVec.ofNat 8 b, logBase := m.at 8 8, logSize := m.at 16 8 }
        if change then { x with replayChecked := false, replayPos := 0, replayed := [], hostCrumbs := [] } else x))))

/-! ## Units and records (R29-R36) -/

/-- R29: RETEST. -/
def execRetest (m : Lmsg) : State → Out := hostCommand 0x0008 true m (fun s =>
  let u := m.at 0 2
  if !m.len 2 || decide (221 < u) then refuse s 4
  else if s.unitInUse u then refuse s 5
  else ok (if s.unit u == .untested then s else s.setUnit u .untested))

/-- R30: MAPREAD. -/
def execMapread (m : Lmsg) : State → Out := hostCommand 0x0009 true m (fun s => if m.len 0 then ok s s.mapBytes else refuse s 4)
/-- R33, R35: HEALTHREAD. -/
def execHealthread (m : Lmsg) : State → Out := hostCommand 0x000A true m (fun s => if m.len 0 then ok s s.healthBytes else refuse s 4)
/-- R36: IDREAD. -/
def execIdread (m : Lmsg) : State → Out := hostCommand 0x000B true m (fun s => if m.len 0 then ok s s.identityBytes else refuse s 4)

/-- R118: PROOFSET. -/
def execProofset (m : Lmsg) : State → Out := hostCommand 0x000C true m (fun s =>
  let n := m.at 0 1
  let i := m.at 4 4
  if !m.len 8 || decide (71 < n) || !m.zero 1 3 || i % 4096 != 0 || decide (i < 4096) || decide (1048576 < i) then refuse s 4
  else if !(s.part n).formed then refuse s 8
  else ok (s.modPart n (fun p => { p with nextInterval := i })))

/-- R371: a window record in range. -/
def windowOk (m : Lmsg) : Bool :=
  decide (m.at 8 1 < 4) && decide (1 ≤ m.at 9 1) && decide (m.at 9 1 ≤ 15) && decide (1 ≤ m.at 10 2) && decide (m.at 10 2 ≤ 288)
    && decide (m.at 12 3 < 2 ^ 19) && m.zero 15 23 && canonical (w64 (m.at 24 8)) && m.at 32 8 % 4096 == 0
    && decide (4096 ≤ m.at 32 8) && decide (m.at 32 8 ≤ 2 ^ 45)

/-- R371: WINSET. -/
def execWinset (m : Lmsg) : State → Out := hostCommand 0x000D true m (fun s =>
  let c := m.at 0 2
  if !m.len 40 || decide (288 < c) || decide (63 < m.at 2 1) || !m.zero 3 7 || !(windowOk m) then refuse s 4
  else s.withCtx c (fun x =>
    if x.state == .running then refuse s 5
    else
      let w : Window := { out := (m.at 8 1).testBit 0, inn := (m.at 8 1).testBit 1, lane := m.at 9 1, rctx := m.at 10 2,
                          rpkg := m.at 12 3, base := m.at 24 8, size := m.at 32 8 }
      ok (s.modCtx c (fun x => { x with windows := x.windows.set (m.at 2 1) w }))))

/-- R419: TRAFFIC. -/
def execTraffic (m : Lmsg) : State → Out := hostCommand 0x000E true m (fun s =>
  if !m.len 0 then refuse s 4
  else
    let body := (List.range 9).flatMap (fun d => leBytes 8 (s.die d).localReqs ++ leBytes 8 (s.die d).remoteReqs)
    ok ((List.range 9).foldl (fun s d => s.modDie d (fun x => { x with localReqs := 0, remoteReqs := 0 })) s) body)

/-- R26: TRIPCLEAR. -/
def execTripclear (m : Lmsg) : State → Out := hostCommand 0x000F true m (fun s =>
  if !m.len 0 then refuse s 4 else ok (s.modPkg (fun p => { p with tripClear := p.tripped })).tripped)

/-- R84: STATREAD. -/
def execStatread (m : Lmsg) : State → Out := hostCommand 0x0105 false m (fun s =>
  if !m.len 0 then refuse s 4
  else s.withCtx m.ep (fun x =>
    let slots := sumNat ((x.pipes.filter (fun (p : Nat × Pipeline) => p.2.active)).map (fun (p : Nat × Pipeline) => 2 ^ p.1))
    ok s (leBytes 1 x.state.code ++ leBytes 7 0 ++ leInt 8 (wholeNJ x.balance) ++ leBytes 1 slots ++ leBytes 7 0)))

/-- R81-R83: LANTERN_MESSAGE_DROP: a malformed message is counted, one its endpoint does not admit is counted there, and one of a
type that R84 does not assign is refused with BADCMD. -/
def execLanternMessageDrop (d : Datagram) : State → Out := engine (fun s =>
  if !d.wellFormed then s.modPkg (fun p => { p with malformed := (p.malformed + 1) % 2 ^ 64 })
  else match s.takeMsg d.msg with
    | (none, s) => s
    | (some s, _) => s.answerCmd (field d.header 2 2) d.msg 3 [])

end Sys2Proof.Machine
end

