-- ==== Sys2Proof/Machine/HostWork.lean ====
section
/-! DEFINITION. The commands of a virtual function (R95-R99, R398), page replies (R149-R151), the host messages that wait (R290, R405),
the crumb log and replay (R402-R405). -/

namespace Sys2Proof.Machine

/-! ## Records of host messages (R403) -/

/-- R403: a host message's record: in the log, or kept for a log that its context's next dispatch begins. -/
def State.recordHost (s : State) (c : Nat) (r : Crumb) : State :=
  let x := s.ctx c
  if x.rpl = 1 then s.record c r
  else if x.msgRpl = 1 then s.modCtx c (fun x => { x with hostCrumbs := x.hostCrumbs ++ [r] })
  else s

/-! ## Outcomes of waiting messages -/

/-- What a message comes to when it is tried: done and answered, or still waiting. -/
inductive Tried
  | done (s : State)
  | stay (s : State) (op : HostOp)

/-- A reply sent, and the message done. -/
def HostOp.finish (o : HostOp) (s : State) (status : Nat) (body : List Byte) : Tried := .done (s.answerCmd o.ty o.msg status body)

/-! ## QFEED, QTAKE, QEND (R98, R353, R398) -/

/-- The active pipeline slot a handle names. -/
def Context.slotOf (c : Context) (h : Nat) : Option Nat :=
  (c.pipes.find? (fun (p : Nat × Pipeline) => p.2.active && p.2.handle == h)).map (fun (p : Nat × Pipeline) => p.1)

/-- R98, R332: item i of a QFEED, after the events of the host-port engine that are given. -/
def feedItem (m : Lmsg) (relaxed : Bool) (i : Nat) (past : List Nat) : Item :=
  let o := 8 + 72 * i
  { payload := (List.range 8).map (fun k => w64 (m.at (o + 8 * k) 8)), tag := w32 (m.at (o + 64) 4),
    key := if relaxed then w32 (m.at (o + 68) 4) else 0, past }

/-- R290: does a spill access of the queue wait on its translation? -/
def State.spillWaits (s : State) (c slot q : Nat) : Bool :=
  (s.die (s.reqDie (.spill c slot q))).misses.any (fun m => m.who == .spill c slot q)

/-- R98, R128, R353: the items of a QFEED from number `count` on, at most n; a closed or poisoned queue takes none; false when one must
wait: for the spill area, or under replay for room (R405). -/
def State.feed (s : State) (c slot q : Nat) (o : HostOp) : Nat → State × HostOp × Bool
  | 0 => (s, o, true)
  | n + 1 =>
    let p := s.pipe c slot
    let x := p.queue q
    let full : Bool := (s.ctx c).rpl != 2
    if x.closed ∨ x.poisoned then (s, o, true)
    else if p.free q = 0 ∧ !x.desc.spill then (s, o, full)
    else match s.deliver c slot q (x.hostCursor % x.desc.k) none (feedItem o.msg x.desc.relaxed o.count (s.livePast s.pkg.hostPast))
        (p.free q == 0) with
      | .done s =>
        (s.modQueue c slot q (fun y => { y with hostCursor := (x.hostCursor + 1) % x.desc.k })).feed c slot q { o with count := o.count + 1 } n
      | .wait s => (s, o, full && !s.spillWaits c slot q)
      | .failed s _ => (s, o, true)

/-- R98, R128, R332: items of a QTAKE popped, at most n, each with its causal past; false when one must wait for spilled items to return. -/
def State.drainTake (s : State) (c slot q : Nat) (o : HostOp) : Nat → State × HostOp × Bool
  | 0 => (s, o, true)
  | n + 1 =>
    match s.popItem c slot q none with
    | some (it, s, _) => (s.hostSaw it.past).drainTake c slot q { o with count := o.count + 1, got := o.got ++ [it] } n
    | none =>
      let x := (s.pipe c slot).queue q
      (s, o, x.items == 0 && x.spilled == 0 && (s.ctx c).rpl != 2)

/-- R84, R98: the entries of a QTAKE's reply. -/
def takeBody (relaxed : Bool) (l : List Item) : List Byte :=
  leBytes 1 l.length ++ leBytes 7 0 ++ l.flatMap (fun i =>
    i.payload.flatMap (fun w => leBytes 8 w.toNat) ++ leBytes 4 i.tag.toNat ++ leBytes 4 (if relaxed then i.key.toNat else 0))

/-- R405: a message's logged point: it waits for its record and for the record's counts; what the record allows it. -/
inductive Point
  | wait
  | go (s : State) (limit : Option Nat)

/-- R405: the logged point of a message on a queue. -/
def State.queuePoint (s : State) (c slot q : Nat) (o : HostOp) : Point :=
  if (s.ctx c).msgRpl ≠ 2 then .go s none
  else
    let x := (s.pipe c slot).queue q
    match s.takeRecord c (fun r => r.kind == 5 && r.sub == o.kind && r.b == queueKey slot q) with
    | none => .wait
    | some (r, t) =>
      if x.pops = r.c ∧ x.pushes = r.d then .go t (some r.a)
      else if r.c < x.pops ∨ r.d < x.pushes then .go (t.replayDiv c r) none
      else .wait

/-- R95, R98, R353, R398: a message on a queue tried: held until its pipeline has started and its logged point is reached. The handle
is active until the pipeline's token is written. -/
def State.tryQueueOp (s : State) (c : Nat) (o : HostOp) : Tried :=
  let q := o.msg.at 2 1
  match (s.ctx c).slotOf (o.msg.at 0 2) with
  | none => o.finish s 14 []
  | some slot =>
    let p := s.pipe c slot
    let x := p.queue q
    if !p.started then .stay s o
    else if p.queues.length ≤ q ∨ !x.desc.ext then o.finish s 14 []
    -- R353: a feed that finds its queue closed or poisoned is refused (log 8)
    else if o.kind = 0 ∧ o.count = 0 ∧ (x.closed ∨ x.poisoned) then o.finish s 14 []
    else match (if o.begun then .go s none else s.queuePoint c slot q o) with
      | .wait => .stay s o
      | .go s limit =>
        let most := min (limit.getD 16) (o.msg.at 3 1)
        let o' := if o.begun then o else { o with begun := true, msg := { o.msg with payload := o.msg.payload.set 3 (byte most) } }
        let log (s : State) (n : Nat) : State :=
          s.recordHost c { kind := 5, sub := o.kind, a := n, b := queueKey slot q, c := x.pops - (if o.kind = 1 then o.count else 0),
                           d := x.pushes - (if o.kind = 0 then o.count else 0) }
        match o.kind with
        | 0 =>
          let (s, r, fin) := s.feed c slot q o' (o'.msg.at 3 1 - o.count)
          if fin then r.finish (log s r.count) 0 (leBytes 1 r.count) else .stay s r
        | 1 =>
          let (s, r, fin) := s.drainTake c slot q o' (o'.msg.at 3 1 - o.count)
          if fin then r.finish (log s r.count) 0 (takeBody x.desc.relaxed r.got) else .stay s r
        | _ => o'.finish ((log s 0).modQueue c slot q (fun y => { y with closed := true })) 0 []

/-! ## LAUNCH (R95, R96, R99, R405) -/

/-- R84, R96: is a handle in range? The serial 0x1FFF is never given. -/
def handleOk (h : Nat) : Bool := h % 0x2000 != 0x1FFF

/-- R95: is a launch record in range? (A trigger handle that names nothing is R99's BADTRIG.) -/
def launchOk (m : Lmsg) : Bool :=
  m.len 64 && vaOk (m.at 0 8) 64 && vaOk (m.at 8 8) 8 && m.zero 18 19 && m.zero 28 63 && (m.at 16 2 != 0xFFFF || m.at 20 4 == 0)

/-- R95, R96: the slot an accepted launch takes: the lowest with no active pipeline (log 75). -/
def Context.freeSlot (c : Context) : Option Nat := (List.range 8).find? (fun k => !(c.pipe k).active)

/-- R99: what a launch's trigger makes of it: started at once, waiting, ended UPSTREAM, or refused. -/
def Context.triggered (c : Context) (p : Pipeline) : Option Pipeline :=
  if p.trigHandle = 0xFFFF then some { p with ready := true }
  else match c.slotOf p.trigHandle with
    | some k => some (p.afterTrig (c.pipe k))
    | none => match c.outcomes.find? (fun o => o.1 == p.trigHandle) with
      | some (_, true) => some { p with ready := true }
      | some (_, false) => some { p with ending := some (2, []) }
      | none => none

/-- R95, R96, R403: a launch accepted or refused. -/
def State.doLaunch (s : State) (c : Nat) (o : HostOp) : Tried :=
  let m := o.msg
  let x := s.ctx c
  match x.freeSlot with
  | none => o.finish s 11 []
  | some slot =>
    let n := (x.pipe slot).serial
    let h := slot * 8192 + n
    let p : Pipeline := { active := true, handle := h, serial := (n + 1) % 0x1FFF, descVa := m.at 0 8, tokenVa := m.at 8 8,
                          trigHandle := m.at 16 2, trigN := m.at 20 4, userTag := m.at 24 4 }
    match x.triggered p with
    | none => o.finish s 13 []
    | some p =>
      o.finish ((s.modPipe c slot (fun _ => p)).recordHost c { kind := 5, sub := 3, a := x.interval, b := h }) 0 (leBytes 2 h)

/-- What comparing the log's header with the partition comes to: they agree, its page is waited for, or they differ. -/
inductive Checked
  | same (s : State)
  | wait (s : State)
  | differ (s : State)

/-- R405: the log's header compared with the partition at the first LAUNCH under replay. A header that cannot be read for good agrees with
none (log 110). -/
def State.checkReplay (s : State) (c : Nat) : Checked :=
  let x := s.ctx c
  if x.msgRpl ≠ 2 ∨ x.replayChecked then .same s
  else
    let p := s.part x.part
    match s.readVa (.scheduler c) c (s.leadTile c) x.logBase 64 false with
    | .wait s => .wait s
    | .fault s _ _ _ => .differ s
    | .ok s b =>
      if leNat (cut b 8 1) = p.octets.length ∧ leNat (cut b 9 1) = p.dies.length then
        .same (s.modCtx c (fun x => { x with replayChecked := true, crumbCount := leNat (cut b 24 8) }))
      else .differ s

/-- R405: a LAUNCH whose log agrees: under replay it waits for the logged interval, or for a context at rest whose intervals do not
pass. -/
def State.launchPoint (s : State) (c : Nat) (o : HostOp) : Tried :=
  let x := s.ctx c
  if x.msgRpl ≠ 2 then s.doLaunch c o
  else match s.takeRecord c (fun r => r.kind == 5 && r.sub == 3) with
    | none => .stay s o
    | some (r, t) =>
      if x.interval < r.a ∧ x.pipes.any (fun (p : Nat × Pipeline) => p.2.active) then .stay s o
      else match t.doLaunch c o with
        | .done t =>
          let h := (x.freeSlot.map (fun k => k * 8192 + (x.pipe k).serial)).getD 0xFFFF
          .done (if h = r.b then t else t.replayDiv c r)
        | .stay t o => .stay t o

/-- R95, R405: a LAUNCH tried. -/
def State.tryLaunch (s : State) (c : Nat) (o : HostOp) : Tried :=
  if (s.ctx c).state == .faulted then o.finish s 12 []
  else match s.checkReplay c with
    | .same s => s.launchPoint c o
    | .wait s => .stay s o
    | .differ s => o.finish s 15 []

/-! ## Page replies (R149-R151) -/

/-- Every miss of a context that waits on a page request. -/
def State.pageMisses (s : State) (c rid : Nat) : List Miss :=
  s.dies.flatMap (fun (d : Nat × Die) => d.2.misses.filter (fun m => m.ctx == c && m.stand == .page rid))

/-- A miss given a new standing, or dropped. -/
def State.setMiss (s : State) (m : Miss) (x : Option XWait) : State :=
  { s with dies := s.dies.map (fun (d : Nat × Die) => (d.1, { d.2 with
      misses := d.2.misses.filterMap (fun n => if n == m then x.map (fun x => { n with stand := x }) else some n) })) }

/-- R403: the decider of a page reply: tile and stream or strand. -/
def Requester.crumb : Requester → Nat × Nat
  | .strand t n | .fetcher t n => (t, 0x20 + n)
  | .command t i => (t, i)
  | .loader t | .saver t => (t, 0xFF)
  | _ => (0xFFFF, 0xFF)

/-- R44, R405: does a miss of the scheduler come from a launch's descriptor reads, or from its read of the log's header? -/
def State.launchMiss (s : State) (c va : Nat) : Bool :=
  (!(s.ctx c).replayChecked && (s.ctx c).hostOps.any (fun o => o.kind == 3) && (s.ctx c).logBase / 4096 == va / 4096)
  || (s.ctx c).pipes.any (fun (p : Nat × Pipeline) => p.2.active && p.2.ready && !p.2.started && p.2.ending.isNone
    && (match nextDesc p.2.copy p.2.descVa with
      | some (_, _, a, n) => (pagesOf a n).any (fun p => p / 4096 == va / 4096)
      | none => false))

/-- R150, R151, R303: a command that its failed page ends: FAULT at that element, behind those before it; at once for one that is saved. -/
def State.failCmd (s : State) (c t i : Nat) : State :=
  if (s.ctx c).saved.isSome || (s.ctx c).stopped then s.faultOut c t i
  else s.modCmd t i (fun k => { k with fault := some (k.fault.getD 8) })

/-- R44, R88, R150, R290, R389: a failure reply met by one waiting access: handed to it where its rule decides, else the context
faults. -/
def State.failMiss (s : State) (c : Nat) (m : Miss) : State :=
  let x := s.ctx c
  let handOver (s : State) : State := s.setMiss m (some (.failed m.va))
  let gone (s : State) (r : FaultRec) : State := (s.setMiss m none).fatal c { r with cause := 0x40, va := m.addr, trapv := w64 m.addr }
  let device := x.stopped || (x.saved.isSome && x.state == .running)
  match m.who with
  | .hostPort .. | .spill .. | .ingress _ | .saver _ => handOver s
  | .scheduler _ => if device || s.launchMiss c m.va then handOver s else gone s {}
  | .loader t =>
    -- R155: a copy that fails leaves the tile unconfigured; one that fails before its turn (R159) changes nothing
    match s.tileOf c t with
    | none => handOver s
    | some u => match u.takeUp with
      | .loading _ => gone (s.modTileOf c t (fun u => { u with code := [], dictN := 0 })) { tile := t }
      | .imaging => gone s { tile := t }
      | _ => if u.load.isSome then gone s { tile := t } else handOver s
  | .strand t n | .fetcher t n =>
    let pc := ((s.tileOf c t).map (fun u => (u.strand n).pc)).getD 0
    gone (s.modTileOf c t (fun u => { u with stopping := true })) { tile := t, strand := n, trappc := pc }
  | .command t i =>
    let n := ((s.tileOf c t).bind (fun u => u.cmd i)).map (fun k => k.strand)
    let pc := ((s.tileOf c t).map (fun u => (u.strand (n.getD 0)).pc)).getD 0
    gone (s.failCmd c t i) { tile := t, strand := n.getD 0xFF, trappc := pc, stream := i }

/-- R150, R151: what a page that came makes of an access: it walks again, once its context is restored when that is out. -/
def State.pageCame (s : State) (c : Nat) (m : Miss) : XWait :=
  let x := s.ctx c
  let tiles := match m.who with
    | .strand .. | .fetcher .. | .command .. | .loader _ => true
    | _ => false
  if tiles && (x.state != .running || x.stopped || x.saved.isSome) then .held else .walk

/-- R150, R151: a page reply applied. -/
def State.applyPage (s : State) (c rid : Nat) (okay : Bool) : State :=
  let l := s.pageMisses c rid
  let s := match l with
    | [] => s
    | m :: _ =>
      let t := m.who.crumb.1
      s.record c { kind := 6, sub := m.who.crumb.2, tile := if t = 0xFFFF then t else s.ordinal c t, a := rid,
                   b := ((s.tileOf c t).map (fun (u : Tile) => u.steps)).getD 0 }
  let s := s.modCtx c (fun x => { x with pageReqs := x.pageReqs.filter (fun r => r.rid != rid) })
  (l.foldl (fun s m => if okay then s.setMiss m (some (s.pageCame c m)) else s.failMiss c m) s).grantPages c

/-- R405: a page reply tried: under replay no earlier than the logged tile step count. -/
def State.tryPage (s : State) (c : Nat) (o : HostOp) : Tried :=
  let rid := o.msg.at 0 4
  let go (s : State) : Tried := .done (s.applyPage c rid (o.msg.at 8 1 == 0))
  if (s.ctx c).rpl ≠ 2 then go s
  else match s.takeRecord c (fun r => r.kind == 6 && r.a == rid) with
    | none => if (s.ctx c).crumbCount ≤ (s.ctx c).replayPos then go s else .stay s o
    | some (r, t) =>
      match ((s.part (s.ctx c).part).tiles)[r.tile]? with
      | none => go t
      | some k => if r.b ≤ ((s.tileOf c k).map (fun (u : Tile) => u.steps)).getD 0 then go t else .stay s o

/-! ## Messages that wait -/

/-- Two waiting messages on one queue. -/
def HostOp.sameQueue (a b : HostOp) : Bool :=
  decide (a.kind < 3) && decide (b.kind < 3) && a.msg.at 0 2 == b.msg.at 0 2 && a.msg.at 2 1 == b.msg.at 2 1

/-- One waiting message tried. -/
def State.tryOp (s : State) (c : Nat) (o : HostOp) : Tried :=
  match o.kind with
  | 0 | 1 | 2 => s.tryQueueOp c o
  | 3 => s.tryLaunch c o
  | _ => s.tryPage c o

/-- Waiting messages tried in the order they came, each behind an earlier one on its queue. -/
def State.tryOps (s : State) (c : Nat) : List HostOp → List HostOp → State × List HostOp
  | [], kept => (s, kept)
  | o :: rest, kept =>
    if kept.any (fun k => k.sameQueue o || (k.kind == 3 && o.kind == 3)) then s.tryOps c rest (kept ++ [o])
    else match s.tryOp c o with
      | .done s => s.tryOps c rest kept
      | .stay s o => s.tryOps c rest (kept ++ [o])

/-- R98, R290, R405: the waiting messages of a context go on. -/
def State.runOps (s : State) (c : Nat) : State :=
  let l := (s.ctx c).hostOps
  if l.isEmpty then s
  else
    let (s, kept) := (s.modCtx c (fun x => { x with hostOps := [] })).tryOps c l []
    s.modCtx c (fun x => { x with hostOps := kept ++ x.hostOps })

/-- A message put behind those that wait, and tried. -/
def State.queueOp (s : State) (c kind : Nat) (m : Lmsg) : State :=
  (s.modCtx c (fun x => { x with hostOps := x.hostOps ++ [{ kind, msg := m }] })).runOps c

/-- R95: LAUNCH. -/
def execLaunch (m : Lmsg) : State → Out := hostCommand 0x0101 false m (fun s =>
  if !(launchOk m) then refuse s 4
  else s.withCtx m.ep (fun x =>
    if x.state == .faulted then refuse s 12
    else if x.freeSlot.isNone then refuse s 11
    else if (x.triggered { trigHandle := m.at 16 2 }).isNone then refuse s 13
    else .later (s.queueOp m.ep 3 m)))

/-- R98: QFEED. -/
def execQfeed (m : Lmsg) : State → Out := hostCommand 0x0102 false m (fun s =>
  let n := m.at 3 1
  if n = 0 ∨ 16 < n ∨ !m.len (8 + 72 * n) ∨ !handleOk (m.at 0 2) ∨ 127 < m.at 2 1 ∨ !m.zero 4 7 then refuse s 4
  else s.withCtx m.ep (fun _ => .later (s.queueOp m.ep 0 m)))

/-- R98: QTAKE. -/
def execQtake (m : Lmsg) : State → Out := hostCommand 0x0103 false m (fun s =>
  let n := m.at 3 1
  if n = 0 ∨ 16 < n ∨ !m.len 4 ∨ !handleOk (m.at 0 2) ∨ 127 < m.at 2 1 then refuse s 4
  else s.withCtx m.ep (fun _ => .later (s.queueOp m.ep 1 m)))

/-- R398: QEND. -/
def execQend (m : Lmsg) : State → Out := hostCommand 0x0104 false m (fun s =>
  if !m.len 3 || !handleOk (m.at 0 2) || decide (127 < m.at 2 1) then refuse s 4
  else s.withCtx m.ep (fun _ => .later (s.queueOp m.ep 2 m)))

/-- R150: PAGEREPLY: a reply for another generation or an id that is not outstanding is counted as stale. -/
def execPagereply (m : Lmsg) : State → Out := engine (fun s =>
  match s.takeMsg m with
  | (none, s) => s
  | (some s, _) =>
    let x := s.ctx m.ep
    if m.ep = 0 ∨ !m.len 9 ∨ 1 < m.at 8 1 ∨ !x.live ∨ m.at 4 4 ≠ x.generation
        ∨ !x.pageReqs.any (fun r => r.rid == m.at 0 4) ∨ x.hostOps.any (fun o => o.kind == 4 && o.msg.at 0 4 == m.at 0 4) then
      s.modPkg (fun p =>
        let e := p.endpoints.get {} m.ep
        { p with endpoints := p.endpoints.set m.ep { e with stale := e.stale + 1 } })
    else s.queueOp m.ep 4 m)

/-! ## The crumb log (R401-R404) -/

/-- R403: a record's 32 bytes. -/
def Crumb.bytes (r : Crumb) : List Byte :=
  leBytes 1 r.kind ++ leBytes 1 r.sub ++ leBytes 2 r.tile ++ leBytes 4 r.a ++ leBytes 8 r.b ++ leBytes 8 r.c ++ leBytes 8 r.d

/-- R403: the record 32 bytes hold. -/
def Crumb.ofBytes (b : List Byte) : Crumb :=
  { kind := field b 0 1, sub := field b 1 1, tile := field b 2 2, a := field b 4 4, b := field b 8 8, c := field b 16 8, d := field b 24 8 }

/-- R402: the header. -/
def State.logHeader (s : State) (c : Nat) : List Byte :=
  let x := s.ctx c
  let p := s.part x.part
  leBytes 2 1 ++ leBytes 2 c ++ leBytes 4 x.generation ++ leBytes 1 p.octets.length ++ leBytes 1 p.dies.length
    ++ leBytes 1 (x.trunc.toNat + 2 * x.recFixt.toNat) ++ [0] ++ [0x42#8, 0x30#8] ++ leBytes 2 0 ++ leBytes 4 Config.errataRevision.toNat
    ++ leBytes 4 0 ++ leBytes 8 x.crumbCount ++ List.replicate 32 0

/-- R404: recording stops; what was still to be written is not. -/
def State.logFull (s : State) (c : Nat) : State :=
  (s.modCtx c (fun x => { x with trunc := true, crumbs := [] })).event c 0x400A c (leBytes 8 (s.ctx c).crumbCount)

/-- R402: the header written again with the count of the records now behind it; one that has to wait is owed. -/
def State.putHeader (s : State) (c : Nat) : State :=
  match s.writeVa (.scheduler c) c (s.leadTile c) (s.ctx c).liveLog.1 (s.logHeader c) false with
  | .ok s => s.modCtx c (fun x => { x with headerDue := false })
  | .wait s => s.modCtx c (fun x => { x with headerDue := true })
  | .fault s _ _ _ => s.modCtx c (fun x => { x with headerDue := false })

/-- R402, R404, R429: CRUMB_RECORD_WRITE: the header, then the next record behind those written, with the header's count; for a context
that has faulted too. -/
def execCrumbRecordWrite (c : Nat) : State → Out := engine (fun s =>
  let x := s.ctx c
  let (base, size) := x.liveLog
  let put (s : State) (off : Nat) (data : List Byte) (f : State → State) : State :=
    match s.writeVa (.scheduler c) c (s.leadTile c) (base + off) data false with
    | .ok s => f s
    | .wait s => s
    | .fault s _ _ _ => s.logFull c
  if !x.live || x.destroying.isSome then s
  else if x.headerDue then s.putHeader c
  else if x.rpl = 1 ∧ !x.logStarted then put s 0 (s.logHeader c) (fun s => s.modCtx c (fun x => { x with logStarted := true }))
  else match x.crumbs with
    | [] => s
    | r :: rest =>
      if size < 64 + 32 * (x.crumbCount + 1) then
        put (s.modCtx c (fun x => { x with trunc := true })) 0 ((s.modCtx c (fun x => { x with trunc := true })).logHeader c) (fun s => s.logFull c)
      else put s (64 + 32 * x.crumbCount) r.bytes (fun s =>
        (s.modCtx c (fun x => { x with crumbs := rest, crumbCount := x.crumbCount + 1 })).putHeader c))

/-! ## Replay (R405) -/

/-- R405: RPL becomes off; a gutter that was put off is due. -/
def State.leaveReplay (s : State) (c : Nat) : State :=
  let s := s.modCtx c (fun x => { x with liveModes := x.liveModes &&& 0xF3#8, modes := x.modes &&& 0xF3#8, calib := [], replayed := [] })
  if (s.ctx c).balance ≤ 0 then s.gutter c else s

/-- R405: a STOP record, debugger halts apart, of tile ordinal i. -/
def Context.stopOf (c : Context) (i : Nat) : Option Crumb := c.replayed.find? (fun r => r.kind == 7 && decide (r.sub < 4) && r.tile == i)

/-- Steps of the i-th tile of a context's partition. -/
def State.stepsOf (s : State) (c i : Nat) : Nat :=
  match ((s.part (s.ctx c).part).tiles)[i]? with
  | some t => ((s.tileOf c t).map (fun (u : Tile) => u.steps)).getD 0
  | none => 0

/-- R405: when every tile has reached its logged step count, the stop is taken: GUTTERED for a balance at or below zero. -/
def State.replayStop (s : State) (c : Nat) : State :=
  let x := s.ctx c
  let n := (s.part x.part).tiles.length
  let recs := (List.range n).filterMap x.stopOf
  if x.state != .running || n = 0 || recs.length != n || !recs.all (fun r => decide (r.b ≤ s.stepsOf c r.tile)) then s
  else
    let s := s.modCtx c (fun x => { x with replayed := recs.foldl (fun l r => l.erase r) x.replayed })
    if (s.ctx c).balance ≤ 0 then s.askStop c .guttered 1 else s.askStop c .ready 0

/-- R94, R405: logged halts whose step count is reached. -/
def State.replayHalts (s : State) (c : Nat) : State :=
  let x := s.ctx c
  (x.replayed.filter (fun r => r.kind == 7 && r.sub == 4 && decide (r.b ≤ s.stepsOf c r.tile))).foldl (fun s r =>
    let s := s.modCtx c (fun x => { x with replayed := x.replayed.erase r })
    match ((s.part x.part).tiles)[r.tile]? with
    | some t => s.modTileOf c t (fun u => { u.modStrand r.a (fun st => { st with halted := true }) with freeze := u.freeze || x.liveModes.getLsbD 5 })
    | none => s) s

/-- R405: where a replayed log lies: as in effect, or as the next dispatch makes it. -/
def Context.replayLog (c : Context) : Nat := if c.rpl = 2 then c.liveLog.1 else c.logBase

/-- R406: a record read: a factor that stands before anything of the context has taken a tile is the one its recording began with, and
holds at once (log 107); every other record waits for its decider. -/
def State.takeRead (s : State) (c : Nat) (r : Crumb) : State :=
  let x := s.ctx c
  let first := x.pipes.all (fun (p : Nat × Pipeline) => p.2.stages.all (fun g => g.tiles.isEmpty)) && x.moves.isEmpty
    && !x.replayed.any (fun q => q.kind == 1)
  let s := s.modCtx c (fun x => { x with replayPos := x.replayPos + 1 })
  if r.kind = 8 ∧ first then s.modCtx c (fun x => { x with calib := x.calib.set r.sub (BitVec.ofNat 16 r.b) })
  else s.modCtx c (fun x => { x with replayed := x.replayed ++ [r] })

/-- R129, R131: the releases of every pipeline of a context that waited for the log, tried again. -/
def State.releaseCtx (s : State) (c : Nat) : State :=
  (s.ctx c).pipes.foldl (fun (s : State) (p : Nat × Pipeline) => s.releasePipe c p.1) s

/-- R405: REPLAY_RECORD_TAKE: the next record read; stops, halts, releases and waiting messages whose point is reached; the log's end. -/
def execReplayRecordTake (c : Nat) : State → Out := engine (fun s =>
  let x := s.ctx c
  if !x.live || x.destroying.isSome || !x.replayChecked || x.msgRpl != 2 || x.state == .faulted then s
  else
    let s :=
      if x.crumbCount ≤ x.replayPos then s
      else match s.readVa (.scheduler c) c (s.leadTile c) (x.replayLog + 64 + 32 * x.replayPos) 32 false with
        | .ok s b => s.takeRead c (Crumb.ofBytes b)
        | .wait s => s
        | .fault s _ _ _ => s.modCtx c (fun x => { x with crumbCount := x.replayPos })
    let s := (((s.replayStop c).replayHalts c).releaseCtx c).runOps c
    let x := s.ctx c
    if x.msgRpl = 2 ∧ x.crumbCount ≤ x.replayPos ∧ x.replayed.isEmpty then
      (((s.leaveReplay c).event c 0x400C c (leBytes 8 x.crumbCount)).releaseCtx c).runOps c
    else s)

/-- R405: a tile under replay issues nothing until its next STOP record or the log's end is read, and nothing past that record. -/
def State.replayHolds (s : State) (t : Nat) : Bool :=
  let c := (s.tile t).ctx
  let x := s.ctx c
  let i := s.ordinal c t
  x.rpl == 2 && (match x.stopOf i with
    | some r => decide (r.b ≤ (s.tile t).steps)
    | none => decide (x.replayPos < x.crumbCount))
    || (x.rpl == 2 && x.replayed.any (fun r => r.kind == 7 && r.sub == 4 && r.tile == i && r.a == (s.tile t).cur && decide (r.b ≤ (s.tile t).steps)))

/-! ## Engines whose work lets messages go on -/

/-- R129, R290: SPILL_RETURN: a spilled item returns, and the releases and host messages that waited for the spill area go on. -/
def execSpillReturn (c slot q : Nat) : State → Out := engine (fun s => ((s.spillBack c slot q).releasePipe c slot).runOps c)

end Sys2Proof.Machine
end

