-- ==== Sys2Proof/Machine/Debug.lean ====
section
/-! DEFINITION. Debugger commands (R392-R395). -/

namespace Sys2Proof.Machine

/-- R84: a debugger command's fields in range, its tile one of the context's partition; then the command. -/
def debugCommand (ty extra : Nat) (m : Lmsg) (f : Nat → Nat → List Nat → State → Reply) : State → Out := hostCommand ty true m (fun s =>
  let c := m.at 0 2
  let t := m.at 2 2
  let n := m.at 4 1
  if m.payload.length < 8 + extra ∨ (extra = 0 ∧ !m.len 8) ∨ 288 < c ∨ 575 < t ∨ (7 < n ∧ n ≠ 0xFF) ∨ !m.zero 5 7 then refuse s 4
  else s.withCtx c (fun x =>
    if !(s.part x.part).tiles.contains t then refuse s 4 else f c t (if n = 0xFF then List.range 8 else [n]) s))

/-- R392: a strand of a context changed where its tile stands. -/
def State.modStrandOf (s : State) (c t n : Nat) (f : Strand → Strand) : State := s.modTileOf c t (fun u => u.modStrand n f)

/-- R392: DBGATTACH. -/
def execDbgattach (m : Lmsg) : State → Out := debugCommand 0x0010 0 m (fun c _ _ s => ok (s.modCtx c (fun x => { x with attach := true })))
/-- R392: DBGDETACH. -/
def execDbgdetach (m : Lmsg) : State → Out := debugCommand 0x0011 0 m (fun c _ _ s => ok (s.modCtx c (fun x => { x with attach := false })))

/-- R94, R188, R393: one strand halted: at once, or as its issued bundle completes. A saved strand is halted where it is saved, and that
halt is recorded as any other. -/
def State.haltOf (s : State) (c t n : Nat) : State :=
  if (s.ctx c).saved.isNone && (s.tile t).ctx == c then
    if (s.strand t n).halted then s
    else if ((s.tile t).held.map (fun b => b.strand)) == some n then s.modStrand t n (fun st => { st with stepOnce := true })
    else s.halt t n
  else match s.tileOf c t with
    | none => s
    | some u =>
      let s := s.modStrandOf c t n (fun st => { st with halted := true, stepOnce := false })
      if (s.ctx c).liveModes.getLsbD 5 then
        let s := s.modTileOf c t (fun u => { u with freeze := true })
        if (u.strand n).halted then s else s.record c { kind := 7, sub := 4, tile := s.ordinal c t, a := n, b := u.steps }
      else s

/-- R392: DBGHALT. -/
def execDbghalt (m : Lmsg) : State → Out := debugCommand 0x0012 0 m (fun c t l s => ok (l.foldl (fun s n => s.haltOf c t n) s))

/-- R392, R394: a strand that goes on; one halted by BRK resumes at TRAPPC. -/
def Strand.resume (st : Strand) : Strand :=
  if st.halted && st.byBrk then { st with halted := false, byBrk := false, pc := st.trappc, prefetch := [], fetched := none }
  else { st with halted := false }

/-- R392: DBGGO. -/
def execDbggo (m : Lmsg) : State → Out := debugCommand 0x0013 0 m (fun c t l s => ok (l.foldl (fun s n => s.modStrandOf c t n Strand.resume) s))

/-- R392: DBGSTEP: a halted strand issues one bundle, takes any cause it raises, and halts again. -/
def execDbgstep (m : Lmsg) : State → Out := debugCommand 0x0014 0 m (fun c t l s =>
  ok (l.foldl (fun s n => s.modStrandOf c t n (fun st => if st.halted then { st.resume with stepOnce := true } else st)) s))

/-- R392: DBGFREEZE. -/
def execDbgfreeze (m : Lmsg) : State → Out := debugCommand 0x0015 0 m (fun c t _ s => ok (s.modTileOf c t (fun u => { u with freeze := true })))
/-- R392: DBGTHAW. -/
def execDbgthaw (m : Lmsg) : State → Out := debugCommand 0x0016 0 m (fun c t _ s => ok (s.modTileOf c t (fun u => { u with freeze := false })))

/-- R84, R392: byte offset and length of a DBGREAD or DBGWRITE in range. -/
def dbgRange (m : Lmsg) : Bool :=
  let o := m.at 8 4
  let n := m.at 12 4
  n % 8 == 0 && decide (8 ≤ n) && decide (n ≤ 8192) && decide (o + n ≤ 0x120000)

/-- R392: may the bytes be read or written: a strand's registers while it is halted or does not run, the tile's other state while
FREEZE = 1 and no round is in progress; anything of a context that is not RUNNING. -/
def State.dbgOpen (s : State) (c t o n : Nat) : Bool :=
  (s.ctx c).state != .running
    || (match s.tileOf c t with
      | none => true
      | some u =>
        (List.range 8).all (fun k => overlap o n (4096 * k) 4096 == 0 || (u.strand k).halted || (u.strand k).state != .run)
          && (decide (o + n ≤ 0x8000) || (u.freeze && !u.fstat.run)))

/-- R395: a tile as a debugger reads it: of a strand its registers alone. -/
def Tile.stable (u : Tile) : Tile := { u with strands := u.strands.map (fun (p : Nat × Strand) => (p.1, p.2.forDebug)) }

/-- R392: DBGREAD. -/
def execDbgread (m : Lmsg) : State → Out := debugCommand 0x0017 8 m (fun c t _ s =>
  let o := m.at 8 4
  let n := m.at 12 4
  if !m.len 16 || !(dbgRange m) then refuse s 4
  else if !s.dbgOpen c t o n then refuse s 5
  else ok s ((List.range n).map (fun i => ((s.tileOf c t).getD {}).stable.saveByte (o + i))))

/-- R392: DBGWRITE. -/
def execDbgwrite (m : Lmsg) : State → Out := debugCommand 0x0018 8 m (fun c t _ s =>
  let o := m.at 8 4
  let n := m.at 12 4
  if !m.len (16 + n) || !(dbgRange m) then refuse s 4
  else if !s.dbgOpen c t o n then refuse s 5
  else ok (s.modTileOf c t (fun u => u.dbgWrite o (m.payload.drop 16))))

end Sys2Proof.Machine
end

