-- ==== Sys2Proof/Machine/Rdma.lean ====
section
/-! DEFINITION. RDMA at the host port (R87, R88), and what a walk lets go on. -/

namespace Sys2Proof.Machine

/-- R88, R387: may the engine take a request of a virtual function now: its context is live and not in a stop sequence? -/
def State.rdmaReady (s : State) (vf qp : Nat) : Bool :=
  (s.ctx vf).live && (s.ctx vf).stopTo.isNone && (s.ctx vf).destroying.isNone && s.pkg.qps.get .normal (qpKey vf qp) == .normal

/-- R87: does a virtual function have this queue pair? -/
def qpOk (vf qp : Nat) : Bool := decide (1 ≤ vf) && decide (vf ≤ 288) && decide (qp < 16)

/-- R87, R88: a request arrives: one for no queue pair is invalid, one for a context that is not live is refused, one that the
engine cannot take yet is not taken. -/
def rdmaRequest (vf qp : Nat) (f : State → State) : State → Out := engine (fun s =>
  if !qpOk vf qp then s.rdmaAnswer vf qp .invalidRequest
  else if !(s.ctx vf).live then s.rdmaAnswer vf qp .accessError
  else if s.rdmaReady vf qp then f s else s)

/-- R87: are n bytes from an address within the range that a memory key names? -/
def keyAdmits (a : RdmaAt) (n : Nat) : Bool := decide (a.keyLo ≤ a.va) && decide (a.va + n ≤ a.keyLo + a.keyLen)

/-- R87, R88: RDMA_WRITE, under a memory key that names a range of the context's addresses: an access outside it cannot be made
(log 97). -/
def execRdmaWrite (vf qp : Nat) (a : RdmaAt) (data : List Byte) : State → Out :=
  rdmaRequest vf qp (fun s => let s := s.frame vf data.length
    if keyAdmits a data.length then s.rdmaDo vf qp a.va true data.length data else s.qpError vf qp)
/-- R87, R88: RDMA_READ, under a memory key. -/
def execRdmaRead (vf qp : Nat) (a : RdmaAt) (len : Nat) : State → Out :=
  rdmaRequest vf qp (fun s => if keyAdmits a len then s.rdmaDo vf qp a.va false len [] else s.qpError vf qp)
/-- R87: RDMA_SEND. -/
def execRdmaSend (vf qp : Nat) (data : List Byte) : State → Out :=
  rdmaRequest vf qp (fun s => (s.frame vf data.length).rdmaAnswer vf qp .ack)
/-- R87: RDMA_INVALID_REQUEST: an invalid-request NAK, no effect. -/
def execRdmaInvalidRequest (vf qp : Nat) : State → Out := engine (fun s => s.rdmaAnswer vf qp .invalidRequest)

/-- R88: queue pairs that wait on a page try again, and requests under way go on. -/
def State.resumeQps (s : State) : State :=
  s.pkg.qps.foldl (fun (s : State) (q : Nat × QpState) =>
    match q.2 with
    | .stalled va write len data =>
      if !(s.ctx (q.1 / 16)).live then s.qpError (q.1 / 16) (q.1 % 16)
      else if (s.ctx (q.1 / 16)).stopTo.isSome then s else s.rdmaDo (q.1 / 16) (q.1 % 16) va write len data
    | _ => s.advanceQp (q.1 / 16) (q.1 % 16)) s

/-- R372: requests that wait at the ingress ports of a die go on. -/
def State.resumePorts (s : State) (d : Nat) : State :=
  (s.pkg.ports.filter (fun (p : Nat × LinkPort) => portDie p.1 == d && !p.2.inbox.isEmpty)).foldl
    (fun (s : State) (p : Nat × LinkPort) => s.ingressAll p.1 p.2.inbox []) s

/-- R144: TLB_WALK: a walk ends, and the host-port engine, the ingress ports and the host messages that waited on it go on. -/
def execTlbWalk (d : Nat) : State → Out := engine (fun s =>
  let s := execTlbWalkState s d
  let s := if d = 4 then s.resumeQps else s
  let s := s.resumePorts d
  s.liveCtxs.foldl (fun s c => if (s.part (s.ctx c).part).lead = d then s.runOps c else s) s)

/-- R334: BATCH_VISIBLE, and the answers that it lets go. -/
def execBatchVisible (a b : Nat) : State → Out := engine (fun s => (s.showBatch a b).advanceQps)
/-- R341: REPLICA_LINE_APPLY, and the answers that it lets go. -/
def execReplicaLineApply (e : Nat) : State → Out := engine (fun s => (s.nextLine e).advanceQps)

end Sys2Proof.Machine
end

