-- ==== Sys2Proof/Machine/Turns.lean ====
section
/-! DEFINITION. A core's turn: the bundle at its PC fetched, decoded and carried out (R153, R162, R170, R186); and the order in which
the parts of the machine act when nothing else is on the agenda (log 1). -/

namespace Sys2Proof.Machine

/-- What a core instruction does in a slot; none for a step that is no core instruction and for NOP. -/
def semOf (slot : Nat) (i : Instr) : Option Sem :=
  match i with
  | .add d a b => some (addSem d a b slot)
  | .sub d a b => some (subSem d a b slot)
  | .addi d a imm => some (addiSem d a imm slot)
  | .mul d a b => some (mulSem d a b slot)
  | .mulh d a b => some (mulhSem d a b slot)
  | .mulhu d a b => some (mulhuSem d a b slot)
  | .div d a b => some (divSem d a b slot)
  | .divu d a b => some (divuSem d a b slot)
  | .rem d a b => some (remSem d a b slot)
  | .remu d a b => some (remuSem d a b slot)
  | .and d a b => some (andSem d a b slot)
  | .or d a b => some (orSem d a b slot)
  | .xor d a b => some (xorSem d a b slot)
  | .andi d a imm => some (andiSem d a imm slot)
  | .ori d a imm => some (oriSem d a imm slot)
  | .xori d a imm => some (xoriSem d a imm slot)
  | .shl d a b => some (shlSem d a b slot)
  | .shr d a b => some (shrSem d a b slot)
  | .sar d a b => some (sarSem d a b slot)
  | .shli d a sh => some (shliSem d a sh slot)
  | .shri d a sh => some (shriSem d a sh slot)
  | .sari d a sh => some (sariSem d a sh slot)
  | .min d a b => some (minSem d a b slot)
  | .max d a b => some (maxSem d a b slot)
  | .minu d a b => some (minuSem d a b slot)
  | .maxu d a b => some (maxuSem d a b slot)
  | .slt d a b => some (sltSem d a b slot)
  | .sltu d a b => some (sltuSem d a b slot)
  | .seq d a b => some (seqSem d a b slot)
  | .sne d a b => some (sneSem d a b slot)
  | .slti d a imm => some (sltiSem d a imm slot)
  | .clz d a => some (clzSem d a slot)
  | .ctz d a => some (ctzSem d a slot)
  | .popc d a => some (popcSem d a slot)
  | .bfx d a off w => some (bfxSem d a off w slot)
  | .bfxR d a b c => some (bfxRSem d a b c slot)
  | .bfxs d a off w => some (bfxsSem d a off w slot)
  | .bfxsR d a b c => some (bfxsRSem d a b c slot)
  | .bfi d a off w => some (bfiSem d a off w slot)
  | .bfiR d a b c => some (bfiRSem d a b c slot)
  | .movi d imm => some (moviSem d imm slot)
  | .movhi d imm => some (movhiSem d imm slot)
  | .sel d a b c => some (selSem d a b c slot)
  | .lea d a b sc imm => some (leaSem d a b sc imm slot)
  | .rngP0 d a b c => some (rngP0Sem d a b c slot)
  | .rngP1 d a b c => some (rngP1Sem d a b c slot)
  | .fadd rm d a b => some (faddSem rm d a b slot)
  | .fsub rm d a b => some (fsubSem rm d a b slot)
  | .fmul rm d a b => some (fmulSem rm d a b slot)
  | .ffma rm d a b c => some (ffmaSem rm d a b c slot)
  | .fmin d a b => some (fminSem d a b slot)
  | .fmax d a b => some (fmaxSem d a b slot)
  | .fcmp cc d a b => some (fcmpSem cc d a b slot)
  | .fcvt dt sc rm d a => some (fcvtSem dt sc rm d a slot)
  | .ld t3 d a k => some (ldSem t3 d a k)
  | .st t2 a b k => some (stSem t2 a b k)
  | .atom op wide d a b k => some (atomSem op wide d a b k)
  | .cas wide d a b c k => some (casSem wide d a b c k)
  | .srd d r => some (srdSem d r)
  | .speek d r => some (speekSem d r)
  | .swr r a => some (swrSem r a)
  | .gets d num => some (getsSem d num)
  | .sets num a => some (setsSem num a)
  | .sbind r b => some (sbindSem r b)
  | .psetb p a imm => some (psetbSem p a imm)
  | .psetdExt p k a b => some (psetdExtSem p k a b)
  | .psetdStr p k a b => some (psetdStrSem p k a b)
  | .psetdBnd p k a b => some (psetdBndSem p k a b)
  | .psetf p a b imm => some (psetfSem p a b imm)
  | .sla sp p b id => some (slaSem sp p b id)
  | .ssa sp p b id => some (ssaSem sp p b id)
  | .sli sp p spc id => some (sliSem sp p spc id)
  | .ssi sp p spc id => some (ssiSem sp p spc id)
  | .sra op sp p b id ret seq => some (sraSem op sp p b id ret seq)
  | .sri op sp p spc id ret seq => some (sriSem op sp p spc id ret seq)
  | .smc sp p b id => some (smcSem sp p b id)
  | .sfill v sp p b id => some (sfillSem v sp p b id)
  | .srec sp spc a id depth => some (srecSem sp spc a id depth)
  | .scpy sat pd pa id => some (scpySem sat pd pa id)
  | .sqin sp q id => some (sqinSem sp q id)
  | .sqout sp q id => some (sqoutSem sp q id)
  | .sbar m => some (sbarSem m)
  | .swaitDone d id => some (swaitDoneSem d id)
  | .swaitMark d id n => some (swaitMarkSem d id n)
  | .swaitPoll d id => some (swaitPollSem d id)
  | .sabt id => some (sabtSem id)
  | .sord id id2 => some (sordSem id id2)
  | .sslot d a z zero => some (sslotSem d a z zero)
  | .srel a => some (srelSem a)
  | .qpush d q a b => some (qpushSem d q a b)
  | .qpop d q => some (qpopSem d q)
  | .qtry d q => some (qtrySem d q)
  | .qstat d q => some (qstatSem d q)
  | .qclose q => some (qcloseSem q)
  | .qres d q a => some (qresSem d q a)
  | .fcfg d a => some (fcfgSem d a)
  | .farg cell e a => some (fargSem cell e a)
  | .fgo => some (fgoSem)
  | .fstat d => some (fstatSem d)
  | .fdrn d => some (fdrnSem d)
  | .tsend d a b => some (tsendSem d a b)
  | .twait d tag => some (twaitSem d tag)
  | .tpoll d tag => some (tpollSem d tag)
  | .join a => some (joinSem a)
  | .leave a => some (leaveSem a)
  | .gbar a => some (gbarSem a)
  | .garr d a => some (garrSem d a)
  | .fence scope d => some (fenceSem scope d)
  | .trig => some (trigSem)
  | .emtrTask d => some (emtrTaskSem d)
  | .emtrCtx d => some (emtrCtxSem d)
  | .ebgt a => some (ebgtSem a)
  | .invl a b => some (invlSem a b)
  | .invw a b => some (invwSem a b)
  | .br off => some (brSem off)
  | .beq a b off => some (beqSem a b off)
  | .bne a b off => some (bneSem a b off)
  | .blt a b off => some (bltSem a b off)
  | .bge a b off => some (bgeSem a b off)
  | .bltu a b off => some (bltuSem a b off)
  | .bgeu a b off => some (bgeuSem a b off)
  | .bz a off => some (bzSem a off)
  | .bnz a off => some (bnzSem a off)
  | .jr a => some (jrSem a)
  | .ret a => some (retSem a)
  | .call d off => some (callSem d off)
  | .loop a off => some (loopSem a off)
  | .yield => some (yieldSem)
  | .waitq q => some (waitqSem q)
  | .done => some (doneSem)
  | .trap code => some (trapSem code)
  | .brk code => some (brkSem code)
  | .tret => some (tretSem)
  | _ => none

/-! ## A core's turn -/

/-- R170: the instructions of the slots below k, which are known to decode, and k itself. -/
def lowerSems (b : Bundle) (k : Nat) : List Sem :=
  match decodeSlots b (List.range k) with
  | .ok l => l.filterMap (fun (p : Nat × Instr) => semOf p.1 p.2)
  | .error _ => []

/-- R170, R378: a bundle whose lowest illegal slot by its fields is k: a range that state alone shows broken may lie lower. -/
def illegalBundle (lit : Bool) (b : Bundle) (k reason : Nat) (s : State) : State :=
  let t := s.focus
  let n := s.cur
  let pc := s.me.pc
  let s' := (s.dropMissed t n).issueHead t n lit
  match (lowerSems b k).find? (fun m => m.illegal s) with
  | some m => s'.takeAtIssue t n 0x01 (illegalInfo m.slot 4) pc
  | none => s'.takeAtIssue t n 0x01 (illegalInfo k reason) pc

/-- R162, R170: a bundle issued by the core in focus. -/
def issueBundle (b : Bundle) (lit : Bool) (s : State) : State :=
  match decodeBundle b with
  | .ok l => runBundle lit (l.filterMap (fun (p : Nat × Instr) => semOf p.1 p.2)) s
  | .error (k, r) => illegalBundle lit b k r s

/-- R186, R189, R383, R387, R393: what a core does next. -/
inductive CoreDoes
  | nothing | choose | takeCause | issue
  deriving DecidableEq, Repr

/-- What the core of tile t does next: nothing while its clock is stopped, its bundle is held, its tile is stopping or a bundle has
issued in this fc (R18); a choice of a strand after a task has ended; for a strand in RUN that is not halted, a pending cause outside
handler state, unless a divider has already given its bundle an item or it waits on a page request (R149); else the bundle at its PC. -/
def State.coreDoes (s : State) (t : Nat) : CoreDoes :=
  let u := s.tile t
  let st := u.strand u.cur
  if s.pkg.clockStopped || u.stopping || u.held.isSome || u.issued then .nothing
  else if u.choosing then .choose
  else if st.state != .run || st.halted then .nothing
  else if !st.handler && st.granted.isNone && !s.pageHeld t u.cur && (firstCause st.pending).isSome then .takeCause
  else if s.replayHolds t then .nothing
  else .issue

/-- R153, R186: the bundle at the PC of the core in focus, fetched and issued. -/
def fetchAndIssue (s : State) : State :=
  let t := s.focus
  let n := s.cur
  match s.fetchBundle t n with
  | .ok s (b, lit) => issueBundle b lit s
  | .wait s => s.modStrand t n (fun st => { st with stall := [(0xFF, 0)] })
  | .trap s c i => s.takeAtIssue t n c i (s.strand t n).pc
  | .fatal s c i => s.fatalAt t n c i (s.strand t n).pc

/-- R114, R382: a BUDGET that falls due at a bundle boundary is posted, in a handler too, where it stays pending. -/
def State.budgetDue (s : State) (t : Nat) : State :=
  let u := s.tile t
  let st := u.strand u.cur
  if u.stopping || u.held.isSome || u.choosing || st.halted || st.state != .run then s else s.postBudget t u.cur

/-- A core's turn. -/
def coreTurn (t : Nat) (s : State) : Out :=
  let s := ({ s with focus := t } : State).budgetDue t
  match s.coreDoes t with
  | .nothing => .next s
  | .choose => execStrandSelect t s
  | .takeCause => execPendingTrapTake t s
  | .issue => .next (fetchAndIssue s)

/-! ## One round of the machine (log 1) -/

/-- Names listed by an AMap. -/
def AMap.names {α : Type} (m : AMap α) : List Nat := m.map (fun (p : Nat × α) => p.1)

/-- The turns of a tile in one fc: the fabric first, then streams, the core last (R203), so that an arc a firing empties is filled again
in the same fc (R218); then the firings that the core's own takes have freed, and what moves the tile (log 1). -/
def tileTurns (s : State) (t : Nat) : List Turn :=
  let u := s.tile t
  let ids := AMap.names u.cmds
  let cells := (u.image.map (fun i => AMap.names i.cells)).getD []
  (ids.map (Instr.streamTokenTake t) ++ cells.flatMap (fun c => [Instr.elementWatermarkResume t c, .groupFiring t c])
    ++ [Instr.prefetchFill t u.cur, .loadReturn t, .streamRequestGrant t]
    ++ (if u.emitting.isEmpty then [] else [Instr.streamDataReturn t 0])
    ++ u.cmds.flatMap (fun (p : Nat × Cmd) => Instr.streamDataReturn t p.1 :: p.2.members.map (Instr.multicastSpaceReturn t p.1)
        ++ [Instr.streamComplete t p.1])).map Turn.event
    ++ [.core t]
    ++ (cells.map (Instr.groupFiring t)
      ++ [Instr.cellWriteVisible t, .roundComplete t, .roundDeadlock t, .fabricImageLoad t, .moveTakeup t, .stageTakeup t,
          .preload t, .meterResidueSend t]).map Turn.event

/-- The turns of a die: memory nodes, walkers, write batches, replica lines, accounts. -/
def dieTurns (s : State) (d : Nat) : List Turn :=
  (((AMap.names (s.die d).nodes).flatMap (fun k => [Instr.memoryNodeApply d k, .reductionApply d k]))
    ++ [Instr.tlbWalk d, .migrateRecheck d, .slotWriteback d, .writeBatchSeal d]
    ++ (List.range 9).map (fun e => Instr.batchVisible d e)
    ++ [Instr.replicaLineApply d, .accountForward d] ++ List.replicate (max (s.die d).arrivals.length 1) (Instr.chargeApply d)).map Turn.event

/-- The turns of a context: dividers and spilled items, tokens, TRIGs, stops and saves, launches, retirement, its log. -/
def ctxTurns (s : State) (c : Nat) : List Turn :=
  let x := s.ctx c
  (x.pipes.flatMap (fun (p : Nat × Pipeline) => [Instr.launchStart c p.1]
      ++ (List.range p.2.queues.length).flatMap (fun q => [Instr.spillReturn c p.1 q, .dividerAssign c p.1 q])
      ++ (List.range p.2.stages.length).map (fun g => Instr.stageRetire c p.1 g) ++ [Instr.pipelineRetire c p.1])
    ++ [Instr.tokenDeliver c, .trigCount c, .stopSequence c, .saveComplete c, .crumbRecordWrite c, .replayRecordTake c]).map Turn.event

/-- One round: every part of the machine acts in turn, then every die's fabric clock has an edge. What a sensor, a tester, a link
partner or the host brings stands on the agenda only when the outside puts it there. -/
def rota (s : State) : List Turn :=
  (AMap.names s.tiles).flatMap (tileTurns s)
    ++ (List.range 9).flatMap (dieTurns s)
    ++ (AMap.names s.ctxs).flatMap (ctxTurns s)
    ++ (AMap.names s.parts).flatMap (fun p =>
        [Turn.event (.contextDispatch p), .event (.proofSample p), .event (.proofIntervalEnd p)])
    ++ (AMap.names s.pkg.ports).map (fun p => Turn.event (.linkFlitSend p))
    ++ [Turn.event .invalidationComplete]
    ++ (List.range 9).map (fun d => Turn.event (.fcEdge d))

end Sys2Proof.Machine
end

