-- ==== Sys2Proof/Machine/Dispatch.lean ====
section
/-! DEFINITION. Dispatch: the meaning of each step, one arm for each constructor of Instr. -/

namespace Sys2Proof.Machine

def exec (i : Instr) (s : State) : Host.Outcome State Fault Refusal :=
  match i with
  | .packageReset => Sys2Proof.Machine.execPackageReset s
  | .unitTestStart u => Sys2Proof.Machine.execUnitTestStart u s
  | .unitTestDone u pass => Sys2Proof.Machine.execUnitTestDone u pass s
  | .unitFailInService u => Sys2Proof.Machine.execUnitFailInService u s
  | .powerCheck milliwatt hottest => Sys2Proof.Machine.execPowerCheck milliwatt hottest s
  | .calibrationWindow rail => Sys2Proof.Machine.execCalibrationWindow rail s
  | .wearSample u indicator values => Sys2Proof.Machine.execWearSample u indicator values s
  | .healthRefresh => Sys2Proof.Machine.execHealthRefresh s
  | .meterResidueSend tile => Sys2Proof.Machine.execMeterResidueSend tile s
  | .accountForward die => Sys2Proof.Machine.execAccountForward die s
  | .chargeApply die => Sys2Proof.Machine.execChargeApply die s
  | .sliceEnd part => Sys2Proof.Machine.execSliceEnd part s
  | .contextDispatch part => Sys2Proof.Machine.execContextDispatch part s
  | .stopSequence ctx => Sys2Proof.Machine.execStopSequence ctx s
  | .saveComplete ctx => Sys2Proof.Machine.execSaveComplete ctx s
  | .proofSample part => Sys2Proof.Machine.execProofSample part s
  | .proofIntervalEnd part => Sys2Proof.Machine.execProofIntervalEnd part s
  | .moveTakeup tile => Sys2Proof.Machine.execMoveTakeup tile s
  | .stageTakeup tile => Sys2Proof.Machine.execStageTakeup tile s
  | .preload tile => Sys2Proof.Machine.execPreload tile s
  | .launchStart ctx slot => Sys2Proof.Machine.execLaunchStart ctx slot s
  | .trigCount ctx => Sys2Proof.Machine.execTrigCount ctx s
  | .stageRetire ctx slot stage => Sys2Proof.Machine.execStageRetire ctx slot stage s
  | .pipelineRetire ctx slot => Sys2Proof.Machine.execPipelineRetire ctx slot s
  | .strandSelect tile => Sys2Proof.Machine.execStrandSelect tile s
  | .dividerAssign ctx slot q => Sys2Proof.Machine.execDividerAssign ctx slot q s
  | .tlbWalk die => Sys2Proof.Machine.execTlbWalk die s
  | .migrateRecheck die => Sys2Proof.Machine.execMigrateRecheck die s
  | .invalidationComplete => Sys2Proof.Machine.execInvalidationComplete s
  | .indexFetch tile => Sys2Proof.Machine.execIndexFetch tile s
  | .prefetchFill tile strand => Sys2Proof.Machine.execPrefetchFill tile strand s
  | .pendingTrapTake tile => Sys2Proof.Machine.execPendingTrapTake tile s
  | .loadReturn tile => Sys2Proof.Machine.execLoadReturn tile s
  | .streamRequestGrant tile => Sys2Proof.Machine.execStreamRequestGrant tile s
  | .streamDataReturn tile id => Sys2Proof.Machine.execStreamDataReturn tile id s
  | .streamTokenTake tile id => Sys2Proof.Machine.execStreamTokenTake tile id s
  | .streamComplete tile id => Sys2Proof.Machine.execStreamComplete tile id s
  | .memoryNodeApply die bank => Sys2Proof.Machine.execMemoryNodeApply die bank s
  | .reductionApply die bank => Sys2Proof.Machine.execReductionApply die bank s
  | .multicastSpaceReturn tile id member => Sys2Proof.Machine.execMulticastSpaceReturn tile id member s
  | .slotWriteback die => Sys2Proof.Machine.execSlotWriteback die s
  | .spillReturn ctx slot q => Sys2Proof.Machine.execSpillReturn ctx slot q s
  | .writeBatchSeal die => Sys2Proof.Machine.execWriteBatchSeal die s
  | .batchVisible src dst => Sys2Proof.Machine.execBatchVisible src dst s
  | .replicaLineApply die => Sys2Proof.Machine.execReplicaLineApply die s
  | .tokenDeliver ctx => Sys2Proof.Machine.execTokenDeliver ctx s
  | .remoteIngress port req => Sys2Proof.Machine.execRemoteIngress port req s
  | .remoteResponse resp => Sys2Proof.Machine.execRemoteResponse resp s
  | .linkFlitSend port => Sys2Proof.Machine.execLinkFlitSend port s
  | .linkDead port => Sys2Proof.Machine.execLinkDead port s
  | .groupFiring tile cell => Sys2Proof.Machine.execGroupFiring tile cell s
  | .elementWatermarkResume tile cell => Sys2Proof.Machine.execElementWatermarkResume tile cell s
  | .roundComplete tile => Sys2Proof.Machine.execRoundComplete tile s
  | .roundDeadlock tile => Sys2Proof.Machine.execRoundDeadlock tile s
  | .cellWriteVisible tile => Sys2Proof.Machine.execCellWriteVisible tile s
  | .fabricImageLoad tile => Sys2Proof.Machine.execFabricImageLoad tile s
  | .crumbRecordWrite ctx => Sys2Proof.Machine.execCrumbRecordWrite ctx s
  | .replayRecordTake ctx => Sys2Proof.Machine.execReplayRecordTake ctx s
  | .partform m => Sys2Proof.Machine.execPartform m s
  | .partfree m => Sys2Proof.Machine.execPartfree m s
  | .ctxcreate m => Sys2Proof.Machine.execCtxcreate m s
  | .ctxdestroy m => Sys2Proof.Machine.execCtxdestroy m s
  | .keyset m => Sys2Proof.Machine.execKeyset m s
  | .allow m => Sys2Proof.Machine.execAllow m s
  | .modeset m => Sys2Proof.Machine.execModeset m s
  | .retest m => Sys2Proof.Machine.execRetest m s
  | .mapread m => Sys2Proof.Machine.execMapread m s
  | .healthread m => Sys2Proof.Machine.execHealthread m s
  | .idread m => Sys2Proof.Machine.execIdread m s
  | .proofset m => Sys2Proof.Machine.execProofset m s
  | .winset m => Sys2Proof.Machine.execWinset m s
  | .traffic m => Sys2Proof.Machine.execTraffic m s
  | .tripclear m => Sys2Proof.Machine.execTripclear m s
  | .dbgattach m => Sys2Proof.Machine.execDbgattach m s
  | .dbgdetach m => Sys2Proof.Machine.execDbgdetach m s
  | .dbghalt m => Sys2Proof.Machine.execDbghalt m s
  | .dbggo m => Sys2Proof.Machine.execDbggo m s
  | .dbgstep m => Sys2Proof.Machine.execDbgstep m s
  | .dbgfreeze m => Sys2Proof.Machine.execDbgfreeze m s
  | .dbgthaw m => Sys2Proof.Machine.execDbgthaw m s
  | .dbgread m => Sys2Proof.Machine.execDbgread m s
  | .dbgwrite m => Sys2Proof.Machine.execDbgwrite m s
  | .launch m => Sys2Proof.Machine.execLaunch m s
  | .qfeed m => Sys2Proof.Machine.execQfeed m s
  | .qtake m => Sys2Proof.Machine.execQtake m s
  | .qend m => Sys2Proof.Machine.execQend m s
  | .statread m => Sys2Proof.Machine.execStatread m s
  | .pagereply m => Sys2Proof.Machine.execPagereply m s
  | .rdmaWrite vf qp va data => Sys2Proof.Machine.execRdmaWrite vf qp va data s
  | .rdmaRead vf qp va len => Sys2Proof.Machine.execRdmaRead vf qp va len s
  | .rdmaSend vf qp data => Sys2Proof.Machine.execRdmaSend vf qp data s
  | .nop => Sys2Proof.Machine.execNop s
  | .add d a b => Sys2Proof.Machine.execAdd d a b s
  | .sub d a b => Sys2Proof.Machine.execSub d a b s
  | .addi d a imm => Sys2Proof.Machine.execAddi d a imm s
  | .mul d a b => Sys2Proof.Machine.execMul d a b s
  | .mulh d a b => Sys2Proof.Machine.execMulh d a b s
  | .mulhu d a b => Sys2Proof.Machine.execMulhu d a b s
  | .div d a b => Sys2Proof.Machine.execDiv d a b s
  | .divu d a b => Sys2Proof.Machine.execDivu d a b s
  | .rem d a b => Sys2Proof.Machine.execRem d a b s
  | .remu d a b => Sys2Proof.Machine.execRemu d a b s
  | .and d a b => Sys2Proof.Machine.execAnd d a b s
  | .or d a b => Sys2Proof.Machine.execOr d a b s
  | .xor d a b => Sys2Proof.Machine.execXor d a b s
  | .andi d a imm => Sys2Proof.Machine.execAndi d a imm s
  | .ori d a imm => Sys2Proof.Machine.execOri d a imm s
  | .xori d a imm => Sys2Proof.Machine.execXori d a imm s
  | .shl d a b => Sys2Proof.Machine.execShl d a b s
  | .shr d a b => Sys2Proof.Machine.execShr d a b s
  | .sar d a b => Sys2Proof.Machine.execSar d a b s
  | .shli d a sh => Sys2Proof.Machine.execShli d a sh s
  | .shri d a sh => Sys2Proof.Machine.execShri d a sh s
  | .sari d a sh => Sys2Proof.Machine.execSari d a sh s
  | .min d a b => Sys2Proof.Machine.execMin d a b s
  | .max d a b => Sys2Proof.Machine.execMax d a b s
  | .minu d a b => Sys2Proof.Machine.execMinu d a b s
  | .maxu d a b => Sys2Proof.Machine.execMaxu d a b s
  | .slt d a b => Sys2Proof.Machine.execSlt d a b s
  | .sltu d a b => Sys2Proof.Machine.execSltu d a b s
  | .seq d a b => Sys2Proof.Machine.execSeq d a b s
  | .sne d a b => Sys2Proof.Machine.execSne d a b s
  | .slti d a imm => Sys2Proof.Machine.execSlti d a imm s
  | .clz d a => Sys2Proof.Machine.execClz d a s
  | .ctz d a => Sys2Proof.Machine.execCtz d a s
  | .popc d a => Sys2Proof.Machine.execPopc d a s
  | .bfx d a off w => Sys2Proof.Machine.execBfx d a off w s
  | .bfxR d a b c => Sys2Proof.Machine.execBfxR d a b c s
  | .bfxs d a off w => Sys2Proof.Machine.execBfxs d a off w s
  | .bfxsR d a b c => Sys2Proof.Machine.execBfxsR d a b c s
  | .bfi d a off w => Sys2Proof.Machine.execBfi d a off w s
  | .bfiR d a b c => Sys2Proof.Machine.execBfiR d a b c s
  | .movi d imm => Sys2Proof.Machine.execMovi d imm s
  | .movhi d imm => Sys2Proof.Machine.execMovhi d imm s
  | .sel d a b c => Sys2Proof.Machine.execSel d a b c s
  | .lea d a b sc imm => Sys2Proof.Machine.execLea d a b sc imm s
  | .rngP0 d a b c => Sys2Proof.Machine.execRngP0 d a b c s
  | .rngP1 d a b c => Sys2Proof.Machine.execRngP1 d a b c s
  | .fadd rm d a b => Sys2Proof.Machine.execFadd rm d a b s
  | .fsub rm d a b => Sys2Proof.Machine.execFsub rm d a b s
  | .fmul rm d a b => Sys2Proof.Machine.execFmul rm d a b s
  | .ffma rm d a b c => Sys2Proof.Machine.execFfma rm d a b c s
  | .fmin d a b => Sys2Proof.Machine.execFmin d a b s
  | .fmax d a b => Sys2Proof.Machine.execFmax d a b s
  | .fcmp cc d a b => Sys2Proof.Machine.execFcmp cc d a b s
  | .fcvt dt st rm d a => Sys2Proof.Machine.execFcvt dt st rm d a s
  | .ld t3 d a k => Sys2Proof.Machine.execLd t3 d a k s
  | .st t3 a b k => Sys2Proof.Machine.execSt t3 a b k s
  | .atom op wide d a b k => Sys2Proof.Machine.execAtom op wide d a b k s
  | .cas wide d a b c k => Sys2Proof.Machine.execCas wide d a b c k s
  | .srd d r => Sys2Proof.Machine.execSrd d r s
  | .speek d r => Sys2Proof.Machine.execSpeek d r s
  | .swr r a => Sys2Proof.Machine.execSwr r a s
  | .gets d num => Sys2Proof.Machine.execGets d num s
  | .sets num a => Sys2Proof.Machine.execSets num a s
  | .sbind r target => Sys2Proof.Machine.execSbind r target s
  | .psetb p a imm => Sys2Proof.Machine.execPsetb p a imm s
  | .psetdExt p k a b => Sys2Proof.Machine.execPsetdExt p k a b s
  | .psetdStr p k a b => Sys2Proof.Machine.execPsetdStr p k a b s
  | .psetdBnd p k a b => Sys2Proof.Machine.execPsetdBnd p k a b s
  | .psetf p a b imm => Sys2Proof.Machine.execPsetf p a b imm s
  | .sla sp p b id => Sys2Proof.Machine.execSla sp p b id s
  | .ssa sp p b id => Sys2Proof.Machine.execSsa sp p b id s
  | .sli sp p spc id => Sys2Proof.Machine.execSli sp p spc id s
  | .ssi sp p spc id => Sys2Proof.Machine.execSsi sp p spc id s
  | .sra op sp p b id ret seq => Sys2Proof.Machine.execSra op sp p b id ret seq s
  | .sri op sp p spc id ret seq => Sys2Proof.Machine.execSri op sp p spc id ret seq s
  | .smc sp p b id => Sys2Proof.Machine.execSmc sp p b id s
  | .sfill v sp p b id => Sys2Proof.Machine.execSfill v sp p b id s
  | .srec sp spc a id depth => Sys2Proof.Machine.execSrec sp spc a id depth s
  | .scpy sat pd pa id => Sys2Proof.Machine.execScpy sat pd pa id s
  | .sqin sp q id => Sys2Proof.Machine.execSqin sp q id s
  | .sqout sp q id => Sys2Proof.Machine.execSqout sp q id s
  | .sbar m => Sys2Proof.Machine.execSbar m s
  | .swaitDone d id => Sys2Proof.Machine.execSwaitDone d id s
  | .swaitMark d id n => Sys2Proof.Machine.execSwaitMark d id n s
  | .swaitPoll d id => Sys2Proof.Machine.execSwaitPoll d id s
  | .sabt id => Sys2Proof.Machine.execSabt id s
  | .sord id id2 => Sys2Proof.Machine.execSord id id2 s
  | .sslot d a z zero => Sys2Proof.Machine.execSslot d a z zero s
  | .srel a => Sys2Proof.Machine.execSrel a s
  | .qpush d q a b => Sys2Proof.Machine.execQpush d q a b s
  | .qpop d q => Sys2Proof.Machine.execQpop d q s
  | .qtry d q => Sys2Proof.Machine.execQtry d q s
  | .qstat d q => Sys2Proof.Machine.execQstat d q s
  | .qclose q => Sys2Proof.Machine.execQclose q s
  | .qres d q a => Sys2Proof.Machine.execQres d q a s
  | .fcfg d a => Sys2Proof.Machine.execFcfg d a s
  | .farg cell e a => Sys2Proof.Machine.execFarg cell e a s
  | .fgo => Sys2Proof.Machine.execFgo s
  | .fstat d => Sys2Proof.Machine.execFstat d s
  | .fdrn d => Sys2Proof.Machine.execFdrn d s
  | .tsend d a b => Sys2Proof.Machine.execTsend d a b s
  | .twait d tag => Sys2Proof.Machine.execTwait d tag s
  | .tpoll d tag => Sys2Proof.Machine.execTpoll d tag s
  | .join a => Sys2Proof.Machine.execJoin a s
  | .leave a => Sys2Proof.Machine.execLeave a s
  | .gbar a => Sys2Proof.Machine.execGbar a s
  | .garr d a => Sys2Proof.Machine.execGarr d a s
  | .fence scope d => Sys2Proof.Machine.execFence scope d s
  | .trig => Sys2Proof.Machine.execTrig s
  | .emtrTask d => Sys2Proof.Machine.execEmtrTask d s
  | .emtrCtx d => Sys2Proof.Machine.execEmtrCtx d s
  | .ebgt a => Sys2Proof.Machine.execEbgt a s
  | .invl a b => Sys2Proof.Machine.execInvl a b s
  | .invw a b => Sys2Proof.Machine.execInvw a b s
  | .br off => Sys2Proof.Machine.execBr off s
  | .beq a b off => Sys2Proof.Machine.execBeq a b off s
  | .bne a b off => Sys2Proof.Machine.execBne a b off s
  | .blt a b off => Sys2Proof.Machine.execBlt a b off s
  | .bge a b off => Sys2Proof.Machine.execBge a b off s
  | .bltu a b off => Sys2Proof.Machine.execBltu a b off s
  | .bgeu a b off => Sys2Proof.Machine.execBgeu a b off s
  | .bz a off => Sys2Proof.Machine.execBz a off s
  | .bnz a off => Sys2Proof.Machine.execBnz a off s
  | .jr a => Sys2Proof.Machine.execJr a s
  | .ret a => Sys2Proof.Machine.execRet a s
  | .call d off => Sys2Proof.Machine.execCall d off s
  | .loop a off => Sys2Proof.Machine.execLoop a off s
  | .yield => Sys2Proof.Machine.execYield s
  | .waitq q => Sys2Proof.Machine.execWaitq q s
  | .done => Sys2Proof.Machine.execDone s
  | .trap code => Sys2Proof.Machine.execTrap code s
  | .brk code => Sys2Proof.Machine.execBrk code s
  | .tret => Sys2Proof.Machine.execTret s
  | .fcEdge die => Sys2Proof.Machine.execFcEdge die s
  | .lanternMessageDrop d => Sys2Proof.Machine.execLanternMessageDrop d s
  | .rdmaInvalidRequest vf qp => Sys2Proof.Machine.execRdmaInvalidRequest vf qp s

end Sys2Proof.Machine
end

