-- ==== Sys2Proof/Machine/Step.lean ====
section
/-! DEFINITION. One step of the machine: the first turn of the agenda, or of a new round when the agenda is empty (log 1); and the
state in which the next step runs a given instruction word. -/

namespace Sys2Proof.Machine

/-- A turn taken. A term on the agenda that names no part of the package, or that is a core instruction (which only a core's
turn runs), is no step of the machine and is passed over (log 1). -/
def runTurn (u : Turn) (s : State) : Host.Outcome State Fault Refusal :=
  match u with
  | .core t => if t < 576 then coreTurn t s else .next s
  | .event i => if i.wf && !i.isCore then exec i s else .next s
  | .datagram d => exec (decodeDatagram (s.opened d)) s

/-- One step. -/
def step (s : State) : Host.Outcome State Fault Refusal :=
  match s.agenda with
  | u :: rest => runTurn u { s with agenda := rest }
  | [] =>
    match rota s with
    | u :: rest => runTurn u { s with agenda := rest }
    | [] => .next s

/-- The tile with one dictionary entry, a word in its home slot and the other slots zero, that its core's strand fetches next. -/
def Tile.withWord (u : Tile) (va : Nat) (w : Word) : Tile :=
  { (u.modStrand u.cur (fun st => { st with
      state := .run, halted := false, pending := [], fetched := none, budget := 0, prefetch := [(va, 0)] })) with
    choosing := false, held := none, stopping := false, issued := false, dictN := 1, codeBad := [],
    code := [(0, Sys2Proof.bundleOf (homeSlot (w.extractLsb' 56 8).toNat) w)] }

/-- R152, R153, R162: the state in which tile 0 issues, in the next step, the bundle whose one instruction has these bits (log 6): its
core's turn is next, and the index its strand has prefetched names dictionary entry 0. -/
def State.withFetchWord (s : State) (_nbits w : Nat) : State :=
  let va := (s.halfVa 0 (s.tile 0).cur (s.strand 0 (s.tile 0).cur).pc).toNat
  { (s.modTile 0 (fun u => u.withWord va (w64 w))).modPkg (fun p => { p with clockStopped := false }) with agenda := [.core 0] }

end Sys2Proof.Machine
end

