-- ==== Sys2Proof/Safety.lean ====
section
/-! DEFINITION. What counts as a safe run: steps that stop on no refusal, and the form every reachable state keeps; and the
vocabulary of frames: what an instruction leaves unchanged. -/

namespace Sys2Proof.Machine

/-- A step that answers a next state. -/
def Completes (o : Host.Outcome State Fault Refusal) : Prop := ∃ s, o = .next s

/-- The form of a state's plain data that a step keeps: memory in canonical form. -/
def State.Inv (s : State) : Prop := Memory.wf s.mem = true

/-- A safe run of k steps from a state: no fault and no refusal. -/
def SafeRun (k : Nat) (s : State) : Prop := Completes (Sys2Proof.core.run k s)

/-! ## What an instruction leaves unchanged -/

/-- A strand but for its x registers and PC, its energy count and the micro-TLB misses still to be charged, what its core's fetcher
holds for it, and the arrival that its unissued GBAR stands on, which any issue uses up (R362). -/
def Strand.still (st : Strand) : Strand :=
  { st with x := [], pc := 0, echg := 0, missed := 0, claim := false, prefetch := [], fetched := none, stall := [],
            gbar := none, gbarH := none }

/-- A tile but for its strands, its meter, its activity and bundle counts, the fc it issued in, and the bundle in issue. -/
def Tile.still (u : Tile) : Tile :=
  { u with strands := [], residue := 0, houseResidue := 0, emtr := 0, issue := {}, held := none, active := false, issued := false, steps := 0 }

/-- The machine but for its tiles, and but for the calibration windows' sums that charges enter, which are not the core's
registers. -/
def State.still (s : State) : State :=
  { s with tiles := [], pkg := { s.pkg with windowCharges := [], windowScaled := [] } }

/-- Every x register but those listed holds what it held. -/
def RegsKept (s t : State) (regs : List XReg) : Prop :=
  ∀ r, r ∉ regs → (t.strand s.focus s.cur).rx r = s.rx r

/-- Every byte of memory reads as before, at every die and under every causal past; every byte of the tile's cells too. -/
def MemoryKept (s t : State) : Prop :=
  (∀ e a past, t.readBytes e a 1 past = s.readBytes e a 1 past) ∧
    ∀ f a, (t.tile s.focus).cellSeen f a = (s.tile s.focus).cellSeen f a

/-- The rest of the machine is as it was: the other strands of the tile, its other parts, the other tiles, and everything that
is no tile. -/
def RestKept (s t : State) : Prop :=
  (∀ n, n ≠ s.cur → t.strand s.focus n = s.strand s.focus n) ∧ (t.tile s.focus).still = (s.tile s.focus).still ∧
    (∀ u, u ≠ s.focus → t.tile u = s.tile u) ∧ t.still = s.still

/-- The frame of an instruction that writes the listed registers and nothing else: the strand's flags, traps, bindings, patterns
and every other special register, memory, and the rest of the machine are unchanged. -/
def Kept (s t : State) (regs : List XReg) : Prop :=
  RegsKept s t regs ∧ (t.strand s.focus s.cur).still = s.me.still ∧ MemoryKept s t ∧ RestKept s t

/-- What xd holds after a write of v: x0 stays zero (R182). -/
def written (d : XReg) (v : Word) : Word := if d = 0 then 0 else v

/-- The next state of an instruction that writes v to xd and goes on to the next bundle. -/
def WritesReg (s t : State) (d : XReg) (v : Word) : Prop :=
  (t.strand s.focus s.cur).rx d = written d v ∧ (t.strand s.focus s.cur).pc = s.me.pc + 1

/-- The next state of an instruction that writes no x register, at the next PC. -/
def GoesOn (s t : State) : Prop :=
  (∀ r, (t.strand s.focus s.cur).rx r = s.rx r) ∧ (t.strand s.focus s.cur).pc = s.me.pc + 1

end Sys2Proof.Machine
end

