-- ==== Sys2Proof/Certificates/Slice0/Obligations.lean ====
section
/-! DEFINITION. The statements about the machine, from the numbered rules of spec/. The definitions before each statement say what
its rules give: a table of results, a form, a frame. -/

namespace Sys2Proof.Machine

/-! ## The A class -/

/-- Bits [e-1:off] of a word as R195 cuts them: e = min(off + w, 64); none when w = 0 or off ≥ 64. -/
def fieldRange (off w : Nat) : Option (Nat × Nat) := if w = 0 ∨ 64 ≤ off then none else some (off, min (off + w) 64)

/-- R195: BFX. -/
def bfxSpec (a off w : Nat) : Word :=
  match fieldRange off w with
  | none => 0
  | some (lo, e) => w64 (a / 2 ^ lo % 2 ^ (e - lo))

/-- R195: BFXS: sign-extended from bit e - 1. -/
def bfxsSpec (a off w : Nat) : Word :=
  match fieldRange off w with
  | none => 0
  | some (lo, e) => BitVec.ofInt 64 (if a / 2 ^ (e - 1) % 2 = 1 then (a / 2 ^ lo % 2 ^ (e - lo) : Nat) - (2 ^ (e - lo) : Nat)
      else (a / 2 ^ lo % 2 ^ (e - lo) : Nat))

/-- R195: BFI: the low bits of xa stand at [e-1:off] of xd; its other bits stay. -/
def bfiSpec (d a off w : Nat) : Word :=
  match fieldRange off w with
  | none => w64 d
  | some (lo, e) => w64 (d / 2 ^ e * 2 ^ e + a % 2 ^ (e - lo) * 2 ^ lo + d % 2 ^ lo)

/-- R193 to R195, R200: destination and value of the integer, bit-field, constant and random-number instructions, from the
registers as they stand before the bundle. -/
def intResult (s : State) : Instr → Option (XReg × Word)
  | .add d a b => some (d, w64 ((s.rx a).toNat + (s.rx b).toNat))
  | .sub d a b => some (d, BitVec.ofInt 64 ((s.rx a).toNat - (s.rx b).toNat : Int))
  | .addi d a imm => some (d, BitVec.ofInt 64 ((s.rx a).toInt + imm.toInt))
  | .mul d a b => some (d, w64 ((s.rx a).toNat * (s.rx b).toNat))
  | .mulh d a b => some (d, BitVec.ofInt 64 ((s.rx a).toInt * (s.rx b).toInt / 2 ^ 64))
  | .mulhu d a b => some (d, w64 ((s.rx a).toNat * (s.rx b).toNat / 2 ^ 64))
  | .div d a b => some (d, if s.rx b = 0 then 0xFFFFFFFFFFFFFFFF else BitVec.ofInt 64 ((s.rx a).toInt.tdiv (s.rx b).toInt))
  | .divu d a b => some (d, if s.rx b = 0 then 0xFFFFFFFFFFFFFFFF else w64 ((s.rx a).toNat / (s.rx b).toNat))
  | .rem d a b => some (d, if s.rx b = 0 then s.rx a else BitVec.ofInt 64 ((s.rx a).toInt.tmod (s.rx b).toInt))
  | .remu d a b => some (d, if s.rx b = 0 then s.rx a else w64 ((s.rx a).toNat % (s.rx b).toNat))
  | .and d a b => some (d, s.rx a &&& s.rx b)
  | .or d a b => some (d, s.rx a ||| s.rx b)
  | .xor d a b => some (d, s.rx a ^^^ s.rx b)
  | .andi d a imm => some (d, s.rx a &&& imm.signExtend 64)
  | .ori d a imm => some (d, s.rx a ||| imm.signExtend 64)
  | .xori d a imm => some (d, s.rx a ^^^ imm.signExtend 64)
  | .shl d a b => some (d, w64 ((s.rx a).toNat * 2 ^ ((s.rx b).toNat % 64)))
  | .shr d a b => some (d, w64 ((s.rx a).toNat / 2 ^ ((s.rx b).toNat % 64)))
  | .sar d a b => some (d, BitVec.ofInt 64 ((s.rx a).toInt / 2 ^ ((s.rx b).toNat % 64)))
  | .shli d a sh => some (d, w64 ((s.rx a).toNat * 2 ^ sh.toNat))
  | .shri d a sh => some (d, w64 ((s.rx a).toNat / 2 ^ sh.toNat))
  | .sari d a sh => some (d, BitVec.ofInt 64 ((s.rx a).toInt / 2 ^ sh.toNat))
  | .min d a b => some (d, if (s.rx a).toInt < (s.rx b).toInt then s.rx a else s.rx b)
  | .max d a b => some (d, if (s.rx a).toInt < (s.rx b).toInt then s.rx b else s.rx a)
  | .minu d a b => some (d, w64 (min (s.rx a).toNat (s.rx b).toNat))
  | .maxu d a b => some (d, w64 (max (s.rx a).toNat (s.rx b).toNat))
  | .slt d a b => some (d, if (s.rx a).toInt < (s.rx b).toInt then 1 else 0)
  | .sltu d a b => some (d, if (s.rx a).toNat < (s.rx b).toNat then 1 else 0)
  | .seq d a b => some (d, if s.rx a = s.rx b then 1 else 0)
  | .sne d a b => some (d, if s.rx a = s.rx b then 0 else 1)
  | .slti d a imm => some (d, if (s.rx a).toInt < imm.toInt then 1 else 0)
  | .clz d a => some (d, w64 (64 - bitLen (s.rx a).toNat))
  | .ctz d a => some (d, w64 (((List.range 64).find? (fun i => (s.rx a).getLsbD i)).getD 64))
  | .popc d a => some (d, w64 ((List.range 64).filter (fun i => (s.rx a).getLsbD i)).length)
  | .bfx d a off w => some (d, bfxSpec (s.rx a).toNat off.toNat w.toNat)
  | .bfxR d a b c => some (d, bfxSpec (s.rx a).toNat (s.rx b).toNat (s.rx c).toNat)
  | .bfxs d a off w => some (d, bfxsSpec (s.rx a).toNat off.toNat w.toNat)
  | .bfxsR d a b c => some (d, bfxsSpec (s.rx a).toNat (s.rx b).toNat (s.rx c).toNat)
  | .bfi d a off w => some (d, bfiSpec (s.rx d).toNat (s.rx a).toNat off.toNat w.toNat)
  | .bfiR d a b c => some (d, bfiSpec (s.rx d).toNat (s.rx a).toNat (s.rx b).toNat (s.rx c).toNat)
  | .movi d imm => some (d, BitVec.ofInt 64 imm.toInt)
  | .movhi d imm => some (d, w64 (imm.toNat * 2 ^ 32 + (s.rx d).toNat % 2 ^ 32))
  | .sel d a b c => some (d, if s.rx c = 0 then s.rx b else s.rx a)
  | .lea d a b sc imm => some (d, BitVec.ofInt 64 ((s.rx a).toInt + (s.rx b).toInt * 2 ^ sc.toNat + imm.toInt))
  | .rngP0 d a b c =>
    let w := philox ((s.rx a).toNat % 2 ^ 32) ((s.rx a).toNat / 2 ^ 32) ((s.rx b).toNat % 2 ^ 32) ((s.rx b).toNat / 2 ^ 32) (s.rx c).toNat
    some (d, w64 (w.1 + 2 ^ 32 * w.2.1))
  | .rngP1 d a b c =>
    let w := philox ((s.rx a).toNat % 2 ^ 32) ((s.rx a).toNat / 2 ^ 32) ((s.rx b).toNat % 2 ^ 32) ((s.rx b).toNat / 2 ^ 32) (s.rx c).toNat
    some (d, w64 (w.2.2.1 + 2 ^ 32 * w.2.2.2))
  | _ => none

/-- R196 to R198: destination, result and flags of the scalar floating-point instructions, on bits [31:0] of their operands. -/
def floatResult (s : State) : Instr → Option (XReg × Nat × Flags)
  | .fadd rm d a b =>
    let x := addNum (Fmt.f32.decode (s.fx a)) (Fmt.f32.decode (s.fx b)) (RMode.ofCode rm.toNat)
    let r := roundTo .f32 x.1 (RMode.ofCode rm.toNat) false
    some (d, r.1, x.2.or r.2)
  | .fsub rm d a b =>
    let x := addNum (Fmt.f32.decode (s.fx a)) (Fmt.f32.decode ((s.fx b + 2 ^ 31) % 2 ^ 32)) (RMode.ofCode rm.toNat)
    let r := roundTo .f32 x.1 (RMode.ofCode rm.toNat) false
    some (d, r.1, x.2.or r.2)
  | .fmul rm d a b =>
    let x := mulNum (Fmt.f32.decode (s.fx a)) (Fmt.f32.decode (s.fx b))
    let r := roundTo .f32 x.1 (RMode.ofCode rm.toNat) false
    some (d, r.1, x.2.or r.2)
  | .ffma rm d a b c =>
    let x := fmaNum (Fmt.f32.decode (s.fx a)) (Fmt.f32.decode (s.fx b)) (Fmt.f32.decode (s.fx c)) (RMode.ofCode rm.toNat)
    let r := roundTo .f32 x.1 (RMode.ofCode rm.toNat) false
    some (d, r.1, x.2.or r.2)
  | .fmin d a b =>
    let x := Fmt.f32.decode (s.fx a)
    let y := Fmt.f32.decode (s.fx b)
    some (d, if x.isNaN && y.isNaN then 0x7FC00000 else if x.isNaN then s.fx b else if y.isNaN then s.fx a
        else if y.below x then s.fx b else s.fx a,
      if x.isNaN || y.isNaN then Flags.invalid else Flags.none)
  | .fmax d a b =>
    let x := Fmt.f32.decode (s.fx a)
    let y := Fmt.f32.decode (s.fx b)
    some (d, if x.isNaN && y.isNaN then 0x7FC00000 else if x.isNaN then s.fx b else if y.isNaN then s.fx a
        else if x.below y then s.fx b else s.fx a,
      if x.isNaN || y.isNaN then Flags.invalid else Flags.none)
  | .fcmp cc d a b =>
    let x := Fmt.f32.decode (s.fx a)
    let y := Fmt.f32.decode (s.fx b)
    let un := x.isNaN || y.isNaN
    let holds := [x.eqv y, !x.eqv y, x.lt y, x.lt y || x.eqv y, y.lt x, y.lt x || x.eqv y, un, !un].getD cc.toNat false
    some (d, if holds then 1 else 0, if un && decide (2 ≤ cc.toNat ∧ cc.toNat ≤ 5) then Flags.invalid else Flags.none)
  | _ => none

/-- R199: destination, result and flags of a conversion that does not underflow to zero into e4m3 or e5m2 (R62). -/
def convertResult (s : State) : Instr → Option (XReg × Nat × Flags)
  | .fcvt dt sc rm d a =>
    let r := fcvtBase dt.toNat sc.toNat rm.toNat (s.rx a)
    if r.2.2 then none else some (d, r.1, r.2.1)
  | _ => none

end Sys2Proof.Machine

open Sys2Proof Sys2Proof.Machine

/-- R193 to R195, R200, R182, R187: every integer, bit-field, constant and random-number instruction completes, writes its value
from the registers as they stood, and goes to the next PC; a write to x0 is discarded. -/
def Rules.IntegerInstructionsWriteTheirResults : Prop :=
  ∀ (s : State) (i : Instr) (d : XReg) (v : Word), intResult s i = some (d, v) →
    ∃ t, exec i s = .next t ∧ WritesReg s t d v

/-- R193, R200: the frame of those instructions: no register but xd, no flag, no special register, no byte of memory. -/
def Rules.IntegerInstructionsChangeOnlyTheirDestination : Prop :=
  ∀ (s : State) (i : Instr) (d : XReg) (v : Word), intResult s i = some (d, v) → s.me.stepOnce = false →
    ∃ t, exec i s = .next t ∧ Kept s t [d]

/-- R196 to R198, R61, R182: every scalar floating-point instruction completes, writes its result zero-extended and ORs its flags
into FFLAGS. -/
def Rules.FloatInstructionsWriteResultAndFlags : Prop :=
  ∀ (s : State) (i : Instr) (d : XReg) (v : Nat) (f : Flags), floatResult s i = some (d, v, f) →
    ∃ t, exec i s = .next t ∧ WritesReg s t d (w64 v) ∧ (t.strand s.focus s.cur).fflags = s.me.fflags ||| f.bits

/-- R196 to R199: their frame, with FCVT's: no register but xd; of the strand's other state FFLAGS alone, and for a conversion
the underflow count and the draw count too; no byte of memory. -/
def Rules.FloatInstructionsChangeOnlyResultAndFlags : Prop :=
  ∀ (s : State) (i : Instr) (d : XReg), ((∃ r, floatResult s i = some (d, r)) ∨ ∃ dt sc rm a, i = .fcvt dt sc rm d a) →
    s.me.stepOnce = false →
    ∃ t, exec i s = .next t ∧ RegsKept s t [d] ∧ MemoryKept s t ∧ RestKept s t ∧
      ∃ f u n, (t.strand s.focus s.cur).still = { s.me.still with fflags := f, ufcnt := u, draws := n } ∧
        ((∃ r, floatResult s i = some (d, r)) → u = s.me.ufcnt ∧ n = s.me.draws)

/-- R199, R62, R63: FCVT completes. Without an underflow to zero into a narrow format it writes its value with its flags and counts
nothing. With one, UFCNT counts it once, up to 0xFFFF; under UFM = 0 the value is that of R57, and under UFM = 1 the value is
rounded by the Philox word of the strand's draw count, which rises by one. -/
def Obligations.ConversionsWriteResultAndCountUnderflow : Prop :=
  ∀ (s : State) (dt sc : BitVec 4) (rm : BitVec 2) (d a : XReg),
    ∃ t, exec (.fcvt dt sc rm d a) s = .next t ∧ (t.strand s.focus s.cur).pc = s.me.pc + 1 ∧
      match convertResult s (.fcvt dt sc rm d a) with
      | some r => (t.strand s.focus s.cur).rx d = written d (w64 r.2.1) ∧
          (t.strand s.focus s.cur).fflags = s.me.fflags ||| r.2.2.bits ∧ (t.strand s.focus s.cur).ufcnt = s.me.ufcnt ∧
          (t.strand s.focus s.cur).draws = s.me.draws
      | none => (t.strand s.focus s.cur).ufcnt = min (s.me.ufcnt + 1) 0xFFFF ∧
          let c := s.ctx (s.tile s.focus).ctx
          let plain := fcvtBase dt.toNat sc.toNat rm.toNat (s.rx a)
          let w := (philox s.me.draws s.me.itag.toNat (512 + s.cur) 0 c.ufkey.toNat).1
          let drawn := roundTo (scalarFmt dt.toNat) (Fmt.f32.decode (s.fx a)) (.sr w) false
          if c.liveModes.getLsbD 0 then
            (t.strand s.focus s.cur).rx d = written d (w64 drawn.1) ∧
              (t.strand s.focus s.cur).fflags = s.me.fflags ||| drawn.2.bits ∧
              (t.strand s.focus s.cur).draws = (s.me.draws + 1) % 2 ^ 32
          else
            (t.strand s.focus s.cur).rx d = written d (w64 plain.1) ∧
              (t.strand s.focus s.cur).fflags = s.me.fflags ||| plain.2.1.bits ∧
              (t.strand s.focus s.cur).draws = s.me.draws

namespace Sys2Proof.Machine

/-! ## The B class -/

/-- R210: the register a transfer writes and the next PC, from the registers as they stood before the bundle. -/
def branchResult (s : State) : Instr → Option (Option (XReg × Word) × BitVec 32)
  | .nop => some (none, s.me.pc + 1)
  | .br off => some (none, s.me.pc + off)
  | .beq a b off => some (none, if s.rx a = s.rx b then s.me.pc + off else s.me.pc + 1)
  | .bne a b off => some (none, if s.rx a = s.rx b then s.me.pc + 1 else s.me.pc + off)
  | .blt a b off => some (none, if (s.rx a).toInt < (s.rx b).toInt then s.me.pc + off else s.me.pc + 1)
  | .bge a b off => some (none, if (s.rx a).toInt < (s.rx b).toInt then s.me.pc + 1 else s.me.pc + off)
  | .bltu a b off => some (none, if (s.rx a).toNat < (s.rx b).toNat then s.me.pc + off else s.me.pc + 1)
  | .bgeu a b off => some (none, if (s.rx a).toNat < (s.rx b).toNat then s.me.pc + 1 else s.me.pc + off)
  | .bz a off => some (none, if s.rx a = 0 then s.me.pc + off else s.me.pc + 1)
  | .bnz a off => some (none, if s.rx a = 0 then s.me.pc + 1 else s.me.pc + off)
  | .jr a => some (none, (s.rx a).extractLsb' 0 32)
  | .ret a => some (none, (s.rx a).extractLsb' 0 32)
  | .call d off => some (some (d, w64 (s.me.pc + 1).toNat), s.me.pc + off)
  | .loop a off =>
    if 1 < (s.rx a).toNat then some (some (a, w64 ((s.rx a).toNat - 1)), s.me.pc + off) else some (some (a, 0), s.me.pc + 1)
  | _ => none

/-- R380: the strand is in no handler and its context has one, so that a cause is taken as a trap. -/
def CanTrap (s : State) : Prop := s.me.handler = false ∧ (s.ctx (s.tile s.focus).ctx).handler ≠ 0

/-- R378, R380: the strand has taken a trap: the cause code, its information and the PC are saved, and the handler runs from its
first index. -/
def Trapped (s t : State) (code : Nat) (info : Word) (pc : BitVec 32) : Prop :=
  (t.strand s.focus s.cur).trapc = BitVec.ofNat 8 code ∧ (t.strand s.focus s.cur).trapv = info ∧
    (t.strand s.focus s.cur).trappc = pc ∧ (t.strand s.focus s.cur).handler = true ∧ (t.strand s.focus s.cur).pc = 0

/-- A trap that keeps its bundle from issuing (R181): no register of the strand and no byte of memory has changed. -/
def TrappedUnissued (s t : State) (code : Nat) (info : Word) : Prop :=
  Trapped s t code info s.me.pc ∧ RegsKept s t [] ∧ (t.strand s.focus s.cur).fflags = s.me.fflags ∧ MemoryKept s t

end Sys2Proof.Machine

/-- R210, R182: every transfer, and NOP, completes: the register it writes and the next PC are those of the table. -/
def Rules.TransfersSetPcAndLinkRegister : Prop :=
  ∀ (s : State) (i : Instr) (w : Option (XReg × Word)) (pc : BitVec 32), branchResult s i = some (w, pc) →
    ∃ t, exec i s = .next t ∧ (t.strand s.focus s.cur).pc = pc ∧
      ∀ d v, w = some (d, v) → (t.strand s.focus s.cur).rx d = written d v

/-- R210: the frame of a transfer: no register but its link or counter register, no flag, no special register, no memory. -/
def Rules.TransfersChangeOnlyTheirRegister : Prop :=
  ∀ (s : State) (i : Instr) (w : Option (XReg × Word)) (pc : BitVec 32), branchResult s i = some (w, pc) →
    s.me.stepOnce = false → ∃ t, exec i s = .next t ∧ Kept s t (w.toList.map (fun p => p.1))

/-- R211: the issuing strand has left its task: every binding is undone, no x register and no flag has changed, and the core chooses
a strand next (R189). -/
def LeftTask (s t : State) : Prop :=
  (t.tile s.focus).choosing = true ∧ (∀ r : SReg, (t.strand s.focus s.cur).binding r.toNat = {}) ∧ RegsKept s t [] ∧
    (t.strand s.focus s.cur).fflags = s.me.fflags

/-- R122: the issuing task suspended at the next PC: its strand stays in a state, or, on a tile that leaves its stage, is idle, its
continuation record standing last in the stage's resume queue: the resume PC, the queue it waits on, the item handle, the tag and x1 to
x6. -/
def Suspended (s t : State) (state : SState) (waits : Option Nat) : Prop :=
  LeftTask s t ∧ MemoryKept s t ∧ (t.strand s.focus s.cur).pc = s.me.pc + 1 ∧
    ((s.tile s.focus).isDonor = false → (t.strand s.focus s.cur).state = state) ∧
    ∀ slot g, (s.tile s.focus).isDonor = true → (s.tile s.focus).stage = some (slot, g) → slot < 8 →
      g < (s.pipe (s.tile s.focus).ctx slot).stages.length →
      (t.strand s.focus s.cur).state = .idle ∧
        ∃ r, ((t.pipe (s.tile s.focus).ctx slot).stage g).resume = ((s.pipe (s.tile s.focus).ctx slot).stage g).resume ++ [r] ∧
          r.recPc = s.me.pc + 1 ∧ r.recWait = waits ∧ r.recItem = s.me.item ∧ r.tag = s.me.itag ∧
          ∀ x : XReg, 1 ≤ x.toNat → x.toNat ≤ 6 → r.recX x.toNat = s.rx x

/-- R211, R122, R189: once every partial outgoing token can be sent, YIELD outside a handler, and WAITQ on an input queue, complete: they
suspend the task with the next PC as its resume PC; a tile that leaves its stage hands the continuation record to the stage's resume
queue. DONE completes and ends the task in a handler or out of one, its table entry freed. The core then chooses a strand. -/
def Obligations.TaskEndsSuspendOrEndTheTask : Prop :=
  ∀ (s : State), (s.tile s.focus).canUnbindAll s.cur = true →
    (s.me.handler = false → ∃ t, exec .yield s = .next t ∧ Suspended s t .yielded none) ∧
    (∀ q : QNum, s.me.handler = false → s.inputQueue q.toNat = true →
      ∃ t, exec (.waitq q) s = .next t ∧ Suspended s t (.waiting q.toNat) (some q.toNat)) ∧
    ∃ t, exec .done s = .next t ∧ LeftTask s t ∧ (t.strand s.focus s.cur).state = .idle ∧
      (t.strand s.focus s.cur).handler = false ∧ (t.strand s.focus s.cur).entry = none ∧
      ∀ slot g e, (s.tile s.focus).stage = some (slot, g) → s.me.entry = some e →
        ∀ x ∈ ((t.pipe (s.tile s.focus).ctx slot).stage g).tasks, x.1 ≠ e

/-- R213, R380, R394: TRAP, and BRK with no debugger attached, complete their bundle and are taken as traps 0x38 and 0x39 with the
immediate in TRAPV and the next PC in TRAPPC; BRK under the attach bit halts the strand and takes no trap. -/
def Rules.TrapAndBrkTakeTheirTrap : Prop :=
  ∀ (s : State) (k : Imm), CanTrap s →
    (∃ t, exec (.trap k) s = .next t ∧ Trapped s t 0x38 (w64 k.toNat) (s.me.pc + 1) ∧ RegsKept s t []) ∧
    ((s.ctx (s.tile s.focus).ctx).attach = false →
      ∃ t, exec (.brk k) s = .next t ∧ Trapped s t 0x39 (w64 k.toNat) (s.me.pc + 1) ∧ RegsKept s t []) ∧
    ((s.ctx (s.tile s.focus).ctx).attach = true →
      ∃ t, exec (.brk k) s = .next t ∧ (t.strand s.focus s.cur).halted = true ∧ (t.strand s.focus s.cur).handler = false ∧
        (t.strand s.focus s.cur).pc = s.me.pc + 1 ∧ RegsKept s t [])

/-- R214: TRET in a handler goes back to TRAPPC and leaves TRAPC and TRAPV. -/
def Rules.TretReturnsToTrapPc : Prop :=
  ∀ (s : State), s.me.handler = true →
    ∃ t, exec .tret s = .next t ∧ (t.strand s.focus s.cur).pc = s.me.trappc ∧ (t.strand s.focus s.cur).handler = false ∧
      (t.strand s.focus s.cur).trapc = s.me.trapc ∧ (t.strand s.focus s.cur).trapv = s.me.trapv ∧ RegsKept s t [] ∧ MemoryKept s t

/-- R212, R170, R190, R379: a B slot that the strand's state puts out of range takes ILLEGAL_BUNDLE with slot 5 and reason 4, and a
privileged slot of a user takes PRIVILEGE with its slot; nothing of the bundle executes. -/
def Obligations.OutOfRangeAndPrivilegedSlotsTrap : Prop :=
  ∀ (s : State), CanTrap s →
    (∃ t, exec .tret s = .next t ∧ TrappedUnissued s t 0x01 0x45) ∧
    (∀ q : QNum, s.inputQueue q.toNat = false → ∃ t, exec (.waitq q) s = .next t ∧ TrappedUnissued s t 0x01 0x45) ∧
    (∀ a b : XReg, (s.tile s.focus).ctx ≠ 0 → invCtx b s ≤ 288 →
      (∃ t, exec (.invl a b) s = .next t ∧ TrappedUnissued s t 0x03 4) ∧
      ∃ t, exec (.invw a b) s = .next t ∧ TrappedUnissued s t 0x03 4)

/-- R380, R382, R378: a cause in handler state is fatal as DOUBLE and a cause with no handler as NOHANDLER: the core issues nothing
more, and a running context is to be stopped as FAULTED with a record that names the cause, the strand and the tile, and holds the
second or the missed cause code in TRAPV. Two instructions that raise one are TRAP and, in a handler, YIELD. Where the rules leave a point open it follows the model's choice, log 35. -/
def Obligations.CauseWithNoWayToHandleItIsFatal : Prop :=
  ∀ (s : State) (k : Imm), let c := (s.tile s.focus).ctx
    (s.ctx c).state = .running → (s.ctx c).fault = none →
    (s.me.handler = true → ∃ t, exec (.trap k) s = .next t ∧ (t.tile s.focus).stopping = true ∧ (t.ctx c).stopTo = some .faulted ∧
      (t.ctx c).fault = some { cause := 0x42, strand := s.cur, tile := s.focus, trappc := s.me.pc + 1, trapv := 0x38 }) ∧
    (s.me.handler = true → ∃ t, exec .yield s = .next t ∧ (t.tile s.focus).stopping = true ∧ (t.ctx c).stopTo = some .faulted ∧
      (t.ctx c).fault = some { cause := 0x42, strand := s.cur, tile := s.focus, trappc := s.me.pc, trapv := 0x01 }) ∧
    (s.me.handler = false → (s.ctx c).handler = 0 →
      ∃ t, exec (.trap k) s = .next t ∧ (t.tile s.focus).stopping = true ∧ (t.ctx c).stopTo = some .faulted ∧
        (t.ctx c).fault = some { cause := 0x43, strand := s.cur, tile := s.focus, trappc := s.me.pc + 1, trapv := 0x38 })

/-- R392, R393: a strand that a debugger steps halts when the bundle it issued completes or traps; a bundle of NOPs shows it. -/
def Obligations.SteppedStrandHaltsAfterItsBundle : Prop :=
  ∀ (s : State), s.me.stepOnce = true →
    (∃ t, exec .nop s = .next t ∧ (t.strand s.focus s.cur).halted = true ∧ (t.strand s.focus s.cur).stepOnce = false ∧
      (t.strand s.focus s.cur).pc = s.me.pc + 1 ∧ RegsKept s t []) ∧
    (CanTrap s → ∃ t, exec .tret s = .next t ∧ (t.strand s.focus s.cur).halted = true ∧ Trapped s t 0x01 0x45 s.me.pc)

namespace Sys2Proof.Machine

/-! ## The M class -/

/-- R201, R202, R204: a scalar memory instruction: address register, offset, width in bytes and access kind. -/
def memForm : Instr → Option (XReg × Imm × Nat × Access)
  | .ld t _ a k => some (a, k, [1, 2, 4, 8, 1, 2, 4, 8].getD t.toNat 8, .read)
  | .st t a _ k => some (a, k, 2 ^ t.toNat, .write)
  | .atom _ wide _ a _ k => some (a, k, if wide then 8 else 4, .atomic)
  | .cas wide _ a _ _ k => some (a, k, if wide then 8 else 4, .atomic)
  | _ => none

/-- R201: the address of a form, modulo 2^64. -/
def formAddr (s : State) (a : XReg) (k : Imm) : Word := BitVec.ofInt 64 ((s.rx a).toInt + k.toInt)

/-- R133: bits [63:57] of a canonical address repeat bit 56. -/
def isCanonical (ea : Word) : Prop := ea.toNat < 2 ^ 56 ∨ 2 ^ 64 - 2 ^ 56 ≤ ea.toNat

/-- R201: the cell window. -/
def inCells (ea : Word) : Prop := 0xFFFFFFFFFFF00000 ≤ ea.toNat

/-- R201: in the cell window, a well-formed access to one of the twelve cells at offset b of cell o: the byte address 65536 o + b
of the tile's cells. -/
def CellAccess (s : State) (i : Instr) (addr width : Nat) : Prop :=
  ∃ a k acc, memForm i = some (a, k, width, acc) ∧ inCells (formAddr s a k) ∧ (formAddr s a k).toNat % width = 0 ∧
    (formAddr s a k).toNat / 65536 % 16 < 12 ∧ addr = (formAddr s a k).toNat % 0x100000

/-- R202: a loaded value extended to 64 bits: signed for codes 0 to 2, by value for the others. -/
def extended (t : BitVec 3) (v : Nat) : Word :=
  match t.toNat with
  | 0 => (BitVec.ofNat 8 v).signExtend 64
  | 1 => (BitVec.ofNat 16 v).signExtend 64
  | 2 => (BitVec.ofNat 32 v).signExtend 64
  | _ => w64 v

/-- R203, R231, R385: the value of n bytes of a tile's cells as a read in the present fc sees them; a word whose ECC fails reads as
zero. -/
def cellValue (s : State) (addr n : Nat) : Nat :=
  leNat ((List.range n).map (fun i =>
    if (s.tile s.focus).sramBad.contains ((addr + i) / 4) then 0 else (s.tile s.focus).cellSeen (s.fcOf s.focus) (addr + i)))

/-- No write less than four fc old stands on the bytes of an access. -/
def Settled (s : State) (addr n : Nat) : Prop := ∀ w ∈ (s.tile s.focus).cellWrites, w.addr < addr ∨ addr + n ≤ w.addr

/-- R204: the value an ATOM writes over m, on n bits. -/
def atomicValue (op n m v : Nat) : Nat :=
  let sg (x : Nat) : Int := if x < 2 ^ (n - 1) then x else (x : Int) - 2 ^ n
  [(m + v) % 2 ^ n, if sg m ≤ sg v then m else v, if sg m < sg v then v else m, min m v, max m v, m &&& v, m ||| v, m ^^^ v, v].getD op m

/-- R204: the value an ATOM or CAS leaves where m stood. -/
def newValue (s : State) (m : Nat) : Instr → Option (Nat × XReg × Nat)
  | .atom op wide d _ b _ =>
    let n := if wide then 64 else 32
    some (atomicValue op.toNat n m ((s.rx b).toNat % 2 ^ n), d, n / 8)
  | .cas wide d _ b c _ =>
    let n := if wide then 64 else 32
    some (if m = (s.rx b).toNat % 2 ^ n then (s.rx c).toNat % 2 ^ n else m, d, n / 8)
  | _ => none

/-- R231: n bytes at an address of the tile's cells hold a value for every read from the fourth fc on, and what they held before
for every earlier read; every other byte of the cells reads as before. -/
def CellsWritten (s t : State) (addr n v : Nat) : Prop :=
  (∀ i, i < n → ∀ f, s.fcOf s.focus + 4 ≤ f → (t.tile s.focus).cellSeen f (addr + i) = byte (v / 256 ^ i)) ∧
    (∀ f, f < s.fcOf s.focus + 4 → ∀ i, i < n → (t.tile s.focus).cellSeen f (addr + i) = (s.tile s.focus).cellSeen f (addr + i)) ∧
    ∀ f a, a < addr ∨ addr + n ≤ a → (t.tile s.focus).cellSeen f a = (s.tile s.focus).cellSeen f a

/-- Memory off the tile is as it was: what memory holds, and what each die sees of it. -/
def MainMemoryKept (s t : State) : Prop := ∀ e a past, t.readBytes e a 1 past = s.readBytes e a 1 past

/-- R140 to R150, R201: the address of a scalar access translates, for a strand of the tile in focus, to a location in L2. -/
def ReachesL2 (s : State) (ea : Word) (acc : Access) (s1 : State) (pa : Nat) : Prop :=
  ¬ inCells ea ∧ (∃ p, s.translate (.strand s.focus s.cur) (s.tile s.focus).ctx ea acc (s.super s.focus) false = .ok s1 pa p) ∧
    pa / 2 ^ 48 % 16 = 1

/-- R17, R186, R288: a request stands last in the queue of its address's home node. -/
def Requested (s1 t : State) (pa : Nat) (r : MemReq) : Prop :=
  (t.die (nodeOf s1.pkg.ordering pa).1).nodes.get [] (nodeOf s1.pkg.ordering pa).2 =
    (s1.die (nodeOf s1.pkg.ordering pa).1).nodes.get [] (nodeOf s1.pkg.ordering pa).2 ++ [r]

end Sys2Proof.Machine

/-- R201, R203, R202, R385: LD in the cell window completes with the value of the cell's bytes, extended; a word whose check fails
uncorrectably reads as zero and sets the context's sticky flag. No other register and no memory changes. -/
def Rules.CellLoadReadsTheCell : Prop :=
  ∀ (s : State) (ty : BitVec 3) (d a : XReg) (k : Imm) (addr width : Nat), ty ≠ 7#3 →
    CellAccess s (.ld ty d a k) addr width →
    ((s.ctx (s.tile s.focus).ctx).pendTrap = true → (s.tile s.focus).cellPending (s.fcOf s.focus) addr width = false) →
    ∃ t, exec (.ld ty d a k) s = .next t ∧ WritesReg s t d (extended ty (cellValue s addr width)) ∧ RegsKept s t [d] ∧
      (t.strand s.focus s.cur).fflags = s.me.fflags ∧ MemoryKept s t ∧
      ((∃ w ∈ (s.tile s.focus).sramBad, addr / 4 ≤ w ∧ w ≤ (addr + width - 1) / 4) → (t.ctx (s.tile s.focus).ctx).ecc = true)

/-- R202, R203, R231: ST in the cell window completes at issue: its bytes are those of xb for every read from the fourth fc on, and
the old ones before; nothing else in the cells, and nothing in memory, changes, and no register does. -/
def Rules.CellStoreIsSeenFromTheFourthFc : Prop :=
  ∀ (s : State) (ty : BitVec 2) (a b : XReg) (k : Imm) (addr width : Nat),
    CellAccess s (.st ty a b k) addr width → Settled s addr width →
    ∃ t, exec (.st ty a b k) s = .next t ∧ GoesOn s t ∧ CellsWritten s t addr width ((s.rx b).toNat % 2 ^ (8 * width)) ∧
      MainMemoryKept s t ∧ (t.strand s.focus s.cur).fflags = s.me.fflags

/-- R204, R231, R336: ATOM and CAS in the cell window read the word, write its new value in the same indivisible step, and return the old
value sign-extended, once what causally precedes the write they read is visible at their die; before that the bundle waits. -/
def Rules.CellAtomicsReadAndWriteAtOnce : Prop :=
  ∀ (s : State) (i : Instr) (addr width v : Nat) (d : XReg),
    CellAccess s i addr width → Settled s addr width → (∀ op wide d a b k, i = .atom op wide d a b k → op.toNat ≤ 8) →
    newValue s (cellValue s addr width) i = some (v, d, width) →
    let past := (s.tile s.focus).cellPasts (s.fcOf s.focus) addr width true
    ((∀ w ∈ past, s.seenAt (tileDie s.focus) w = true) → ∃ t, exec i s = .next t ∧
      WritesReg s t d (if width = 8 then w64 (cellValue s addr width) else (BitVec.ofNat 32 (cellValue s addr width)).signExtend 64) ∧
      RegsKept s t [d] ∧ CellsWritten s t addr width v ∧ MainMemoryKept s t ∧ (t.strand s.focus s.cur).fflags = s.me.fflags) ∧
    ((∃ w ∈ past, s.seenAt (tileDie s.focus) w = false) → ∃ t, exec i s = .next t ∧ (t.strand s.focus s.cur).pc = s.me.pc ∧
      RegsKept s t [] ∧ MemoryKept s t)

/-- R201, R186, R202, R204: a scalar access whose address translates to L2 sends one request, for exactly that physical address and
its operands, to the address's home node. A store completes at issue; a load, ATOM or CAS holds its bundle until the value
returns. No register, no flag and no byte of memory changes yet. -/
def Obligations.ScalarAccessToL2SendsItsRequest : Prop :=
  ∀ (s s1 : State) (i : Instr) (a : XReg) (k : Imm) (width pa : Nat) (acc : Access), i.wf = true →
    memForm i = some (a, k, width, acc) → isCanonical (formAddr s a k) → (formAddr s a k).toNat % width = 0 →
    ReachesL2 s (formAddr s a k) acc s1 pa →
    ∃ t, exec i s = .next t ∧ MainMemoryKept s t ∧ RegsKept s t [] ∧ (t.strand s.focus s.cur).fflags = s.me.fflags ∧
      match i with
      | .st _ _ b _ => (t.strand s.focus s.cur).pc = s.me.pc + 1 ∧ (t.tile s.focus).held = none ∧ s1.nextId ∈ t.flying ∧
          ∃ r, Requested s1 t pa r ∧ r.id = s1.nextId ∧ r.pa = pa ∧
            r.op = .store (leBytes width ((s.rx b).toNat % 2 ^ (8 * width)))
      | .ld _ d _ _ => (t.strand s.focus s.cur).pc = s.me.pc ∧ (∃ h, (t.tile s.focus).held = some h ∧ h.waits = [(s1.nextId, 2, d.toNat)]) ∧
          ∃ r, Requested s1 t pa r ∧ r.id = s1.nextId ∧ r.pa = pa ∧ r.op = .load width
      | .atom op wide d _ b _ => (t.strand s.focus s.cur).pc = s.me.pc ∧
          (∃ h, (t.tile s.focus).held = some h ∧ h.waits = [(s1.nextId, 2, d.toNat)]) ∧
          ∃ r, Requested s1 t pa r ∧ r.id = s1.nextId ∧ r.pa = pa ∧ r.op = .atom op.toNat wide (s.rx b)
      | .cas wide d _ b c _ => (t.strand s.focus s.cur).pc = s.me.pc ∧
          (∃ h, (t.tile s.focus).held = some h ∧ h.waits = [(s1.nextId, 2, d.toNat)]) ∧
          ∃ r, Requested s1 t pa r ∧ r.id = s1.nextId ∧ r.pa = pa ∧ r.op = .cas wide (s.rx b) (s.rx c)
      | _ => False

/-- R201, R379, R181: the checks of a scalar address, in order: not canonical takes ADDR_OVF with the address; not a multiple of the
width takes the alignment trap; a cell of 12 to 15 takes the permission fault of reason NOCELL; a translation that lands outside L2
takes the permission fault of reason STREAMONLY, and one that faults takes its own cause and reason. No slot of the bundle executes.
A translation that has to wait leaves the bundle unissued. -/
def Obligations.ScalarAddressChecksTrapInOrder : Prop :=
  ∀ (s : State) (i : Instr) (a : XReg) (k : Imm) (width : Nat) (acc : Access), CanTrap s → i.wf = true →
    memForm i = some (a, k, width, acc) →
    (¬ isCanonical (formAddr s a k) → ∃ t, exec i s = .next t ∧ TrappedUnissued s t 0x10 (formAddr s a k)) ∧
    (isCanonical (formAddr s a k) → (formAddr s a k).toNat % width ≠ 0 →
      ∃ t, exec i s = .next t ∧ TrappedUnissued s t 0x11 (w64 (acc.code * 2 ^ 57 + (formAddr s a k).toNat % 2 ^ 57))) ∧
    (inCells (formAddr s a k) → (formAddr s a k).toNat % width = 0 → 12 ≤ (formAddr s a k).toNat / 65536 % 16 →
      ∃ t, exec i s = .next t ∧
        TrappedUnissued s t 0x13 (w64 (2 * 2 ^ 60 + acc.code * 2 ^ 57 + (formAddr s a k).toNat % 2 ^ 57))) ∧
    (isCanonical (formAddr s a k) → ¬ inCells (formAddr s a k) → (formAddr s a k).toNat % width = 0 →
      (∀ s1 pa p, s.translate (.strand s.focus s.cur) (s.tile s.focus).ctx (formAddr s a k) acc (s.super s.focus) false = .ok s1 pa p →
        pa / 2 ^ 48 % 16 ≠ 1 → ∃ t, exec i s = .next t ∧
          TrappedUnissued s t 0x13 (w64 (3 * 2 ^ 60 + acc.code * 2 ^ 57 + (formAddr s a k).toNat % 2 ^ 57))) ∧
      (∀ s1 c r, s.translate (.strand s.focus s.cur) (s.tile s.focus).ctx (formAddr s a k) acc (s.super s.focus) false = .fault s1 c r →
        c ≠ 0x40 → ∃ t, exec i s = .next t ∧
          TrappedUnissued s t c (w64 (r * 2 ^ 60 + acc.code * 2 ^ 57 + (formAddr s a k).toNat % 2 ^ 57))) ∧
      (∀ s1, s.translate (.strand s.focus s.cur) (s.tile s.focus).ctx (formAddr s a k) acc (s.super s.focus) false = .wait s1 →
        ∃ t, exec i s = .next t ∧ (t.strand s.focus s.cur).pc = s.me.pc ∧ RegsKept s t [] ∧ MemoryKept s t))

namespace Sys2Proof.Machine

/-- R205: the word of a token at a cursor: lanes 2c and 2c + 1, zero where not valid. -/
def tokenWord (k : Token) (c : Nat) : Word :=
  w64 ((if k.mask.getLsbD (2 * c + 1) then (k.lanes.getD (2 * c + 1) 0).toNat else 0) * 2 ^ 32 +
    (if k.mask.getLsbD (2 * c) then (k.lanes.getD (2 * c) 0).toNat else 0))

/-- The binding of a register of the issuing strand in a state. -/
def bindingOf (s t : State) (r : SReg) : Binding := (t.strand s.focus s.cur).binding r.toNat

/-- R191, R209: what GETS reads. -/
def sysValue (s : State) (num : Nat) : Word :=
  let u := s.tile s.focus
  if 0x020 ≤ num ∧ num ≤ 0x028 then w64 ((s.die (tileDie s.focus)).vclk.get 0 (num - 0x020))
  else if num = 0x000 then w64 u.ctx
  else if num = 0x001 then w64 (s.focus % 64)
  else if num = 0x002 then w64 (s.focus / 64)
  else if num = 0x003 then w64 Config.pkgid.toNat
  else if num = 0x004 then w64 s.cur
  else if num = 0x005 then (if u.ctx = 0 then 1 else 0)
  else if num = 0x006 then w64 (s.ctx u.ctx).liveModes.toNat
  else if num = 0x008 then w64 u.lcyc
  else if num = 0x010 then u.csb
  else if num = 0x018 then s.me.item
  else if num = 0x019 then w64 s.me.itag.toNat
  else if num = 0x030 then u.fstat.word
  else if num = 0x031 then w64 s.me.fflags.toNat
  else if num = 0x032 then w64 s.me.ufcnt
  else if num = 0x040 then w64 s.me.trapc.toNat
  else if num = 0x041 then s.me.trapv
  else if num = 0x042 then w64 s.me.trappc.toNat
  else if num = 0x048 then
    w64 ((if s.me.halted then 4 else 0) + (if u.freeze then 2 else 0) + (if u.status.all (fun p => p.2.state != 1) then 1 else 0))
  else if num = 0x050 then w64 s.me.budget.toNat
  else w64 s.me.echg

end Sys2Proof.Machine

/-- R205, R378: SRD through no binding writes 0; with no token at the head the bundle waits; a POISON token traps and stays; an EOS
token gives 0 and stays; a DATA or HDR token gives the word at the read cursor, and its eighth word consumes it. -/
def Rules.SrdReadsTheTokenAtTheHead : Prop :=
  ∀ (s : State) (d : XReg) (r : SReg),
    ((bindingOf s s r).target = .unbound → ∃ t, exec (.srd d r) s = .next t ∧ WritesReg s t d 0 ∧ RegsKept s t [d] ∧ MemoryKept s t) ∧
    ((bindingOf s s r).target ≠ .unbound →
      (s.head s.focus s.cur r.toNat = none →
        ∃ t, exec (.srd d r) s = .next t ∧ (t.strand s.focus s.cur).pc = s.me.pc ∧ RegsKept s t [] ∧ MemoryKept s t) ∧
      ∀ k, s.head s.focus s.cur r.toNat = some k →
        (k.kind = .poison → CanTrap s → ∃ t, exec (.srd d r) s = .next t ∧ TrappedUnissued s t 0x21 (w64 r.toNat)) ∧
        (k.kind = .eos → ∃ t, exec (.srd d r) s = .next t ∧ WritesReg s t d 0 ∧ RegsKept s t [d] ∧
          bindingOf s t r = bindingOf s s r ∧ (t.tile s.focus).arcs = (s.tile s.focus).arcs) ∧
        (k.kind = .data ∨ k.kind = .hdr → ∃ t, exec (.srd d r) s = .next t ∧
          WritesReg s t d (tokenWord k (bindingOf s s r).rcur) ∧ RegsKept s t [d] ∧ MemoryKept s t ∧
          (t.strand s.focus s.cur).fflags = s.me.fflags ∧
          if (bindingOf s s r).rcur = 7 then (bindingOf s t r).rcur = 0 ∧
            ∀ e, (bindingOf s s r).readEnd r.toNat = some e → (t.tile s.focus).arc e = none
          else (bindingOf s t r).rcur = (bindingOf s s r).rcur + 1 ∧ (t.tile s.focus).arcs = (s.tile s.focus).arcs))

/-- R206: SPEEK never waits and consumes nothing: it writes the status word of the binding, 0 for an unbound register, and changes
nothing else. -/
def Rules.SpeekReadsTheStatusWord : Prop :=
  ∀ (s : State) (d : XReg) (r : SReg), s.me.stepOnce = false →
    ∃ t, exec (.speek d r) s = .next t ∧ Kept s t [d] ∧
      WritesReg s t d (if (bindingOf s s r).target = .unbound then 0
        else match s.head s.focus s.cur r.toNat with
          | none => w64 (8 * (bindingOf s s r).rcur)
          | some k => w64 (65536 * k.mask.toNat + 8 * (bindingOf s s r).rcur + 2 * k.kind.code + 1))

/-- R207, R183: SWR through no binding is discarded; else, once the arcs it goes to are free, for every one of the eight words (the model's reading, log 12), it writes two lanes of the outgoing token
at the write cursor and marks them valid; its eighth word sends the token as DATA on every arc of the binding. -/
def Rules.SwrWritesTheOutgoingToken : Prop :=
  ∀ (s : State) (r : SReg) (a : XReg), let b := bindingOf s s r
    (b.target = .unbound → s.me.stepOnce = false → ∃ t, exec (.swr r a) s = .next t ∧ Kept s t [] ∧ GoesOn s t) ∧
    (b.target ≠ .unbound → (s.tile s.focus).canSend s.cur b r.toNat = false →
      ∃ t, exec (.swr r a) s = .next t ∧ (t.strand s.focus s.cur).pc = s.me.pc ∧ bindingOf s t r = b) ∧
    (b.target ≠ .unbound → (s.tile s.focus).canSend s.cur b r.toNat = true → b.wcur ≠ 7 →
      ∃ t, exec (.swr r a) s = .next t ∧ GoesOn s t ∧ MemoryKept s t ∧ (bindingOf s t r).wcur = b.wcur + 1 ∧
        (bindingOf s t r).part.lanes = (b.part.lanes.set (2 * b.wcur) ((s.rx a).extractLsb' 0 32)).set (2 * b.wcur + 1)
          ((s.rx a).extractLsb' 32 32) ∧
        (∀ i, (bindingOf s t r).part.mask.getLsbD i = (b.part.mask.getLsbD i || decide (i < 16 ∧ i / 2 = b.wcur)))) ∧
    (b.target ≠ .unbound → (s.tile s.focus).canSend s.cur b r.toNat = true → b.wcur = 7 →
      ∃ t, exec (.swr r a) s = .next t ∧ GoesOn s t ∧ MemoryKept s t ∧ (bindingOf s t r).wcur = 0 ∧ (bindingOf s t r).part = {} ∧
        ∀ e ∈ (s.tile s.focus).writeDests s.cur b r.toNat, ∃ k, (t.tile s.focus).arc e = some k ∧ k.kind = .data ∧
          k.since = s.fcOf s.focus + 1 ∧
          k.lanes = (b.part.lanes.set 14 ((s.rx a).extractLsb' 0 32)).set 15 ((s.rx a).extractLsb' 32 32))

/-- R208: SBIND waits until the partly written tokens it sends have their arcs, then makes the new binding, with cursors at 0; a
register of the tile that held the port is left unbound. -/
def Rules.SbindMakesTheBinding : Prop :=
  ∀ (s : State) (r : SReg) (b : BindTarget),
    ((s.tile s.focus).canUnbind s.cur r.toNat = false →
      ∃ t, exec (.sbind r b) s = .next t ∧ (t.strand s.focus s.cur).pc = s.me.pc ∧ bindingOf s t r = bindingOf s s r) ∧
    ((s.tile s.focus).canUnbind s.cur r.toNat = true →
      (∀ n k, bindHolder b s r = some (n, k) → (s.tile s.focus).canUnbind n k = true) →
      ∃ t, exec (.sbind r b) s = .next t ∧ GoesOn s t ∧ MemoryKept s t ∧
        (bindingOf s t r).rcur = 0 ∧ (bindingOf s t r).wcur = 0 ∧ (bindingOf s t r).part = {} ∧
        (bindingOf s t r).target = (match b with | .port p => .port p.toNat | .fabric => .fabric | .nothing => .unbound) ∧
        ∀ n k, bindHolder b s r = some (n, k) → ((t.strand s.focus n).binding k).target = .unbound)

/-- R191, R209: GETS of every assigned number writes the register as it stands when the bundle issues, and changes nothing else. -/
def Rules.GetsReadsTheSystemRegister : Prop :=
  ∀ (s : State) (d : XReg) (num : BitVec 12), num.toNat ∈ sysRegs → s.me.stepOnce = false →
    ∃ t, exec (.gets d num) s = .next t ∧ WritesReg s t d (sysValue s num.toNat) ∧ Kept s t [d]

/-- R6, R190, R191, R209: SETS of FFLAGS clears each flag whose bit is 1; TRAPPC and EBUDGET take their low 32 bits; FREEZE takes
bit 1 at supervisor privilege alone; every other register ignores the write. No x register and no memory changes. -/
def Rules.SetsWritesByAccessCode : Prop :=
  ∀ (s : State) (num : BitVec 12) (a : XReg), num.toNat ∈ sysRegs → s.me.stepOnce = false →
    ∃ t, exec (.sets num a) s = .next t ∧ GoesOn s t ∧ MemoryKept s t ∧
      (if num = 0x031 then (t.strand s.focus s.cur).still = { s.me.still with fflags := s.me.fflags &&& ~~~((s.rx a).extractLsb' 0 5) }
       else if num = 0x042 then (t.strand s.focus s.cur).still = { s.me.still with trappc := (s.rx a).extractLsb' 0 32 }
       else if num = 0x050 then (t.strand s.focus s.cur).still = { s.me.still with budget := (s.rx a).extractLsb' 0 32 }
       else (t.strand s.focus s.cur).still = s.me.still) ∧
      (t.tile s.focus).freeze = (if num = 0x048 ∧ (s.tile s.focus).ctx = 0 then (s.rx a).getLsbD 1 else (s.tile s.focus).freeze)

namespace Sys2Proof.Machine

/-! ## The C class -/

/-- R293, R309 to R311: the pattern register a pattern write names, and the fields it writes: lowest bit, width, value. -/
def patternFields (s : State) : Instr → Option (PReg × List (Nat × Nat × Nat))
  | .psetb p a imm => some (p, [(0, 64, (s.rx a).toNat), (64, 4, imm.toNat % 2 ^ 4), (68, 4, imm.toNat / 2 ^ 4 % 2 ^ 4),
      (72, 5, imm.toNat / 2 ^ 8 % 2 ^ 5), (77, 2, imm.toNat / 2 ^ 13 % 2 ^ 2), (79, 1, imm.toNat / 2 ^ 15 % 2),
      (80, 2, imm.toNat / 2 ^ 16 % 2 ^ 2), (82, 2, imm.toNat / 2 ^ 18 % 2 ^ 2)])
  | .psetdExt p k a b => some (p, [(256 + 192 * k.toNat, 32, (s.rx a).toNat % 2 ^ 32),
      (256 + 192 * k.toNat + 32, 32, (s.rx b).toNat % 2 ^ 32)])
  | .psetdStr p k a _ => some (p, [(256 + 192 * k.toNat + 64, 40, (s.rx a).toNat % 2 ^ 40)])
  | .psetdBnd p k a b => some (p, [(256 + 192 * k.toNat + 128, 32, (s.rx a).toNat % 2 ^ 32),
      (256 + 192 * k.toNat + 160, 32, (s.rx b).toNat % 2 ^ 32)])
  | .psetf p a b imm => some (p, [(128, 64, (s.rx a).toNat), (192, 64, (s.rx b).toNat), (96, 32, imm.toNat)])
  | _ => none

/-- A command as its instruction makes it: its id, kind, ports, patterns and x operand, the members of its multicast, and the code
of the check it fails at issue, if it fails one. -/
structure CommandForm where
  id : SId
  kind : CmdKind
  port : Nat
  cport : Option Nat
  pat : Pattern
  pat2 : Pattern
  xb : Word
  members : List Nat
  fails : Option Nat

/-- R315: a tag used in the reduction sequence of the issuing task's pipeline. -/
def tagUsed (s : State) (seq : Nat) : Bool :=
  seq != 0 && (s.seqOf (s.tile s.focus).ctx ((s.tile s.focus).stage.getD (0, 0)).1 seq).taken s.me.itag

/-- R301: the operations of a reduction and the formats each combines. -/
def reduces (op : Nat) (f : Fmt) : Bool :=
  match op with
  | 0 => f == .i32 || f == .n32 || f == .f32
  | 1 | 2 => f == .i32 || f == .n32
  | 3 | 4 | 5 | 6 => f == .f32
  | _ => f == .raw32

/-- R301, R305, R314, R315, R368: how a reducing command fails at issue: BADTAG before every other check. -/
def reducingFails (s : State) (op seq : Nat) (p : Pattern) (samePort : Bool) : Option Nat :=
  if tagUsed s seq then some 4
  else if Pattern.ok p false && Pattern.mfmt p == Pattern.pfmt p && reduces op (Pattern.mem p) && !samePort
      && !(Pattern.cls p == 2 && Pattern.mem p == .f32) then none
  else some 1

/-- R305, R312 to R320, R323: the commands, from the registers as they stand. -/
def commandForm (s : State) : Instr → Option CommandForm
  | .sla sp p b id => some ⟨id, .sla, sp.toNat, none, s.pat p, 0, s.rx b, [], if Pattern.ok (s.pat p) true then none else some 1⟩
  | .ssa sp p b id => some ⟨id, .ssa, sp.toNat, none, s.pat p, 0, s.rx b, [], if Pattern.ok (s.pat p) false then none else some 1⟩
  | .sli sp p spc id => some ⟨id, .sli, sp.toNat, some spc.toNat, s.pat p, 0, 0, [],
      if Pattern.ok (s.pat p) true ∧ sp ≠ spc then none else some 1⟩
  | .ssi sp p spc id => some ⟨id, .ssi, sp.toNat, some spc.toNat, s.pat p, 0, 0, [],
      if Pattern.ok (s.pat p) false ∧ sp ≠ spc then none else some 1⟩
  | .sra op sp p b id ret seq => some ⟨id, .sra op.toNat ret seq.toNat, sp.toNat, none, s.pat p, 0, s.rx b, [],
      reducingFails s op.toNat seq.toNat (s.pat p) false⟩
  | .sri op sp p spc id ret seq => some ⟨id, .sri op.toNat ret seq.toNat, sp.toNat, some spc.toNat, s.pat p, 0, 0, [],
      reducingFails s op.toNat seq.toNat (s.pat p) (sp == spc)⟩
  | .smc sp p b id =>
    let h := (s.rx b).toNat % 65536
    some ⟨id, .smc h, sp.toNat, none, s.pat p, 0, 0, ((s.ctx s.myCtx).set h).members,
      if !Pattern.ok (s.pat p) true then some 1 else if (s.ctx s.myCtx).sets.any (fun x => x.1 == h) then none else some 21⟩
  | .sfill v sp p b id => some ⟨id, .sfill v.toNat, sp.toNat, none, s.pat p, 0, s.rx b, [],
      if fillOk v.toNat (s.pat p) then none else some 1⟩
  | .srec sp spc a id depth =>
    let d := depth.toNat + 1
    some ⟨id, .srec (s.rx a).toNat d, sp.toNat, some spc.toNat, 0, 0, 0, [],
      if sp = spc then some 1
      else match s.slotAt s.myCtx (s.rx a).toNat with
        | some x => if x.holder = some s.focus ∧ 64 * d ≤ x.size then none else some 3
        | none => some 3⟩
  | .scpy sat pd pa id => some ⟨id, .scpy sat, 0, none, s.pat pd, s.pat pa, 0, [],
      if Pattern.ok (s.pat pd) false ∧ Pattern.ok (s.pat pa) true ∧ Pattern.pfmt (s.pat pd) = Pattern.pfmt (s.pat pa)
        ∧ Pattern.total (s.pat pd) = Pattern.total (s.pat pa) then none else some 1⟩
  | .sqin sp q id => some ⟨id, .sqin q.toNat, sp.toNat, none, 0, 0, 0, [], if s.inputQueue q.toNat then none else some 2⟩
  | .sqout sp q id => some ⟨id, .sqout q.toNat, sp.toNat, none, 0, 0, 0, [],
      if s.outputQueue q.toNat
        && !((s.pipe s.myCtx ((s.tile s.focus).stage.getD (0, 0)).1).stage ((s.tile s.focus).stage.getD (0, 0)).2).desc.ord then none else some 2⟩
  | _ => none

/-- R375 (log 20): the page of a remote pattern's first element, or of BASE where indices come, leads to a package no ready port
reaches. -/
def destinationGone (s : State) (f : CommandForm) (p : Pattern) : Bool :=
  let first := match f.kind with
    | .sli => some (Pattern.base p).toNat
    | .ssi => some (Pattern.base p).toNat
    | .sri .. => some (Pattern.base p).toNat
    | _ =>
      if Pattern.countFrom p 0 = 0 then none
      else match Pattern.addr p (Pattern.base p + f.xb) (Pattern.coords p 0 none) with
        | .at a => some a
        | _ => none
  Pattern.space p ≠ 1 && Pattern.ocls p = 2
    && first.any (fun a => (s.farPackage s.myCtx a).any (fun d => (s.routePort s.focus s.cur d).isNone))

/-- R305, R375: the code with which a command completes at issue: that of the check it fails, else DEADLINK where its destination has
become unreachable; SFILL reaches no memory. -/
def failsAtIssue (s : State) (f : CommandForm) : Option Nat :=
  f.fails.or (match f.kind with
    | .sfill _ => none
    | _ => if destinationGone s f f.pat || destinationGone s f f.pat2 then some 20 else none)

/-- The issuing strand waits with its bundle: its PC, its registers and memory stand. -/
def Waits (s t : State) : Prop :=
  (t.strand s.focus s.cur).pc = s.me.pc ∧ RegsKept s t [] ∧ (t.strand s.focus s.cur).fflags = s.me.fflags ∧ MemoryKept s t

/-- The status fields of a stream id of the tile in focus. -/
def statusOf (s t : State) (id : SId) : StreamStatus := (t.tile s.focus).status.get {} id.toNat

/-- The frame of an instruction that writes the listed registers and no flag, and may change the tile's streams. -/
def StreamsOnly (s t : State) (regs : List XReg) : Prop :=
  RegsKept s t regs ∧ (t.strand s.focus s.cur).fflags = s.me.fflags ∧ (t.strand s.focus s.cur).p = s.me.p ∧
    (t.strand s.focus s.cur).s = s.me.s ∧ MemoryKept s t ∧ (∀ n, n ≠ s.cur → t.strand s.focus n = s.strand s.focus n) ∧
    ∀ u, u ≠ s.focus → t.tile u = s.tile u

/-- R306: the status word of an id. -/
def statusWordOf (s : State) (id : SId) : Word :=
  w64 ((statusOf s s id).count * 2 ^ 32 + (statusOf s s id).code * 2 ^ 24 + (statusOf s s id).flags.toNat * 2 ^ 8
    + (if (statusOf s s id).extra then 8 else 0) + (if s.pageBit s.focus id.toNat then 4 else 0) + (statusOf s s id).state)

/-- R326: the register and id of an SWAIT, and whether its condition holds. -/
def swaitForm (s : State) : Instr → Option (XReg × SId × Prop)
  | .swaitDone d id => some (d, id, (statusOf s s id).state ≠ 1)
  | .swaitMark d id n => some (d, id, (statusOf s s id).state ≠ 1 ∨ n.toNat ≤ (statusOf s s id).count)
  | .swaitPoll d id => some (d, id, True)
  | _ => none

/-- R321: the pages of a slot's backing address translated for the issuing strand, with read and write rights. -/
def slotXl (s : State) (va size : Nat) : PagesXl :=
  s.xlPages (.strand s.focus s.cur) s.myCtx .atomic (s.super s.focus) (slotPages va size)

/-- R322: the tile holds the slot at a backing address. -/
def holdsSlot (s t : State) (va : Nat) : Prop := ∃ x, t.slotAt s.myCtx va = some x ∧ x.holder = some s.focus

end Sys2Proof.Machine

/-- R293, R309 to R311: a pattern write completes; the fields it names hold the operands, every other bit of the register and every
other pattern register stands, and nothing else of the machine changes. -/
def Obligations.PatternWritesSetTheirFields : Prop :=
  ∀ (s : State) (i : Instr) (p : PReg) (l : List (Nat × Nat × Nat)), patternFields s i = some (p, l) → s.me.stepOnce = false →
    ∃ t, exec i s = .next t ∧ GoesOn s t ∧ MemoryKept s t ∧ RestKept s t ∧
      (∀ f ∈ l, ((t.strand s.focus s.cur).p.get 0 p.toNat).extractLsb' f.1 f.2.1 = BitVec.ofNat f.2.1 f.2.2) ∧
      (∀ b, (∀ f ∈ l, b < f.1 ∨ f.1 + f.2.1 ≤ b) → ((t.strand s.focus s.cur).p.get 0 p.toNat).getLsbD b = (s.pat p).getLsbD b) ∧
      (∀ q : PReg, q ≠ p → (t.strand s.focus s.cur).p.get 0 q.toNat = s.pat q) ∧
      (t.strand s.focus s.cur).still = { s.me.still with p := (t.strand s.focus s.cur).p }

/-- R305 to R307, R312 to R320, R323, R375: a command waits while its id is occupied. Else it issues: one that fails a check, or whose destination has become unreachable, leaves its
id free, with STATE 2 and the check's CODE; any other occupies its id, STATE 1, with its kind and copies of its operands, and a
reducing command of a sequence carries its tag there. Every other id stands. Where the rules leave a point open it follows the model's choice, logs 20, 25 and 26. -/
def Obligations.CommandsTakeTheirIdOrFailAtIssue : Prop :=
  ∀ (s : State) (i : Instr) (f : CommandForm), commandForm s i = some f →
    (((s.tile s.focus).cmd f.id.toNat).isSome = true →
      ∃ t, exec i s = .next t ∧ Waits s t ∧ (t.tile s.focus).cmds = (s.tile s.focus).cmds ∧ (t.tile s.focus).status = (s.tile s.focus).status) ∧
    ((s.tile s.focus).cmd f.id.toNat = none →
      ∃ t, exec i s = .next t ∧ GoesOn s t ∧ StreamsOnly s t [] ∧
        (∀ id : SId, id ≠ f.id → (t.tile s.focus).cmd id.toNat = (s.tile s.focus).cmd id.toNat ∧ statusOf s t id = statusOf s s id) ∧
        match failsAtIssue s f with
        | some code => (t.tile s.focus).cmd f.id.toNat = none ∧ statusOf s t f.id = { state := 2, code }
        | none => statusOf s t f.id = { state := 1 } ∧
          ∃ c, (t.tile s.focus).cmd f.id.toNat = some c ∧ c.kind = f.kind ∧ c.port = f.port ∧ c.cport = f.cport ∧ c.pat = f.pat ∧
            c.pat2 = f.pat2 ∧ c.xb = f.xb ∧ c.members = f.members ∧ c.itag = s.me.itag ∧ c.strand = s.cur ∧ c.next = 0 ∧
            c.ending = none ∧ c.ctx = (s.tile s.focus).ctx)

/-- R306, R326, R187: SWAIT whose condition holds writes the status word of its id and goes on; after STATE 2 the stores of the command
are in the strand's causal past. While it does not hold the bundle waits. The status itself stands. -/
def Rules.SwaitReturnsTheStatusWord : Prop :=
  ∀ (s : State) (i : Instr) (d : XReg) (id : SId) (ready : Prop), swaitForm s i = some (d, id, ready) →
    (ready → ∃ t, exec i s = .next t ∧ WritesReg s t d (statusWordOf s id) ∧ StreamsOnly s t [d] ∧
      (t.tile s.focus).still = (s.tile s.focus).still ∧
      ((statusOf s s id).state = 2 → ∀ w ∈ (s.tile s.focus).donePast.get [] id.toNat, w ∈ (t.strand s.focus s.cur).past)) ∧
    (¬ ready → ∃ t, exec i s = .next t ∧ Waits s t ∧ (t.tile s.focus).still = (s.tile s.focus).still)

/-- R324, R325, R327: SBAR never waits; every earlier command and unperformed store of the strand in its class is among its edges.
SORD links the next command under id2 after id, in place of any earlier link. SABT stops a running command with ABORTED at its next
element, its CODE at once, and leaves every other id; under an id with no command it does nothing. -/
def Rules.OrderingAndAbortOfCommands : Prop :=
  ∀ (s : State),
    (∀ m : BitVec 3, m.toNat ≤ 4 → ∃ t, exec (.sbar m) s = .next t ∧ GoesOn s t ∧ StreamsOnly s t [] ∧
      (t.tile s.focus).still = (s.tile s.focus).still ∧
      (∀ c ∈ (s.tile s.focus).cmds, c.2.strand = s.cur → (m.toNat = 4 ∧ c.2.classes ≠ [] ∨ m.toNat ∈ c.2.classes) →
        ∃ b ∈ (t.strand s.focus s.cur).sbars, b.cls = m.toNat ∧ c.2.order ∈ b.cmds) ∧
      ∀ w ∈ s.me.stores, (m.toNat = 4 ∨ w.2 = m.toNat) → s.barStoreDone s.focus w = false →
        ∃ b ∈ (t.strand s.focus s.cur).sbars, b.cls = m.toNat ∧ w ∈ b.stores) ∧
    (∀ id id2 : SId, id ≠ id2 → ∃ t, exec (.sord id id2) s = .next t ∧ GoesOn s t ∧ StreamsOnly s t [] ∧
      (t.tile s.focus).sords.find? (fun p => p.1 == id2.toNat) = some (id2.toNat, id.toNat) ∧
      (t.tile s.focus).still = { (s.tile s.focus).still with sords := (t.tile s.focus).sords }) ∧
    (∀ id : SId, (s.tile s.focus).cmd id.toNat = none → ∃ t, exec (.sabt id) s = .next t ∧ GoesOn s t ∧ StreamsOnly s t [] ∧
      (t.tile s.focus).still = (s.tile s.focus).still) ∧
    ∀ (id : SId) (c : Cmd), (s.tile s.focus).cmd id.toNat = some c → c.ending = none →
      ∃ t, exec (.sabt id) s = .next t ∧ GoesOn s t ∧ StreamsOnly s t [] ∧
        (∃ c', (t.tile s.focus).cmd id.toNat = some c' ∧ c'.ending = some 5 ∧ c'.next = c.next ∧ c'.flight = []) ∧
        statusOf s t id = { statusOf s s id with code := 5 } ∧
        ∀ id', id' ≠ id → (t.tile s.focus).cmd id'.toNat = (s.tile s.focus).cmd id'.toNat ∧ statusOf s t id' = statusOf s s id'

/-- R288, R291, R321: SSLOT checks its address: not canonical takes ADDR_OVF, misaligned the alignment trap, a page outside HBM the
permission fault SLOTHBM, and a slot another tile holds, or a write that stands at a node of its backing pages, makes it wait. One this tile holds gives 1, or SLOTHBM at another size. One resident
that no tile holds is taken over at its size, with the bytes it has, moved to the tile's die where that has room, and gives 1. A slot
resident nowhere is taken into room in slot memory: as zero bytes, giving 2, or as its backing address holds them, giving 0. -/
def Rules.SslotAcquiresTheSlot : Prop :=
  ∀ (s : State) (d a : XReg) (z : BitVec 4) (zero : Bool), z.toNat ≤ 8 →
    let va := (s.rx a).toNat
    let size := 2 ^ (8 + z.toNat)
    (CanTrap s → ¬ isCanonical (s.rx a) → ∃ t, exec (.sslot d a z zero) s = .next t ∧ TrappedUnissued s t 0x10 (s.rx a)) ∧
    (CanTrap s → isCanonical (s.rx a) → va % size ≠ 0 →
      ∃ t, exec (.sslot d a z zero) s = .next t ∧ TrappedUnissued s t 0x11 (w64 (3 * 2 ^ 57 + va % 2 ^ 57))) ∧
    (isCanonical (s.rx a) → va % size = 0 → ∀ s1 pas reps, slotXl s va size = .ok s1 pas reps →
      (CanTrap s → (∃ pa ∈ pas, pa / 2 ^ 48 % 16 ≠ 0) →
        ∃ t, exec (.sslot d a z zero) s = .next t ∧ TrappedUnissued s t 0x13 (w64 (6 * 2 ^ 60 + 3 * 2 ^ 57 + va % 2 ^ 57))) ∧
      ((∀ pa ∈ pas, pa / 2 ^ 48 % 16 = 0) →
        (∀ x h, s1.slotAt s.myCtx va = some x → x.holder = some h → h ≠ s.focus →
          ∃ t, exec (.sslot d a z zero) s = .next t ∧ Waits s t) ∧
        (∀ x, s1.slotAt s.myCtx va = some x → x.holder = some s.focus → x.size = size →
          ∃ t, exec (.sslot d a z zero) s = .next t ∧ WritesReg s t d 1 ∧ RegsKept s t [d] ∧ MemoryKept s t ∧ holdsSlot s t va) ∧
        (CanTrap s → ∀ x, s1.slotAt s.myCtx va = some x → x.holder = some s.focus → x.size ≠ size →
          ∃ t, exec (.sslot d a z zero) s = .next t ∧ TrappedUnissued s t 0x13 (w64 (6 * 2 ^ 60 + 3 * 2 ^ 57 + va % 2 ^ 57))) ∧
        (∀ x, s1.slotAt s.myCtx va = some x → x.holder = none → x.size = size →
          (x.die = tileDie s.focus ∨ s1.slotFits (tileDie s.focus) size = true →
            ∃ t, exec (.sslot d a z zero) s = .next t ∧ WritesReg s t d 1 ∧ RegsKept s t [d] ∧ MemoryKept s t ∧ holdsSlot s t va ∧
              ∃ y, t.slotAt s.myCtx va = some y ∧ y.bytes = x.bytes ∧ y.size = size ∧ y.holder = some s.focus ∧ y.die = tileDie s.focus) ∧
          (x.die ≠ tileDie s.focus → s1.slotFits (tileDie s.focus) size = false → ∃ t, exec (.sslot d a z zero) s = .next t ∧ Waits s t)) ∧
        (s1.slotAt s.myCtx va = none → s1.pagesBusy pas size false = true → ∃ t, exec (.sslot d a z zero) s = .next t ∧ Waits s t) ∧
        (s1.slotAt s.myCtx va = none → s1.pagesBusy pas size false = false → s1.slotFits (tileDie s.focus) size = true →
          ∃ t, exec (.sslot d a z zero) s = .next t ∧ WritesReg s t d (if zero then 2 else 0) ∧ RegsKept s t [d] ∧ MemoryKept s t ∧
            holdsSlot s t va ∧ ∃ x, t.slotAt s.myCtx va = some x ∧ x.size = size ∧
              x.bytes = if zero then List.replicate size 0 else s1.backing size pas)))

/-- R322: SREL ends the tile's hold on the slot at its address, whose bytes stay resident; of a slot the tile does not hold it changes
no slot. -/
def Rules.SrelEndsTheHold : Prop :=
  ∀ (s : State) (a : XReg),
    (∀ x, s.slotAt s.myCtx (s.rx a).toNat = some x → x.holder = some s.focus →
      ∃ t, exec (.srel a) s = .next t ∧ GoesOn s t ∧ StreamsOnly s t [] ∧ t.slotAt s.myCtx (s.rx a).toNat = some { x with holder := none }) ∧
    (¬ holdsSlot s s (s.rx a).toNat →
      ∃ t, exec (.srel a) s = .next t ∧ GoesOn s t ∧ StreamsOnly s t [] ∧ t.slots = s.slots ∧ (t.tile s.focus).holds = (s.tile s.focus).holds)

namespace Sys2Proof.Machine

/-! ## The Q class -/

/-- R347: the issuing task holds stage g of the pipeline in a slot, and q is a queue of that pipeline. -/
def OwnQueue (s : State) (slot g q : Nat) : Prop :=
  (s.tile s.focus).stage = some (slot, g) ∧ g < (s.pipe s.myCtx slot).stages.length ∧ q < (s.pipe s.myCtx slot).queues.length

/-- A queue of a pipeline of the issuing tile's context. -/
def queueOf (s t : State) (slot q : Nat) : Queue := (t.pipe s.myCtx slot).queue q

/-- The issuing task's entry of its stage's task table (R122). -/
def taskOf (s t : State) (slot g : Nat) : TaskEntry := ((t.pipe s.myCtx slot).stage g).tasks.get {} (s.me.entry.getD 0)

/-- R126, R351: slots the task has reserved in a queue of its stage's output list. -/
def reservedIn (s t : State) (slot g q : Nat) : Nat :=
  (taskOf s t slot g).held (((s.pipe s.myCtx slot).stage g).desc.outputs.idxOf q)

/-- R122: the task's entry has its field of 16 bits for each output queue of its stage, and n more slots in each fit there. -/
def Holdable (s : State) (slot g : Nat) (n : Nat → Nat) : Prop :=
  (taskOf s s slot g).reserved.length = 8 ∧ ((s.pipe s.myCtx slot).stage g).desc.outputs.length ≤ 8 ∧
    ∀ k, k < ((s.pipe s.myCtx slot).stage g).desc.outputs.length → (taskOf s s slot g).held k + n k < 2 ^ 16

/-- The frame of an instruction that reaches beyond its tile: of the strand's registers those listed, and no flag; no byte of memory. -/
def RegsAndMemoryKept (s t : State) (regs : List XReg) : Prop :=
  RegsKept s t regs ∧ (t.strand s.focus s.cur).fflags = s.me.fflags ∧ MemoryKept s t

/-- An instruction that writes xd and goes on. -/
def Answers (s t : State) (d : XReg) (v : Word) : Prop := WritesReg s t d v ∧ RegsAndMemoryKept s t [d]

/-- R350: the item a QPUSH builds. -/
def pushedItem (s : State) (a b : XReg) (seqin : Bool) : Item :=
  { payload := [s.rx a, s.rx 1, s.rx 2, s.rx 3, s.rx 4, s.rx 5, s.rx 6, 0],
    tag := if b = 0 then (if seqin then s.me.itag else 0) else BitVec.ofNat 32 (s.rx b).toNat,
    key := if b = 0 then 0 else BitVec.ofNat 32 ((s.rx b).toNat / 2 ^ 32), past := s.me.past }

/-- R129: the task's open braid entry of its latest pop. -/
def latestEntry (s : State) (slot g : Nat) (b : BraidEntry) : Bool :=
  let l := ((s.pipe s.myCtx slot).stage g).braid.filter (fun e => e.owner == s.me.entry.getD 0 && !e.closed)
  b.owner == s.me.entry.getD 0 && b.serial == (l.map (fun e => e.serial)).foldl max 0

/-- R348, R349: an item taken: ITEM, ITAG and x1 to x6 hold it, zero under a POISON mark, and the code stands over them in xd. -/
def Loaded (s t : State) (d : XReg) (it : Item) : Prop :=
  let w (i : Nat) : Word := if it.poison then 0 else it.payload.getD i 0
  (t.strand s.focus s.cur).rx d = written d (if it.poison then 4 else 0) ∧
    (∀ r : XReg, 1 ≤ r.toNat → r.toNat ≤ 6 → r ≠ d → (t.strand s.focus s.cur).rx r = w r.toNat) ∧
    (t.strand s.focus s.cur).item = w 0 ∧ (t.strand s.focus s.cur).itag = it.tag ∧ (t.strand s.focus s.cur).pc = s.me.pc + 1 ∧
    RegsAndMemoryKept s t [d, 1, 2, 3, 4, 5, 6] ∧ ∀ w ∈ it.past, w ∈ (t.strand s.focus s.cur).past

/-- R126, R129, R348: the item at the head of the sub-queue chosen has been taken, with its reservations and braid entry. -/
def Taken (s t : State) (slot g q : Nat) (d : XReg) : Prop :=
  ∃ j x drew it rest, (queueOf s s slot q).choose q = some (j, x, drew) ∧ (x.sub j).items = it :: rest ∧ Loaded s t d it ∧
    ((queueOf s t slot q).sub j).items = rest ∧
    (∀ k, k < ((s.pipe s.myCtx slot).stage g).desc.outputs.length →
      (taskOf s t slot g).held k = (taskOf s s slot g).held k + ((s.pipe s.myCtx slot).stage g).desc.ratios.getD k 0) ∧
    (((s.pipe s.myCtx slot).stage g).desc.ord = true → ∃ b, ((t.pipe s.myCtx slot).stage g).braid.getLast? = some b ∧
      b.tag = it.tag ∧ b.owner = s.me.entry.getD 0 ∧ b.closed = false)

/-- R348: a queue of the stage's input list that holds an item a strand could be given at once: nobody waits for it, and no spill
access of it is blocked. -/
def Poppable (s : State) (slot g q : Nat) : Prop :=
  OwnQueue s slot g q ∧ s.inputQueue q = true ∧ s.me.granted = none ∧ (queueOf s s slot q).waiting = [] ∧
    s.spillBlocked s.myCtx slot q = false ∧ (s.ctx s.myCtx).rpl ≠ 2 ∧
    ∃ r, (queueOf s s slot q).choose q = some r ∧ (r.2.1.sub r.1).items ≠ []

/-- R344: the status word of a failure record. -/
def failWord (f : FailRec) : Word :=
  w64 (f.faddr.toNat * 2 ^ 32 + f.count * 2 ^ 16 + (if f.pstore then 16 else 0) + (if f.spillf then 8 else 0)
    + (if f.deadlink then 4 else 0) + (if f.refused then 2 else 0) + (if f.count = 0 then 1 else 0))

/-- The set a handle names in the issuing tile's context. -/
def setOf (s t : State) (a : XReg) : MSet := (t.ctx s.myCtx).sets.get {} ((s.rx a).toNat % 65536)

/-- R362: every participant of the open phase but the issuing tile has arrived. -/
def othersArrived (s : State) (m : MSet) : Prop := ∀ u ∈ m.participants, u ≠ s.focus → u ∈ m.arrived

/-- R366: the context and the range of the 57-bit space that INVL and INVW cover. -/
def invRange (s : State) (a b : XReg) : Nat × Nat × Nat :=
  let n := (s.rx b).toNat % 2 ^ 54
  let lo := (s.rx a).toNat % 2 ^ 57 / 4096 * 4096
  if n = 0 then ((s.rx b).toNat / 2 ^ 54, 0, 2 ^ 57) else ((s.rx b).toNat / 2 ^ 54, lo, min (lo + 4096 * n) (2 ^ 57))

/-- R146, R157: no die's TLB, no micro-TLB and no window entry of the package translates an address of a context's range, and no strand
on the context's tiles holds an index prefetched from it, or a bundle decoded ahead. -/
def Uncovered (t : State) (r : Nat × Nat × Nat) : Prop :=
  let gone (e : TlbEntry) : Prop := e.ctx = r.1 → r.2.2 ≤ e.base % 2 ^ 57 ∨ e.base % 2 ^ 57 + 2 ^ e.size ≤ r.2.1
  (∀ d ∈ t.dies, ∀ q ∈ d.2.tlb, ∀ e ∈ q.2, gone e) ∧
    ∀ u ∈ t.tiles, (∀ e ∈ u.2.utlb, gone e) ∧ (∀ q ∈ u.2.windows, ∀ e ∈ q.2, gone e) ∧
      (u.2.ctx = r.1 → ∀ q ∈ u.2.strands, q.2.fetched = none ∧ ∀ h ∈ q.2.prefetch, h.1 % 2 ^ 57 < r.2.1 ∨ r.2.2 ≤ h.1 % 2 ^ 57)

end Sys2Proof.Machine

/-- R347, R357, R361, R366, R170, R379: a queue outside the list its instruction admits, an element outside the image, a handle of
256 or above and a context above 288 are out of range: ILLEGAL_BUNDLE with slot 4 and reason 4, and nothing of the bundle executes. -/
def Obligations.OutOfRangeQSlotsTrap : Prop :=
  ∀ (s : State), CanTrap s →
    let traps (i : Instr) : Prop := ∃ t, exec i s = .next t ∧ TrappedUnissued s t 0x01 0x44
    (∀ (q : QNum) (d a b : XReg),
      (s.inputQueue q.toNat = false → traps (.qpop d q) ∧ traps (.qtry d q)) ∧
      (s.outputQueue q.toNat = false → traps (.qpush d q a b) ∧ traps (.qres d q a)) ∧
      (((s.tile s.focus).stage = none ∨ s.myPipe.queues.length ≤ q.toNat) → traps (.qstat d q) ∧ traps (.qclose q))) ∧
    (∀ (c : BitVec 4) (e : BitVec 5) (a : XReg), (s.tile s.focus).hasElem c.toNat e.toNat = false → traps (.farg c e a)) ∧
    (∀ d a : XReg, 256 ≤ (s.rx a).toNat % 65536 → traps (.join a) ∧ traps (.leave a) ∧ traps (.gbar a) ∧ traps (.garr d a)) ∧
    ∀ a b : XReg, 288 < (s.rx b).toNat / 2 ^ 54 → traps (.invl a b) ∧ traps (.invw a b)

/-- R348, R349, R126, R129: QPOP and QTRY of a queue with an item, whose reservations can be met and whose braid has room, take the
item; QPOP takes too the item its divider has given it. Of a closed and empty queue both give code 1. -/
def Rules.PopsTakeAnItem : Prop :=
  ∀ (s : State) (d : XReg) (q : QNum) (slot g : Nat),
    (Poppable s slot g q.toNat → (s.pipe s.myCtx slot).canReserve g = true → ((s.pipe s.myCtx slot).stage g).braidRoom = true →
      (s.pipe s.myCtx slot).drained q.toNat = false → Holdable s slot g (((s.pipe s.myCtx slot).stage g).desc.ratios.getD · 0) →
      (∃ t, exec (.qpop d q) s = .next t ∧ Taken s t slot g q.toNat d) ∧ ∃ t, exec (.qtry d q) s = .next t ∧ Taken s t slot g q.toNat d) ∧
    (∀ it, OwnQueue s slot g q.toNat → s.inputQueue q.toNat = true → s.me.granted = some (q.toNat, it) →
      ∃ t, exec (.qpop d q) s = .next t ∧ Loaded s t d it ∧ (t.strand s.focus s.cur).granted = none) ∧
    (OwnQueue s slot g q.toNat → s.inputQueue q.toNat = true → s.me.granted = none →
      (s.pipe s.myCtx slot).drained q.toNat = true → (queueOf s s slot q.toNat).waiting = [] →
      (∃ t, exec (.qpop d q) s = .next t ∧ Answers s t d 1) ∧ ∃ t, exec (.qtry d q) s = .next t ∧ Answers s t d 1)

/-- R348, R349, R290: where nothing can be taken QPOP waits, its request at the divider, while QTRY completes at once and takes nothing: code
2 for an empty queue, code 3 where the reservations or the braid do not allow it. Where the item a pop would take stands in spill, QTRY
too waits for its return when it may take it. -/
def Rules.QpopWaitsWhereQtryAnswers : Prop :=
  ∀ (s : State) (d : XReg) (q : QNum) (slot g : Nat), OwnQueue s slot g q.toNat → s.inputQueue q.toNat = true → s.me.granted = none →
    (queueOf s s slot q.toNat).waiting = [] → (s.pipe s.myCtx slot).drained q.toNat = false → (s.ctx s.myCtx).rpl ≠ 2 →
    let waits (i : Instr) : Prop := ∃ t, exec i s = .next t ∧ Waits s t ∧
      (queueOf s t slot q.toNat).waiting = [{ tile := s.focus, strand := s.cur, stream := none }] ∧
      (queueOf s t slot q.toNat).subs = (queueOf s s slot q.toNat).subs
    let answers (k : Word) : Prop := ∃ t, exec (.qtry d q) s = .next t ∧ Answers s t d k ∧ queueOf s t slot q.toNat = queueOf s s slot q.toNat
    ((queueOf s s slot q.toNat).choose q.toNat = none → (queueOf s s slot q.toNat).spilled = 0 → waits (.qpop d q) ∧ answers 2) ∧
    (∀ r, (queueOf s s slot q.toNat).choose q.toNat = some r → (r.2.1.sub r.1).items = [] →
      waits (.qpop d q) ∧ ((s.pipe s.myCtx slot).canReserve g = true → ((s.pipe s.myCtx slot).stage g).braidRoom = true →
        waits (.qtry d q))) ∧
    (Poppable s slot g q.toNat → (s.pipe s.myCtx slot).canReserve g = false ∨ ((s.pipe s.myCtx slot).stage g).braidRoom = false →
      waits (.qpop d q) ∧ answers 3)

/-- R350, R349, R128, R129: QPUSH is decided in order: a closed queue gives 2, a poisoned one 3; with a reservation, which it consumes,
or else a free slot, it succeeds: into the task's latest braid entry in an ordered stage, else behind the items of the sub-queue the
push goes to, where none of its items stands in spill; with neither it goes to the spill area, as its 128 bytes, behind the items
spilled; with no spill area it gives 1. Where the rules leave a point open it follows the model's choice, logs 15 and 87. -/
def Obligations.QpushIsDecidedInOrder : Prop :=
  ∀ (s : State) (d a b : XReg) (q : QNum) (slot g : Nat), OwnQueue s slot g q.toNat → s.outputQueue q.toNat = true →
    let x := queueOf s s slot q.toNat
    let y := (s.pipe s.myCtx slot).stage g
    let held := reservedIn s s slot g q.toNat
    let free := (s.pipe s.myCtx slot).free q.toNat
    let refused (k : Word) : Prop := ∃ t, exec (.qpush d q a b) s = .next t ∧ Answers s t d k ∧
      (t.pipe s.myCtx slot).queues = (s.pipe s.myCtx slot).queues ∧ (t.pipe s.myCtx slot).stages = (s.pipe s.myCtx slot).stages
    (x.closed = true → refused 2) ∧ (x.closed = false → x.poisoned = true → refused 3) ∧
    (x.closed = false → x.poisoned = false → held = 0 → free = 0 → x.desc.spill = false → refused 1) ∧
    (x.closed = false → x.poisoned = false → held = 0 → free = 0 → x.desc.spill = true → s.Inv →
      (y.desc.ord = false ∨ (taskOf s s slot g).braids = 0) → (s.ctx s.myCtx).rpl ≠ 2 → s.spillBlocked s.myCtx slot q.toNat = false →
      let own := s.cursorOf s.focus slot q.toNat x.desc.k % x.desc.k
      let it := pushedItem s a b y.desc.seqin
      x.spillRoom own = true → ∀ s1 pa rep, s.translate (.spill s.myCtx slot q.toNat) s.myCtx
          (w64 (x.desc.spillVa own (x.sub own).spillPos)) .write false false = .ok s1 pa rep →
        s.nodeBusy pa 128 true = false → pa % 8 = 0 →
        ∃ t, exec (.qpush d q a b) s = .next t ∧ WritesReg s t d 0 ∧ RegsKept s t [d] ∧
          ((queueOf s t slot q.toNat).sub own).spilled = (x.sub own).spilled ++ [it] ∧
          ((queueOf s t slot q.toNat).sub own).items = (x.sub own).items ∧ (queueOf s t slot q.toNat).pushes = (x.pushes + 1) % 2 ^ 64 ∧
          (∀ i, i < 8 → t.nodeWord (pa / 8 + i) = it.payload.getD i 0) ∧ t.nodeWord (pa / 8 + 8) = it.key ++ it.tag ∧
          ∀ i, 8 < i → i < 16 → t.nodeWord (pa / 8 + i) = 0) ∧
    (x.closed = false → x.poisoned = false → 0 < held ∨ 0 < free →
      ((y.desc.ord = false ∨ (taskOf s s slot g).braids = 0) → (s.ctx s.myCtx).rpl ≠ 2 → s.spillBlocked s.myCtx slot q.toNat = false →
        ∀ j, x.pushSub (s.cursorOf s.focus slot q.toNat x.desc.k) = some j → (x.sub j).spilled = [] →
        ∃ t, exec (.qpush d q a b) s = .next t ∧ Answers s t d 0 ∧
          ((queueOf s t slot q.toNat).sub j).items = (x.sub j).items ++ [pushedItem s a b y.desc.seqin] ∧
          (queueOf s t slot q.toNat).pushes = (x.pushes + 1) % 2 ^ 64 ∧
          reservedIn s t slot g q.toNat = held - 1 ∧ (queueOf s t slot q.toNat).reserved = x.reserved - min held 1) ∧
      (y.desc.ord = true → 0 < (taskOf s s slot g).braids →
        ∃ t, exec (.qpush d q a b) s = .next t ∧ Answers s t d 0 ∧ (queueOf s t slot q.toNat).subs = x.subs ∧
          ((t.pipe s.myCtx slot).stage g).braid = y.braid.map (fun e => if latestEntry s slot g e
            then { e with pushes := e.pushes ++ [(q.toNat, pushedItem s a b y.desc.seqin, s.focus)] } else e)))

/-- R351 to R353: QRES of 0 gives the task's reservations; of n it reserves n slots and gives 1, or, with fewer free, reserves none and
gives 0. QSTAT gives the queue's status word. QCLOSE closes the queue and leaves its items. None of them waits. -/
def Obligations.QueueStateInstructions : Prop :=
  ∀ (s : State) (d a : XReg) (q : QNum) (slot g : Nat), OwnQueue s slot g q.toNat →
    let x := queueOf s s slot q.toNat
    let p := s.pipe s.myCtx slot
    let n := (s.rx a).toNat
    (s.outputQueue q.toNat = true →
      (n = 0 → ∃ t, exec (.qres d q a) s = .next t ∧ Answers s t d (w64 (reservedIn s s slot g q.toNat)) ∧
        reservedIn s t slot g q.toNat = reservedIn s s slot g q.toNat) ∧
      (0 < n → n ≤ p.free q.toNat → Holdable s slot g (fun _ => n) → ∃ t, exec (.qres d q a) s = .next t ∧ Answers s t d 1 ∧
        reservedIn s t slot g q.toNat = reservedIn s s slot g q.toNat + n ∧ (queueOf s t slot q.toNat).reserved = x.reserved + n) ∧
      (p.free q.toNat < n → ∃ t, exec (.qres d q a) s = .next t ∧ Answers s t d 0 ∧
        reservedIn s t slot g q.toNat = reservedIn s s slot g q.toNat ∧ queueOf s t slot q.toNat = x)) ∧
    (∃ t, exec (.qstat d q) s = .next t ∧ Answers s t d (w64 ((if 0 < x.spilled then 2 ^ 35 else 0)
      + (if s.spillBlocked s.myCtx slot q.toNat then 2 ^ 34 else 0) + (if x.poisoned then 2 ^ 33 else 0)
      + (if x.closed then 2 ^ 32 else 0) + p.free q.toNat % 2 ^ 16 * 2 ^ 16 + x.items % 2 ^ 16))) ∧
    ∃ t, exec (.qclose q) s = .next t ∧ GoesOn s t ∧ RegsAndMemoryKept s t [] ∧ queueOf s t slot q.toNat = { x with closed := true }

/-- R354 to R357, R226, R229: FCFG answers the outcome of its load, BADIMAGE at once for an address that is no multiple of 64; until
then it asks for the load and waits. FGO with no round in progress starts one: fresh cells, rewritten constants, arcs empty but for the
image's initial tokens. FSTAT, GETS FSTAT and FDRN give FSTAT, FDRN once no round is in progress. FARG notes its rewrite for the next round. -/
def Obligations.FabricInstructions : Prop :=
  ∀ (s : State) (d a : XReg), let u := s.tile s.focus
    (∀ w, s.me.fcfg = some w → ∃ t, exec (.fcfg d a) s = .next t ∧ Answers s t d w ∧ (t.strand s.focus s.cur).fcfg = none) ∧
    (s.me.fcfg = none → (s.rx a).toNat % 64 ≠ 0 → ∃ t, exec (.fcfg d a) s = .next t ∧ Answers s t d 1) ∧
    (s.me.fcfg = none → (s.rx a).toNat % 64 = 0 → u.load = none → ∃ t, exec (.fcfg d a) s = .next t ∧ Waits s t ∧
      (t.tile s.focus).load = some { va := (s.rx a).toNat, strand := some s.cur }) ∧
    (u.fstat.run = true → (∃ t, exec .fgo s = .next t ∧ Waits s t ∧ (t.tile s.focus).still = u.still) ∧
      ∃ t, exec (.fdrn d) s = .next t ∧ Waits s t ∧ (t.tile s.focus).still = u.still) ∧
    (u.fstat.run = false → (∃ t, exec (.fdrn d) s = .next t ∧ Answers s t d u.fstat.word ∧ (t.tile s.focus).still = u.still) ∧
      ∃ t, exec .fgo s = .next t ∧ GoesOn s t ∧ RegsAndMemoryKept s t [] ∧ (t.tile s.focus).fstat = { rstr := s.cur, run := true } ∧
        (t.tile s.focus).roundTag = s.me.itag ∧ (t.tile s.focus).fargs = [] ∧
        (∀ c, ((t.tile s.focus).cell c).v = [] ∧ ((t.tile s.focus).cell c).counts = [] ∧ ((t.tile s.focus).cell c).draws = 0) ∧
        (t.tile s.focus).image = u.image.map (fun i => u.fargs.foldl (fun i p => i.putK p.1 p.2.1 p.2.2) i) ∧
        ∀ e, e < 0x80 → (∀ i, u.image = some i → ∀ p ∈ i.inits, p.1 ≠ e) → (t.tile s.focus).arc e = none) ∧
    (∃ t, exec (.fstat d) s = .next t ∧ Answers s t d u.fstat.word ∧ (t.tile s.focus).still = u.still) ∧
    (∃ t, exec (.gets d 0x030) s = .next t ∧ Answers s t d u.fstat.word) ∧
    ∀ (c : BitVec 4) (e : BitVec 5), u.hasElem c.toNat e.toNat = true → ∃ t, exec (.farg c e a) s = .next t ∧ GoesOn s t ∧
      RegsAndMemoryKept s t [] ∧ (t.tile s.focus).fargs = u.fargs ++ [(c.toNat, e.toNat, BitVec.ofNat 32 (s.rx a).toNat)] ∧
      (t.tile s.focus).image = u.image

/-- R358, R359, R370: TSEND waits while four tokens of its strand are on their way. Else it gives 1 and sends nothing where its
destination is none: a die above 8, a tile of the own package outside the partition, a package not reachable. It gives 0 and sends the
token into its context's lane, or on the port toward the package it names. -/
def Rules.TsendSendsAToken : Prop :=
  ∀ (s : State) (d a b : XReg),
    let v := (s.rx a).toNat
    let tile := v / 2 ^ 9 % 16 * 64 + v / 2 ^ 3 % 64
    let pkg := v / 2 ^ 13 % 2 ^ 19
    let inside : Prop := tile ∈ (s.part (s.ctx s.myCtx).part).tiles
    let mail : Mail := { tag := BitVec.ofNat 32 (v / 2 ^ 32), payload := BitVec.ofNat 32 (s.rx b).toNat, past := s.me.past }
    (4 ≤ s.me.sent → ∃ t, exec (.tsend d a b) s = .next t ∧ Waits s t ∧ (t.strand s.focus s.cur).sent = s.me.sent) ∧
    (s.me.sent < 4 →
      (8 < v / 2 ^ 9 % 16 ∨ (pkg = Config.pkgid.toNat ∧ ¬ inside) ∨ (pkg ≠ Config.pkgid.toNat ∧ s.routePort s.focus s.cur pkg = none) →
        ∃ t, exec (.tsend d a b) s = .next t ∧ Answers s t d 1 ∧ (t.strand s.focus s.cur).sent = s.me.sent ∧
          (t.ctx s.myCtx).lane = (s.ctx s.myCtx).lane ∧ t.pkg.ports = s.pkg.ports) ∧
      (v / 2 ^ 9 % 16 ≤ 8 → pkg = Config.pkgid.toNat → inside →
        ∃ t, exec (.tsend d a b) s = .next t ∧ Answers s t d 0 ∧ (t.strand s.focus s.cur).sent = s.me.sent + 1 ∧
          (t.ctx s.myCtx).lane = (s.ctx s.myCtx).lane ++ [(s.focus, s.cur, tile, v % 8, mail)]) ∧
      (v / 2 ^ 9 % 16 ≤ 8 → pkg ≠ Config.pkgid.toNat → ∀ p, s.routePort s.focus s.cur pkg = some p →
        ∃ t, exec (.tsend d a b) s = .next t ∧ Answers s t d 0 ∧ (t.strand s.focus s.cur).sent = s.me.sent + 1 ∧
          ∃ l f r, (t.pkg.ports.get {} p).lanes.get [] l = (s.pkg.ports.get {} p).lanes.get [] l ++ [f] ∧ f.packet = .request r ∧
            r.dstPkg = pkg ∧ r.kind = .token mail.tag mail.payload (BitVec.ofNat 32 v)))

/-- R360: TWAIT and TPOLL take the oldest token of their tag from the strand's mailbox, with its causal past, and give its payload
with bit 63 set; with none there TWAIT waits and TPOLL gives 0. -/
def Rules.MailboxInstructionsTakeTheOldestToken : Prop :=
  ∀ (s : State) (d : XReg) (tag : Imm),
    (∀ m, s.me.mailbox.find? (fun m => m.tag == tag) = some m → ∀ i, i = .twait d tag ∨ i = .tpoll d tag →
      ∃ t, exec i s = .next t ∧ Answers s t d (w64 (2 ^ 63 + m.payload.toNat)) ∧
        (t.strand s.focus s.cur).mailbox = s.me.mailbox.erase m ∧ ∀ w ∈ m.past, w ∈ (t.strand s.focus s.cur).past) ∧
    ((∀ m ∈ s.me.mailbox, m.tag ≠ tag) →
      (∃ t, exec (.twait d tag) s = .next t ∧ Waits s t ∧ (t.strand s.focus s.cur).mailbox = s.me.mailbox) ∧
      ∃ t, exec (.tpoll d tag) s = .next t ∧ Answers s t d 0 ∧ (t.strand s.focus s.cur).mailbox = s.me.mailbox)

/-- R361, R362: JOIN completes and makes the tile a member; the tile whose JOIN creates a set takes part in its phase 0, and one that
joins while a phase is open is no participant of it. LEAVE completes and removes the tile with its mark: the open phase goes on while
another participant has yet to arrive, and closes when the last such participant leaves. Every other tile's membership stands. -/
def Rules.JoinAndLeaveChangeMembership : Prop :=
  ∀ (s : State) (a : XReg), (s.rx a).toNat % 65536 < 256 →
    (∃ t, exec (.join a) s = .next t ∧ GoesOn s t ∧ RegsAndMemoryKept s t [] ∧ s.focus ∈ (setOf s t a).members ∧
      (∀ u, u ≠ s.focus → (u ∈ (setOf s t a).members ↔ u ∈ (setOf s s a).members)) ∧
      ((setOf s s a).members = [] → (setOf s t a).phase = 0 ∧ (setOf s t a).participants = [s.focus]) ∧
      ((setOf s s a).members ≠ [] → (setOf s t a).participants = (setOf s s a).participants ∧
        (setOf s t a).arrived = (setOf s s a).arrived ∧ (setOf s t a).late = (setOf s s a).late ∧
        (setOf s t a).phase = (setOf s s a).phase)) ∧
    ∃ t, exec (.leave a) s = .next t ∧ GoesOn s t ∧ RegsAndMemoryKept s t [] ∧ s.focus ∉ (setOf s t a).members ∧
      (∀ u, u ≠ s.focus → (u ∈ (setOf s t a).members ↔ u ∈ (setOf s s a).members)) ∧
      (s.focus ∈ (setOf s s a).members → s.focus ∉ (setOf s t a).arrived ∧ s.focus ∉ (setOf s t a).late ∧
        ((∃ u ∈ (setOf s s a).members, u ≠ s.focus) →
          (¬ othersArrived s (setOf s s a) → (setOf s t a).phase = (setOf s s a).phase) ∧
          (s.focus ∈ (setOf s s a).participants → othersArrived s (setOf s s a) → (setOf s s a).phase < 2 ^ 48 →
            (setOf s t a).closed (setOf s s a).phase = true)))

/-- R362: GARR never waits: a participant is marked in the open phase and given its number, a late member in the next phase and given
that number, and any other tile is given the phase with bit 63 set. GBAR arrives likewise and goes on only once the phase it arrived in
has closed: at once where every other participant had arrived; a tile that is no member goes on at once. A handler's GBAR arrives for
itself: the one its strand was trapped at keeps its own arrival. -/
def Rules.BarriersCountArrivals : Prop :=
  ∀ (s : State) (d a : XReg), (s.rx a).toNat % 65536 < 256 → let m := setOf s s a
    m.phase < 2 ^ 48 →
    (s.focus ∉ m.members →
      (∃ t, exec (.garr d a) s = .next t ∧ Answers s t d (w64 (2 ^ 63 + m.phase)) ∧ setOf s t a = m) ∧
      ∃ t, exec (.gbar a) s = .next t ∧ GoesOn s t ∧ RegsAndMemoryKept s t [] ∧ setOf s t a = m) ∧
    (s.focus ∈ m.members → s.focus ∈ m.participants →
      (¬ othersArrived s m →
        (∃ t, exec (.garr d a) s = .next t ∧ Answers s t d (w64 m.phase) ∧ s.focus ∈ (setOf s t a).arrived ∧ (setOf s t a).phase = m.phase) ∧
        (s.me.gbarNow = none → ∃ t, exec (.gbar a) s = .next t ∧ Waits s t ∧ s.focus ∈ (setOf s t a).arrived ∧ (setOf s t a).phase = m.phase)) ∧
      (othersArrived s m →
        (∃ t, exec (.garr d a) s = .next t ∧ Answers s t d (w64 m.phase) ∧ (setOf s t a).closed m.phase = true) ∧
        (s.me.gbarNow = none → ∃ t, exec (.gbar a) s = .next t ∧ GoesOn s t ∧ RegsAndMemoryKept s t [] ∧ (setOf s t a).closed m.phase = true))) ∧
    (s.focus ∈ m.members → s.focus ∉ m.participants →
      (∃ t, exec (.garr d a) s = .next t ∧ Answers s t d (w64 ((m.phase + 1) % 2 ^ 48)) ∧ s.focus ∈ (setOf s t a).late ∧
        (setOf s t a).phase = m.phase) ∧
      (s.me.gbarNow = none → ∃ t, exec (.gbar a) s = .next t ∧ Waits s t ∧ s.focus ∈ (setOf s t a).late ∧ (setOf s t a).phase = m.phase)) ∧
    (∀ ph, s.focus ∈ m.members → s.me.gbarNow = some ((s.rx a).toNat % 65536, ph) →
      (m.closed ph = true → ∃ t, exec (.gbar a) s = .next t ∧ GoesOn s t ∧ RegsAndMemoryKept s t [] ∧ (t.strand s.focus s.cur).gbarNow = none) ∧
      (m.closed ph = false → ∃ t, exec (.gbar a) s = .next t ∧ Waits s t ∧ setOf s t a = m))

/-- R343 to R345, R334, R363, R376: FENCE goes on once every earlier store of the strand is performed at its scope, FENCE.pod once the
remote writes of the strand's commands have been answered too; it gives the status word of the failure record and clears the record.
That it goes on at its own scope is the model's choice: R430 lets the device hold it until those stores are performed at package or pod
scope. TRIG issues without waiting and leaves its count, behind the strand's stores, those in the cell window among them, for the
scheduler. A FENCE of die scope or wider and TRIG seal the die's write batch. Where the rules leave a point open it follows the model's choice, log 104. -/
def Obligations.FenceAndTrigger : Prop :=
  ∀ (s : State),
    (∀ (k : BitVec 3) (d : XReg), (∀ w ∈ s.me.stores, s.storeDone s.focus s.cur k.toNat w = true) →
      (4 ≤ k.toNat → s.podDone s.focus s.cur = true) →
      ∃ t, exec (.fence k d) s = .next t ∧ Answers s t d (failWord s.me.fail) ∧ (t.strand s.focus s.cur).fail = {} ∧
        (2 ≤ k.toNat → (t.die (tileDie s.focus)).openBatch = [])) ∧
    (∀ (k : BitVec 3) (d : XReg),
      (∃ w ∈ s.me.stores, s.storeDone s.focus s.cur k.toNat w = false) ∨ (4 ≤ k.toNat ∧ s.podDone s.focus s.cur = false) →
      ∃ t, exec (.fence k d) s = .next t ∧ Waits s t ∧ (t.strand s.focus s.cur).fail = s.me.fail) ∧
    ∀ slot g, (s.tile s.focus).stage = some (slot, g) →
      ∃ t, exec .trig s = .next t ∧ GoesOn s t ∧ RegsAndMemoryKept s t [] ∧ (t.die (tileDie s.focus)).openBatch = [] ∧
        ∃ r, (t.ctx s.myCtx).trigQueue = (s.ctx s.myCtx).trigQueue ++ [r] ∧ r.tile = s.focus ∧ r.strand = s.cur ∧ r.slot = slot ∧
          r.past = s.me.past ∧ (∀ w ∈ s.me.cellPast, w ∈ r.waits) ∧
          ∀ w ∈ s.me.stores, (w.2 ≠ 3 → w.1 ∈ r.waits) ∧ (w.2 = 3 → w.1 + 4 ≤ r.cellFc)

/-- R364, R365, R191: EMTR.task gives TASKCHG and EMTR.ctx the tile's meter reading for the running context, as they stand before the
bundle; EBGT sets BUDGET. None changes anything else. -/
def Obligations.EnergyInstructions : Prop :=
  ∀ (s : State) (d a : XReg), s.me.stepOnce = false →
    (∃ t, exec (.emtrTask d) s = .next t ∧ WritesReg s t d (w64 s.me.echg) ∧ Kept s t [d]) ∧
    (∃ t, exec (.emtrCtx d) s = .next t ∧ WritesReg s t d (w64 (s.tile s.focus).emtr) ∧ Kept s t [d]) ∧
    ∃ t, exec (.ebgt a) s = .next t ∧ GoesOn s t ∧ MemoryKept s t ∧ RestKept s t ∧
      (t.strand s.focus s.cur).still = { s.me.still with budget := BitVec.ofNat 32 (s.rx a).toNat }

/-- R366, R146, R157: at supervisor privilege INVL removes every translation and every prefetched index of its context in its range, and
completes at issue; INVW removes them and waits until its invalidation, and every earlier INVL of its strand, has completed. A context that is not live is covered
vacuously. Where the rules leave a point open it follows the model's choice, log 99. -/
def Obligations.InvalidationRemovesTranslations : Prop :=
  ∀ (s : State) (a b : XReg), (s.tile s.focus).ctx = 0 → let r := invRange s a b
    r.1 ≤ 288 →
    ((s.ctx r.1).live = false →
      (∃ t, exec (.invl a b) s = .next t ∧ GoesOn s t ∧ RegsAndMemoryKept s t [] ∧ t.invals = s.invals) ∧
      (s.me.invw = none → (∀ i ∈ s.me.invls, s.invalOpen i = false) → (∀ v ∈ s.invals, v.id ≠ 0) →
        ∃ t, exec (.invw a b) s = .next t ∧ GoesOn s t ∧ RegsAndMemoryKept s t [] ∧ t.invals = s.invals)) ∧
    ((s.ctx r.1).live = true →
      (∃ t v, exec (.invl a b) s = .next t ∧ GoesOn s t ∧ RegsAndMemoryKept s t [] ∧ Uncovered t r ∧
        t.invals = s.invals ++ [v] ∧ v.ctx = r.1 ∧ v.lo = r.2.1 ∧ v.hi = r.2.2 ∧ v.id ∈ (t.strand s.focus s.cur).invls) ∧
      (s.me.invw = none →
        ∃ t v, exec (.invw a b) s = .next t ∧ Waits s t ∧ Uncovered t r ∧ t.invals = s.invals ++ [v] ∧
          v.ctx = r.1 ∧ v.lo = r.2.1 ∧ v.hi = r.2.2 ∧ (t.strand s.focus s.cur).invw = some v.id)) ∧
    ∀ n, s.me.invw = some n → (s.invalOpen n = false → (∀ i ∈ s.me.invls, s.invalOpen i = false) →
        ∃ t, exec (.invw a b) s = .next t ∧ GoesOn s t ∧ RegsAndMemoryKept s t [] ∧ (t.strand s.focus s.cur).invw = none) ∧
      (s.invalOpen n = true → ∃ t, exec (.invw a b) s = .next t ∧ Waits s t ∧ t.invals = s.invals)


namespace Sys2Proof.Machine

/-! ## Reset, readiness, power and energy accounts -/

/-- R21, R28, R30, R106, R229, R306, R331: what the spec gives the machine after reset. -/
def AfterReset (t : State) : Prop :=
  (∀ u, t.unit u = .untested) ∧ t.pkg.mapSeq = 0 ∧ (∀ d, (t.die d).fc = 0) ∧ (∀ u, (t.tile u).lcyc = 0) ∧ (∀ d e, (t.die d).vclk.get 0 e = 0) ∧
    (∀ u, (t.tile u).fstat = {}) ∧ (∀ u id, (t.tile u).status.get {} id = {}) ∧ (∀ d, t.scaleOf d = 0x4000) ∧
    (∀ u, (t.tile u).scale = 0x4000) ∧ (∀ c, (t.ctx c).live = false) ∧ (∀ p, (t.part p).formed = false)

/-- No x register and no PC of any strand has changed, and no byte of memory. -/
def ProgramsKept (s t : State) : Prop :=
  (∀ u n, (∀ r, (t.strand u n).rx r = (s.strand u n).rx r) ∧ (t.strand u n).pc = (s.strand u n).pc) ∧ t.mem = s.mem ∧ t.log = s.log

/-- R85: an event sent in this step on an endpoint: its type, the context it names and its body. -/
def Event (s t : State) (ep ty c : Nat) (body : List Byte) : Prop :=
  ∃ m ∈ t.pkg.sent.drop s.pkg.sent.length, m.ep = ep ∧ m.ty = ty ∧ m.body.drop 8 = leBytes 2 c ++ leBytes 6 0 ++ body

/-- R30, R33: a unit's state has changed: the other units stand, the map sequence number has risen by one, the readiness event
carries the new map, and the health record has been refreshed. -/
def UnitChanged (s t : State) (u : Nat) (x : UnitState) : Prop :=
  t.unit u = x ∧ (∀ v, v ≠ u → t.unit v = s.unit v) ∧ t.pkg.mapSeq = (s.pkg.mapSeq + 1) % 2 ^ 32 ∧
    Event s t 0 0x4005 0 t.mapBytes ∧ t.pkg.refreshes = (s.pkg.refreshes + 1) % 2 ^ 32 ∧ t.pkg.healthSeq = t.pkg.mapSeq

/-- R32: what the i-th indicator of a unit predicts at refresh n at the unit's present duty: estimate, low end and high end. -/
def wearFields (s : State) (d n i : Nat) : Nat × Nat × Nat :=
  let e := Config.wearEstimate d i n (s.pkg.wear.get [] (8 * d + i)) (s.presentDuty d)
  (e.1 % 2 ^ 32, e.2.1 % 2 ^ 32, e.2.2 % 2 ^ 32)

/-- R33 to R35: the fields of unit u in the health record of refresh n: 0 where it or the unit it takes its estimate from has failed, all
ones in that unit's first 168 hours of service, else those of that unit's indicator with the smallest estimate, which they name. -/
def HealthFields (s : State) (u n : Nat) (h : Health) : Prop :=
  let d := healthUnit u
  let f := (h.estimate, h.low, h.high)
  (s.unit u = .failed ∨ s.unit d = .failed → f = (0, 0, 0) ∧ h.indicator = 0) ∧
  (s.unit u ≠ .failed → s.unit d ≠ .failed → Config.inService d n = false →
    f = (0xFFFFFFFF, 0xFFFFFFFF, 0xFFFFFFFF) ∧ h.indicator = 0) ∧
  (s.unit u ≠ .failed → s.unit d ≠ .failed → Config.inService d n = true →
    h.indicator ∈ unitIndicators d ∧ f = wearFields s d n h.indicator ∧
    ∀ i ∈ unitIndicators d, h.estimate ≤ (wearFields s d n i).1)

/-- R103, R104: one nanojoule in the fraction units of an account. -/
def oneNJ : Nat := 16000 * 2 ^ 14

/-- R104: what has reached die d's account unit for a context of its own and is still to be applied. -/
def arrivalSum (s : State) (d c : Nat) : Int := (((s.die d).arrivals.filter (fun p => p.1 == c)).map (fun p => p.2)).foldl (· + ·) 0

/-- R104: the amount a home unit applies next: the first that has arrived, else what its own die's accumulator holds. -/
def dueAmount (s : State) (d : Nat) : Option (Nat × Int) :=
  match (s.die d).arrivals with
  | x :: _ => some x
  | [] => ((s.die d).accounts.find? (fun (p : Nat × Int) => s.homeDie p.1 == d && p.2 != 0)).map (fun p => (p.1, -p.2))

/-- R104: a balance after an amount, saturated at -2^63 and 2^63 - 1 nJ. -/
def balanceAfter (b a : Int) : Int := max (-(2 ^ 63 : Int) * oneNJ) (min (b + a) ((2 ^ 63 - 1 : Int) * oneNJ))

/-- R104, R110, R111, R405: an amount other than an ALLOW applied to the balance of context c; under replay the gutter waits for its
logged point. -/
def Applied (s t : State) (c : Nat) (a : Int) : Prop :=
  let x := s.ctx c
  let b := balanceAfter x.balance a
  ((c = 0 ∨ x.live = true) → (t.ctx c).balance = b) ∧
  (c ≠ 0 → x.live = false → (t.ctx 0).balance = balanceAfter (s.ctx 0).balance a ∧ t.ctx c = x) ∧
  (c ≠ 0 → x.live = true →
    (t.ctx c).armed = (x.armed && !decide (b < x.lowWater * oneNJ)) ∧
    (b < x.lowWater * oneNJ → x.armed = true → Event s t c 0x4002 c (leInt 8 (b / oneNJ))) ∧
    (0 < b ∨ x.msgRpl = 2 → (t.ctx c).state = x.state ∧ (t.ctx c).stopTo = x.stopTo) ∧
    (b ≤ 0 → x.msgRpl ≠ 2 → x.state = .ready → (t.ctx c).state = .guttered ∧ Event s t c 0x4003 c (leInt 8 (b / oneNJ))) ∧
    (b ≤ 0 → x.msgRpl ≠ 2 → x.state = .running → (t.ctx c).state = .running ∧ (t.ctx c).stopTo.isSome = true) ∧
    (x.state = .guttered ∨ x.state = .faulted → (t.ctx c).state = x.state))

end Sys2Proof.Machine

/-- R21, R28, R30, R106, R229, R306, R331: after reset every unit is untested, every count the spec starts at zero is zero, every scale
factor is 1.0 and no context is live; memory is in its canonical form. PACKAGE_RESET leaves exactly such a state. Where the rules leave a point open it follows the model's choice, logs 4 and 72. -/
def Obligations.ResetGivesTheStatedValues : Prop :=
  AfterReset State.reset ∧ State.Inv State.reset ∧
    ∀ s : State, ∃ t, exec .packageReset s = .next t ∧ AfterReset t ∧ t.pkg.ordering = s.pkg.ordering ∧ t.agenda = s.agenda

/-- R28 to R30, R33: a unit that has what its test needs, in its turn, enters testing, and the end of its test makes it ready or failed; a ready
unit that fails in service becomes failed, and every context of a partition that holds it is to enter FAULTED with cause UNITFAIL.
A step that R29 does not list changes nothing. -/
def Rules.UnitsChangeStateAsListed : Prop :=
  (∀ (s : State) (u : Nat), u < 222 → s.testable u = true → s.testTurn u = true →
    ∃ t, exec (.unitTestStart u) s = .next t ∧ UnitChanged s t u .testing ∧ ProgramsKept s t) ∧
  (∀ (s : State) (u : Nat) (pass : Bool), s.unit u = .testing →
    ∃ t, exec (.unitTestDone u pass) s = .next t ∧ UnitChanged s t u (if pass then .ready else .failed) ∧ ProgramsKept s t) ∧
  (∀ (s : State) (u : Nat), s.unit u = .ready →
    ∃ t, exec (.unitFailInService u) s = .next t ∧ UnitChanged s t u .failed ∧
      ∀ p ∈ s.formedParts, u ∈ p.2.units → ∀ c ∈ s.residents p.1,
        ((s.ctx c).state ≠ .faulted → (s.ctx c).fault = none → ∃ r, (t.ctx c).fault = some r ∧ r.cause = 0x47) ∧
        ((s.ctx c).state = .running → (t.ctx c).stopTo = some .faulted) ∧
        ((s.ctx c).state = .ready ∨ (s.ctx c).state = .guttered → (t.ctx c).state = .faulted)) ∧
  (∀ (s : State) (u : Nat), s.unit u ≠ .untested → exec (.unitTestStart u) s = .next s) ∧
  (∀ (s : State) (u : Nat) (pass : Bool), s.unit u ≠ .testing → exec (.unitTestDone u pass) s = .next s) ∧
  (∀ (s : State) (u : Nat), s.unit u ≠ .ready → exec (.unitFailInService u) s = .next s)

/-- R32 to R34: a refresh of the health record counts itself, keeps the map sequence number, and gives each unit its three fields, with a wear
notice where the low end of an estimate falls below 720 hours; a wear sample of one of a unit's indicators goes before the samples kept of
it, 168 hours long, with the activity and temperature that the unit's present duty is the mean of, and changes nothing else. -/
def Rules.HealthRecordIsRefreshed : Prop :=
  (∀ s : State, ∃ t, exec .healthRefresh s = .next t ∧ t.pkg.refreshes = (s.pkg.refreshes + 1) % 2 ^ 32 ∧
    t.pkg.healthSeq = s.pkg.mapSeq ∧ (∀ u, t.unit u = s.unit u) ∧ t.pkg.mapSeq = s.pkg.mapSeq ∧ ProgramsKept s t ∧
    ∀ u, u < 222 →
      let h := t.pkg.health.get {} u
      HealthFields s u t.pkg.refreshes h ∧
      (h.indicator ≠ 0 → h.low < 720 → (s.pkg.health.get {} u).noticed = false →
        Event s t 0 0x4006 0 (leBytes 2 u ++ leBytes 2 0 ++ leBytes 4 h.low))) ∧
  (∀ (s : State) (u ind : Nat) (v : WearReading), ind ∈ unitIndicators u →
    ∃ t, exec (.wearSample u ind v) s = .next t ∧
    t = { s with pkg := { s.pkg with wear := t.pkg.wear, duty := t.pkg.duty } } ∧
    t.pkg.wear.get [] (8 * u + ind) =
      (v.values :: s.pkg.wear.get [] (8 * u + ind)).take (if ind = 4 then 1 else if ind = 2 then 10080 else 1008) ∧
    (∀ k, k ≠ 8 * u + ind → t.pkg.wear.get [] k = s.pkg.wear.get [] k) ∧
    t.pkg.duty.get [] u = (if ind = 4 then s.pkg.duty.get [] u
      else (v.duty :: s.pkg.duty.get [] u).take (if ind = 2 then 10080 else 1008)) ∧
    ∀ k, k ≠ u → t.pkg.duty.get [] k = s.pkg.duty.get [] k) ∧
  (∀ (s : State) (u ind : Nat) (v : WearReading), ind ∉ unitIndicators u → exec (.wearSample u ind v) s = .next s)

/-- R26: each power check keeps the last ten readings and moves the clock one step of 50 MHz between 750 and 1500 by the mean and
the hottest sensors; 115 C trips the package: every running context is to be pre-empted and the host is told; the clock stops once no
context runs, and starts when the host has cleared the trip and every sensor reads below 95 C. -/
def Rules.PowerChecksStepTheClockAndTrip : Prop :=
  ∀ (s : State) (mw : Nat) (hot : List Int),
    let pow := (s.pkg.power ++ [mw]).drop (s.pkg.power.length + 1 - 10)
    let cool := if pow.foldl (· + ·) 0 < 4370000 * pow.length then min (s.pkg.coolMs + 1) 10 else 0
    ∃ t, exec (.powerCheck mw hot) s = .next t ∧ ProgramsKept s t ∧ t.pkg.power = pow ∧ t.pkg.hottest = hot ∧ t.pkg.coolMs = cool ∧
      t.pkg.clockMHz =
        (if (pow.length = 10 ∧ 4600000 * pow.length < pow.foldl (· + ·) 0) ∨ (∃ x ∈ hot, 100 * 16 < x) then max 750 (s.pkg.clockMHz - 50)
         else if cool = 10 ∧ ∀ x ∈ hot, x ≤ 95 * 16 then min 1500 (s.pkg.clockMHz + 50) else s.pkg.clockMHz) ∧
      ((∃ x ∈ hot, 115 * 16 ≤ x) → s.pkg.tripped = false →
        t.pkg.tripped = true ∧ (∀ c, (s.ctx c).state = .running → (t.ctx c).stopTo.isSome = true) ∧
        ∃ d x, hot[d]? = some x ∧ (∀ y ∈ hot, y ≤ x) ∧ Event s t 0 0x4007 0 (leBytes 1 d ++ leBytes 1 0 ++ leInt 2 x)) ∧
      (s.pkg.tripped = true → s.pkg.tripClear = true → (∀ x ∈ hot, x < 95 * 16) → t.pkg.tripped = false ∧ t.pkg.clockStopped = false) ∧
      (s.pkg.tripped = true → s.pkg.tripClear = false → (∀ p ∈ s.ctxs, p.2.state ≠ .running) → t.pkg.clockStopped = true)

/-- R107: a calibration window closes for every domain: its factor moves toward the measured rail energy within the clamps, rounded
down, or stands where nothing was charged, and its sums start again. -/
def Rules.CalibrationWindowsSetTheFactors : Prop :=
  ∀ (s : State) (rail : List Nat), ∃ t, exec (.calibrationWindow rail) s = .next t ∧ ProgramsKept s t ∧
    ∀ dom, dom < 39 →
      let f := s.scaleOf dom
      let c := (s.chargeUpkeep (fun k => rail.getD (40 + k) 0) (fun p => rail.getD (52 + p) 0)).pkg.windowScaled.get 0 dom
      t.scaleOf dom = (if c = 0 then f
        else max 0x2000 (min 0x7FFF (max (f * 63 / 64) (min (f * 65 / 64) (f * (rail.getD dom 0 * 2 ^ 14) / c))))) ∧
      t.pkg.windowScaled.get 0 dom = 0 ∧ t.pkg.windowCharges.get [] dom = []

/-- R103, R104, R110, R111: a tile's meter sends its whole nanojoules to its die's account unit, which takes those of a context homed there
behind what came before and adds up those of the others; an account forwards the whole nanojoules of contexts
homed elsewhere and keeps the fractions; the home unit applies amounts one at a time, in the order they arrived, with saturation,
the low-water event and the gutter; that a READY context that gutters sends its GUTTER event at once is the model's reading (log 49). -/
def Rules.AccountsMoveAndApplyCharges : Prop :=
  (∀ (s : State) (u : Nat), ∃ t, exec (.meterResidueSend u) s = .next t ∧ ProgramsKept s t ∧
    (t.tile u).residue = (s.tile u).residue % oneNJ ∧ (t.tile u).houseResidue = (s.tile u).houseResidue % oneNJ ∧
    (∀ c,
      let amount : Int := (if c = (s.tile u).ctx then ((s.tile u).residue / oneNJ * oneNJ : Nat) else 0)
        + (if c = 0 then ((s.tile u).houseResidue / oneNJ * oneNJ : Nat) else 0)
      (t.die (u / 64)).accounts.get 0 c = (s.die (u / 64)).accounts.get 0 c + (if s.homeDie c = u / 64 then 0 else amount) ∧
      arrivalSum t (u / 64) c = arrivalSum s (u / 64) c - (if s.homeDie c = u / 64 then amount else 0)) ∧
    (∃ l, (t.die (u / 64)).arrivals = (s.die (u / 64)).arrivals ++ l) ∧
    (∀ d, d ≠ u / 64 → t.die d = s.die d) ∧ (∀ v, v ≠ u → t.tile v = s.tile v)) ∧
  (∀ (s : State) (d : Nat), ∃ t, exec (.accountForward d) s = .next t ∧ ProgramsKept s t ∧
    (∀ c, (t.die d).accounts.get 0 c =
      (if s.homeDie c = d then (s.die d).accounts.get 0 c else (s.die d).accounts.get 0 c % oneNJ)) ∧
    (∀ e, ∃ l, (t.die e).arrivals = (s.die e).arrivals ++ l) ∧
    ∀ c, s.homeDie c ≠ d → (s.die d).accounts.get 0 c / oneNJ ≠ 0 →
      (c, -((s.die d).accounts.get 0 c / oneNJ * oneNJ)) ∈ (t.die (s.homeDie c)).arrivals) ∧
  (∀ (s : State) (d c : Nat) (a : Int), dueAmount s d = some (c, a) →
    ∃ t, exec (.chargeApply d) s = .next t ∧ ProgramsKept s t ∧ Applied s t c a ∧
      (∀ x rest, (s.die d).arrivals = x :: rest → ∃ l, (t.die d).arrivals = rest ++ l)) ∧
  (∀ (s : State) (d : Nat), dueAmount s d = none → exec (.chargeApply d) s = .next s)

/-- R18, R21, R26, R101, R105: an fc edge raises LCYC of each tile of its die, lets its core issue and its stream engine grant again, and
charges class 57 where the tile issued or fired and class 56 where it did not, at the tile's factor or, under replay, at the logged one
(log 107): to its context, or to the house account where the tile is
unoccupied or its context runs under the fixed tariff; a stopped clock has no edge. -/
def Rules.FcEdgesCountAndChargeTime : Prop :=
  (∀ (s : State) (d : Nat), s.pkg.clockStopped = true → exec (.fcEdge d) s = .next s) ∧
  (∀ (s : State) (d : Nat), s.pkg.clockStopped = false →
    ∃ t, exec (.fcEdge d) s = .next t ∧ ProgramsKept s t ∧ (t.die d).fc = ((s.die d).fc + 1) % 2 ^ 64 ∧
      (∀ e, e ≠ d → (t.die e).fc = (s.die e).fc) ∧ (∀ u, u / 64 ≠ d → t.tile u = s.tile u) ∧
      ∀ u, u / 64 = d →
        let x := s.tile u
        let house : Bool := x.stage.isNone || (s.ctx x.ctx).liveModes.getLsbD 1
        let f := if house = false ∧ (s.ctx x.ctx).rpl = 2 then ((s.ctx x.ctx).calib.get 0x4000 d).toNat else x.scale.toNat
        let e := (if x.stage.isSome && x.active then 3200 else 2560) * f
        (t.tile u).lcyc = (x.lcyc + 1) % 2 ^ 64 ∧
        (t.tile u).active = false ∧ (t.tile u).issued = false ∧ (t.tile u).granted = false ∧
        (t.tile u).residue = x.residue + (if house then 0 else e) ∧
        (t.tile u).houseResidue = x.houseResidue + (if house then e else 0))

namespace Sys2Proof.Machine

/-! ## Partitions' schedulers, tiles and stages, pipelines -/

/-- The partition of a context. -/
def partOf (s : State) (c : Nat) : Nat := (s.ctx c).part

/-- R92: the scheduler of a partition acts for a running context: it is restored, and no stop and no destruction is under way. -/
def ActsFor (s : State) (pt c : Nat) : Prop :=
  (s.part pt).running = some c ∧ (s.ctx c).part = pt ∧ (s.ctx c).state = .running ∧ (s.ctx c).stopTo = none ∧ (s.ctx c).saved = none ∧
    (s.ctx c).destroying = none

/-- R115: a tile cleared for context c, its translations kept. -/
def ClearedFor (u v : Tile) (c : Nat) : Prop :=
  v.ctx = c ∧ v.stage = none ∧ v.takeUp = .none ∧ v.strands = [] ∧ v.code = [] ∧ v.cmds = [] ∧ v.status = [] ∧ v.image = none ∧
    v.arcs = [] ∧ v.cells = [] ∧ v.sram = [] ∧ v.matrix = [] ∧ v.held = none ∧ v.utlb = u.utlb ∧ v.windows = u.windows

/-- R85, R97: the completion event of a pipeline's end, and what its end makes of the slot and of the launches that name it. -/
def PipeEnded (s t : State) (c slot status : Nat) (body : List Byte) : Prop :=
  let p := s.pipe c slot
  (t.pipe c slot).active = false ∧ (t.pipe c slot).serial = p.serial ∧
    (t.ctx c).outcomes.getLast? = some (p.handle, status == 0) ∧ (t.ctx c).outcomes.length ≤ (s.ctx c).outcomes.length + 1 ∧
    Event s t c 0x4001 c (leBytes 8 (w64 (p.userTag * 2 ^ 32 + 2 ^ 31 + status * 2 ^ 16 + p.handle)).toNat ++ body) ∧
    ∀ k, k ≠ slot → (s.pipe c k).active = true → (s.pipe c k).ready = false → (s.pipe c k).started = false → (s.pipe c k).ending = none →
      (s.pipe c k).trigHandle = p.handle →
      if status = 0 then (t.pipe c k).ready = true else (t.pipe c k).ready = false ∧ (t.pipe c k).ending = some (2, [])

/-- R97, R399: how a pipeline ends now, if it does: as decided, or with OK once every stage has retired, whether or not its context runs. -/
def endOf (s : State) (c slot : Nat) : Option (Nat × List Byte) :=
  match (s.pipe c slot).ending with
  | some e => some e
  | none => if (s.pipe c slot).finished then some (0, []) else none

/-- R387, step 1: the tiles of a context told to stop. -/
def stoppingAll (s : State) (c : Nat) : State :=
  (s.tilesOf c).foldl (fun (s : State) u => s.modTile u (fun x => { x with stopping := true })) s

end Sys2Proof.Machine

/-- R91, R92, R115: at slice end the running context is asked to stop where another of its partition is runnable, and goes on where none
is; an idle partition dispatches the next runnable context on tiles cleared for it, under the modes then set; with the last page of a
save read back, the tiles hold what was saved. A context that has no work left, its tiles in the pool, rests as READY. Where the rules leave a point open it follows the model's choice, logs 59, 60 and 62. -/
def Obligations.SlicesAndDispatch : Prop :=
  (∀ (s : State) (pt c : Nat), ActsFor s pt c → (s.ctx c).rpl ≠ 2 →
    ((∃ d ∈ s.residents pt, d ≠ c ∧ s.runnable d = true) →
      ∃ t, exec (.sliceEnd pt) s = .next t ∧ (t.ctx c).stopTo = some .ready ∧ (t.ctx c).stopCause = 0 ∧ ProgramsKept s t ∧
        (∀ d, d ≠ c → t.ctx d = s.ctx d)) ∧
    ((∀ d ∈ s.residents pt, d ≠ c → s.runnable d = false) → exec (.sliceEnd pt) s = .next s)) ∧
  (∀ (s : State) (pt c : Nat), (s.part pt).running = none → (s.part pt).formed = true → s.nextRunnable pt = some c →
    ∃ t, exec (.contextDispatch pt) s = .next t ∧ (t.part pt).running = some c ∧ (t.part pt).last = c ∧
      (t.part pt).pool = (s.part pt).tiles ∧ (t.part pt).interval = (s.part pt).nextInterval ∧ (t.part pt).sample = 0 ∧
      (t.ctx c).state = .running ∧ (t.ctx c).liveModes = (s.ctx c).modes ∧ (t.ctx c).balance = (s.ctx c).balance ∧
      (∀ u ∈ (s.part pt).tiles, ClearedFor (s.tile u) (t.tile u) c) ∧ (∀ u, u ∉ (s.part pt).tiles → t.tile u = s.tile u) ∧
      t.mem = s.mem ∧ t.log = s.log) ∧
  (∀ (s : State) (pt c : Nat) (l : AMap Tile), (s.part pt).running = some c → (s.ctx c).saved = some l → (s.ctx c).stopTo = none →
    (s.ctx c).destroying = none → (savePages l).length ≤ (s.ctx c).saveAt → (l.map (fun p => p.1)).Nodup →
    ∃ t, exec (.contextDispatch pt) s = .next t ∧ (t.ctx c).saved = none ∧ (t.ctx c).withdrawn = (s.ctx c).withdrawn ∧
      ∀ p ∈ l, p.2.stage.isSome = true → (t.tile p.1).strands = p.2.strands ∧ (t.tile p.1).sram = p.2.sram ∧
        (t.tile p.1).arcs = p.2.checkpoint ∧ (t.tile p.1).cmds = p.2.cmds ∧ (t.tile p.1).stopping = false) ∧
  (∀ (s : State) (pt c : Nat), ActsFor s pt c → (s.ctx c).hasWork = false → (s.ctx c).moves = [] →
    (∀ u ∈ (s.part pt).tiles, u ∈ (s.part pt).pool) → s.nodesQuiet (s.part pt).tiles = true →
    ∃ t, exec (.contextDispatch pt) s = .next t ∧ (t.ctx c).state = .ready ∧ (t.part pt).running = none ∧
      (t.ctx c).saved = some ((s.tilesOf c).map (fun u => (u, s.tile u))) ∧ (t.ctx c).balance = (s.ctx c).balance)

/-- R386 to R391: a stop sequence stops every core and engine of the context; once no bundle is held, the firings in progress have run to
their last elements or can go no further, and the stores have completed at their nodes, the tokens on arcs are recorded, behind them those of a command that a failed page has ended, and the save begins. Each save step writes one page of the save area; the last writes
COMPLETE, and the context enters its state, leaves its tiles and sends the state's event. A context that is FAULTED has its fault record
written at its place once more, as it then stands. Where the rules leave a point open it follows the model's choice, logs 60, 61, 62 and 109. -/
def Obligations.StopsAndSaves : Prop :=
  (∀ (s : State) (c : Nat), (s.ctx c).destroying = none → (s.ctx c).stopTo.isSome = true → (s.ctx c).stopped = false →
    (s.ctx c).state = .running → (s.ctx c).saved = none →
    ∃ t, exec (.stopSequence c) s = .next t ∧ (∀ u ∈ s.tilesOf c, (t.tile u).stopping = true) ∧ (∀ u, u ∉ s.tilesOf c → (t.tile u).arcs = (s.tile u).arcs) ∧
      (t.ctx c).state = .running ∧
      (if (∀ u ∈ s.tilesOf c, (s.tile u).held = none) ∧ (stoppingAll s c).firingsOver (s.tilesOf c) = true ∧
          (stoppingAll s c).nodesQuiet (s.tilesOf c) = true then
        (t.ctx c).stopped = true ∧ (t.ctx c).saveAt = 0 ∧
          (∀ u ∈ s.tilesOf c, (t.tile u).arcs = [] ∧ (s.tile u).arcs <+: (t.tile u).checkpoint ∧ (t.tile u).sram = (s.tile u).sram) ∧
          ((∀ u ∈ s.tilesOf c, ∀ k ∈ (s.tile u).cmds, k.2.ending ≠ some 8 ∧ k.2.fault ≠ some 8) →
            ∀ u ∈ s.tilesOf c, (t.tile u).checkpoint = (s.tile u).arcs)
       else (t.ctx c).stopped = false)) ∧
  (∀ (s : State) (c k : Nat) (w : Option Nat) (off : Nat), (s.ctx c).destroying = none → (s.ctx c).recordDue = false →
    (s.ctx c).stopped = true → (s.ctx c).saveAt = k → (savePages ((s.tilesOf c).map (fun u => (u, s.tile u))))[k]? = some (w, off) →
    ∀ s1, s.writeVa (s.saver c w).1 c (s.saver c w).2 ((s.ctx c).saveArea + off) (s.savePage c w off) false = .ok s1 →
      ∃ t, exec (.saveComplete c) s = .next t ∧ (t.ctx c).saveAt = k + 1 ∧ (t.ctx c).stopped = true ∧ (t.ctx c).state = (s.ctx c).state ∧
        t.mem = s1.mem ∧ t.log = s1.log) ∧
  (∀ (s : State) (c : Nat) (next : CtxState), (s.ctx c).destroying = none → (s.ctx c).recordDue = false → (s.ctx c).stopped = true →
    (s.ctx c).saveAt = (savePages ((s.tilesOf c).map (fun u => (u, s.tile u)))).length → (s.ctx c).stopTo = some next → (s.ctx c).saved = none →
    ∀ s1, s.writeVa (.scheduler c) c (s.leadTile c) (s.ctx c).saveArea (s.saveHeader c true) false = .ok s1 →
      ∃ t, exec (.saveComplete c) s = .next t ∧ (t.ctx c).state = next ∧ (t.ctx c).stopTo = none ∧ (t.ctx c).stopped = false ∧
        (t.ctx c).saveComplete = true ∧ (t.ctx c).saved.isSome = true ∧ (t.part (partOf s c)).running = none ∧
        (∀ u ∈ s.tilesOf c, (t.tile u).ctx = 0 ∧ (t.tile u).strands = [] ∧ (t.tile u).stage = none) ∧ t.mem = s1.mem ∧ t.log = s1.log ∧
        (next = .guttered → ∃ b, Event s t c 0x4003 c b) ∧
        (next = .faulted → (t.ctx c).recordDue = true ∧ ∃ b, Event s t c 0x4004 c b ∧ Event s t 0 0x4004 c b)) ∧
  (∀ (s : State) (c : Nat), (s.ctx c).destroying = none → (s.ctx c).recordDue = true →
    ∀ s1, s.writeVa (.scheduler c) c (s.leadTile c) ((s.ctx c).saveArea + 64) (State.faultBody ((s.ctx c).fault.getD {})) false = .ok s1 →
      ∃ t, exec (.saveComplete c) s = .next t ∧ (t.ctx c).recordDue = false ∧ (t.ctx c).state = (s.ctx c).state ∧ t.mem = s1.mem ∧
        t.log = s1.log)

/-- R118 to R120, R132: sample j falls due at (j + 1) I / 16 and adds each stage's pressure, which a replay does not compute; after the sixteenth the interval ends with at most
four moves, the pressures start again and the interval number rises (under replay once the whole log has been read). The stage of the highest pressure that may grow, once its
pressure passes its hysteresis, gets the lowest tile of the pool. Where the rules leave a point open it follows the model's choice, logs 53 and 106. -/
def Obligations.ProofSamplesAndIntervals : Prop :=
  (∀ (s : State) (pt c : Nat), ActsFor s pt c → ((s.ctx c).pipes.map (fun p => p.1)).Nodup →
    (s.part pt).sample < 16 → ((s.part pt).sample + 1) * (s.part pt).interval / 16 ≤ s.proofCount pt →
    ∃ t, exec (.proofSample pt) s = .next t ∧ (t.part pt).sample = (s.part pt).sample + 1 ∧ ProgramsKept s t ∧
      ∀ k ∈ (s.ctx c).stageKeys,
        if (s.ctx c).rpl = 2 then (t.ctx c).stageAt k = (s.ctx c).stageAt k
        else ((t.ctx c).stageAt k).pressure = ((s.ctx c).stageAt k).pressure + (s.pipe c k.1).sampleOf k.2 ∧
          ((t.ctx c).stageAt k).samples = ((s.ctx c).stageAt k).samples + 1) ∧
  (∀ (s : State) (pt c : Nat), ActsFor s pt c → (s.part pt).sample = 16 →
    ((s.ctx c).rpl = 2 → (s.ctx c).crumbCount ≤ (s.ctx c).replayPos) →
    ∃ t, exec (.proofIntervalEnd pt) s = .next t ∧ (t.part pt).sample = 0 ∧
      (t.part pt).opened = ((s.part pt).opened + (s.part pt).interval) % 2 ^ 64 ∧
      (t.ctx c).interval = ((s.ctx c).interval + 1) % 2 ^ 32 ∧
      (∃ l, (t.ctx c).moves = (s.ctx c).moves ++ l ∧ l.length ≤ 4) ∧ ProgramsKept s t ∧
      (∀ k ∈ (s.ctx c).stageKeys, ((t.ctx c).stageAt k).pressure = 0 ∧ ((t.ctx c).stageAt k).samples = 0) ∧
      (∀ recv u, (s.ctx c).rpl ≠ 2 →
        lowestBy (fun k => -((s.ctx c).stageAt k).pressure)
          ((s.ctx c).stageKeys.filter (fun k => decide (((s.ctx c).stageAt k).tiles.length < ((s.ctx c).stageAt k).desc.maxTiles)
            && (s.ctx c).movesIn k.1 k.2 == 0)) = some recv →
        16 * (((s.ctx c).stageAt recv).desc.hyst : Int) < ((s.ctx c).stageAt recv).pressure →
        lowestBy (fun (u : Nat) => (u : Int)) (s.part pt).pool = some u →
        ∃ m ∈ (t.ctx c).moves, m.tile = u ∧ m.slot = recv.1 ∧ m.stage = recv.2 ∧ m.fromPool = true))

/-- R109, R115, R117, R123, R125, R155, R159: a tile that has drained leaves its stage with its state zeroed, for the receiver of its move or for the
pool; taking up a stage copies one dictionary entry a step, and with the last sets the count and the code segment base, and goes on
to the stage's image or to choosing a strand. PRELOAD copies the dictionary of the next stage of a tile, here one without an
image, into a tile that holds no copy, and keeps the units of that copy for the charge at take-up; which stage is next is the model's
reading (log 64), and so is what those units count (log 66). Where the rules leave a point open it follows the model's choice, logs 56, 64 and 66. -/
def Obligations.TilesLeaveAndTakeUpStages : Prop :=
  (∀ (s : State) (u : Nat) (dst : Option (Nat × Nat)), (s.tile u).takeUp = .leaving dst → (s.tile u).stopping = false →
    (s.tile u).drained = true → (dst = none → s.returnsLater u = false) →
    ∃ t, exec (.moveTakeup u) s = .next t ∧ (t.tile u).stage = dst ∧ (t.tile u).sram = [] ∧ (t.tile u).cells = [] ∧ (t.tile u).arcs = [] ∧
      (t.tile u).matrix = [] ∧ (t.tile u).status = [] ∧ (t.tile u).fstat = {} ∧ (t.tile u).fargs = [] ∧
      (t.tile u).takeUp = (match dst with | some _ => .loading 0 | none => .none) ∧
      (dst = none → u ∈ (t.part (partOf s (s.tile u).ctx)).pool ∧ (t.tile u).dictN = 0)) ∧
  (∀ (s : State) (u e slot g : Nat) (s1 : State) (b : List Byte), (s.tile u).stopping = false → (s.tile u).takeUp = .loading e →
    (s.tile u).stage = some (slot, g) → s.preloadFits u = false →
    let d := ((s.pipe (s.tile u).ctx slot).stage g).desc
    e < d.dictN →
    s.readVa (.loader u) (s.tile u).ctx u ((d.dictBase.toNat + 48 * e) % 2 ^ 64) 48 (s.super u) = .ok s1 b →
    ∃ t, exec (.stageTakeup u) s = .next t ∧ (t.tile u).code.get 0 e = BitVec.ofNat 384 (leNat b) ∧ t.mem = s1.mem ∧ t.log = s1.log ∧
      (e + 1 < d.dictN → (t.tile u).takeUp = .loading (e + 1)) ∧
      (e + 1 = d.dictN → (t.tile u).dictN = d.dictN ∧ (t.tile u).csb = d.csb ∧ (∀ p ∈ (t.tile u).code, p.1 < d.dictN)) ∧
      (e + 1 = d.dictN → d.image ≠ 0 → (t.tile u).takeUp = .imaging) ∧
      (e + 1 = d.dictN → d.image = 0 → ((s.pipe (s.tile u).ctx slot).stage g).retired = false →
        g < (s.pipe (s.tile u).ctx slot).stages.length →
        (t.tile u).takeUp = .none ∧ (t.tile u).choosing = true ∧ u ∈ ((t.pipe (s.tile u).ctx slot).stage g).tiles)) ∧
  (∀ (s : State) (u c slot g : Nat) (s1 : State) (b : List Byte), s.nextStage u = some (c, slot, g) → (s.tile u).preload = none →
    let d := ((s.pipe c slot).stage g).desc
    d.image = 0 → s.readVa (.loader u) c u d.dictBase.toNat (48 * min 256 d.dictN) false = .ok s1 b →
    ∃ t, exec (.preload u) s = .next t ∧ t.mem = s1.mem ∧ t.log = s1.log ∧ ∃ p, (t.tile u).preload = some p ∧ p.ctx = c ∧ p.slot = slot ∧ p.stage = g ∧
      p.entries = (List.range (min 256 d.dictN)).map (fun i => BitVec.ofNat 384 (leNat ((b.drop (48 * i)).take 48))) ∧
      p.units = 192 * min 256 d.dictN)

/-- R44, R45, R95, R97, R99, R397 to R399: a launch whose start condition is met reads its descriptors, one that cannot be read or fails a
check ends as REFUSED with the status, else it starts with the stages and queues described; a counted TRIG starts the launches that
wait for it; a stage with nothing left retires, closes the queues no producer is left for and sends its tiles to the pool, in whatever state short of FAULTED its context is; a pipeline
that has ended writes its token, sends its event, frees its slot and decides the launches that name it. Where the rules leave a point open it follows the model's choice, logs 51, 52, 57 and 66. -/
def Obligations.PipelinesStartAndEnd : Prop :=
  (∀ (s : State) (c slot : Nat), (s.pipe c slot).active = true → (s.pipe c slot).ready = true → (s.pipe c slot).started = false →
    (s.pipe c slot).ending = none → s.schedules c = true →
    (∀ s1 code r a, (s.pipe c slot).copy = [] →
      s.readVa (.scheduler c) c (s.leadTile c) (s.pipe c slot).descVa 64 false = .fault s1 code r a →
      ∃ t b, exec (.launchStart c slot) s = .next t ∧ (t.pipe c slot).ending = some (4, b) ∧ b.take 4 = leBytes 4 20 ∧
        (t.pipe c slot).started = false) ∧
    (∀ s1 d, (s.pipe c slot).copy = [] → pipeFail d = none →
      s.readVa (.scheduler c) c (s.leadTile c) (s.pipe c slot).descVa 64 false = .ok s1 d →
      ∃ t, exec (.launchStart c slot) s = .next t ∧ (t.pipe c slot).copy = d ∧ (t.pipe c slot).started = false ∧
        (t.pipe c slot).ending = none) ∧
    (64 ≤ (s.pipe c slot).copy.length → pipeFail ((s.pipe c slot).copy.take 64) = none →
      nextDesc (s.pipe c slot).copy (s.pipe c slot).descVa = none →
      let copy := (s.pipe c slot).copy
      let ns := (copy.getD 2 0).toNat
      let gs := (List.range ns).map (fun i => decodeStage ((copy.drop (64 + 128 * i)).take 128))
      let qs := (List.range (copy.getD 3 0).toNat).map (fun j => decodeQueue ((copy.drop (64 + 128 * ns + 64 * j)).take 64))
      ∃ t, exec (.launchStart c slot) s = .next t ∧
        match copyFail copy (s.part (partOf s c)).octets.length, s.wideFail c gs qs with
        | some f, _ => (t.pipe c slot).ending = some (4, f.body) ∧ (t.pipe c slot).started = false
        | none, some f => (t.pipe c slot).ending = some (4, f.body) ∧ (t.pipe c slot).started = false
        | none, none => (t.pipe c slot).started = true ∧ (t.pipe c slot).stages.map (fun x => x.desc) = gs ∧
            (t.pipe c slot).queues.map (fun x => x.desc) = qs)) ∧
  (∀ (s : State) (c : Nat) (q : Trig), s.nextTrig c (s.ctx c).trigQueue [] = some q →
    let slot := q.slot
    ∃ t, exec (.trigCount c) s = .next t ∧ (t.pipe c slot).trigs = (s.pipe c slot).trigs + 1 ∧ ProgramsKept s t ∧
      (t.ctx c).trigQueue = (s.ctx c).trigQueue.erase q ∧
      ∀ k, k ≠ slot → (s.pipe c k).active = true → (s.pipe c k).ending = none → (s.pipe c k).trigHandle = (s.pipe c slot).handle →
        1 ≤ (s.pipe c k).trigN → (s.pipe c k).trigN ≤ (s.pipe c slot).trigs + 1 → (t.pipe c k).ready = true) ∧
  (∀ (s : State) (c slot g : Nat), s.mayRetire c = true → (s.pipe c slot).active = true → (s.pipe c slot).started = true →
    (s.pipe c slot).ending = none → g < (s.pipe c slot).stages.length → s.stageDone c slot g = true →
    ∃ t, exec (.stageRetire c slot g) s = .next t ∧ ((t.pipe c slot).stage g).retired = true ∧
      (∀ h, h ≠ g → ((t.pipe c slot).stage h).retired = ((s.pipe c slot).stage h).retired) ∧
      (∀ q ∈ ((s.pipe c slot).stage g).desc.outputs, q < (s.pipe c slot).queues.length →
        (∀ h, h < (s.pipe c slot).stages.length → h ≠ g → ((s.pipe c slot).stage h).retired = true ∨ q ∉ ((s.pipe c slot).stage h).desc.outputs) →
        ((t.pipe c slot).queue q).closed = true) ∧
      ∀ u ∈ ((s.pipe c slot).stage g).tiles, (∀ m ∈ (s.ctx c).moves, m.tile ≠ u) → (s.tileOf c u).isSome = true →
        ∃ x, t.tileOf c u = some x ∧ x.takeUp = .leaving none) ∧
  (∀ (s : State) (c slot status : Nat) (body : List Byte), (s.pipe c slot).active = true → s.mayRetire c = true → endOf s c slot = some (status, body) → s.pipeQuiet c slot = true →
    ((s.pipe c slot).tokenVa = 0 →
      ∃ t, exec (.pipelineRetire c slot) s = .next t ∧ PipeEnded s t c slot status body ∧ ProgramsKept s t) ∧
    ∀ s1, (s.pipe c slot).tokenVa ≠ 0 → (s.pipe c slot).ending = some (status, body) →
      s.writeVa (.scheduler c) c (s.leadTile c) (s.pipe c slot).tokenVa (leBytes 8 ((s.pipe c slot).token status).toNat) false = .ok s1 →
      ∃ t, exec (.pipelineRetire c slot) s = .next t ∧ PipeEnded s t c slot status body ∧ t.mem = s1.mem ∧ t.log = s1.log)

namespace Sys2Proof.Machine

/-! ## Cores and translation -/

/-- R185: the registers a task starts with besides x1 to x6, the PC and the item: all zero, the budget the stage's. -/
def StartedAt (s t : State) (u n : Nat) (budget : BitVec 32) : Prop :=
  let st := t.strand u n
  (t.tile u).cur = n ∧ (t.tile u).choosing = false ∧ st.state = .run ∧ (∀ r : XReg, 6 < r.toNat → st.rx r = 0) ∧ st.s = [] ∧ st.p = [] ∧
    st.fflags = 0 ∧ st.ufcnt = 0 ∧ st.draws = 0 ∧ st.trapc = 0 ∧ st.trapv = 0 ∧ st.trappc = 0 ∧ st.handler = false ∧ st.echg = 0 ∧
    st.budget = budget ∧ t.mem = s.mem ∧ t.log = s.log

/-- R189: the core of tile u chooses strand n of its stage. -/
def Chooses (s : State) (u n slot g : Nat) : Prop :=
  (s.tile u).mayChoose = true ∧ s.chooseStrand u = some n ∧ (s.tile u).stage = some (slot, g)

/-- R153, R186: the issuing strand of tile u fetches. -/
def Fetches (s : State) (u : Nat) : Prop :=
  let v := s.tile u
  (v.strand v.cur).state = .run ∧ (v.strand v.cur).halted = false ∧ (v.strand v.cur).fetched = none ∧ v.held = none ∧
    v.stopping = false ∧ v.choosing = false

/-- R378, R380: strand n of tile u has taken a cause into its context's handler. -/
def TookCause (s t : State) (u n : Nat) (code : BitVec 8) (info : Word) : Prop :=
  let st := t.strand u n
  st.trapc = code ∧ st.trapv = info ∧ st.trappc = (s.strand u n).pc ∧ st.handler = true ∧ st.pc = 0 ∧
    ∀ r, st.rx r = (s.strand u n).rx r

/-- Nothing outside a die's walkers waits on a walk. -/
def NoneWaits (s : State) : Prop :=
  (∀ q ∈ s.pkg.qps, q.2 = .normal ∨ q.2 = .error) ∧ (∀ p ∈ s.pkg.ports, p.2.inbox = []) ∧ ∀ c, (s.ctx c).hostOps = []

/-- R137, R140: a leaf with A set, and D where a write fills from it. -/
def usedLeaf (e : Word) (a : Access) : Word := e ||| 0x80 ||| (if a = .write ∨ a = .atomic then 0x100 else 0)

end Sys2Proof.Machine

/-- R122, R184, R185, R189: the strand a core chooses starts its task: a fresh one at the stage's entry with zero registers, a suspended one at
its PC with x1 to x6, a record of the resume queue with what the record holds; a record that waits on a queue waits again. -/
def Rules.StrandsStartTasks : Prop :=
  ∀ (s : State) (u n slot g : Nat), Chooses s u n slot g →
    let p := (s.pipe (s.tile u).ctx slot).stage g
    ((s.strand u n).state = .idle → p.resume = [] →
      ∃ t, exec (.strandSelect u) s = .next t ∧ StartedAt s t u n p.desc.budget ∧ (t.strand u n).pc = p.desc.entry ∧
        (∀ r, (t.strand u n).rx r = 0) ∧ (t.strand u n).item = 0 ∧ (t.strand u n).itag = 0) ∧
    ((s.strand u n).state ≠ .idle →
      ∃ t, exec (.strandSelect u) s = .next t ∧ StartedAt s t u n p.desc.budget ∧ (t.strand u n).pc = (s.strand u n).pc ∧
        (∀ r : XReg, r.toNat ≤ 6 → (t.strand u n).rx r = (s.strand u n).rx r) ∧ (t.strand u n).item = (s.strand u n).item ∧
        (t.strand u n).itag = (s.strand u n).itag) ∧
    (∀ r rest, (s.strand u n).state = .idle → p.resume = r :: rest →
      ∃ t, exec (.strandSelect u) s = .next t ∧ ((t.pipe (s.tile u).ctx slot).stage g).resume = rest ∧
        (t.strand u n).pc = r.recPc ∧ (t.strand u n).item = r.recItem ∧ (t.strand u n).itag = r.tag ∧
        (∀ d : XReg, 1 ≤ d.toNat → d.toNat ≤ 6 → (t.strand u n).rx d = r.recX d.toNat) ∧
        match r.recWait with
        | none => StartedAt s t u n p.desc.budget
        | some q => (t.strand u n).state = .waiting q ∧ (t.tile u).choosing = true)

/-- R126 to R128: a divider gives the first waiting strand, if it still waits at a bundle that pops the queue and its stage can reserve its outputs, the item its queue gives up; the request
and the item leave the queue. -/
def Rules.DividersGiveItemsInOrder : Prop :=
  ∀ (s : State) (c slot q g : Nat) (r : PopReq) (rest : List PopReq) (j : Nat) (x : Queue) (drew : Bool) (it : Item) (l : List Item),
    ((s.pipe c slot).queue q).waiting = r :: rest → r.stream = none → (s.pipe c slot).consumer q = some g →
    (s.strand r.tile r.strand).asksPop q = true →
    (s.strand r.tile r.strand).granted = none → (s.tile r.tile).stopping = false → (s.pipe c slot).strandReady g = true →
    (s.ctx c).rpl ≠ 2 → s.spillBlocked c slot q = false → ((s.pipe c slot).queue q).choose q = some (j, x, drew) → (x.sub j).items = it :: l →
    ∃ t, exec (.dividerAssign c slot q) s = .next t ∧ (t.strand r.tile r.strand).granted = some (q, it) ∧
      ((t.pipe c slot).queue q).waiting = rest ∧ (((t.pipe c slot).queue q).sub j).items = l ∧
      ((t.pipe c slot).queue q).pops = (((s.pipe c slot).queue q).pops + 1) % 2 ^ 64 ∧ ProgramsKept s t

/-- R152, R153, R157: an index in the prefetch buffer names its dictionary entry, or traps as ILLEGAL_INDEX where the dictionary has no such entry; the
prefetcher puts the halfword at its strand's PC, as memory holds it at package scope, into an empty buffer. -/
def Rules.FetchersDecodeAndPrefetch : Prop :=
  (∀ (s : State) (u : Nat) (h : Half), Fetches s u →
    let n := (s.tile u).cur
    (s.strand u n).prefetch.find? (fun p => p.1 == (s.halfVa u n (s.strand u n).pc).toNat)
      = some ((s.halfVa u n (s.strand u n).pc).toNat, h) → h ≠ 0xFFFF →
    (h.toNat < (s.tile u).dictN → h.toNat ∉ (s.tile u).codeBad →
      ∃ t, exec (.indexFetch u) s = .next t ∧ (t.strand u n).fetched = some ((s.tile u).code.get 0 h.toNat, false) ∧ ProgramsKept s t) ∧
    ((s.tile u).dictN ≤ h.toNat → (s.strand u n).handler = false → (s.ctx (s.tile u).ctx).handler ≠ 0 →
      ∃ t, exec (.indexFetch u) s = .next t ∧ TookCause s t u n 0x02 (w64 h.toNat))) ∧
  (∀ (s : State) (u n : Nat) (s1 : State) (pa : Nat), (s.strand u n).state = .run → (s.strand u n).prefetch = [] →
    let va := s.halfVa u n (s.strand u n).pc
    canonical va = true → s.silentXlate (.fetcher u n) (s.tile u).ctx va.toNat (s.super u) = (s1, some pa) → pa / 2 ^ 48 % 16 < 8 →
    ∃ t, exec (.prefetchFill u n) s = .next t ∧ (t.strand u n).prefetch = [(va.toNat, s1.pkgByte (pa + 1) ++ s1.pkgByte pa)] ∧
      ProgramsKept s1 t)

/-- R381 to R383, R114: at a bundle boundary outside handler state the first pending cause is taken, with its information; a task past its
budget takes BUDGET, with its count as the information, and its budget is cleared. A strand that is halted (R393), or whose bundle waits on
a page request (R149), takes none. -/
def Obligations.PendingCausesAreTaken : Prop :=
  ∀ (s : State) (u : Nat),
    let n := (s.tile u).cur
    let st := s.strand u n
    st.state = .run → st.handler = false → (s.tile u).held = none → (s.tile u).choosing = false → (s.tile u).stopping = false →
    (s.ctx (s.tile u).ctx).handler ≠ 0 →
    (st.halted = true ∨ s.pageHeld u n = true → ∃ t, exec (.pendingTrapTake u) s = .next t ∧ ProgramsKept s t ∧
      (t.strand u n).handler = false ∧ ∀ c ∈ st.pending, c ∈ (t.strand u n).pending) ∧
    (st.halted = false → s.pageHeld u n = false → ∀ c, (st.budget = 0 ∨ st.echg ≤ 16000 * st.budget.toNat) → firstCause st.pending = some c → c.code ≠ 0x30 →
      ∃ t, exec (.pendingTrapTake u) s = .next t ∧ TookCause s t u n (BitVec.ofNat 8 c.code) c.info ∧
        (t.strand u n).pending = st.pending.filter (fun x => x.code != c.code) ∧ t.mem = s.mem ∧ t.log = s.log) ∧
    (st.halted = false → s.pageHeld u n = false → st.budget ≠ 0 → 16000 * st.budget.toNat < st.echg → st.pending = [] →
      ∃ t, exec (.pendingTrapTake u) s = .next t ∧ TookCause s t u n 0x30 (w64 st.echg) ∧ (t.strand u n).budget = 0 ∧
        t.mem = s.mem ∧ t.log = s.log)

/-- R186, R202, R332: the last value of a held bundle is written, extended, to its register, and the bundle completes; the value's causal past
becomes the strand's. -/
def Rules.LoadsReturnToHeldBundles : Prop :=
  ∀ (s : State) (u i slot width : Nat) (signed : Bool) (d : XReg) (b : Issue) (r : MemResp),
    (s.tile u).held = some b → b.waits = [(i, slot, d.toNat)] → slot < 6 → b.act = .none → b.sets = [] → b.late = none → (∀ w ∈ b.wb, w.reg ≠ d.toNat) →
    s.resps = [(u, r)] → r.id = i → r.src = .core u b.strand slot d.toNat width signed → s.respReady u r = true →
    ∃ t, exec (.loadReturn u) s = .next t ∧ (t.tile u).held = none ∧ (t.strand u b.strand).pc = b.nextPc ∧
      (t.strand u b.strand).rx d = written d (extendLoad width signed r.data) ∧ (∀ w ∈ r.past, w ∈ (t.strand u b.strand).past) ∧
      t.resps = [] ∧ t.mem = s.mem ∧ t.log = s.log

/-- R136, R140, R143 to R149, R157, R288: a walker ends the walk of the next miss: a leaf fills the die TLB, 16 pages wide where C = 1, with A set, and D
for a write, in the entry and, by compare-and-swap, at its node, and where that fails, or an access stands at the node before it, the miss
walks again; a leaf with M = 1 leaves the miss
waiting; a malformed entry fails it; no leaf raises a page request. Misses that wait on M = 1 walk again. Once the writes made before an
invalidation are performed no die TLB, micro-TLB or window entry holds a translation it removes and no strand an index prefetched from its
range; it ends once the accesses then under way are performed, and the indices prefetched meanwhile go with it. That it settles only after
those writes, and removes again then, is the model's reading. Where the rules leave a point open it follows the model's choice, logs 81, 99 and 112. -/
def Obligations.WalksFillOrRequest : Prop :=
  (∀ (s : State) (d : Nat) (m : Miss), NoneWaits s → (s.die d).nextMiss = some m →
    (s.walk m.ctx m.va = .bad → ∃ t, exec (.tlbWalk d) s = .next t ∧ { m with stand := .fault 0x12 0 } ∈ (t.die d).misses ∧ ProgramsKept s t) ∧
    (∀ level a e, s.walk m.ctx m.va = .leaf level a e → pteM e = true →
      ∃ t, exec (.tlbWalk d) s = .next t ∧ { m with stand := .migrate } ∈ (t.die d).misses ∧ ProgramsKept s t) ∧
    (∀ level a e, s.walk m.ctx m.va = .leaf level a e → pteM e = false → m.va = m.addr / 4096 * 4096 →
      let size := 12 + 9 * level + (if pteC e then 4 else 0)
      let base := m.va / 2 ^ size * 2 ^ size
      (usedLeaf e m.access = e ∨ (s.nodeWord (a / 8) = e ∧ s.nodeBusy a 8 true = false) →
        ∃ t, exec (.tlbWalk d) s = .next t ∧ m ∉ (t.die d).misses ∧
          (∃ x, ((t.die d).tlb.get [] (Config.dieTlbSet m.ctx base % 4096)).head? = some x ∧ x.ctx = m.ctx ∧
            x.base = base ∧ x.size = size ∧ x.leaf = usedLeaf e m.access) ∧
          (usedLeaf e m.access = e → ProgramsKept s t) ∧
          (usedLeaf e m.access ≠ e → a % 8 = 0 → s.Inv →
            t.nodeWord (a / 8) = usedLeaf e m.access ∧ ∀ w, w ≠ a / 8 → t.nodeWord w = s.nodeWord w)) ∧
      (usedLeaf e m.access ≠ e → s.nodeWord (a / 8) ≠ e ∨ s.nodeBusy a 8 true = true →
        ∃ t, exec (.tlbWalk d) s = .next t ∧ m ∈ (t.die d).misses ∧ ProgramsKept s t)) ∧
    (s.walk m.ctx m.va = .noLeaf → (∀ p, m.who ≠ .ingress p) → (s.ctx m.ctx).pageReqs.length < 1024 →
      (∀ r ∈ (s.ctx m.ctx).pageReqs, ¬ (r.va = m.va ∧ r.access = m.access)) →
      let rid := (s.ctx m.ctx).nextRid
      ∃ t, exec (.tlbWalk d) s = .next t ∧ { m with stand := .page rid } ∈ (t.die d).misses ∧ ProgramsKept s t ∧
        (t.ctx m.ctx).pageReqs = (s.ctx m.ctx).pageReqs ++ [{ rid, va := m.va, access := m.access }] ∧
        ∃ x ∈ t.pkg.sent.drop s.pkg.sent.length, x.ep = m.ctx ∧ x.ty = 0x2001 ∧
          x.body = leBytes 2 m.ctx ++ leBytes 2 0 ++ leBytes 4 (s.ctx m.ctx).generation ++ leBytes 8 m.va ++ leBytes 1 m.access.code
            ++ leBytes 3 0 ++ leBytes 4 rid)) ∧
  (∀ (s : State) (d : Nat), ∃ t, exec (.migrateRecheck d) s = .next t ∧ ProgramsKept s t ∧
    (t.die d).misses = (s.die d).misses.map (fun m => if m.stand = .migrate then { m with stand := .walk } else m) ∧
    ∀ e, e ≠ d → t.die e = s.die e) ∧
  (∀ s : State, ∃ t, exec .invalidationComplete s = .next t ∧ ProgramsKept s t ∧ (∀ v ∈ t.invals, ∃ w ∈ s.invals, w.id = v.id) ∧
    ∀ v ∈ s.invals,
      let unfetched : Prop := ∀ p ∈ t.tiles, p.2.ctx = v.ctx → ∀ q ∈ p.2.strands, q.2.fetched = none ∧
        ∀ h ∈ q.2.prefetch, h.1 % 2 ^ 57 < v.lo ∨ v.hi ≤ h.1 % 2 ^ 57
      (v.settled = true → (v ∈ t.invals ↔ ∃ i ∈ v.reqs, s.unperformed i = true) ∧
        ((∀ i ∈ v.reqs, s.unperformed i = false) → unfetched)) ∧
      (v.settled = false → (∃ i ∈ v.writes, s.unperformed i = true) → v ∈ t.invals) ∧
      (v.settled = false → (∀ i ∈ v.writes, s.unperformed i = false) →
        (∀ p ∈ t.dies, ∀ k ∈ p.2.tlb, ∀ e ∈ k.2, e.covered v = false) ∧
        (∀ p ∈ t.tiles, (∀ e ∈ p.2.utlb, e.covered v = false) ∧ ∀ q ∈ p.2.windows, ∀ e ∈ q.2, e.covered v = false) ∧ unfetched ∧
        ((∃ i ∈ s.invalReqs v, s.unperformed i = true) → { v with settled := true, reqs := s.invalReqs v } ∈ t.invals)))

namespace Sys2Proof.Machine

/-! ## Memory nodes and consistency -/

/-- R288, R315: the plain request that node k of die d applies next: the oldest that neither the address-compare queue, nor what
causally precedes it at a replica, nor an older request for its word holds. -/
def nextAt (s : State) (d k : Nat) : Option MemReq := ((s.die d).nodes.get [] k).find? (fun r => r.seq.isNone && s.nextFor d k r)

/-- No queue pair of the host port has a request under way (R88). -/
def NoHostJobs (s : State) : Prop := ∀ q ∈ s.pkg.qps, q.2 = .normal ∨ q.2 = .error

/-- The bits of the location that a request names at its home node (R333). -/
def nodeValue (s : State) (pa n : Nat) : Nat := (s.nodeWord (pa / 8)).toNat / 2 ^ (8 * (pa % 8)) % 2 ^ (8 * n)

/-- R385: no word that n bytes from an address touch fails its check. -/
def CheckedOk (s : State) (pa n : Nat) : Prop := ∀ w ∈ s.memBad, w < pa / 8 ∨ (pa + n - 1) / 8 < w

/-- R333: at the home nodes n bytes have been written, within one aligned word, and no other word has changed. -/
def NodeWritten (s t : State) (pa : Nat) (data : List Byte) : Prop :=
  t.nodeWord (pa / 8) = mergeBytes (s.nodeWord (pa / 8)) (pa % 8) data ∧ ∀ w, w ≠ pa / 8 → t.nodeWord w = s.nodeWord w

/-- The request has left its node; no register and no PC of any strand has changed. -/
def Served (s t : State) (d k : Nat) (r : MemReq) : Prop :=
  (∀ q, q ∈ (t.die d).nodes.get [] k ↔ q ∈ (s.die d).nodes.get [] k ∧ q.id ≠ r.id) ∧
    ∀ u n, (∀ x, (t.strand u n).rx x = (s.strand u n).rx x) ∧ (t.strand u n).pc = (s.strand u n).pc

/-- R186, R312, R372: the answer of a request, n bytes, on its way back: to its tile, or, of a request of another package, to the port it
came in at, whence it leaves for its package on its lane; one for the host port goes to its queue pair. -/
def Answered (s t : State) (r : MemReq) (n data : Nat) : Prop :=
  match r.src with
  | .host .. => t.resps = s.resps
  | .ingress port lane dst tag => s.unitReady (portUnit port) = true → ∃ waits, (t.linkPort port).replies = (s.linkPort port).replies ++
      [(waits, { ctx := some r.ctx, lane, dst, packet := .response { tag, accepted := true, data := leBytes n data } })]
  | _ => ∃ a, t.resps = s.resps ++ [(r.src.tile, a)] ∧ a.id = r.id ∧ a.src = r.src ∧ a.data = data

end Sys2Proof.Machine

/-- R204, R288, R333, R335, R341, R346: a memory node applies its requests in arrival order: a load answers with the bytes its die sees, of a
replicated page with those its replica holds, a store writes its bytes, an atomic and a compare and swap answer with the old value at the
home node and write the new one at once; nothing else in memory changes. A store at a failed unit's node is not made and is recorded as
refused for its strand. -/
def Rules.MemoryNodesApplyRequests : Prop :=
  ∀ (s : State) (d k : Nat) (r : MemReq), s.Inv → NoHostJobs s → nextAt s d k = some r →
    (∀ n, r.op = .load n → CheckedOk s r.pa n →
      let bytes := if r.rep then (s.heldBytes r.pa n).1 else (s.readBytes r.die r.pa n (s.linkReq r).2.past).1
      ∃ t, exec (.memoryNodeApply d k) s = .next t ∧ Served s t d k r ∧ Answered s t r n (leNat bytes) ∧ t.mem = s.mem ∧ t.log = s.log) ∧
    (s.nodeFailed d k = true → ∀ data u n, r.op = .store data → r.src = .store u n →
      ∃ t, exec (.memoryNodeApply d k) s = .next t ∧ Served s t d k r ∧ (∀ w, t.nodeWord w = s.nodeWord w) ∧ r.id ∉ t.flying ∧
        ((s.ctx r.ctx).saved = none → (s.tile u).ctx = r.ctx → (s.strand u n).runsPart r.part = true →
          (t.strand u n).fail = (s.strand u n).fail.add .refused r.va)) ∧
    (s.nodeFailed d k = false →
    (∀ data, r.op = .store data → r.rep = false →
      ∃ t, exec (.memoryNodeApply d k) s = .next t ∧ Served s t d k r ∧ NodeWritten s t r.pa data ∧ r.id ∉ t.flying ∧ t.resps = s.resps) ∧
    (∀ op wide v, r.op = .atom op wide v → op ≤ 8 → CheckedOk s r.pa 1 →
      let n := if wide then 8 else 4
      ∃ t, exec (.memoryNodeApply d k) s = .next t ∧ Served s t d k r ∧ Answered s t r n (nodeValue s r.pa n) ∧
        NodeWritten s t r.pa (leBytes n (atomicValue op (8 * n) (nodeValue s r.pa n) (v.toNat % 2 ^ (8 * n))))) ∧
    (∀ wide v c, r.op = .cas wide v c → CheckedOk s r.pa 1 →
      let n := if wide then 8 else 4
      ∃ t, exec (.memoryNodeApply d k) s = .next t ∧ Served s t d k r ∧ Answered s t r n (nodeValue s r.pa n) ∧
        NodeWritten s t r.pa (leBytes n (if nodeValue s r.pa n = v.toNat % 2 ^ (8 * n) then c.toNat % 2 ^ (8 * n) else nodeValue s r.pa n))))

/-- R288, R301, R302, R315: a contribution of a reduction is applied at its node as one step on the 32-bit location; one of a sequence only
when the frontier has reached its tag, and behind older requests for its word; those held for a tag not reached stand. -/
def Rules.ReductionsApplyAtTheFrontier : Prop :=
  ∀ (s : State) (d k : Nat) (r : MemReq) (op fmt : Nat) (v pad : Lane), s.Inv → NoHostJobs s → s.nodeFailed d k = false →
    r.op = .reduce op fmt v pad → CheckedOk s r.pa 1 →
    let new := (reduceNew op (Fmt.ofHeader fmt) (nodeValue s r.pa 4) v.toNat pad.toNat).1
    (((s.die d).nodes.get [] k).find? (fun q => q.seq.isSome && s.nextFor d k q) = some r →
      ∃ t, exec (.reductionApply d k) s = .next t ∧ Served s t d k r ∧ NodeWritten s t r.pa (leBytes 4 new)) ∧
    (nextAt s d k = some r → ∃ t, exec (.memoryNodeApply d k) s = .next t ∧ Served s t d k r ∧ NodeWritten s t r.pa (leBytes 4 new)) ∧
    ((∀ q ∈ (s.die d).nodes.get [] k, q.seq = none ∨ s.nextFor d k q = false) → exec (.reductionApply d k) s = .next s)

/-- R334, R341: a die seals its open batch, when it holds a write, under the next number; the next sealed batch becomes visible at another die,
with every write of it and its replica lines at once, when it is visible at its own die and its causal past is visible there, and no batch
before; a replica line whose write and causal past its die sees is applied and stands where its pair is the larger, one whose write
stands in a batch not visible yet comes with that batch. Where the rules leave a point open it follows the model's choice, logs 23 and 28. -/
def Obligations.BatchesAndLinesBecomeVisible : Prop :=
  (∀ (s : State) (d : Nat),
    ((s.die d).openBatch = [] → exec (.writeBatchSeal d) s = .next s) ∧
    ((s.die d).openBatch ≠ [] →
      let n := ((s.die d).vclk.get 0 d + 1) % 2 ^ 48
      ∃ t, exec (.writeBatchSeal d) s = .next t ∧ (t.die d).openBatch = [] ∧ (t.die d).vclk.get 0 d = n ∧
        (t.die d).sealedBatches = (s.die d).sealedBatches ++ [(n, (s.die d).openBatch)] ∧ (∀ e, e ≠ d → t.die e = s.die e) ∧
        ProgramsKept s t)) ∧
  (∀ (s : State) (a b n : Nat) (ids : List Nat), NoHostJobs s → a ≠ b → (s.log.map (fun r => r.id)).Nodup →
    (s.die a).sealedBatches.find? (fun p => p.1 == ((s.die b).vclk.get 0 a + 1) % 2 ^ 48) = some (n, ids) →
    (∀ i ∈ ids, s.seenAt a i = true) → (∀ r ∈ s.log, r.id ∈ ids → ∀ i ∈ r.past, i ∈ ids ∨ s.seenAt b i = true) →
    ∃ t, exec (.batchVisible a b) s = .next t ∧ (t.die b).vclk.get 0 a = n ∧ (∀ i ∈ ids, i < s.nextId → t.seenAt b i = true) ∧
      (∀ e i, i < s.nextId → s.seenAt e i = true → t.seenAt e i = true) ∧
      (∀ l, l ∈ t.lines ↔ l ∈ s.lines ∧ ¬ (l.dst = b ∧ l.wid ∈ ids)) ∧
      ∀ u m, (∀ x, (t.strand u m).rx x = (s.strand u m).rx x) ∧ (t.strand u m).pc = (s.strand u m).pc) ∧
  (∀ (s : State) (a b : Nat), NoHostJobs s →
    (∀ p ∈ (s.die a).sealedBatches, p.1 = ((s.die b).vclk.get 0 a + 1) % 2 ^ 48 → ∃ i ∈ p.2, s.seenAt a i = false) →
    ∃ t, exec (.batchVisible a b) s = .next t ∧ t.lines = s.lines ∧ (∀ d e, (t.die d).vclk.get 0 e = (s.die d).vclk.get 0 e) ∧ ProgramsKept s t) ∧
  (∀ (s : State) (e : Nat), NoHostJobs s → (∀ x ∈ s.lines, x.dst ≠ e) →
    ∃ t, exec (.replicaLineApply e) s = .next t ∧ t.lines = s.lines ∧ ProgramsKept s t) ∧
  (∀ (s : State) (e : Nat) (l : LineMsg) (r : WriteRec), s.lines.find? (fun x => x.dst == e) = some l →
    s.log.find? (fun r => r.id == l.wid) = some r → e ∉ r.seen → r.die ≠ e →
    exec (.replicaLineApply e) s = exec (.batchVisible r.die e) s) ∧
  (∀ (s : State) (e : Nat) (l : LineMsg), s.Inv → NoHostJobs s → s.lines.find? (fun x => x.dst == e) = some l →
    (∀ r, s.log.find? (fun r => r.id == l.wid) = some r → e ∈ r.seen ∧ ∀ i ∈ l.past, s.seenAt e i = true) → l.bytes.length = 64 →
    let old := (s.die e).stamps.get (0, 0) l.line
    ∃ t, exec (.replicaLineApply e) s = .next t ∧ (∀ x ∈ t.lines, ¬ (x.wid = l.wid ∧ x.dst = e)) ∧
      (t.die e).lamport = max (s.die e).lamport l.stamp ∧
      (if old.1 < l.stamp ∨ (old.1 = l.stamp ∧ old.2 < l.src) then
        (t.die e).stamps.get (0, 0) l.line = (l.stamp, l.src) ∧
        (∀ i, i < 8 → t.nodeWord (e * 2 ^ 41 + 8 * l.line + i) = w64 (leNat ((l.bytes.drop (8 * i)).take 8))) ∧
        ∀ w, (∀ i, i < 8 → w ≠ e * 2 ^ 41 + 8 * l.line + i) → t.nodeWord w = s.nodeWord w
       else (t.die e).stamps.get (0, 0) l.line = old ∧ ∀ w, t.nodeWord w = s.nodeWord w))

/-- R358, R359: a token reaches the mailbox of its destination strand, behind those there, and its sender has one fewer on the way. -/
def Rules.TokensReachTheirMailbox : Prop :=
  ∀ (s : State) (c a n b m : Nat) (k : Mail), (s.ctx c).saved = none → nextMail s c (s.ctx c).lane [] = some (a, n, b, m, k) →
    (s.tile b).ctx = c → (s.tile a).ctx = c → a < 576 →
    ∃ t, exec (.tokenDeliver c) s = .next t ∧ (t.strand b m).mailbox = (s.strand b m).mailbox ++ [k] ∧
      (t.strand a n).sent = (s.strand a n).sent - 1 ∧ (t.ctx c).lane = (s.ctx c).lane.erase (a, n, b, m, k) ∧ ProgramsKept s t

/-- R288, R290, R291: a die that needs slot memory writes the least recently used of its unpinned slots, of any size, back to its backing
pages and drops it, once nothing stands at their nodes before it; the oldest of the spilled items of the first sub-queue that has some and
has room returns to it as its spill area holds it, the others stay. -/
def Rules.SlotsAndSpilledItemsMove : Prop :=
  (∀ (s : State) (d : Nat) (x : Slot) (s1 : State) (pas reps : List Nat), s.Inv → (s.die d).slotNeed ≠ 0 → s.slotFits d (s.die d).slotNeed = false →
    let free := s.slots.filter (fun y => y.die == d && !y.pinned)
    free.find? (fun y => free.all (fun z => decide (y.used ≤ z.used))) = some x → x.size % 8 = 0 → x.bytes.length = x.size →
    s.xlPages (.scheduler x.ctx) x.ctx .write false (slotPages x.va x.size) = .ok s1 pas reps →
    (∀ pa ∈ pas, pa % 8 = 0 ∧ pa % 4096 + min x.size 4096 ≤ 4096) → (pas.map (fun pa => pa % 2 ^ 44 / 4096)).Nodup →
    (s1.pagesBusy pas x.size true = true → ∃ t, exec (.slotWriteback d) s = .next t ∧ t.slots = s.slots ∧ ProgramsKept s t) ∧
    (s1.pagesBusy pas x.size true = false →
      ∃ t, exec (.slotWriteback d) s = .next t ∧ (∀ y, y ∈ t.slots ↔ y ∈ s.slots ∧ ¬ (y.ctx = x.ctx ∧ y.va = x.va)) ∧
        ∀ i, i < pas.length → ∀ k, k < min x.size 4096 / 8 → 4096 * i + 8 * k < x.size →
          t.nodeWord (pas.getD i 0 / 8 + k) = w64 (leNat ((x.bytes.drop (4096 * i + 8 * k)).take 8)))) ∧
  (∀ (s : State) (c slot q : Nat) (it : Item) (rest : List Item) (s1 : State) (pa : Nat) (rep : Bool),
    let x := (s.pipe c slot).queue q
    (s.ctx c).hostOps = [] → (∀ g ∈ (s.pipe c slot).stages, g.braid = []) → ∀ j,
    (List.range x.desc.k).find? (fun i => !(x.sub i).spilled.isEmpty && decide ((x.sub i).items.length < x.desc.subCap)) = some j →
    let y := x.sub j
    y.spilled = it :: rest →
    s.translate (.spill c slot q) c (w64 (x.desc.spillVa j ((y.spillPos + x.desc.spillCap - y.spilled.length) % x.desc.spillCap))) .read false false
      = .ok s1 pa rep → s.nodeBusy pa 128 false = false →
    ∃ t, exec (.spillReturn c slot q) s = .next t ∧ (((t.pipe c slot).queue q).sub j).spilled = rest ∧ ProgramsKept s t ∧
      ∃ i, (((t.pipe c slot).queue q).sub j).items = y.items ++ [i] ∧ i.poison = it.poison ∧
        i.payload = (List.range 8).map (fun k => s.nodeWord (pa / 8 + k)) ∧ i.tag = (s.nodeWord (pa / 8 + 8)).extractLsb' 0 32 ∧
        i.key = (s.nodeWord (pa / 8 + 8)).extractLsb' 32 32)

namespace Sys2Proof.Machine

/-! ## The stream engine -/

/-- R181, R218, R295: token k offered by port p of tile u, for a command or multicast of a place in the issue order: it stands from the
next fc on every arc of the port up to the first that is full, which keeps the port placing it; the tile's other arcs are as before. -/
def Emitted (s t : State) (u p owner : Nat) (k : Token) : Prop :=
  let ds := (s.tile u).dests (spEnd p)
  let free := ds.takeWhile (fun d => !(s.tile u).arcFull d)
  (∀ d ∈ free, (t.tile u).arc d = some { k with frame := 0, since := s.fcOf u + 1 }) ∧
    (∀ d, d ∉ free → (t.tile u).arc d = (s.tile u).arc d) ∧
    ((t.tile u).emitting.find? (fun e => e.1 == spEnd p)).map (fun e => (e.2.tok, e.2.left, e.2.owner)) =
      if free = ds then none else some ({ k with frame := 0 }, ds.drop free.length, owner)

/-- R292, R298, R305, R328: the command of an id may form its next element in this fc: it waits on nothing, no contribution of its
context has to be sent again, and every command before it in the round-robin order of the tile's grants has come to its end. -/
def MayForm (s : State) (u id : Nat) (c : Cmd) : Prop :=
  id < 32 ∧ (s.tile u).cmd id = some c ∧ ((s.tile u).cmds.map (fun p => p.1)).Nodup ∧ (s.tile u).engineOff = false ∧
    (s.tile u).granted = false ∧ c.ending = none ∧ c.fault = none ∧ c.after = [] ∧ c.barred = [] ∧ c.afterStores = [] ∧ c.link = none ∧
    (s.ctx (s.tile u).ctx).withdrawn = [] ∧ s.behindFull u id = false ∧ (∀ m ∈ (s.die (tileDie u)).misses, m.who ≠ .command u id) ∧
    let place (i : Nat) : Nat := (i + 63 - (s.tile u).rrGrant % 32) % 32
    ∀ i, i < 32 → place i < place id → ∀ e, (s.tile u).cmd i = some e → e.ending.isSome = true

/-- The command of a tile after a step. -/
def CmdIs (t : State) (u id : Nat) (p : Cmd → Prop) : Prop := ∃ c, (t.tile u).cmd id = some c ∧ p c

/-- R295, R297, R313: the element that a command forms next lies at `a`: by its number in a regular pattern, by the first index value held
and its number within that index's elements in an indexed one. -/
def ElementAt (c : Cmd) (a : ElemAddr) : Prop :=
  (c.indexed = false ∧ c.next < Pattern.total c.pat ∧ a = c.elemAddr c.pat c.next none) ∨
    (c.indexed = true ∧ Pattern.countFrom c.pat 1 ≠ 0 ∧ ∃ x past rest, c.idx = (some x, past) :: rest ∧
      a = c.elemAddr c.pat c.inner (some x.toInt))

/-- R295, R313: a command has formed its next element, the last of an index value using that value up. -/
def Formed (c x : Cmd) : Prop :=
  x.next = c.next + 1 ∧ (c.indexed = true →
    if c.inner + 1 < Pattern.countFrom c.pat 1 then x.inner = c.inner + 1 ∧ x.idx = c.idx else x.inner = 0 ∧ x.idx = c.idx.drop 1)

/-- R296: translation gives an element of the command's pattern p the physical address pa of its memory class. -/
def ElementReaches (s : State) (u id : Nat) (c : Cmd) (p : Pattern) (a : Nat) (acc : Access) (s1 : State) (pa : Nat) : Prop :=
  Pattern.space p ≠ 1 ∧ (∃ rep, (s.refreshAll u).translate (.command u id) c.ctx (w64 a) acc (s.super u) false = .ok s1 pa rep) ∧
    pa / 2 ^ 48 % 16 < 8 ∧ Pattern.ocls p = if pa / 2 ^ 48 % 16 = 1 then 0 else 1

/-- R203, R231: bytes at an address of a tile's cells hold a value for every read from the fourth fc on. -/
def CellHolds (s t : State) (u a n v : Nat) : Prop :=
  ∀ i, i < n → ∀ f, s.fcOf u + 4 ≤ f → (t.tile u).cellSeen f (a + i) = byte (v / 256 ^ i)

/-- No answer for a command of the tile is on its way (R312). -/
def NoAnswer (s : State) (u id : Nat) : Prop := ∀ r ∈ s.resps, r.1 = u → ∀ v n, r.2.src ≠ .elem v id n

/-- A token stands at the head of the arc into a command's port, whose turn it is (R218, R305). -/
def AtPort (s : State) (u : Nat) (c : Cmd) (k : Token) : Prop :=
  (s.tile u).engineOff = false ∧ (s.tile u).portTurnAt c.order c.port = true ∧ (s.tile u).arcAt (spEnd c.port) (s.fcOf u) = some k

end Sys2Proof.Machine

/-- R292, R296, R297, R303, R308, R312, R313: the grant of an fc goes, among the commands of a tile, to the first in round-robin order that may
form an element, a strided or a gathering load here: a padded position yields PAD, an invalid index no value, a cell its value, an L2 or
HBM address a request to its memory node, which takes the tile's one grant of the fc where it asks for a new 64-byte block; an element
that faults stops the command with its code, and a POISON and an EOS follow the tokens placed. Where the rules leave a point open it follows the model's choice, logs 8 and 34. -/
def Obligations.LoadsFormTheirElements : Prop :=
  (∀ (s : State) (u : Nat), (s.tile u).granted = true → exec (.streamRequestGrant u) s = .next s) ∧
  ∀ (s : State) (u id : Nat) (c : Cmd), MayForm s u id c → c.kind = .sla ∨ c.kind = .sli → c.idxPoison = false →
    c.flight.length < 64 → (∀ f ∈ c.flight, f.n < c.next ∧ (f.val = none → f.req ≠ 0)) →
    (∀ past rest, c.indexed = true → c.idx = (none, past) :: rest →
      ∃ t, exec (.streamRequestGrant u) s = .next t ∧ ProgramsKept s t ∧ CmdIs t u id (fun x => x.next = c.next + 1 ∧
        (Pattern.countFrom c.pat 1 ≠ 0 → x.idx = rest) ∧
        x.flight = c.flight ++ [{ n := c.next, val := some none }])) ∧
    (ElementAt c .pad →
      ∃ t, exec (.streamRequestGrant u) s = .next t ∧ ProgramsKept s t ∧ CmdIs t u id (fun x => Formed c x ∧
        x.flight = c.flight ++ [{ n := c.next, val := some (some (Pattern.pad c.pat).toNat) }])) ∧
    (∀ a, ElementAt c (.at a) → Pattern.space c.pat = 1 →
      ∃ t, exec (.streamRequestGrant u) s = .next t ∧ ProgramsKept s t ∧ CmdIs t u id (fun x => Formed c x ∧
        ∃ f, x.flight = c.flight ++ [f] ∧ f.n = c.next ∧ f.val = some (some (widen c.pat (s.cellRead u (s.fcOf u) a c.pat.bytes).2)))) ∧
    (∀ a s1 pa, ElementAt c (.at a) → ElementReaches s u id c c.pat a .read s1 pa → s1.nextId ≠ 0 →
      ∃ t, exec (.streamRequestGrant u) s = .next t ∧ ProgramsKept s1 t ∧ (t.tile u).granted = c.newBlock a ∧
        CmdIs t u id (fun x => Formed c x ∧ x.flight = c.flight ++ [{ n := c.next, req := s1.nextId, va := a }]) ∧
        ∃ r, Requested s1 t pa r ∧ r.id = s1.nextId ∧ r.src = .elem u id c.next ∧ r.pa = pa ∧ r.op = .load c.pat.bytes) ∧
    (∀ k, ElementAt c (.fault k) → c.flight.length < Pattern.perToken c.pat → c.eos = false →
      ∃ t, exec (.streamRequestGrant u) s = .next t ∧ ProgramsKept s t ∧ CmdIs t u id (fun x => x.ending = some k ∧
        x.out = c.out ++ [({ kind := .poison }, 0), ({ kind := .eos }, 0)]))

/-- R295, R296, R306, R312, R313, R318: a strided or scattering store that has a value forms its next element with it: into a cell, seen from the
fourth fc on, which counts at once; toward L2 or HBM as one request to its memory node; an invalid value or a padded position writes
nothing. A copy reads its next origin element, then writes it to the destination's. -/
def Rules.StoresAndCopiesFormTheirElements : Prop :=
  ∀ (s : State) (u id : Nat) (c : Cmd), MayForm s u id c →
    (∀ v past rest, c.kind = .ssa ∨ c.kind = .ssi → c.vals = (v, past) :: rest → c.valsPoison = false → c.idxPoison = false →
      let goesOn : Prop := c.advance.nextElem ≠ .stop
      (∀ a, ElementAt c a → v = none ∨ a = .pad → ∃ t, exec (.streamRequestGrant u) s = .next t ∧ ProgramsKept s t ∧
        (t.tile u).sram = (s.tile u).sram ∧ (t.tile u).granted = false ∧
        CmdIs t u id (fun x => Formed c x ∧ (goesOn → x.vals = rest))) ∧
      (∀ a b, ElementAt c (.at a) → v = some b → Pattern.space c.pat = 1 →
        (∀ w ∈ (s.tile u).cellWrites, w.addr < a ∨ a + c.pat.bytes ≤ w.addr) →
        ∃ t, exec (.streamRequestGrant u) s = .next t ∧ ProgramsKept s t ∧ CellHolds s t u a c.pat.bytes (narrow c.pat b false).1 ∧
          ((t.tile u).status.get {} id).count = min (((s.tile u).status.get {} id).count + 1) 0xFFFFFFFF ∧
          CmdIs t u id (fun x => Formed c x ∧ (goesOn → x.vals = rest))) ∧
      (∀ a b s1 pa, ElementAt c (.at a) → v = some b → ElementReaches s u id c c.pat a .write s1 pa →
        ∃ t, exec (.streamRequestGrant u) s = .next t ∧ ProgramsKept s1 t ∧ (t.tile u).granted = true ∧ s1.nextId ∈ t.flying ∧
          CmdIs t u id (fun x => Formed c x ∧ (goesOn → x.vals = rest)) ∧
          ∃ r, Requested s1 t pa r ∧ r.id = s1.nextId ∧ r.src = .elem u id c.next ∧ r.pa = pa ∧
            r.op = .store (leBytes c.pat.bytes (narrow c.pat b false).1))) ∧
    ∀ sat, c.kind = .scpy sat →
      (c.flight = [] → c.next < Pattern.total c.pat2 → c.next < Pattern.total c.pat →
        (∀ a, c.elemAddr c.pat2 c.next none = .at a → Pattern.space c.pat2 = 1 →
          ∃ t, exec (.streamRequestGrant u) s = .next t ∧ ProgramsKept s t ∧ CmdIs t u id (fun x => x.next = c.next ∧
            ∃ f, x.flight = [f] ∧ f.n = c.next ∧ f.val = some (some (widen c.pat2 (s.cellRead u (s.fcOf u) a c.pat2.bytes).2)))) ∧
        ∀ a s1 pa, c.elemAddr c.pat2 c.next none = .at a → ElementReaches s u id c c.pat2 a .read s1 pa → s1.nextId ≠ 0 →
          ∃ t, exec (.streamRequestGrant u) s = .next t ∧ ProgramsKept s1 t ∧
            CmdIs t u id (fun x => x.next = c.next ∧ x.flight = [{ n := c.next, req := s1.nextId, va := a }]) ∧
            ∃ r, Requested s1 t pa r ∧ r.src = .elem u id c.next ∧ r.op = .load c.pat2.bytes) ∧
      ∀ f v a, c.flight = [f] → f.val = some (some v) → c.elemAddr c.pat c.next none = .at a →
        (Pattern.space c.pat = 1 → (∀ w ∈ (s.tile u).cellWrites, w.addr < a ∨ a + c.pat.bytes ≤ w.addr) →
          ∃ t, exec (.streamRequestGrant u) s = .next t ∧ ProgramsKept s t ∧ CellHolds s t u a c.pat.bytes (narrow c.pat v sat).1 ∧
            ((t.tile u).status.get {} id).count = min (((s.tile u).status.get {} id).count + 1) 0xFFFFFFFF ∧
            CmdIs t u id (fun x => x.next = c.next + 1 ∧ x.flight = [])) ∧
        ∀ s1 pa, ElementReaches s u id c c.pat a .write s1 pa →
          ∃ t, exec (.streamRequestGrant u) s = .next t ∧ ProgramsKept s1 t ∧ CmdIs t u id (fun x => x.next = c.next + 1 ∧ x.flight = []) ∧
            ∃ r, Requested s1 t pa r ∧ r.src = .elem u id c.next ∧ r.pa = pa ∧ r.op = .store (leBytes c.pat.bytes (narrow c.pat v sat).1)

/-- R295, R306, R308, R312, R317: an answer gives its element its value; a fill forms the elements of its next token; a token whose elements are all
there, or that stands next in line, is placed on a port that is free in the command's turn and raises COUNT by its elements; a store
takes a DATA token's values, its EOS ends the values, SHORT where elements are left, and a POISON stops it with code 6; a command past
its end with nothing outstanding completes: its status word shows COMPLETE and its code, and its id is free. -/
def Rules.CommandsMoveTokensAndComplete : Prop :=
  (∀ (s : State) (u id : Nat) (c : Cmd) (r : MemResp), (s.tile u).cmd id = some c → (s.tile u).engineOff = false →
    c.kind = .sla ∨ c.kind = .sli → c.out = [] → c.ending = none → c.fault = none → c.flight.length < Pattern.perToken c.pat →
    c.skipEmpty.nextElem ≠ .stop → c.wants r.id = true →
    s.resps.find? (fun x => x.1 == u && (match x.2.src with | .elem _ i _ => i == id | _ => false) && s.respReady u x.2) = some (u, r) →
    ∃ t, exec (.streamDataReturn u id) s = .next t ∧ ProgramsKept s t ∧ t.resps = s.resps.filter (fun x => x.2.id != r.id) ∧
      CmdIs t u id (fun x => x.flight = c.flight.map (fun f => if f.req = r.id ∧ f.val = none
        then { f with val := some (some (widen c.pat r.data)), past := r.past } else f))) ∧
  (∀ (s : State) (u id v : Nat) (c : Cmd), (s.tile u).cmd id = some c → (s.tile u).engineOff = false → c.kind = .sfill v → c.ending = none →
    c.fault = none → c.next < Pattern.total c.pat → (s.tile u).portTurnAt c.order c.port = false → NoAnswer s u id →
    let n := min (Pattern.perToken c.pat - c.flight.length) (Pattern.total c.pat - c.next)
    ∃ t, exec (.streamDataReturn u id) s = .next t ∧ ProgramsKept s t ∧ CmdIs t u id (fun x => x.next = c.next + n ∧
      x.flight.length = c.flight.length + n ∧ x.flight.take c.flight.length = c.flight ∧
      ∀ i, i < n → ((x.flight.drop c.flight.length).map (fun f => f.val)).getD i none = some (some (
        let k := c.next + i
        if Pattern.padded c.pat k then (Pattern.pad c.pat).toNat
        else if v = 0 then c.xb.toNat % 2 ^ c.pat.portFmt.width
        else if v = 1 then (c.xb.toNat % 2 ^ 32 + k * (Pattern.pad c.pat).toNat) % 2 ^ 32
        else
          let base := (Pattern.base c.pat).toNat
          let w := philox (k / 4 % 2 ^ 32) (k / 4 / 2 ^ 32) (base % 2 ^ 32) (base / 2 ^ 32) c.xb.toNat
          [w.1, w.2.1, w.2.2.1, w.2.2.2].getD (k % 4) 0)))) ∧
  (∀ (s : State) (u id p n : Nat) (c : Cmd) (k : Token), (s.tile u).cmd id = some c → (s.tile u).engineOff = false → c.isReduce = false →
    NoAnswer s u id → c.headToken = some (k, n) → c.outPort = some p → (s.tile u).portTurnAt c.order p = true →
    (s.tile u).emitting = [] → (s.tile u).portFree p = true →
    ∃ t, exec (.streamDataReturn u id) s = .next t ∧ ProgramsKept s t ∧ Emitted s t u p c.order k ∧
      ((t.tile u).status.get {} id).count = min (((s.tile u).status.get {} id).count + n) 0xFFFFFFFF) ∧
  (∀ (s : State) (u id h n : Nat) (c : Cmd) (k : Token), (s.tile u).cmd id = some c → (s.tile u).engineOff = false → c.kind = .smc h →
    NoAnswer s u id → c.headToken = some (k, n) → c.members ≠ [] → c.members.Nodup → 0 < c.permits →
    ∃ t, exec (.streamDataReturn u id) s = .next t ∧ ProgramsKept s t ∧
      CmdIs t u id (fun x => x.permits = c.permits - 1 ∧ x.sent = c.sent ++ [n]) ∧
      ∀ m ∈ c.members, ∃ y ∈ (t.tile m).mcast, y.src = u ∧ y.id = id ∧ y.toks.getLast? = some k) ∧
  (∀ (s : State) (u id : Nat) (c : Cmd) (k : Token), (s.tile u).cmd id = some c → AtPort s u c k → c.kind = .ssa → c.ending = none →
    c.fault = none → c.drain = [] → c.valsEnd = false → c.valsPoison = false → c.next + c.vals.length < Pattern.total c.pat → c.vals.length < 256 →
    ∃ t, exec (.streamTokenTake u id) s = .next t ∧ ProgramsKept s t ∧ (t.tile u).arc (spEnd c.port) = none ∧
      CmdIs t u id (fun x => match k.kind with
        | .data => x.vals = c.vals ++ (Pattern.unpack c.pat k).map (fun v => (v, k.past))
        | .eos => x.valsEnd = true ∧ (c.vals = [] → c.flight = [] → x.ending = some 7)
        | .poison => x.valsPoison = true ∧ (c.vals = [] → x.ending = some 6)
        | .hdr => x.vals = c.vals)) ∧
  (∀ (s : State) (u id : Nat) (c : Cmd) (k : Token), (s.tile u).cmd id = some c → (s.tile u).engineOff = false → c.kind = .sli ∨ c.kind = .ssi →
    c.ending = none → c.fault = none → c.drain = [] → c.idxEnd = false → c.idxPoison = false → c.idx ≠ [] → c.idx.length < 16 →
    Pattern.countFrom c.pat 1 ≠ 0 → ∀ p, c.cport = some p → (s.tile u).portTurnAt c.order p = true →
    (s.tile u).arcAt (spEnd p) (s.fcOf u) = some k → c.valsPoison = false →
    (c.kind = .ssi → c.vals ≠ []) →
    ∃ t, exec (.streamTokenTake u id) s = .next t ∧ ProgramsKept s t ∧ (t.tile u).arc (spEnd p) = none ∧
      CmdIs t u id (fun x => match k.kind with
        | .data => x.idx = c.idx ++ (List.range 16).map (fun i => (if k.mask.getLsbD i then some (k.lanes.getD i 0) else none, k.past))
        | .eos => x.idxEnd = true
        | .poison => x.idxPoison = true
        | .hdr => x.idx = c.idx)) ∧
  (∀ (s : State) (u id : Nat) (c : Cmd), (s.tile u).cmd id = some c → s.canComplete u id c = true →
    ∃ t, exec (.streamComplete u id) s = .next t ∧ ProgramsKept s t ∧ (t.tile u).cmd id = none ∧
      (t.tile u).status.get {} id = { (s.tile u).status.get {} id with state := 2, code := c.ending.getD 0 } ∧
      ∀ i, i ≠ id → (t.tile u).status.get {} i = (s.tile u).status.get {} i) ∧
  (∀ (s : State) (u id : Nat) (c : Cmd), (s.tile u).cmd id = some c → s.canComplete u id c = false →
    exec (.streamComplete u id) s = .next s)

/-- R319, R320, R323, R127, R290: a divider gives a stream that waits for it, and can place it, the item of its queue as a token on its port; SQOUT
pushes a DATA token's lanes as an item and ends at the EOS, or with BADQ on a closed queue; SREC sends the carries its slot holds, takes
each DATA token into its ring and passes it on, and at the EOS leaves the ring in the slot, unless a POISON has passed. -/
def Rules.QueueCommandsAndRecurrences : Prop :=
  (∀ (s : State) (c slot q u id j : Nat) (r : PopReq) (rest : List PopReq) (x : Cmd) (y : Queue) (drew : Bool) (it : Item) (l : List Item),
    ((s.pipe c slot).queue q).waiting = r :: rest → r.stream = some id → r.tile = u → (s.tile u).cmd id = some x → (s.tile u).emitting = [] →
    (s.tile u).portOpen x.port = true → (s.tile u).freeze = false → (s.ctx c).rpl ≠ 2 → s.spillBlocked c slot q = false →
    ((s.pipe c slot).queue q).choose q = some (j, y, drew) → (y.sub j).items = it :: l → it.payload.length = 8 →
    ∃ t, exec (.dividerAssign c slot q) s = .next t ∧ ProgramsKept s t ∧ ((t.pipe c slot).queue q).waiting = rest ∧
      (((t.pipe c slot).queue q).sub j).items = l ∧
      ((t.tile u).status.get {} id).count = min (((s.tile u).status.get {} id).count + 1) 0xFFFFFFFF ∧
      ∃ k, Emitted s t u x.port x.order k ∧ k.past = it.past ∧ k.kind = (if it.poison then .poison else .data) ∧
        (it.poison = false → k.mask = 0xFFFF ∧ ∀ i, i < 8 → tokenWord k i = it.payload.getD i 0)) ∧
  (∀ (s : State) (u id q : Nat) (c : Cmd) (k : Token), (s.tile u).cmd id = some c → AtPort s u c k → c.kind = .sqout q → c.ending = none →
    c.fault = none → c.drain = [] → c.after = [] → c.barred = [] → c.afterStores = [] →
    let p := s.pipe c.ctx c.slot
    let x := p.queue q
    (k.kind = .eos → ∃ t, exec (.streamTokenTake u id) s = .next t ∧ ProgramsKept s t ∧ (t.tile u).arc (spEnd c.port) = none ∧
      CmdIs t u id (fun x => x.ending = some 0)) ∧
    (k.kind = .data → x.closed = true → ∃ t, exec (.streamTokenTake u id) s = .next t ∧ ProgramsKept s t ∧
      (t.tile u).arc (spEnd c.port) = none ∧ CmdIs t u id (fun x => x.ending = some 2)) ∧
    (k.kind = .data → x.closed = false → x.poisoned = false → 0 < p.free q → (s.ctx c.ctx).rpl ≠ 2 → s.spillBlocked c.ctx c.slot q = false →
      ∀ j, x.pushSub (s.cursorOf u c.slot q x.desc.k) = some j → (x.sub j).spilled = [] → q < p.queues.length →
      ∃ t it, exec (.streamTokenTake u id) s = .next t ∧ ProgramsKept s t ∧ (t.tile u).arc (spEnd c.port) = none ∧
        (((t.pipe c.ctx c.slot).queue q).sub j).items = (x.sub j).items ++ [it] ∧ it.poison = false ∧ it.tag = c.itag ∧
        (∀ i, i < 8 → it.payload.getD i 0 = tokenWord k i) ∧
        ((t.tile u).status.get {} id).count = min (((s.tile u).status.get {} id).count + 1) 0xFFFFFFFF)) ∧
  (∀ (s : State) (u id va d : Nat) (c : Cmd), MayForm s u id c → (s.tile u).cmds = [(id, c)] → c.kind = .srec va d → c.next = 0 →
    (s.tile u).portTurnAt c.order c.port = true → (∀ p, c.cport = some p → (s.tile u).portTurnAt c.order p = true) →
    ∀ x, s.slotAt c.ctx va = some x →
    ∃ t, exec (.streamRequestGrant u) s = .next t ∧ ProgramsKept s t ∧ CmdIs t u id (fun y => y.next = 1 ∧ y.out.map (fun p => p.1) = y.ring ∧
      y.ring.length = d ∧ ∀ i, i < d → ∀ n, n < 8 →
        tokenWord (y.ring.getD i {}) n = w64 (leNat ((x.bytes.drop (64 * i + 8 * n)).take 8)))) ∧
  ∀ (s : State) (u id va d : Nat) (c : Cmd) (k : Token), (s.tile u).cmd id = some c → AtPort s u c k → c.kind = .srec va d → c.ending = none →
    c.drain = [] → c.next ≠ 0 → c.out.length < 4 →
    (k.kind = .data → ∃ t, exec (.streamTokenTake u id) s = .next t ∧ ProgramsKept s t ∧ (t.tile u).arc (spEnd c.port) = none ∧
      CmdIs t u id (fun y => y.out = c.out ++ [(k, 1)] ∧ y.ring = (c.ring ++ [k]).drop 1)) ∧
    (k.kind = .eos → ∃ t, exec (.streamTokenTake u id) s = .next t ∧ ProgramsKept s t ∧
      CmdIs t u id (fun y => y.ending = some (if c.poisoned then 6 else 0)) ∧
      ∀ x, s.slotAt c.ctx va = some x → ∃ y, t.slotAt c.ctx va = some y ∧
        y.bytes = if c.poisoned then x.bytes
          else c.ring.flatMap (fun k => (List.range 8).flatMap (fun i => leBytes 8 (tokenWord k i).toNat)) ++ x.bytes.drop (64 * d))

/-- R300, R316: a member of a multicast with a free port delivers the first token it holds; when the last member has delivered it the
token's elements count, and the source may send one more. -/
def Rules.MembersDeliverAndReturnPermits : Prop :=
  ∀ (s : State) (u id m : Nat) (x : McastIn) (k : Token) (rest : List Token), (s.tile m).mcast = [x] → x.src = u → x.id = id →
    x.toks = k :: rest → (s.tile m).engineOff = false → (s.tile m).emitting = [] → (s.tile m).portTurnAt x.order x.port = true →
    (s.tile m).portFree x.port = true →
    ∃ t, exec (.multicastSpaceReturn u id m) s = .next t ∧ ProgramsKept s t ∧ Emitted s t m x.port x.order k ∧
      (t.tile m).mcast = (if k.kind = .eos then [] else [{ x with toks := rest }]) ∧
      ∀ c, (s.tile u).cmds = [(id, c)] → m ∈ c.members → c.delivered.get 0 m < c.sent.length →
        (∀ i ∈ c.members, i ≠ m → c.delivered.get 0 m < c.delivered.get 0 i) →
        CmdIs t u id (fun y => y.permits = c.permits + 1 ∧ y.delivered.get 0 m = c.delivered.get 0 m + 1) ∧
        ((t.tile u).status.get {} id).count =
          min (((s.tile u).status.get {} id).count + c.sent.getD (c.delivered.get 0 m) 0) 0xFFFFFFFF

namespace Sys2Proof.Machine

/-! ## Scale-up links -/

/-- R372, R376: an answer to a request waits at its port for the writes it reports. -/
def Replied (s t : State) (port : Nat) (c : Option Nat) (r : RemoteReq) (accepted : Bool) (data : List Byte) (waits : List Nat) : Prop :=
  (t.linkPort port).replies = (s.linkPort port).replies ++
    [(waits, { ctx := c, lane := r.lane, dst := r.srcPkg, packet := .response { tag := r.tag, accepted, data } })]

/-- A request for this package arrives at a ready port where none waits. -/
def Arrives (s : State) (port : Nat) (r : RemoteReq) : Prop :=
  s.unit (portUnit port) = .ready ∧ r.dstPkg = Config.pkgid.toNat ∧ (s.linkPort port).inbox = []

/-- R372: the state in which an arriving access is translated: it waits at the port. -/
def arrived (s : State) (port : Nat) (r : RemoteReq) : State := s.modPort port (fun p => { p with inbox := p.inbox ++ [r] })

/-- R333, R372: what an arriving access sends to its node, behind what stands there. -/
def SentToNode (s t : State) (pa : Nat) (qs : List MemReq) : Prop :=
  let (d, k) := nodeOf s.pkg.ordering pa
  (t.die d).nodes.get [] k = (s.die d).nodes.get [] k ++ qs

/-- R376: an outstanding request of a command, whose context stands on its tiles. -/
def Outstanding (s : State) (f : RemoteFlight) (c : Cmd) : Prop :=
  s.pkg.flights = [f] ∧ f.id < 32 ∧ (s.ctx f.ctx).saved = none ∧ (s.tile f.tile).ctx = f.ctx ∧ (s.tile f.tile).cmd f.id = some c

end Sys2Proof.Machine

/-- R333, R359, R368, R372: a request that no window admits is answered as refused; an admitted read, and an admitted atomic, goes to its memory
node, which answers it, behind the requests that stand there; an admitted write goes there word by word, and is answered once those writes are
performed; an admitted token joins its context's lane; a request for another package goes on by its path. Where the rules leave a point open it follows the model's choice, logs 74 and 98. -/
def Obligations.RemoteRequestsAreServed : Prop :=
  (∀ (s : State) (port : Nat) (r : RemoteReq), Arrives s port r → s.admits r.dstCtx r = false → (∀ a b c, r.kind ≠ .token a b c) →
    ∃ t, exec (.remoteIngress port r) s = .next t ∧ ProgramsKept s t ∧ Replied s t port none r false [] [] ∧ (t.linkPort port).inbox = []) ∧
  (∀ (s : State) (port : Nat) (r : RemoteReq) (s1 : State) (pa : Nat) (rep : Bool), Arrives s port r → s.admits r.dstCtx r = true →
    (arrived s port r).translate (.ingress port) r.dstCtx (w64 r.addr) (remoteAccess r.kind) false (remoteAccess r.kind == Access.atomic)
      = .ok s1 pa rep →
    if 8 ≤ pa / 2 ^ 48 % 16 then
      (∀ a b c, r.kind ≠ .token a b c) → ∃ t, exec (.remoteIngress port r) s = .next t ∧ ProgramsKept s1 t ∧
        Replied s1 t port (some r.dstCtx) r false [] []
    else match r.kind with
    | .read len => ∃ t q, exec (.remoteIngress port r) s = .next t ∧ ProgramsKept s1 t ∧ (t.linkPort port).inbox = [] ∧
        SentToNode s1 t pa [q] ∧ q.op = .load len ∧ q.src = .ingress port r.lane r.srcPkg r.tag ∧ q.pa = pa ∧ q.ctx = r.dstCtx ∧
        q.die = portDie port ∧ q.past = (s1.linkPort port).past
    | .write data => data ≠ [] → pa % 64 + data.length ≤ 64 →
        let n := (pa % 8 + data.length + 7) / 8
        ∃ t qs, exec (.remoteIngress port r) s = .next t ∧ ProgramsKept s1 t ∧ (t.linkPort port).inbox = [] ∧ SentToNode s1 t pa qs ∧
          Replied s1 t port (some r.dstCtx) r true [] ((List.range n).map (fun i => s1.nextId + i)) ∧ qs.length = n ∧
          ∀ i q, qs[i]? = some q → q.id = s1.nextId + i ∧ q.pa = pa + (8 * i - pa % 8) ∧ q.ctx = r.dstCtx ∧ q.die = portDie port ∧
            q.op = .store ((data.drop (8 * i - pa % 8)).take (8 - (pa + (8 * i - pa % 8)) % 8)) ∧ q.id ∈ t.flying
    | .atomic op wide v e => ∃ t q, exec (.remoteIngress port r) s = .next t ∧ ProgramsKept s1 t ∧ (t.linkPort port).inbox = [] ∧
        SentToNode s1 t pa [q] ∧ q.op = (if op = 9 then .cas wide v e else .atom op wide v) ∧
        q.src = .ingress port r.lane r.srcPkg r.tag ∧ q.id = s1.nextId ∧ q.pa = pa ∧ q.ctx = r.dstCtx ∧ q.die = portDie port
    | .token .. => True) ∧
  (∀ (s : State) (port : Nat) (r : RemoteReq) (tag pay addr : BitVec 32), Arrives s port r → r.kind = .token tag pay addr →
    let tile := 64 * (addr.toNat / 512 % 16) + addr.toNat / 8 % 64
    ∃ t, exec (.remoteIngress port r) s = .next t ∧ ProgramsKept s t ∧
      match s.liveCtxs.find? (fun c => s.admits c r && (s.part (s.ctx c).part).tiles.contains tile) with
      | some c => Replied s t port (some c) r true [] [] ∧ ∃ k, (t.ctx c).lane = (s.ctx c).lane ++ [(0xFFFF, 0, tile, addr.toNat % 8, k)] ∧
          k.tag = tag ∧ k.payload = pay
      | none => Replied s t port none r false [] [] ∧ (t.linkPort port).dropped = (s.linkPort port).dropped + 1) ∧
  (∀ (s : State) (port : Nat) (r : RemoteReq), s.unit (portUnit port) = .ready → r.dstPkg ≠ Config.pkgid.toNat →
    ∃ t, exec (.remoteIngress port r) s = .next t ∧ ProgramsKept s t ∧
      match s.routePort r.srcTile r.srcStrand r.dstPkg with
      | some p => (t.linkPort p).lanes.get [] r.lane =
          (s.linkPort p).lanes.get [] r.lane ++ [{ ctx := none, lane := r.lane, dst := r.dstPkg, packet := .request r }]
      | none => (t.linkPort port).replies = (s.linkPort port).replies ++
          [([], { ctx := none, lane := r.lane, dst := r.srcPkg,
                  packet := .response { tag := r.tag, accepted := false, data := [], lost := true } })]) ∧
  -- R374: a request that waits on its translation stays at the port, and holds back no request between other contexts
  (∀ (s : State) (port : Nat) (r : RemoteReq) (s1 : State), Arrives s port r → s.admits r.dstCtx r = true → (∀ a b c, r.kind ≠ .token a b c) →
    (arrived s port r).translate (.ingress port) r.dstCtx (w64 r.addr) (remoteAccess r.kind) false (remoteAccess r.kind == Access.atomic)
      = .wait s1 →
    ∃ t, exec (.remoteIngress port r) s = .next t ∧ (t.linkPort port).inbox = [r]) ∧
  (∀ (s : State) (port : Nat) (a r : RemoteReq) (s1 s2 : State), s.unit (portUnit port) = .ready → r.dstPkg = Config.pkgid.toNat →
    (s.linkPort port).inbox = [a] → sameWay a r = false → (∀ x y z, r.kind ≠ .token x y z) →
    (arrived s port r).ingressOne port a = (none, s1) → (s1.ingressOne port r).1 = some s2 →
    ∃ t, exec (.remoteIngress port r) s = .next t ∧ (t.linkPort port).inbox = [a])

/-- R109, R306, R346, R370, R372 to R376: a flit leaves a port from the next lane in round-robin order that holds one and has room; an accepted write is
performed and counts, a refused one is a failed store, an accepted read gives its value, a refused one stops its command with code
19, one lost at a dead port farther on with code 20; a response that no request waits for changes nothing but charges, one for another package
goes on; the failure of a port ends the requests sent on it, a read's command with DEADLINK, and its answers leave by another port. Where the rules leave a point open it follows the model's choice, logs 73, 74 and 98. -/
def Obligations.FlitsResponsesAndDeadPorts : Prop :=
  (∀ (s : State) (port : Nat), s.unit (portUnit port) = .ready → (s.linkPort port).replies = [] →
    ∃ t, exec (.linkFlitSend port) s = .next t ∧ ProgramsKept s t ∧
      match ((List.range 16).map (fun i => ((s.linkPort port).rr + 1 + i) % 16)).find? (fun l =>
        !((s.linkPort port).lanes.get [] l).isEmpty && Config.laneRoom port l s.fresh) with
      | some l => ∃ f rest, (s.linkPort port).lanes.get [] l = f :: rest ∧ (t.linkPort port).lanes.get [] l = rest ∧
          (t.linkPort port).rr = l ∧ (t.linkPort port).sent = (s.linkPort port).sent ++ [f]
      | none => t.linkPort port = s.linkPort port) ∧
  (∀ (s : State) (port dst lane : Nat) (r : RemoteResp), NoHostJobs s → dst ≠ Config.pkgid.toNat →
    ∃ t, exec (.remoteResponse ⟨port, dst, lane, r⟩) s = .next t ∧ ProgramsKept s t ∧
      match s.routePort 576 0 dst with
      | some p => (t.linkPort p).lanes.get [] lane = (s.linkPort p).lanes.get [] lane ++ [{ ctx := none, lane, dst, packet := .response r }]
      | none => t.pkg.ports = s.pkg.ports) ∧
  (∀ (s : State) (port lane : Nat) (r : RemoteResp), NoHostJobs s → (∀ f ∈ s.pkg.flights, f.tag ≠ r.tag) →
    ∃ t, exec (.remoteResponse ⟨port, Config.pkgid.toNat, lane, r⟩) s = .next t ∧ ProgramsKept s t ∧ t.tiles = s.tiles ∧ t.ctxs = s.ctxs) ∧
  (∀ (s : State) (port lane : Nat) (f : RemoteFlight) (c : Cmd) (r : RemoteResp), NoHostJobs s → Outstanding s f c → f.tag = r.tag →
    ∃ t, exec (.remoteResponse ⟨port, Config.pkgid.toNat, lane, r⟩) s = .next t ∧ t.pkg.flights = [] ∧
      (r.accepted = true → f.isWrite = true → (∃ w ∈ c.writes, w.1 = f.wid) → f.wid ∉ t.flying ∧
        ((t.tile f.tile).status.get {} f.id).count = min (((s.tile f.tile).status.get {} f.id).count + 1) 0xFFFFFFFF) ∧
      (r.accepted = true → c.wants f.tag = true → (s.ctx f.ctx).state = .running → (s.ctx f.ctx).stopped = false →
        t.resps = s.resps ++ [(f.tile, { id := f.tag, src := .elem f.tile f.id f.n, data := leNat r.data, past := [], rmw := f.isWrite })]) ∧
      (r.accepted = true → c.wants f.tag = true → (s.ctx f.ctx).state ≠ .running ∨ (s.ctx f.ctx).stopped = true →
        CmdIs t f.tile f.id (fun x => x = c.given f.tag (leNat r.data) [])) ∧
      (r.accepted = false → r.lost = false → f.isWrite = true → ((s.tile f.tile).strand c.strand).runsPart c.part = true → f.wid ∉ t.flying ∧
        ((t.tile f.tile).strand c.strand).fail.refused = true ∧
        ((t.tile f.tile).strand c.strand).fail.count = min (((s.tile f.tile).strand c.strand).fail.count + 1) 0xFFFF) ∧
      (r.accepted = false → r.lost = true → f.isWrite = true → ((s.tile f.tile).strand c.strand).runsPart c.part = true → f.wid ∉ t.flying ∧
        ((t.tile f.tile).strand c.strand).fail.deadlink = true) ∧
      (r.accepted = false → f.isWrite = false ∧ c.wants f.tag = true ∨ c.returns = true → (∃ g ∈ c.flight, g.n = f.n) →
        CmdIs t f.tile f.id (fun x => x.fault = some (if r.lost then 20 else 19) ∧ ∀ g ∈ x.flight, g.n < f.n))) ∧
  (∀ (s : State) (port : Nat), NoHostJobs s → s.unit (portUnit port) = .ready → (∀ p ∈ (s.linkPort port).lanes, p.2 = []) →
    ∃ t, exec (.linkDead port) s = .next t ∧ t.unit (portUnit port) = .failed ∧ (∀ f ∈ t.pkg.flights, f.port ≠ port) ∧
      (t.linkPort port).lanes = [] ∧ (t.linkPort port).replies = [] ∧
      (∀ x ∈ (s.linkPort port).replies, ∀ p, (s.setUnit (portUnit port) .failed).routePort 576 0 x.2.dst = some p →
        x ∈ (t.linkPort p).replies) ∧
      ∀ f c, Outstanding s f c → f.port = port → (∀ p ∈ s.formedParts, portUnit port ∉ p.2.units) → f.isWrite = false → c.wants f.tag = true →
        (∃ g ∈ c.flight, g.n = f.n) →
        (∀ d ∈ s.dies, ∀ q ∈ d.2.nodes, q.2 = []) → CmdIs t f.tile f.id (fun x => x.fault = some 20)) ∧
  (∀ (s : State) (port : Nat), s.unit (portUnit port) ≠ .ready →
    exec (.linkFlitSend port) s = .next s ∧ exec (.linkDead port) s = .next s ∧ ∀ r, exec (.remoteIngress port r) s = .next s)

namespace Sys2Proof.Machine

/-! ## The fabric of a tile -/

/-- R219, R227, R236: cell c of tile u stands at element e of a firing, which is due, and no group of the tile can start. -/
def Due (s : State) (u c : Nat) (ci : CellImage) (h : Held) (e : Elem) : Prop :=
  ((s.tile u).image.bind (fun i => i.cell c)) = some ci ∧ ((s.tile u).cell c).held = some h ∧
    e = ci.elem ((ci.groups.getD h.group {}).first + h.elem) ∧ h.start + h.elem ≤ s.fcOf u ∧ (s.acceptEnds u).firings u (s.fcOf u) = []

/-- R232: operand i of the element, from the tokens its firing took. -/
def operandOf (s : State) (u c : Nat) (h : Held) (e : Elem) (i : Nat) : Opnd :=
  ((s.tile u).cell c).select (fun p => (h.ins.find? (fun q => q.1 == p)).map (fun q => q.2)) h.bypass h.frame e i

/-- R217, R236: the DATA token of a result stands on every arc from the output ports that OUT names, with the firing's frame tag. -/
def CellEmits (s t : State) (u c : Nat) (e : Elem) (frame : Nat) (lanes : List Lane) (mask : BitVec 16) : Prop :=
  ∀ k, k < 2 → e.out / 2 ^ k % 2 = 1 → ∀ d ∈ (s.tile u).dests (cellOut c k), ∃ x, (t.tile u).arc d = some x ∧ x.kind = .data ∧
    x.lanes = lanes ∧ x.mask = mask ∧ x.frame = frame ∧ x.since = s.fcOf u + 1

/-- R220, R236: the result enters the bypass history and, unless WBS is set, register DREG; with its last element the firing ends. -/
def CellKeeps (t : State) (u c : Nat) (ci : CellImage) (h : Held) (e : Elem) (lanes : List Lane) (mask : BitVec 16) (f : Nat) : Prop :=
  let x := (t.tile u).cell c
  (e.wbs = false → x.v.get {} e.dreg = { lanes, mask }) ∧
    if (ci.groups.getD h.group {}).count ≤ h.elem + 1 then
      x.held = none ∧ x.busyUntil = f + 1 ∧ x.bypass = ({ lanes, mask } :: h.bypass).take 4
    else ∃ g, x.held = some g ∧ g.elem = h.elem + 1 ∧ g.ins = h.ins ∧ g.bypass = ({ lanes, mask } :: h.bypass).take 4

/-- R243: a lane of some integer vector operators in a 32-bit format. -/
def laneOf32 (oper a b : Nat) : Option Nat :=
  match oper with
  | 0x080 => some ((a + b) % 2 ^ 32)
  | 0x081 => some ((a + 2 ^ 32 - b) % 2 ^ 32)
  | 0x082 => some (a * b % 2 ^ 32)
  | 0x08A => some (a &&& b)
  | 0x08B => some (a ||| b)
  | 0x08C => some (a ^^^ b)
  | _ => none

/-- R239 to R241: a lane of some floating-point operators of two operands in f32, with the flags it raises. -/
def laneOfF32 (oper : Nat) (m : RMode) (a b : Nat) : Option (Nat × Flags) :=
  match oper with
  | 0x001 => some (fadd32 a b m)
  | 0x003 => some (fmul32 a b m)
  | 0x007 => some (fminmax .min .f32 a b)
  | 0x008 => some (fminmax .max .f32 a b)
  | 0x00D => some (a % 2 ^ 31 + b / 2 ^ 31 * 2 ^ 31, .none)
  | _ => none

/-- R256, R257: lane k of an operator that moves lanes, and whether it is valid: LPERM, LBCAST, LROT and LSEL. -/
def laneMove (e : Elem) (a b x : Opnd) (k : Nat) : Option (Lane × Bool) :=
  match e.oper with
  | 0x144 => some (a.lane ((b.lane k).toNat % 16), a.ok ((b.lane k).toNat % 16) && b.ok k)
  | 0x145 => some (a.lane (e.aux % 16), a.ok (e.aux % 16))
  | 0x146 => some (a.lane ((k + e.aux) % 16), a.ok ((k + e.aux) % 16))
  | 0x147 => some (if x.ok k && x.lane k != 0 then (a.lane k, a.ok k) else (b.lane k, b.ok k))
  | _ => none

/-- Lanes of a result, zero where they are not valid (R235). -/
def zeroed (v : Nat → Lane) (ok : Nat → Bool) : List Lane := (List.range 16).map (fun k => if ok k then v k else 0)

/-- R273: byte k of the 128 that two tokens bring to a beat or to a push, an invalid lane as zero bytes. -/
def beatByte (a b : Opnd) (k : Nat) : Byte :=
  let o := if k < 64 then a else b
  let j := k % 64
  if o.ok (j / 4) then (o.lane (j / 4)).extractLsb' (8 * (j % 4)) 8 else 0

/-- R275, R277: the pairs that a merge element sends from its cell's output 0; with none its arcs are as they were. -/
def PairsSent (s t : State) (u c frame : Nat) (l : List (Lane × Lane)) : Prop :=
  ∀ d ∈ (s.tile u).dests (cellOut c 0),
    if l = [] then (t.tile u).arc d = ((s.acceptEnds u).tile u).arc d
    else ∃ x, (t.tile u).arc d = some x ∧ x.kind = .data ∧ x.lanes = (pairRes l).lanes ∧ x.mask = (pairRes l).mask ∧ x.frame = frame ∧
      x.since = s.fcOf u + 1

end Sys2Proof.Machine

/-- R218, R219, R222, R234 to R237, R243, R267, R269: of a cell's groups whose tokens are there and whose arcs are free one passed over eight
times goes first, else the lowest; the chosen group takes its tokens, and every ready group passed over counts a refusal;
an integer element due gives each lane that is valid in both operands its result; an element that reads cell memory gives the words
there, and waits while a stream is still to fill one of them. -/
def Rules.GroupsFireAndWait : Prop :=
  (∀ (s : State) (u c : Nat) (l : List (Nat × Need)) (m : Nat × Need), s.cands u (s.fcOf u) = [(c, l)] →
    (∀ x ∈ l, ∀ a ∈ x.2.arcs, (s.tile u).arcFull a = false) →
    (l.find? (fun x => decide (8 ≤ ((s.tile u).cell c).refusals.get 0 x.1))).or l.head? = some m →
    s.firings u (s.fcOf u) = [(c, m)] ∧ s.ready u (s.fcOf u) = [(c, l)]) ∧
  (∀ (s : State) (u c c' : Nat) (l : List (Nat × Need)) (g : Nat) (n : Need), (s.tile u).fstat.run = true → (s.tile u).stopping = false →
    (s.acceptEnds u).firings u (s.fcOf u) = [(c, g, n)] → AMap.get [] ((s.acceptEnds u).ready u (s.fcOf u)) c = l → (l.map (fun m => m.1)).Nodup → c' ≠ c →
    ((s.tile u).cell c').held = none →
    ∃ t, exec (.groupFiring u c') s = .next t ∧ (∀ p ∈ n.ports, (t.tile u).arc (cellIn c p) = none) ∧
      (∃ h, ((t.tile u).cell c).held = some h ∧ h.group = g ∧ h.elem = 0 ∧ h.start = s.fcOf u ∧
        ∀ p ∈ n.ports, ∀ k, (s.tile u).arc (cellIn c p) = some k → (p, k) ∈ h.ins) ∧
      ∀ m ∈ l, ((t.tile u).cell c).refusals.get 0 m.1 = (if m.1 = g then 0 else ((s.tile u).cell c).refusals.get 0 m.1 + 1)) ∧
  (∀ (s : State) (u c : Nat) (ci : CellImage) (h : Held) (e : Elem) (f : Nat → Nat → Nat), Due s u c ci h e →
    (∀ a b, laneOf32 e.oper a b = some (f a b)) → e.sfmt = 10 ∨ e.sfmt = 13 →
    let a := operandOf s u c h e 0
    let b := operandOf s u c h e 1
    a.kind = .data → b.kind = .data →
    let ok (k : Nat) : Bool := a.ok k && b.ok k
    let lanes := (List.range 16).map (fun k => if ok k then w32 (f (a.lane k).toNat (b.lane k).toNat) else 0)
    ∃ t, exec (.groupFiring u c) s = .next t ∧ ProgramsKept s t ∧ CellEmits s t u c e h.frame lanes (a.mask &&& b.mask) ∧
      CellKeeps t u c ci h e lanes (a.mask &&& b.mask) (s.fcOf u)) ∧
  (∀ (s : State) (u c : Nat) (ci : CellImage) (h : Held) (e : Elem), Due s u c ci h e → e.oper = 0x1C0 → (s.tile u).sramBad = [] →
    (s.ctx (s.tile u).ctx).pendTrap = false → (operandOf s u c h e 0).kind = .data → (operandOf s u c h e 0).ok 0 = true →
    let at' (k : Nat) : Nat := 65536 * c + (((operandOf s u c h e 0).lane 0).toNat + e.k.toNat + 4 * k) % 65536 / 4 * 4
    let lanes := (List.range 16).map (fun k => w32 (leNat ((List.range 4).map (fun i => (s.tile u).cellSeen (s.fcOf u) (at' k + i)))))
    ((∃ k, k < 16 ∧ s.fillHolds u (at' k) = true) → exec (.elementWatermarkResume u c) s = .next s) ∧
    ((∀ k, k < 16 → s.fillHolds u (at' k) = false) → ∃ t, exec (.elementWatermarkResume u c) s = .next t ∧ ProgramsKept s t ∧
      CellEmits s t u c e h.frame lanes 0xFFFF ∧ CellKeeps t u c ci h e lanes 0xFFFF (s.fcOf u)))

/-- R239, R241, R254, R256, R271 to R274, R276, R277, R282: what the elements of the other families compute: floating-point operators in f32 with
their flags, integer lane sums and lane moves, the pushes, swaps, beats and drains of a matrix cell, the merges of a merge cell, and the
lookups and table loads of the island. -/
def Rules.ElementsComputeTheirResults : Prop :=
  -- floating point, lane by lane
  (∀ (s : State) (u c : Nat) (ci : CellImage) (h : Held) (e : Elem) (f : Nat → Nat → Nat × Flags), Due s u c ci h e →
    (∀ a b, laneOfF32 e.oper (RMode.ofCode e.mode) a b = some (f a b)) → e.dfmt = 0 ∨ e.dfmt = 1 → e.sat = false →
    let a := operandOf s u c h e 0
    let b := operandOf s u c h e 1
    a.kind = .data → b.kind = .data →
    let ok (k : Nat) : Bool := a.ok k && b.ok k
    let r (k : Nat) : Nat × Flags := f (a.lane k).toNat (b.lane k).toNat
    let lanes := zeroed (fun k => w32 (r k).1) ok
    ∃ t, exec (.groupFiring u c) s = .next t ∧ ProgramsKept s t ∧ CellEmits s t u c e h.frame lanes (a.mask &&& b.mask) ∧
      CellKeeps t u c ci h e lanes (a.mask &&& b.mask) (s.fcOf u) ∧
      ((t.tile u).cell c).flags =
        (List.range 16).foldl (fun fl k => if ok k then fl ||| (r k).2.bits else fl) ((s.tile u).cell c).flags) ∧
  -- lane sums and lane moves
  (∀ (s : State) (u c : Nat) (ci : CellImage) (h : Held) (e : Elem), Due s u c ci h e → e.oper = 0x140 → e.sfmt = 10 ∨ e.sfmt = 13 →
    let a := operandOf s u c h e 0
    a.kind = .data →
    let sum := (((List.range 16).filter (fun k => a.ok k)).map (fun k => a.lane k)).sum
    ∃ t, exec (.groupFiring u c) s = .next t ∧ ProgramsKept s t ∧
      CellEmits s t u c e h.frame (sum :: List.replicate 15 0) 1 ∧ CellKeeps t u c ci h e (sum :: List.replicate 15 0) 1 (s.fcOf u)) ∧
  (∀ (s : State) (u c : Nat) (ci : CellImage) (h : Held) (e : Elem) (v : Nat → Lane) (ok : Nat → Bool), Due s u c ci h e →
    (∀ i, i < 3 → (operandOf s u c h e i).kind = .data) →
    (∀ k, k < 16 → laneMove e (operandOf s u c h e 0) (operandOf s u c h e 1) (operandOf s u c h e 2) k = some (v k, ok k)) →
    ∃ t, exec (.groupFiring u c) s = .next t ∧ ProgramsKept s t ∧ CellEmits s t u c e h.frame (zeroed v ok) (maskOf ok) ∧
      CellKeeps t u c ci h e (zeroed v ok) (maskOf ok) (s.fcOf u)) ∧
  -- the matrix cell
  (∀ (s : State) (u c : Nat) (ci : CellImage) (h : Held) (e : Elem), Due s u c ci h e →
    (∀ i, i < 3 → (operandOf s u c h e i).kind = .data) →
    let a := operandOf s u c h e 0
    let b := operandOf s u c h e 1
    let m := (s.tile u).mx c
    let q := if e.aux / 64 % 2 = 1 then m.rc else e.aux % 64
    let d := 64 * (m.dc / 4) + 16 * (m.dc % 4)
    let lanes := (List.range 16).map (fun k => m.acc.get 0 (d + k))
    (e.oper = 0x200 → ∃ t, exec (.groupFiring u c) s = .next t ∧ ProgramsKept s t ∧
      let x := (t.tile u).mx c
      (∀ i, x.shadow.get 0 i = if 128 * m.wc ≤ i ∧ i < 128 * m.wc + 128 then beatByte a b (i - 128 * m.wc) else m.shadow.get 0 i) ∧
        x.wc = (m.wc + 1) % 64 ∧ x.pfShadow = e.sfmt ∧ x.active = m.active ∧ x.acc = m.acc) ∧
    (e.oper = 0x201 → ∃ t, exec (.groupFiring u c) s = .next t ∧ ProgramsKept s t ∧
      let x := (t.tile u).mx c
      x.active = m.shadow ∧ x.shadow = m.active ∧ x.pfActive = m.pfShadow ∧ x.pfShadow = m.pfActive ∧ x.wc = 0 ∧ x.acc = m.acc) ∧
    (e.oper = 0x202 → e.sfmt = 8 → m.pfActive = 8 → m.poisonActive = false → m.badActive = [] →
      ∃ t, exec (.groupFiring u c) s = .next t ∧ ProgramsKept s t ∧
        let x := (t.tile u).mx c
        (∀ n, n < 64 → x.acc.get 0 (64 * q + n) = m.acc.get 0 (64 * q + n) + BitVec.ofInt 32
          ((List.range 128).map (fun k => (beatByte a b k).toInt * (m.active.get 0 (64 * k + n)).toInt)).sum) ∧
        (∀ i, i / 64 ≠ q → x.acc.get 0 i = m.acc.get 0 i) ∧ x.rc = (if e.aux / 64 % 2 = 1 then (m.rc + 1) % 64 else m.rc)) ∧
    (e.oper = 0x203 → m.rowPoison.getLsbD (m.dc / 4) = false → ∃ t, exec (.groupFiring u c) s = .next t ∧ ProgramsKept s t ∧
      let x := (t.tile u).mx c
      CellEmits s t u c e h.frame lanes 0xFFFF ∧ CellKeeps t u c ci h e lanes 0xFFFF (s.fcOf u) ∧ x.dc = (m.dc + 1) % 256 ∧
        ∀ i, x.acc.get 0 i = if e.aux % 2 = 1 ∧ d ≤ i ∧ i < d + 16 then 0 else m.acc.get 0 i) ∧
    (e.oper = 0x204 → ∃ t, exec (.groupFiring u c) s = .next t ∧ ProgramsKept s t ∧
      let x := (t.tile u).mx c
      (∀ i, x.acc.get 0 i = 0) ∧ x.rowPoison = 0 ∧ x.rc = 0 ∧ x.dc = 0 ∧ x.active = m.active ∧ x.shadow = m.shadow)) ∧
  -- the merge cell: a token of pairs on side A
  (∀ (s : State) (u c : Nat) (ci : CellImage) (h : Held) (e : Elem) (p : Nat) (k : Token), Due s u c ci h e →
    (e.oper = 0x240 ∨ e.oper = 0x241) → h.ins.head? = some (p, k) → k.kind = .data →
    let m := (s.tile u).mg h.group
    let l := pairsOf k.opnd
    m.endA = false → m.fifoA = [] →
    (m.endB = true → m.fifoB = [] → ∃ t, exec (.groupFiring u c) s = .next t ∧ ProgramsKept s t ∧
      ((t.tile u).mg h.group).fifoA = [] ∧ PairsSent s t u c h.frame (if e.oper = 0x240 then l else [])) ∧
    (∀ a b, m.endB = false → m.fifoB = [b] → l = [a] → ∃ t, exec (.groupFiring u c) s = .next t ∧ ProgramsKept s t ∧
      let x := (t.tile u).mg h.group
      if a.1.toNat < b.1.toNat then x.fifoA = [] ∧ x.fifoB = [b] ∧ PairsSent s t u c h.frame (if e.oper = 0x240 then [a] else [])
      else if b.1.toNat < a.1.toNat then x.fifoA = [a] ∧ x.fifoB = [] ∧ PairsSent s t u c h.frame (if e.oper = 0x240 then [b] else [])
      else x.fifoA = [] ∧ x.fifoB = [] ∧
        PairsSent s t u c h.frame (if dropped e (combineValues e a.2 b.2).1 then [] else [(a.1, (combineValues e a.2 b.2).1)]))) ∧
  -- the lookup island: TLU and TLD
  (∀ (s : State) (u c : Nat) (ci : CellImage) (h : Held) (e : Elem), Due s u c ci h e → (∀ i, i < 2 → (operandOf s u c h e i).kind = .data) →
    let a := operandOf s u c h e 0
    let b := operandOf s u c h e 1
    let lanes := zeroed (fun k => (s.tile u).tableT.get 0 (((a.lane k).toNat + e.k.toNat) % 4096)) a.ok
    (e.oper = 0x280 → ∃ t, exec (.groupFiring u c) s = .next t ∧ ProgramsKept s t ∧ (t.tile u).tableT = (s.tile u).tableT ∧
      CellEmits s t u c e h.frame lanes (maskOf a.ok) ∧ CellKeeps t u c ci h e lanes (maskOf a.ok) (s.fcOf u)) ∧
    (e.oper = 0x283 → e.aux % 2 = 0 → b.ok 0 = true → ∃ t, exec (.groupFiring u c) s = .next t ∧ ProgramsKept s t ∧
      (∀ k, k < 16 → a.ok k = true →
        (t.tile u).tableT.get 0 (((b.lane 0).toNat + e.k.toNat + k) % 4096) = a.lane k) ∧
      ∀ i, (∀ k, k < 16 → a.ok k = true → i ≠ ((b.lane 0).toNat + e.k.toNat + k) % 4096) →
        (t.tile u).tableT.get 0 i = (s.tile u).tableT.get 0 i))

/-- R218, R219, R222, R234 to R237, R239, R243, R254, R256, R267, R269, R271 to R274, R276, R277, R282: groups fire and wait; due elements compute
their results. Where the rules leave a point open it follows the model's choice, logs 38 and 94. -/
def Obligations.CellsFireTheirGroups : Prop := Rules.GroupsFireAndWait ∧ Rules.ElementsComputeTheirResults

/-- R226 to R229, R178, R231, R354, R384: a round whose ends have all seen EOS, with nothing left to fire, ends as complete, discards the tokens left
and counts them; an EOS that reaches the head of a register's binding leaves its arc and stands there; one that cannot go on ends as deadlocked, with cause DEADLOCK and FSTAT as its information; the flags of its cells
go to FFLAGS of its strand. An image that passes its checks is configured once no token stands on an arc into its cells (log 95), one that fails leaves its status. Cell writes four fc old
are visible to all. Where the rules leave a point open it follows the model's choice, logs 37, 45, 46, 47, 95 and 105. -/
def Obligations.RoundsEndAndImagesLoad : Prop :=
  (∀ (s : State) (u n : Nat) (k : Token), n < 8 → (s.tile u).eosAtHead (s.fcOf u) n = some k →
    ((s.acceptEnds u).tile u).arc (regEnd n) = none ∧ regEnd n ∈ ((s.acceptEnds u).tile u).eosIn ∧
      (((s.acceptEnds u).strand u (s.tile u).fstat.rstr).binding n).eos = some k) ∧
  (∀ (s : State) (u : Nat), (s.acceptEnds u).roundDone u = true →
    ∃ t, exec (.roundComplete u) s = .next t ∧ ProgramsKept s t ∧ (t.tile u).fstat.run = false ∧ (t.tile u).fstat.cmpl = true ∧
      (∀ p ∈ (t.tile u).arcs, 0x80 ≤ p.1) ∧
      (t.tile u).fstat.disc = min (((s.acceptEnds u).tile u).arcs.filter (fun p => decide (p.1 < 0x80))).length 255 ∧
      (t.strand u (s.tile u).fstat.rstr).fflags =
        (s.strand u (s.tile u).fstat.rstr).fflags ||| (s.tile u).cells.foldl (fun b p => b ||| p.2.flags) 0 ∧
      ∀ p ∈ (t.tile u).cells, p.2.flags = 0) ∧
  (∀ (s : State) (u : Nat), (s.acceptEnds u).roundDone u = false → exec (.roundComplete u) s = .next (s.acceptEnds u)) ∧
  (∀ (s : State) (u : Nat), (s.acceptEnds u).roundStuck u = true → (s.strand u (s.tile u).fstat.rstr).state ≠ .idle →
    (∀ x ∈ (s.strand u (s.tile u).fstat.rstr).pending, x.code ≠ 0x20) →
    ∃ t, exec (.roundDeadlock u) s = .next t ∧ (t.tile u).fstat.run = false ∧ (t.tile u).fstat.dlk = true ∧
      (∀ p ∈ (t.tile u).arcs, 0x80 ≤ p.1) ∧ (t.tile u).emitting = [] ∧
      (t.strand u (s.tile u).fstat.rstr).pending =
        (s.strand u (s.tile u).fstat.rstr).pending ++ [{ code := 0x20, info := (t.tile u).fstat.word }] ∧
      ∀ n, n < 16 → (t.tile u).fstat.pblk.getLsbD n = ((s.acceptEnds u).tile u).openEnds.contains (0x60 + n)) ∧
  (∀ (s : State) (u : Nat), (s.acceptEnds u).roundStuck u = false → exec (.roundDeadlock u) s = .next (s.acceptEnds u)) ∧
  (∀ (s s1 : State) (u va n : Nat), (s.tile u).load = some { va, strand := some n } → (s.tile u).fstat.run = false →
    (s.tile u).stopping = false →
    (∀ im, s.readImage u va = .got s1 (.ok im) → (s1.tile u).canConfigure im = true →
      ∃ t, exec (.fabricImageLoad u) s = .next t ∧ (t.tile u).image = some im ∧
        (t.tile u).load = none ∧ (t.strand u n).fcfg = some 0 ∧ t.mem = s1.mem ∧ t.log = s1.log) ∧
    (∀ im, s.readImage u va = .got s1 (.ok im) → (s1.tile u).canConfigure im = false →
      ∃ t, exec (.fabricImageLoad u) s = .next t ∧ (t.tile u).image = (s1.tile u).image ∧
        (t.tile u).load = some { va, strand := some n, next := some im } ∧ t.mem = s1.mem ∧ t.log = s1.log) ∧
    (∀ code pos, s.readImage u va = .got s1 (.refused code pos) → ∃ t, exec (.fabricImageLoad u) s = .next t ∧
      (t.tile u).image = (s1.tile u).image ∧ (t.tile u).load = none ∧ (t.strand u n).fcfg = some (w64 (pos * 2 ^ 32 + code)) ∧
      t.mem = s1.mem ∧ t.log = s1.log) ∧
    (∀ code a, s.readImage u va = .fault s1 code a → code ≠ 0x40 → ∃ t, exec (.fabricImageLoad u) s = .next t ∧
      (t.tile u).image = (s1.tile u).image ∧ (t.tile u).load = none ∧ (t.strand u n).fcfg = some (w64 (a % 2 ^ 32 * 2 ^ 32 + 3)) ∧
      t.mem = s1.mem ∧ t.log = s1.log)) ∧
  (∀ (s : State) (u va n : Nat) (im : Image), (s.tile u).load = some { va, strand := some n, next := some im } →
    (s.tile u).fstat.run = false → (s.tile u).stopping = false → (s.tile u).canConfigure im = true →
    ∃ t, exec (.fabricImageLoad u) s = .next t ∧ (t.tile u).image = some im ∧ (t.tile u).load = none ∧
      (t.strand u n).fcfg = some 0 ∧ ProgramsKept s t) ∧
  (∀ (s : State) (u : Nat), ∃ t, exec (.cellWriteVisible u) s = .next t ∧ ProgramsKept s t ∧
    (∀ f a, s.fcOf u ≤ f → (t.tile u).cellSeen f a = (s.tile u).cellSeen f a) ∧
    (∀ a n, (t.tile u).cellPending (s.fcOf u) a n = (s.tile u).cellPending (s.fcOf u) a n) ∧
    ∀ w ∈ (t.tile u).cellWrites, s.fcOf u < w.fc + 4)

namespace Sys2Proof.Machine

/-! ## Host commands -/

/-- R84: the type of a host command, and whether it belongs to endpoint 0. -/
def commandOf : Instr → Option (Nat × Bool × Lmsg)
  | .partform m => some (0x0001, true, m) | .partfree m => some (0x0002, true, m) | .ctxcreate m => some (0x0003, true, m)
  | .ctxdestroy m => some (0x0004, true, m) | .keyset m => some (0x0005, true, m) | .allow m => some (0x0006, true, m)
  | .modeset m => some (0x0007, true, m) | .retest m => some (0x0008, true, m) | .mapread m => some (0x0009, true, m)
  | .healthread m => some (0x000A, true, m) | .idread m => some (0x000B, true, m) | .proofset m => some (0x000C, true, m)
  | .winset m => some (0x000D, true, m) | .traffic m => some (0x000E, true, m) | .tripclear m => some (0x000F, true, m)
  | .dbgattach m => some (0x0010, true, m) | .dbgdetach m => some (0x0011, true, m) | .dbghalt m => some (0x0012, true, m)
  | .dbggo m => some (0x0013, true, m) | .dbgstep m => some (0x0014, true, m) | .dbgfreeze m => some (0x0015, true, m)
  | .dbgthaw m => some (0x0016, true, m) | .dbgread m => some (0x0017, true, m) | .dbgwrite m => some (0x0018, true, m)
  | .launch m => some (0x0101, false, m) | .qfeed m => some (0x0102, false, m) | .qtake m => some (0x0103, false, m)
  | .qend m => some (0x0104, false, m) | .statread m => some (0x0105, false, m)
  | _ => none

/-- R81: the endpoint admits the message: its key is set, the tag verifies, the sequence number is in the window and new. -/
def Admits (s : State) (m : Lmsg) : Prop :=
  let e := s.pkg.endpoints.get {} m.ep
  m.ep ≤ 288 ∧ m.payload.length ≤ 8896 ∧ e.key.any (fun k => m.tag == lanternTag k m.ty m.ep m.seq m.rid false m.payload) = true ∧
    (e.highest : Int) - 64 < m.seq ∧ m.seq ∉ e.accepted

/-- R82: the message is admitted and its endpoint has fewer than 256 commands outstanding. -/
def Accepted (s : State) (m : Lmsg) : Prop := Admits s m ∧ s.outstanding m.ep < 256

/-- R84: the reply to a command: its status and the fields that follow. -/
def Replies (s t : State) (ty : Nat) (m : Lmsg) (status : Nat) (body : List Byte) : Prop :=
  ∃ x ∈ t.pkg.sent.drop s.pkg.sent.length, x.ep = m.ep ∧ x.ty = ty + 0x8000 ∧ x.rid = m.rid ∧
    x.body = leBytes 4 status ++ leBytes 4 0 ++ body

/-- A command that is answered with OK, with what it does. -/
def AnsweredOk (s : State) (i : Instr) (m : Lmsg) (body : List Byte) (p : State → Prop) : Prop :=
  ∃ t, exec i s = .next t ∧ (∃ ty b, commandOf i = some (ty, b, m) ∧ Replies s t ty m 0 body) ∧ p t

/-- A context that commands may name: live, and not being destroyed. -/
def Live (s : State) (c : Nat) : Prop := 1 ≤ c ∧ c ≤ 288 ∧ (s.ctx c).live = true ∧ (s.ctx c).destroying = none

/-- R84, R392: a debugger command on strand n of tile u of context c, whose state stands on its tiles. -/
def Debugs (s : State) (m : Lmsg) (c u n : Nat) : Prop :=
  m.ep = 0 ∧ Accepted s m ∧ Live s c ∧ m.at 0 2 = c ∧ m.at 2 2 = u ∧ u ≤ 575 ∧ m.at 4 1 = n ∧ n < 8 ∧ m.at 5 3 = 0 ∧
    u ∈ (s.part (s.ctx c).part).tiles ∧ (s.ctx c).saved = none ∧ (s.tile u).ctx = c

/-- R95, R98, R353, R405: a message on queue q of a started pipeline of its own context whose token is not written, with nothing waiting
and no replay. -/
def OnQueue (s : State) (m : Lmsg) (slot q : Nat) : Prop :=
  Accepted s m ∧ Live s m.ep ∧ (s.ctx m.ep).hostOps = [] ∧ (s.ctx m.ep).slotOf (m.at 0 2) = some slot ∧ m.at 2 1 = q ∧ q ≤ 127 ∧
    handleOk (m.at 0 2) = true ∧ (s.pipe m.ep slot).started = true ∧ q < (s.pipe m.ep slot).queues.length ∧
    ((s.pipe m.ep slot).queue q).desc.ext = true ∧ (s.ctx m.ep).rpl ≠ 2 ∧ (s.ctx m.ep).modes.toNat / 4 % 4 ≠ 2 ∧
    s.spillBlocked m.ep slot q = false

/-- R81: a message taken at its endpoint, its bytes charged. -/
def taken (s : State) (m : Lmsg) : State := (s.takeMsg m).1.getD s

/-- R400: context c to be destroyed, by a command taken. -/
def toDestroy (s : State) (m : Lmsg) (c : Nat) : State :=
  (taken s m).modCtx c (fun x => { x with destroying := some m.rid, hostOps := [] })

/-- R400: a destruction under way: the context lives on and answers later. -/
def Destroying (t : State) (c rid : Nat) : Prop := (t.ctx c).live = true ∧ (t.ctx c).destroying = some rid

end Sys2Proof.Machine

/-- R81 to R84: a message too long or for no endpoint is counted as malformed, one its endpoint does not admit is counted there, and
neither is answered; a command beyond 256 outstanding is answered BUSY, a management command on another endpoint NOTMGMT, a command of a
virtual function on endpoint 0 BADCMD, and a PARTFORM refused so carries its fields all the same; none of them has another effect. Where the rules leave a point open it follows the model's choice, logs 75 and 100. -/
def Obligations.CommandsAreAdmittedOrRefused : Prop :=
  ∀ (s : State) (i : Instr) (ty : Nat) (mgmt : Bool) (m : Lmsg), commandOf i = some (ty, mgmt, m) →
    let fields : List Byte := if ty = 1 then leBytes 4 s.pkg.mapSeq ++ leBytes 2 0xFFFF else []
    let quiet (t : State) : Prop := ProgramsKept s t ∧ t.ctxs = s.ctxs ∧ t.parts = s.parts ∧ t.pkg.units = s.pkg.units
    (288 < m.ep ∨ 8896 < m.payload.length → ∃ t, exec i s = .next t ∧ quiet t ∧ t.pkg.sent = s.pkg.sent ∧
      t.pkg.malformed = (s.pkg.malformed + 1) % 2 ^ 64) ∧
    (m.ep ≤ 288 → m.payload.length ≤ 8896 → ¬ Admits s m → ∃ t, exec i s = .next t ∧ quiet t ∧ t.pkg.sent = s.pkg.sent ∧
      (t.pkg.endpoints.get {} m.ep).drops = (s.pkg.endpoints.get {} m.ep).drops + 1) ∧
    (Admits s m → 256 ≤ s.outstanding m.ep → ∃ t, exec i s = .next t ∧ quiet t ∧ Replies s t ty m 1 fields) ∧
    (Accepted s m → mgmt = true → m.ep ≠ 0 → ∃ t, exec i s = .next t ∧ quiet t ∧ Replies s t ty m 2 fields) ∧
    (Accepted s m → mgmt = false → m.ep = 0 → ∃ t, exec i s = .next t ∧ quiet t ∧ Replies s t ty m 3 [])

/-- R31, R82, R89, R90, R104, R110, R118, R135, R371, R400: the commands that form and free partitions, create and destroy contexts (one that
runs is stopped first; the reply carries the balance with what has reached the home unit), set keys (that of endpoint 0 answered under the
new key), allowances (behind every charge that has reached the home unit before), modes, proofing intervals and windows, where the checks of
their rules pass. -/
def Rules.ManagementCommandsAct : Prop :=
  ∀ (s : State) (m : Lmsg), m.ep = 0 → Accepted s m →
    (∀ (octets dies ports : List Nat) (o : Nat), octets = (List.range 72).filter (fun k => (m.at 4 9).testBit k) →
      dies = (List.range 9).filter (fun k => (m.at 2 2).testBit k) → ports = (List.range 128).filter (fun k => (m.at 16 16).testBit k) →
      m.payload.length = 32 → m.at 0 1 ≤ 71 → m.at 1 1 = 0 → m.at 2 2 < 512 → m.at 13 3 = 0 → octets ≠ [] →
      (s.part (m.at 0 1)).formed = false →
      (∀ q ∈ s.formedParts, (∀ k ∈ octets, k ∉ q.2.octets) ∧ ∀ k ∈ ports, k ∉ q.2.ports) →
      (∀ u ∈ ({ octets, dies, ports, lead := octets.headD 0 / 8 } : Partition).units, s.unit u = .ready) →
      let len := if dies = [] then 0 else octets.length * Config.octetShare s.pkg.ordering / dies.length / 2097152 * 2097152
      (if dies = [] then some 0 else s.findBase dies len) = some o →
      AnsweredOk s (.partform m) m (leBytes 4 s.pkg.mapSeq ++ leBytes 2 0xFFFF) (fun t => ProgramsKept s t ∧
        let p := t.part (m.at 0 1)
        p.formed = true ∧ p.octets = octets ∧ p.dies = dies ∧ p.ports = ports ∧ p.base = o ∧ p.length = len)) ∧
    (m.payload.length = 1 → m.at 0 1 ≤ 71 → (s.part (m.at 0 1)).formed = true → s.residents (m.at 0 1) = [] →
      AnsweredOk s (.partfree m) m [] (fun t => ProgramsKept s t ∧ (t.part (m.at 0 1)).formed = false)) ∧
    (ctxOk m = true → (s.ctx (m.at 0 2)).live = false → (s.part (m.at 2 1)).formed = true → (s.residents (m.at 2 1)).length < 16 →
      let g := ((s.ctx (m.at 0 2)).generation + 1) % 2 ^ 32
      AnsweredOk s (.ctxcreate m) m (leBytes 4 g) (fun t => ProgramsKept s t ∧
        let x := t.ctx (m.at 0 2)
        x.live = true ∧ x.state = .ready ∧ x.generation = g ∧ x.part = m.at 2 1 ∧ x.modes = BitVec.ofNat 8 (m.at 3 1) ∧
        x.root = m.at 8 8 ∧ x.handler = w64 (m.at 40 8) ∧ x.balance = balanceAfter (m.int 24 * oneNJ) 0)) ∧
    (∀ c, m.payload.length = 2 → m.at 0 2 = c → Live s c → (s.ctx c).hostOps = [] → (s.ctx c).state ≠ .running →
      let d := (toDestroy s m c).dropWithdrawn c
      ((d.ctxWrites c).all d.seenEverywhere = true → (s.ctx c).pipes = [] →
        AnsweredOk s (.ctxdestroy m) m (leInt 8 (((d.applyArrivals (d.homeDie c)).ctx c).balance / oneNJ) ++ leBytes 8 (s.ctx c).crumbCount)
          (fun t => (t.ctx c).live = false ∧ (t.ctx c).generation = (s.ctx c).generation)) ∧
      ((d.ctxWrites c).all d.seenEverywhere = false → ∃ t, exec (.ctxdestroy m) s = .next t ∧ Destroying t c m.rid)) ∧
    (∀ c, m.payload.length = 2 → m.at 0 2 = c → Live s c → (s.ctx c).hostOps = [] → (s.ctx c).state = .running → (s.ctx c).stopped = false →
      let e := (toDestroy s m c).stopSteps c
      let d := e.dropWithdrawn c
      let f := d.leaveTiles c false
      ((e.ctx c).stopped = false → ∃ t, exec (.ctxdestroy m) s = .next t ∧ Destroying t c m.rid ∧ (t.ctx c).state = .running ∧
        ∀ u ∈ s.tilesOf c, (t.tile u).stopping = true) ∧
      ((e.ctx c).stopped = true → (d.ctxWrites c).all d.seenEverywhere = false →
        ∃ t, exec (.ctxdestroy m) s = .next t ∧ Destroying t c m.rid) ∧
      ((e.ctx c).stopped = true → (d.ctxWrites c).all d.seenEverywhere = true → (s.ctx c).pipes = [] →
        AnsweredOk s (.ctxdestroy m) m (leInt 8 (((f.applyArrivals (f.homeDie c)).ctx c).balance / oneNJ) ++ leBytes 8 (d.ctx c).crumbCount)
          (fun t => (t.ctx c).live = false ∧ (t.ctx c).generation = (s.ctx c).generation ∧ (t.part (partOf s c)).running = none ∧
            ∀ u ∈ s.tilesOf c, (t.tile u).ctx = 0 ∧ (t.tile u).stage = none))) ∧
    (m.payload.length = 40 → m.at 0 2 ≤ 288 → m.at 2 6 = 0 →
      AnsweredOk s (.keyset m) m [] (fun t => ProgramsKept s t ∧
        let e := t.pkg.endpoints.get {} (m.at 0 2)
        e.key = some (m.payload.drop 8) ∧ e.highest = 0 ∧ e.accepted = [] ∧
        (m.at 0 2 ≠ 0 → e.sentSeq = 0) ∧
        (m.at 0 2 = 0 → e.sentSeq = 1 ∧ ∃ x ∈ t.pkg.sent.drop s.pkg.sent.length, x.ep = 0 ∧ x.seq = 1 ∧ x.key = m.payload.drop 8))) ∧
    (m.payload.length = 16 → m.at 2 6 = 0 → Live s (m.at 0 2) →
      let a := (taken s m).applyArrivals (s.homeDie (m.at 0 2))
      let b := balanceAfter (a.ctx (m.at 0 2)).balance (m.int 8 * oneNJ)
      AnsweredOk s (.allow m) m (leInt 8 (b / oneNJ)) (fun t => ProgramsKept s t ∧ (t.ctx (m.at 0 2)).balance = b ∧
        (0 < b → (a.ctx (m.at 0 2)).state = .guttered → (t.ctx (m.at 0 2)).state = .ready) ∧
        ((s.ctx (m.at 0 2)).lowWater * oneNJ ≤ b → (t.ctx (m.at 0 2)).armed = true))) ∧
    (m.payload.length = 24 → m.at 3 5 = 0 → modesOk (m.at 2 1) = true → logOk (m.at 2 1 / 4 % 4) (m.at 8 8) (m.at 16 8) = true →
      Live s (m.at 0 2) → (s.ctx (m.at 0 2)).state = .ready ∨ (s.ctx (m.at 0 2)).state = .guttered → (s.ctx (m.at 0 2)).pipes = [] →
      AnsweredOk s (.modeset m) m [] (fun t => ProgramsKept s t ∧ (t.ctx (m.at 0 2)).modes = BitVec.ofNat 8 (m.at 2 1) ∧
        (t.ctx (m.at 0 2)).logBase = m.at 8 8 ∧ (t.ctx (m.at 0 2)).logSize = m.at 16 8 ∧
        (t.ctx (m.at 0 2)).liveModes = (s.ctx (m.at 0 2)).liveModes)) ∧
    (m.payload.length = 8 → m.at 0 1 ≤ 71 → m.at 1 3 = 0 → m.at 4 4 % 4096 = 0 → 4096 ≤ m.at 4 4 → m.at 4 4 ≤ 1048576 →
      (s.part (m.at 0 1)).formed = true →
      AnsweredOk s (.proofset m) m [] (fun t => ProgramsKept s t ∧ (t.part (m.at 0 1)).nextInterval = m.at 4 4 ∧
        (t.part (m.at 0 1)).interval = (s.part (m.at 0 1)).interval)) ∧
    (m.payload.length = 40 → m.at 2 1 ≤ 63 → m.at 3 5 = 0 → windowOk m = true → Live s (m.at 0 2) → (s.ctx (m.at 0 2)).state ≠ .running →
      AnsweredOk s (.winset m) m [] (fun t => ProgramsKept s t ∧ (t.ctx (m.at 0 2)).windows.get {} (m.at 2 1) =
        { out := (m.at 8 1).testBit 0, inn := (m.at 8 1).testBit 1, lane := m.at 9 1, rctx := m.at 10 2, rpkg := m.at 12 3,
          base := m.at 24 8, size := m.at 32 8 }))

/-- R26, R29, R30, R33, R36, R84, R419: RETEST returns a unit in no partition to untested; the read commands answer with their records;
TRAFFIC answers with the counts of each die and clears them; TRIPCLEAR clears a trip; STATREAD answers with state and balance. -/
def Rules.RecordCommandsAnswer : Prop :=
  (∀ (s : State) (m : Lmsg), m.ep = 0 → Accepted s m →
    (m.payload.length = 2 → m.at 0 2 ≤ 221 → (∀ p ∈ s.formedParts, m.at 0 2 ∉ p.2.units) → s.unit (m.at 0 2) ≠ .untested →
      AnsweredOk s (.retest m) m [] (fun t => ProgramsKept s t ∧ UnitChanged s t (m.at 0 2) .untested)) ∧
    (m.payload = [] →
      AnsweredOk s (.mapread m) m s.mapBytes (ProgramsKept s) ∧ AnsweredOk s (.healthread m) m s.healthBytes (ProgramsKept s) ∧
      AnsweredOk s (.idread m) m s.identityBytes (ProgramsKept s) ∧
      AnsweredOk s (.traffic m) m ((List.range 9).flatMap (fun d => leBytes 8 (s.die d).localReqs ++ leBytes 8 (s.die d).remoteReqs)) (fun t =>
        ProgramsKept s t ∧ ∀ d, d < 9 → (t.die d).localReqs = 0 ∧ (t.die d).remoteReqs = 0) ∧
      AnsweredOk s (.tripclear m) m [] (fun t => ProgramsKept s t ∧
        (s.pkg.tripped = true → (∀ x ∈ s.pkg.hottest, x < 95 * 16) → t.pkg.tripped = false ∧ t.pkg.clockStopped = false) ∧
        (s.pkg.tripped = true → (∃ x ∈ s.pkg.hottest, 95 * 16 ≤ x) → t.pkg.tripped = true ∧ t.pkg.tripClear = true)))) ∧
  ∀ (s : State) (m : Lmsg), Accepted s m → Live s m.ep → m.payload = [] → (s.ctx m.ep).pipes = [] →
    AnsweredOk s (.statread m) m (leBytes 1 (s.ctx m.ep).state.code ++ leBytes 7 0 ++ leInt 8 ((s.ctx m.ep).balance / oneNJ) ++ leBytes 1 0
      ++ leBytes 7 0) (ProgramsKept s)

/-- R392 to R395: the debugger's commands set and clear the attach bit, halt strands and let them go or step, freeze and thaw tiles, and read and
write the cell SRAM of a tile that is frozen with no round in progress; strands of other numbers stand. Where the rules leave a point open it follows the model's choice, logs 79, 100 and 108. -/
def Obligations.DebuggerCommandsAct : Prop :=
  ∀ (s : State) (m : Lmsg) (c u n : Nat), Debugs s m c u n →
    (m.payload.length = 8 →
      AnsweredOk s (.dbgattach m) m [] (fun t => ProgramsKept s t ∧ (t.ctx c).attach = true) ∧
      AnsweredOk s (.dbgdetach m) m [] (fun t => ProgramsKept s t ∧ (t.ctx c).attach = false) ∧
      AnsweredOk s (.dbgfreeze m) m [] (fun t => ProgramsKept s t ∧ (t.tile u).freeze = true) ∧
      AnsweredOk s (.dbgthaw m) m [] (fun t => ProgramsKept s t ∧ (t.tile u).freeze = false) ∧
      AnsweredOk s (.dbghalt m) m [] (fun t => (∀ k, k ≠ n → t.strand u k = s.strand u k) ∧ (t.strand u n).pc = (s.strand u n).pc ∧
        ((s.tile u).held = none → (t.strand u n).halted = true) ∧
        ∀ b, (s.tile u).held = some b → b.strand = n → (s.strand u n).halted = false → (t.strand u n).stepOnce = true) ∧
      AnsweredOk s (.dbggo m) m [] (fun t => (∀ k, k ≠ n → t.strand u k = s.strand u k) ∧ (t.strand u n).halted = false ∧
        (t.strand u n).pc = if (s.strand u n).halted = true ∧ (s.strand u n).byBrk = true then (s.strand u n).trappc else (s.strand u n).pc) ∧
      ((s.strand u n).halted = true → AnsweredOk s (.dbgstep m) m [] (fun t => (∀ k, k ≠ n → t.strand u k = s.strand u k) ∧
        (t.strand u n).halted = false ∧ (t.strand u n).stepOnce = true))) ∧
    (∀ o k, m.at 8 4 = o → m.at 12 4 = k → 0x40000 ≤ o → o + k ≤ 0x100000 → k % 8 = 0 → 8 ≤ k → k ≤ 8192 →
      ((s.tile u).freeze = true ∧ (s.tile u).fstat.run = false) ∨ (s.ctx c).state ≠ .running →
      (m.payload.length = 16 → AnsweredOk s (.dbgread m) m ((List.range k).map (fun i => (s.tile u).sram.get 0 (o + i - 0x40000))) (ProgramsKept s)) ∧
      (m.payload.length = 16 + k → AnsweredOk s (.dbgwrite m) m [] (fun t => ProgramsKept s t ∧
        (∀ i, i < k → (t.tile u).sram.get 0 (o + i - 0x40000) = m.payload.getD (16 + i) 0) ∧
        ∀ a, a < o - 0x40000 ∨ o + k - 0x40000 ≤ a → (t.tile u).sram.get 0 a = (s.tile u).sram.get 0 a)))

/-- R95, R96, R98, R149 to R151, R398: LAUNCH takes the lowest free slot and answers with its handle; QFEED puts an item behind those of the
sub-queue its push goes to and is refused at a closed or poisoned queue, QTAKE answers with the item it pops, QEND closes its queue; a page reply of the context's generation lets
the accesses that wait on it walk again, those of tiles that are out once their context is restored, and one of another generation is
counted as stale. Where the rules leave a point open it follows the model's choice, logs 8, 75, 76 and 100. -/
def Obligations.VirtualFunctionCommandsAct : Prop :=
  (∀ (s : State) (m : Lmsg) (slot : Nat), Accepted s m → Live s m.ep → (s.ctx m.ep).hostOps = [] → launchOk m = true → m.at 16 2 = 0xFFFF →
    (s.ctx m.ep).state ≠ .faulted → (s.ctx m.ep).rpl ≠ 2 → (s.ctx m.ep).modes.toNat / 4 % 4 ≠ 2 → slot < 8 →
    (s.pipe m.ep slot).active = false → (∀ k, k < slot → (s.pipe m.ep k).active = true) →
    let h := slot * 8192 + (s.pipe m.ep slot).serial
    AnsweredOk s (.launch m) m (leBytes 2 h) (fun t => ProgramsKept s t ∧
      let p := t.pipe m.ep slot
      p.active = true ∧ p.handle = h ∧ p.ready = true ∧ p.started = false ∧ p.descVa = m.at 0 8 ∧ p.tokenVa = m.at 8 8 ∧
        p.userTag = m.at 24 4 ∧ p.serial = ((s.pipe m.ep slot).serial + 1) % 0x1FFF)) ∧
  (∀ (s : State) (m : Lmsg), Accepted s m → Live s m.ep → launchOk m = true → (s.ctx m.ep).state ≠ .faulted →
    (∀ k, k < 8 → (s.pipe m.ep k).active = true) → ∃ t, exec (.launch m) s = .next t ∧ Replies s t 0x0101 m 11 [] ∧ ProgramsKept s t) ∧
  (∀ (s : State) (m : Lmsg) (slot q : Nat), OnQueue s m slot q →
    let x := (s.pipe m.ep slot).queue q
    (∀ j, m.at 3 1 = 1 → m.payload.length = 80 → m.at 4 4 = 0 → x.closed = false → x.poisoned = false →
      0 < (s.pipe m.ep slot).free q → x.pushSub (x.hostCursor % x.desc.k) = some j → (x.sub j).spilled = [] →
      AnsweredOk s (.qfeed m) m (leBytes 1 1) (fun t => ProgramsKept s t ∧ ∃ it : Item,
        (((t.pipe m.ep slot).queue q).sub j).items = (x.sub j).items ++ [it] ∧ it.poison = false ∧
        it.payload = (List.range 8).map (fun k => w64 (m.at (8 + 8 * k) 8)) ∧ it.tag = BitVec.ofNat 32 (m.at 72 4) ∧
        ((t.pipe m.ep slot).queue q).hostCursor = (x.hostCursor % x.desc.k + 1) % x.desc.k)) ∧
    (∀ it rest, m.at 3 1 = 1 → m.payload.length = 4 → x.desc.relaxed = false → (x.sub 0).items = it :: rest →
      AnsweredOk s (.qtake m) m (leBytes 1 1 ++ leBytes 7 0 ++ (it.payload.flatMap (fun w => leBytes 8 w.toNat) ++ leBytes 4 it.tag.toNat ++ leBytes 4 0))
        (fun t => ProgramsKept s t ∧ (((t.pipe m.ep slot).queue q).sub 0).items = rest)) ∧
    (m.at 3 1 = 1 → m.payload.length = 80 → m.at 4 4 = 0 → (x.closed = true ∨ x.poisoned = true) →
      ∃ t, exec (.qfeed m) s = .next t ∧ Replies s t 0x0102 m 14 [] ∧ ProgramsKept s t) ∧
    (m.payload.length = 3 → AnsweredOk s (.qend m) m [] (fun t => ProgramsKept s t ∧ ((t.pipe m.ep slot).queue q).closed = true))) ∧
  (∀ (s : State) (m : Lmsg), Admits s m → 1 ≤ m.ep → (s.ctx m.ep).live = true → (s.ctx m.ep).hostOps = [] → (s.ctx m.ep).rpl ≠ 2 →
    m.payload.length = 9 → (s.ctx m.ep).pageWaits = [] →
    (m.at 8 1 = 0 → m.at 4 4 = (s.ctx m.ep).generation → (∃ r ∈ (s.ctx m.ep).pageReqs, r.rid = m.at 0 4) →
      ∃ t, exec (.pagereply m) s = .next t ∧ ProgramsKept s t ∧ (∀ r ∈ (t.ctx m.ep).pageReqs, r.rid ≠ m.at 0 4) ∧
        ∀ d, (t.die d).misses = (s.die d).misses.map (fun x => if x.ctx = m.ep ∧ x.stand = .page (m.at 0 4) then { x with stand := s.pageCame m.ep x } else x)) ∧
    (m.at 4 4 ≠ (s.ctx m.ep).generation →
      ∃ t, exec (.pagereply m) s = .next t ∧ ProgramsKept s t ∧ t.ctxs = s.ctxs ∧
        (t.pkg.endpoints.get {} m.ep).stale = (s.pkg.endpoints.get {} m.ep).stale + 1))

/-- R81 to R83, R87, R88, R331, R333, R370, R372: a malformed datagram is counted, an admitted one of an unassigned type is answered BADCMD; an RDMA write
within its memory key sends its words to their nodes as writes of die 4 and is acknowledged once they are performed, a read asks their
nodes, and answers with what they bring, at once or when what it read is performed; one whose page names a remote window goes to the package
of the window, or is refused where the window does not admit it; a send is acknowledged; a request for no queue pair is answered as
invalid, one for a context that is not live, outside its key, or with no right to its page as refused, one on a page that waits stalls
its queue pair. Where the rules leave a point open it follows the model's choice, logs 80, 97, 98 and 100. -/
def Obligations.UnassignedMessagesAndRdma : Prop :=
  (∀ (s : State) (d : Datagram), d.wellFormed = false → ∃ t, exec (.lanternMessageDrop d) s = .next t ∧ ProgramsKept s t ∧
    t.pkg.sent = s.pkg.sent ∧ t.pkg.malformed = (s.pkg.malformed + 1) % 2 ^ 64) ∧
  (∀ (s : State) (d : Datagram), d.wellFormed = true → Admits s d.msg →
    ∃ t, exec (.lanternMessageDrop d) s = .next t ∧ ProgramsKept s t ∧ Replies s t (field d.header 2 2) d.msg 3 []) ∧
  (∀ (s : State) (vf qp keyLo keyLen va : Nat) (data : List Byte) (len : Nat), 1 ≤ vf → vf ≤ 288 → qp < 16 →
    ((s.ctx vf).live = false →
      ∀ i ∈ [Instr.rdmaWrite vf qp ⟨keyLo, keyLen, va⟩ data, .rdmaRead vf qp ⟨keyLo, keyLen, va⟩ len, .rdmaSend vf qp data],
        ∃ t, exec i s = .next t ∧ ProgramsKept s t ∧ t.pkg.rdma = s.pkg.rdma ++ [(vf, qp, .accessError)]) ∧
    ((s.ctx vf).live = true → (s.ctx vf).stopTo = none → (s.ctx vf).destroying = none → s.pkg.qps.get .normal (16 * vf + qp) = .normal →
      let refused (s1 t : State) : Prop := t.pkg.rdma = s1.pkg.rdma ++ [(vf, qp, .accessError)] ∧ t.pkg.qps.get .normal (16 * vf + qp) = .error
      let inside (n : Nat) : Prop := keyLo ≤ va ∧ va + n ≤ keyLo + keyLen
      let pages (write : Bool) : PagesXl :=
        if write then (s.frame vf data.length).xlPages (.hostPort vf qp) vf .write false (pagesOf va data.length)
        else s.xlPages (.hostPort vf qp) vf .read false (pagesOf va len)
      (∃ t, exec (.rdmaSend vf qp data) s = .next t ∧ ProgramsKept s t ∧ t.pkg.rdma = s.pkg.rdma ++ [(vf, qp, .ack)]) ∧
      (¬ inside data.length → ∃ t, exec (.rdmaWrite vf qp ⟨keyLo, keyLen, va⟩ data) s = .next t ∧ ProgramsKept s t ∧ refused s t) ∧
      (¬ inside len → ∃ t, exec (.rdmaRead vf qp ⟨keyLo, keyLen, va⟩ len) s = .next t ∧ ProgramsKept s t ∧ refused s t) ∧
      (∀ s1 pas reps, inside data.length → data ≠ [] → pages true = .ok s1 pas reps →
        (∀ i, i < data.length → runAddr va pas i / 2 ^ 48 % 16 < 8) →
        let n := (va % 8 + data.length + 7) / 8
        ∃ t, exec (.rdmaWrite vf qp ⟨keyLo, keyLen, va⟩ data) s = .next t ∧ ProgramsKept s1 t ∧ t.pkg.rdma = s1.pkg.rdma ∧
          (∃ w, t.pkg.qps.get .normal (16 * vf + qp) = .owed w .ack ∧ ∀ x, x ∈ w ↔ ∃ i, i < n ∧ x = s1.nextId + 1 + i) ∧
          ∀ i, i < n →
            let lo := 8 * i - va % 8
            let pa := runAddr va pas lo
            let (d, k) := nodeOf s.pkg.ordering pa
            s1.nextId + 1 + i ∈ t.flying ∧ s1.nextId + 1 + i ∈ (t.die 4).openBatch ∧
            ∃ q ∈ ((t.die d).nodes.get [] k).drop ((s1.die d).nodes.get [] k).length, q.id = s1.nextId + 1 + i ∧ q.pa = pa ∧ q.va = va + lo ∧
              q.die = 4 ∧ q.ctx = vf ∧ q.op = .store ((data.drop lo).take (8 - (va + lo) % 8))) ∧
      (∀ s1 pas reps, inside len → 0 < len → pages false = .ok s1 pas reps → (∀ i, i < len → runAddr va pas i / 2 ^ 48 % 16 < 8) →
        let n := (va % 8 + len + 7) / 8
        ∃ t j, exec (.rdmaRead vf qp ⟨keyLo, keyLen, va⟩ len) s = .next t ∧ ProgramsKept s1 t ∧ t.pkg.rdma = s1.pkg.rdma ∧
          t.pkg.qps.get .normal (16 * vf + qp) = .busy j ∧ j.write = false ∧ j.len = len ∧ j.next = len ∧ j.open' = n ∧ j.got = [] ∧
          ∀ i, i < n →
            let lo := 8 * i - va % 8
            let pa := runAddr va pas lo
            let (d, k) := nodeOf s.pkg.ordering pa
            ∃ q ∈ ((t.die d).nodes.get [] k).drop ((s1.die d).nodes.get [] k).length, q.pa = pa ∧ q.va = va + lo ∧ q.die = 4 ∧ q.ctx = vf ∧
              q.src = .host vf qp j.job lo ∧ q.op = .load (min (len - lo) (8 - (va + lo) % 8)) ∧ q.past = s1.livePast s1.pkg.hostPast) ∧
      (∀ s1 pas reps, inside len → 0 < len → pages false = .ok s1 pas reps →
        let a := runAddr va pas 0
        let w := a / 2 ^ 45 % 64
        let win := (s1.ctx vf).windows.get {} w
        let to' := (win.base + a % 2 ^ 45) % 2 ^ 64
        8 ≤ a / 2 ^ 48 % 16 →
        ((win.out = false ∨ win.size ≤ a % 2 ^ 45) → ∃ t, exec (.rdmaRead vf qp ⟨keyLo, keyLen, va⟩ len) s = .next t ∧ ProgramsKept s1 t ∧
          refused s1 t) ∧
        ∀ p, win.out = true → a % 2 ^ 45 < win.size → s1.routePort 576 0 win.rpkg = some p → s1.pkg.inWindow vf w < 16 →
          len ≤ 64 - to' % 64 → va % 4096 + len ≤ 4096 →
          ∃ t f, exec (.rdmaRead vf qp ⟨keyLo, keyLen, va⟩ len) s = .next t ∧ ProgramsKept s1 t ∧ t.pkg.rdma = s1.pkg.rdma ∧
            t.pkg.flights = s1.pkg.flights ++ [f] ∧ f.tile = 576 ∧ f.id = 64 + qp ∧ f.ctx = vf ∧ f.window = w ∧ f.port = p ∧ f.isWrite = false ∧
            (t.linkPort p).lanes.get [] win.lane = (s1.linkPort p).lanes.get [] win.lane ++
              [{ ctx := some vf, lane := win.lane, dst := win.rpkg,
                 packet := .request { srcPkg := Config.pkgid.toNat, srcCtx := vf, srcTile := 576, srcStrand := 0,
                                      dstPkg := win.rpkg, dstCtx := win.rctx, lane := win.lane, addr := to', kind := .read len, tag := f.tag } }]) ∧
      (∀ s1, inside data.length → pages true = .wait s1 → ∃ t, exec (.rdmaWrite vf qp ⟨keyLo, keyLen, va⟩ data) s = .next t ∧ ProgramsKept s1 t ∧
        t.pkg.rdma = s1.pkg.rdma ∧ t.pkg.qps.get .normal (16 * vf + qp) = .stalled va true data.length data) ∧
      (∀ s1, inside len → pages false = .wait s1 → ∃ t, exec (.rdmaRead vf qp ⟨keyLo, keyLen, va⟩ len) s = .next t ∧ ProgramsKept s1 t ∧
        t.pkg.rdma = s1.pkg.rdma ∧ t.pkg.qps.get .normal (16 * vf + qp) = .stalled va false len []) ∧
      (∀ s1 c r a, inside data.length → pages true = .fault s1 c r a →
        ∃ t, exec (.rdmaWrite vf qp ⟨keyLo, keyLen, va⟩ data) s = .next t ∧ ProgramsKept s1 t ∧ refused s1 t) ∧
      (∀ s1 c r a, inside len → pages false = .fault s1 c r a →
        ∃ t, exec (.rdmaRead vf qp ⟨keyLo, keyLen, va⟩ len) s = .next t ∧ ProgramsKept s1 t ∧ refused s1 t))) ∧
  -- the last part of a read is answered
  (∀ (s : State) (vf qp d k n lo : Nat) (j : HostJob) (r : MemReq), s.Inv → qp < 16 → (s.ctx vf).live = true → (s.ctx vf).destroying = none →
    s.pkg.qps = [(16 * vf + qp, .busy j)] → j.write = false → j.len ≤ j.next → j.open' = 1 → nextAt s d k = some r →
    r.src = .host vf qp j.job lo → r.op = .load n → CheckedOk s r.pa n → (∀ q ∈ j.got, q.1 < lo) →
    let bytes := if r.rep then (s.heldBytes r.pa n).1 else (s.readBytes r.die r.pa n r.past).1
    let b := j.got.flatMap (fun p => p.2) ++ leBytes n (leNat bytes)
    ∃ t, exec (.memoryNodeApply d k) s = .next t ∧ ProgramsKept s t ∧
      ((t.pkg.rdma = s.pkg.rdma ++ [(vf, qp, .data b)] ∧ t.pkg.qps.get .normal (16 * vf + qp) = .normal) ∨
        (t.pkg.rdma = s.pkg.rdma ∧ ∃ w, t.pkg.qps.get .normal (16 * vf + qp) = .owed w (.data b) ∧ ∃ i ∈ w, s.seenEverywhere i = false))) ∧
  ∀ (s : State) (vf qp : Nat), ∃ t, exec (.rdmaInvalidRequest vf qp) s = .next t ∧ ProgramsKept s t ∧
    t.pkg.rdma = s.pkg.rdma ++ [(vf, qp, .invalidRequest)]

/-- R402 to R405, R429: the first step on a context's log writes its header; each further one writes the next record behind those written, in a context that has
faulted too, raises the count and writes the header again, which is owed while that waits; a log with no room for another record is truncated, with an event. Under replay each step reads the next record, a factor that stands before anything has taken a tile holding at once, and
with the last record taken replay ends, with an event. Where the rules leave a point open it follows the model's choice, logs 77, 78, 107 and 110. -/
def Obligations.CrumbsAreWrittenAndReplayed : Prop :=
  (∀ (s : State) (c : Nat), (s.ctx c).live = true → (s.ctx c).destroying = none →
    let x := s.ctx c
    (x.headerDue = true → ∀ s1, s.writeVa (.scheduler c) c (s.leadTile c) x.liveLog.1 (s.logHeader c) false = .ok s1 →
      ∃ t, exec (.crumbRecordWrite c) s = .next t ∧ t.ctx c = { s1.ctx c with headerDue := false } ∧ t.mem = s1.mem ∧ t.log = s1.log) ∧
    (x.headerDue = false →
    let base := x.liveLog.1
    (x.rpl = 1 → x.logStarted = false → ∀ s1, s.writeVa (.scheduler c) c (s.leadTile c) (base + 0) (s.logHeader c) false = .ok s1 →
      ∃ t, exec (.crumbRecordWrite c) s = .next t ∧ (t.ctx c).logStarted = true ∧ (t.ctx c).crumbs = (s1.ctx c).crumbs ∧
        t.mem = s1.mem ∧ t.log = s1.log) ∧
    (x.logStarted = true → ∀ r rest, x.crumbs = r :: rest → 64 + 32 * (x.crumbCount + 1) ≤ x.liveLog.2 →
      ∀ s1, s.writeVa (.scheduler c) c (s.leadTile c) (base + (64 + 32 * x.crumbCount)) r.bytes false = .ok s1 →
        let s2 := s1.modCtx c (fun y => { y with crumbs := rest, crumbCount := x.crumbCount + 1 })
        ∀ s3, (s1.ctx c).crumbCount = x.crumbCount → s2.writeVa (.scheduler c) c (s2.leadTile c) (s2.ctx c).liveLog.1 (s2.logHeader c) false = .ok s3 →
          ∃ t, exec (.crumbRecordWrite c) s = .next t ∧ t.mem = s3.mem ∧ t.log = s3.log ∧ t.ctx c = { s3.ctx c with headerDue := false }) ∧
    (x.logStarted = true → ∀ r rest, x.crumbs = r :: rest → 64 + 32 * (x.crumbCount + 1) ≤ x.liveLog.2 →
      ∀ s1, s.writeVa (.scheduler c) c (s.leadTile c) (base + (64 + 32 * x.crumbCount)) r.bytes false = .ok s1 →
        let s2 := s1.modCtx c (fun y => { y with crumbs := rest, crumbCount := x.crumbCount + 1 })
        ∀ s3, s2.writeVa (.scheduler c) c (s2.leadTile c) (s2.ctx c).liveLog.1 (s2.logHeader c) false = .wait s3 →
          ∃ t, exec (.crumbRecordWrite c) s = .next t ∧ (t.ctx c).headerDue = true) ∧
    (x.logStarted = true → ∀ r rest, x.crumbs = r :: rest → x.liveLog.2 < 64 + 32 * (x.crumbCount + 1) →
      let s1 := s.modCtx c (fun y => { y with trunc := true })
      ∀ s2, s1.writeVa (.scheduler c) c (s1.leadTile c) (base + 0) (s1.logHeader c) false = .ok s2 →
        ∃ t, exec (.crumbRecordWrite c) s = .next t ∧ (t.ctx c).trunc = true ∧ (t.ctx c).crumbs = [] ∧ t.mem = s2.mem ∧
          Event s2 t c 0x400A c (leBytes 8 (s2.ctx c).crumbCount)))) ∧
  (∀ (s : State) (c : Nat), (s.ctx c).live = true → (s.ctx c).destroying = none → (s.ctx c).state = .running → (s.ctx c).rpl = 2 →
    (s.ctx c).msgRpl = 2 → (∀ p ∈ (s.ctx c).pipes, ∀ g ∈ p.2.stages, g.braid = []) → (s.ctx c).replayChecked = true → (s.ctx c).hostOps = [] → (s.ctx c).replayed = [] →
    (∀ s1 b, (s.ctx c).replayPos + 1 < (s.ctx c).crumbCount →
      s.readVa (.scheduler c) c (s.leadTile c) ((s.ctx c).liveLog.1 + 64 + 32 * (s.ctx c).replayPos) 32 false = .ok s1 b →
      s1.ctx c = s.ctx c → leNat (b.take 1) ≠ 7 →
      (leNat (b.take 1) = 8 → (s.ctx c).moves = [] → (∀ p ∈ (s.ctx c).pipes, ∀ g ∈ p.2.stages, g.tiles = []) →
        ∃ t, exec (.replayRecordTake c) s = .next t ∧ ProgramsKept s1 t ∧ (t.ctx c).replayPos = (s.ctx c).replayPos + 1 ∧ (t.ctx c).replayed = [] ∧
          (t.ctx c).calib = (s.ctx c).calib.set (leNat ((b.drop 1).take 1)) (BitVec.ofNat 16 (leNat ((b.drop 8).take 8)))) ∧
      (leNat (b.take 1) ≠ 8 → ∃ t, exec (.replayRecordTake c) s = .next t ∧ ProgramsKept s1 t ∧ (t.ctx c).replayPos = (s.ctx c).replayPos + 1 ∧
        ∃ r, (t.ctx c).replayed = [r] ∧ r.kind = leNat (b.take 1) ∧ r.sub = leNat ((b.drop 1).take 1) ∧ r.tile = leNat ((b.drop 2).take 2) ∧
          r.a = leNat ((b.drop 4).take 4) ∧ r.b = leNat ((b.drop 8).take 8) ∧ r.c = leNat ((b.drop 16).take 8) ∧
          r.d = leNat ((b.drop 24).take 8))) ∧
    ((s.ctx c).crumbCount ≤ (s.ctx c).replayPos → 0 < (s.ctx c).balance →
      ∃ t, exec (.replayRecordTake c) s = .next t ∧ ProgramsKept s t ∧ (t.ctx c).rpl = 0 ∧ (t.ctx c).modes.toNat / 4 % 4 = 0 ∧
        Event s t c 0x400C c (leBytes 8 (s.ctx c).crumbCount)))

/-- R162 to R169, R314, R322: encoding and decoding agree: the word of every well-formed instruction decodes to it in every slot that admits
its class, with every operand at every value; and a word that decodes to an instruction is that instruction's word. -/
def Obligations.EncodingAndDecodingAgree : Prop :=
  (∀ (i : Instr) (slot cls : Nat), i.isCore = true → i.wf = true → opClass i.fields.op.toNat = some cls → slotAdmits slot cls = true →
    decodeSlot slot (encode i) = .ok i) ∧
  (∀ (w : Word) (i : Instr) (slot : Nat), decodeSlot slot w = .ok i →
    i.isCore = true ∧ i.wf = true ∧ encode i = w ∧ ∃ cls, opClass i.fields.op.toNat = some cls ∧ slotAdmits slot cls = true)

/-- R162, R163, R170, R83, R84: the words the spec works out decode to their instructions; a reserved opcode is rejected with reason 1, an opcode in a
slot of another class with reason 2, a set bit of a reserved field with reason 3, a value out of its range with reason 4; a
datagram whose type is a command's brings that command with the message's endpoint, request id and payload, any other a drop. -/
def Obligations.WorkedWordsDecode : Prop :=
  decodeSlot 0 0x0118440000000000 = .ok (.add 3 1 2) ∧ decodeSlot 1 0x0118440000000000 = .ok (.add 3 1 2) ∧
  decodeSlot 2 0x4021404000000010 = .ok (.ld 2 4 5 0x10) ∧ decodeSlot 5 0xC2020C00FFFFFFCE = .ok (.bne 8 6 (-50)) ∧
  decodeSlot 0 0x233880000000083C = .ok (.bfx 7 2 60 8) ∧ decodeSlot 5 0xCC020000FFFFFFFF = .ok (.loop 8 (-1)) ∧
  decodeSlot 3 0x6009400000000413 = .ok (.psetb 1 5 0x413) ∧ decodeSlot 3 0x61080C0000000000 = .ok (.psetdExt 1 0 0 6) ∧
  decodeSlot 3 0x6109C02000000000 = .ok (.psetdStr 1 0 7 0) ∧ decodeSlot 3 0x61080C4000000000 = .ok (.psetdBnd 1 0 0 6) ∧
  decodeSlot 3 0x6209500000000000 = .ok (.psetf 1 5 8 0) ∧ decodeSlot 3 0x6810400000000003 = .ok (.sla 2 1 0 3) ∧
  decodeSlot 3 0x7548000000000003 = .ok (.swaitDone 9 3) ∧ decodeSlot 3 0x6A10800100000003 = .ok (.sli 2 2 1 3) ∧
  decodeSlot 3 0x6E19800400000004 = .ok (.srec 3 4 6 4 0) ∧ decodeSlot 3 0x6C08408000000002 = .ok (.sra 4 1 1 0 2 false 0) ∧
  decodeSlot 3 0x6C10804000000023 = .ok (.sra 2 2 2 0 3 true 0) ∧ decodeSlot 3 0x7891800000000010 = .ok (.sslot 18 6 0 true) ∧
  decodeSlot 4 0xA748006000000000 = .ok (.fence 3 9) ∧ decodeSlot 4 0x9148000000000002 = .ok (.qpop 9 2) ∧
  decodeSlot 4 0x9052D80000000003 = .ok (.qpush 10 3 11 12) ∧ decodeSlot 4 0x9901000300000002 = .ok (.farg 3 2 4) ∧
  decodeSlot 4 0xA0298E0000000000 = .ok (.tsend 5 6 7) ∧ decodeSlot 4 0xA128000000000011 = .ok (.twait 5 0x11) ∧
  decodeSlot 4 0xB040002000000000 = .ok (.emtrCtx 8) ∧ decodeSlot 5 0xCA68000000000009 = .ok (.call 13 9) ∧
  decodeSlot 5 0xC907000000000000 = .ok (.jr 28) ∧ decodeSlot 0 0 = .ok .nop ∧ decodeSlot 4 0 = .ok .nop ∧
  decodeSlot 2 0x0118440000000000 = .error 2 ∧ decodeSlot 0 0x0118440000000001 = .error 3 ∧ decodeSlot 5 1 = .error 3 ∧
  decodeSlot 2 0x402140E000000010 = .error 4 ∧ decodeSlot 0 0x2338804000000000 = .error 4 ∧
  (∀ (slot : Nat) (w : Word), opClass (w.extractLsb' 56 8).toNat = none → decodeSlot slot w = .error 1) ∧
  (∀ (slot cls : Nat) (w : Word), opClass (w.extractLsb' 56 8).toNat = some cls → slotAdmits slot cls = false → decodeSlot slot w = .error 2) ∧
  (∀ (d : Datagram) (i : Instr), d.wellFormed = true → lanternCommand (field d.header 2 2) d.msg = some i → decodeDatagram d = i) ∧
  ∀ (d : Datagram), d.wellFormed = false ∨ lanternCommand (field d.header 2 2) d.msg = none → decodeDatagram d = .lanternMessageDrop d

/-- R114, R153, R162, R186, R382: a step runs the first turn of the agenda, or of a new round where the agenda is empty: an event's turn is exec of it, a datagram's
turn exec of the step it decodes to with its payload decrypted, and a core, with a BUDGET that falls due at the
boundary pending (R114, R382), that may issue fetches the bundle at its PC and issues it: with one instruction in its
slot and zero words in the others, that is exec of the instruction. A bundle that does not decode takes ILLEGAL_BUNDLE. Where the rules leave a point open it follows the model's choice, log 1. -/
def Obligations.StepRunsTheDecodedInstruction : Prop :=
  (∀ (s : State) (i : Instr) (rest : List Turn), s.agenda = .event i :: rest → i.wf = true → i.isCore = false →
    step s = exec i { s with agenda := rest }) ∧
  (∀ (s : State) (d : Datagram) (rest : List Turn), s.agenda = .datagram d :: rest → step s = exec (decodeDatagram (s.opened d)) { s with agenda := rest }) ∧
  (∀ (s : State) (u : Turn) (rest : List Turn), s.agenda = [] → rota s = u :: rest → step s = step { s with agenda := u :: rest }) ∧
  (∀ (s : State) (u : Nat) (rest : List Turn) (s2 : State), s.agenda = .core u :: rest → u < 576 →
    let s1 := ({ s with agenda := rest, focus := u } : State).budgetDue u
    s1.coreDoes u = .issue →
    (∀ (w : Word) (i : Instr), s1.fetchBundle u (s1.tile u).cur = .ok s2 (Sys2Proof.bundleOf i.slot w, false) →
      decodeSlot i.slot w = .ok i → s2.focus = u → step s = exec i s2) ∧
    (∀ (b : Bundle) (lit : Bool), s1.fetchBundle u (s1.tile u).cur = .ok s2 (b, lit) → step s = .next (issueBundle b lit s2)) ∧
    (∀ (b : Bundle) (lit : Bool) (k r : Nat), s1.fetchBundle u (s1.tile u).cur = .ok s2 (b, lit) → s2.focus = u →
      decodeBundle b = .error (k, r) → (∀ m ∈ lowerSems b k, m.illegal s2 = false) → CanTrap s2 →
      ∃ t, step s = .next t ∧ TrappedUnissued s2 t 0x01 (w64 (k + 16 * r))))

/-- The memory of the machine keeps its canonical form: addresses rising, no byte listed that an unlisted address reads as. Every step keeps
it. (The form is the model's own, log 2; what the bytes are, R132 and R333 say.) -/
def Obligations.EveryStepKeepsMemoryCanonical : Prop := ∀ s t : State, s.Inv → step s = .next t → t.Inv

/-- R28 to R35: units change state as R29 lists, each change with its event, and the health record is refreshed. Where the rules leave a point open it follows the model's choice, logs 67, 68, 70, 84 and 89. -/
def Obligations.UnitsAndHealthChangeAsListed : Prop := Rules.UnitsChangeStateAsListed ∧ Rules.HealthRecordIsRefreshed

/-- R26, R107: power checks step and trip the clock; calibration windows set the factors of the meters. Where the rules leave a point open it follows the model's choice, logs 69, 71 and 90. -/
def Obligations.PowerChecksAndCalibration : Prop := Rules.PowerChecksStepTheClockAndTrip ∧ Rules.CalibrationWindowsSetTheFactors

/-- R103, R104, R110, R111, R101, R21: charges move from meters to accounts to balances; fc edges count and charge time. Where the rules leave a point open it follows the model's choice, logs 10, 48, 49, 90 and 99. -/
def Obligations.ChargesMoveAndTimeIsCharged : Prop := Rules.AccountsMoveAndApplyCharges ∧ Rules.FcEdgesCountAndChargeTime

/-- R193 to R195, R200: what the integer instructions write, and that they change nothing else. -/
def Obligations.IntegerInstructions : Prop := Rules.IntegerInstructionsWriteTheirResults ∧ Rules.IntegerInstructionsChangeOnlyTheirDestination

/-- R196 to R198: what the floating-point instructions write and which flags they set, and that they change nothing else. -/
def Obligations.FloatInstructions : Prop := Rules.FloatInstructionsWriteResultAndFlags ∧ Rules.FloatInstructionsChangeOnlyResultAndFlags

/-- R210, R182: where transfers go and what they write, and that they change nothing else. -/
def Obligations.Transfers : Prop := Rules.TransfersSetPcAndLinkRegister ∧ Rules.TransfersChangeOnlyTheirRegister

/-- R213, R214, R380, R394: TRAP and BRK take their trap, TRET returns from it. -/
def Obligations.TrapBrkAndTret : Prop := Rules.TrapAndBrkTakeTheirTrap ∧ Rules.TretReturnsToTrapPc

/-- R201 to R204, R231, R385: scalar loads, stores and atomics in the cell window. Where the rules leave a point open it follows the model's choice, logs 43 and 92. -/
def Obligations.CellAccesses : Prop := Rules.CellLoadReadsTheCell ∧ Rules.CellStoreIsSeenFromTheFourthFc ∧ Rules.CellAtomicsReadAndWriteAtOnce

/-- R183, R205 to R208: SRD, SPEEK, SWR and SBIND. Where the rules leave a point open it follows the model's choice, log 12. -/
def Obligations.StreamBoundRegisters : Prop := Rules.SrdReadsTheTokenAtTheHead ∧ Rules.SpeekReadsTheStatusWord ∧ Rules.SwrWritesTheOutgoingToken ∧ Rules.SbindMakesTheBinding

/-- R191, R209: GETS and SETS, for every system register. -/
def Obligations.SystemRegisters : Prop := Rules.GetsReadsTheSystemRegister ∧ Rules.SetsWritesByAccessCode

/-- R306, R324 to R327: SWAIT, SBAR, SORD and SABT. Where the rules leave a point open it follows the model's choice, logs 16 and 17. -/
def Obligations.WaitingOnAndOrderingCommands : Prop := Rules.SwaitReturnsTheStatusWord ∧ Rules.OrderingAndAbortOfCommands

/-- R291, R321, R322: SSLOT and SREL. Where the rules leave a point open it follows the model's choice, logs 30 and 31. -/
def Obligations.SlotInstructions : Prop := Rules.SslotAcquiresTheSlot ∧ Rules.SrelEndsTheHold

/-- R348, R349, R126, R129: QPOP and QTRY. Where the rules leave a point open it follows the model's choice, logs 13, 14, 87 and 91. -/
def Obligations.QueuePops : Prop := Rules.PopsTakeAnItem ∧ Rules.QpopWaitsWhereQtryAnswers

/-- R358 to R360: TSEND, TWAIT and TPOLL. Where the rules leave a point open it follows the model's choice, log 21. -/
def Obligations.TokenInstructions : Prop := Rules.TsendSendsAToken ∧ Rules.MailboxInstructionsTakeTheOldestToken

/-- R361, R362: JOIN, LEAVE, GBAR and GARR. -/
def Obligations.MembershipAndBarriers : Prop := Rules.JoinAndLeaveChangeMembership ∧ Rules.BarriersCountArrivals

/-- R184, R185, R189, R127: strands start tasks, dividers give items. Where the rules leave a point open it follows the model's choice, logs 8 and 14. -/
def Obligations.TasksStartAndItemsAreDivided : Prop := Rules.StrandsStartTasks ∧ Rules.DividersGiveItemsInOrder

/-- R152, R153, R157, R186, R202: bundles are fetched, and the last value of a held bundle completes it. Where the rules leave a point open it follows the model's choice, logs 81 and 93. -/
def Obligations.FetchesAndLoadsReturn : Prop := Rules.FetchersDecodeAndPrefetch ∧ Rules.LoadsReturnToHeldBundles

/-- R204, R288, R301, R302, R315, R333, R335: memory nodes apply requests and contributions. Where the rules leave a point open it follows the model's choice, logs 17, 23, 43 and 102. -/
def Obligations.MemoryNodesApply : Prop := Rules.MemoryNodesApplyRequests ∧ Rules.ReductionsApplyAtTheFrontier

/-- R290, R291, R358, R359: tokens are delivered, slots written back, spilled items return. Where the rules leave a point open it follows the model's choice, log 30. -/
def Obligations.TokensSlotsAndSpilledItems : Prop := Rules.TokensReachTheirMailbox ∧ Rules.SlotsAndSpilledItemsMove

/-- R295, R296, R300, R306, R308, R312, R313, R316 to R320, R323: stores and copies form their elements; commands, fills, queue commands and recurrences among them, move tokens and complete; members of a multicast deliver. Where the rules leave a point open it follows the model's choice, logs 19, 33 and 96. -/
def Obligations.CommandsMoveTokens : Prop := Rules.StoresAndCopiesFormTheirElements ∧ Rules.CommandsMoveTokensAndComplete ∧ Rules.QueueCommandsAndRecurrences ∧ Rules.MembersDeliverAndReturnPermits

/-- R26, R29 to R36, R82, R84, R89, R90, R104, R110, R118, R135, R371, R400, R419: the management commands act and the record commands answer. Where the rules leave a point open it follows the model's choice, logs 75, 99 and 100. -/
def Obligations.ManagementAndRecordCommands : Prop := Rules.ManagementCommandsAct ∧ Rules.RecordCommandsAnswer
end

