-- ==== Sys2Proof/Laws/State.lean ====
section
/-! SUPPORT. The small lemmas of the state: what each update of a part of the state leaves as it was, field by field, and what
is read back from the part it changed. -/

namespace Sys2Proof.Machine

/-! ## Numbered data -/

@[simp] theorem AMap.get_nil {α : Type} (d : α) (k : Nat) : AMap.get d ([] : AMap α) k = d := rfl

/-- The value just kept under a number is read back. -/
@[simp] theorem AMap.get_set_same {α : Type} (d : α) (m : AMap α) (k : Nat) (v : α) : AMap.get d (AMap.set m k v) k = v := by
  induction m with
  | nil => simp [AMap.set, AMap.get]
  | cons p r ih =>
    obtain ⟨j, w⟩ := p
    simp only [AMap.set]
    split
    · simp [AMap.get]
    · split
      · simp [AMap.get]
      · rename_i h _; simp [AMap.get, h, ih]

/-- Every other number reads as before. -/
theorem AMap.get_set_other {α : Type} (d : α) (m : AMap α) {j k : Nat} (v : α) (h : j ≠ k) :
    AMap.get d (AMap.set m k v) j = AMap.get d m j := by
  induction m with
  | nil => simp [AMap.set, AMap.get, h]
  | cons p r ih =>
    obtain ⟨i, w⟩ := p
    simp only [AMap.set]
    split
    · rename_i e; subst e; simp [AMap.get, h]
    · split
      · simp [AMap.get, h]
      · simp only [AMap.get]; split
        · rfl
        · exact ih

/-- Reading under any number after keeping one. -/
theorem AMap.get_set {α : Type} (d : α) (m : AMap α) (j k : Nat) (v : α) :
    AMap.get d (AMap.set m k v) j = if j = k then v else AMap.get d m j := by
  split
  · rename_i h; subst h; exact AMap.get_set_same d m j v
  · rename_i h; exact AMap.get_set_other d m v h

/-- Keeping twice under one number keeps the second. -/
@[simp] theorem AMap.set_set {α : Type} (m : AMap α) (k : Nat) (v w : α) : AMap.set (AMap.set m k v) k w = AMap.set m k w := by
  induction m with
  | nil => simp [AMap.set]
  | cons p r ih =>
    obtain ⟨j, x⟩ := p
    simp only [AMap.set]
    split
    · simp [AMap.set]
    · split
      · simp [AMap.set]
      · rename_i h h'; simp [AMap.set, h, h', ih]

/-! ## Updates of a part of the state -/

section setTile
variable (s : State) (t : Nat) (v : Tile)
@[simp] theorem State.setTile_pkg : (s.setTile t v).pkg = s.pkg := rfl
@[simp] theorem State.setTile_dies : (s.setTile t v).dies = s.dies := rfl
@[simp] theorem State.setTile_parts : (s.setTile t v).parts = s.parts := rfl
@[simp] theorem State.setTile_ctxs : (s.setTile t v).ctxs = s.ctxs := rfl
@[simp] theorem State.setTile_slots : (s.setTile t v).slots = s.slots := rfl
@[simp] theorem State.setTile_mem : (s.setTile t v).mem = s.mem := rfl
@[simp] theorem State.setTile_memBad : (s.setTile t v).memBad = s.memBad := rfl
@[simp] theorem State.setTile_log : (s.setTile t v).log = s.log := rfl
@[simp] theorem State.setTile_flying : (s.setTile t v).flying = s.flying := rfl
@[simp] theorem State.setTile_lines : (s.setTile t v).lines = s.lines := rfl
@[simp] theorem State.setTile_resps : (s.setTile t v).resps = s.resps := rfl
@[simp] theorem State.setTile_invals : (s.setTile t v).invals = s.invals := rfl
@[simp] theorem State.setTile_nextId : (s.setTile t v).nextId = s.nextId := rfl
@[simp] theorem State.setTile_fresh : (s.setTile t v).fresh = s.fresh := rfl
@[simp] theorem State.setTile_focus : (s.setTile t v).focus = s.focus := rfl
@[simp] theorem State.setTile_agenda : (s.setTile t v).agenda = s.agenda := rfl
end setTile

section modTile
variable (s : State) (t : Nat) (f : Tile → Tile)
@[simp] theorem State.modTile_pkg : (s.modTile t f).pkg = s.pkg := rfl
@[simp] theorem State.modTile_dies : (s.modTile t f).dies = s.dies := rfl
@[simp] theorem State.modTile_parts : (s.modTile t f).parts = s.parts := rfl
@[simp] theorem State.modTile_ctxs : (s.modTile t f).ctxs = s.ctxs := rfl
@[simp] theorem State.modTile_slots : (s.modTile t f).slots = s.slots := rfl
@[simp] theorem State.modTile_mem : (s.modTile t f).mem = s.mem := rfl
@[simp] theorem State.modTile_memBad : (s.modTile t f).memBad = s.memBad := rfl
@[simp] theorem State.modTile_log : (s.modTile t f).log = s.log := rfl
@[simp] theorem State.modTile_flying : (s.modTile t f).flying = s.flying := rfl
@[simp] theorem State.modTile_lines : (s.modTile t f).lines = s.lines := rfl
@[simp] theorem State.modTile_resps : (s.modTile t f).resps = s.resps := rfl
@[simp] theorem State.modTile_invals : (s.modTile t f).invals = s.invals := rfl
@[simp] theorem State.modTile_nextId : (s.modTile t f).nextId = s.nextId := rfl
@[simp] theorem State.modTile_fresh : (s.modTile t f).fresh = s.fresh := rfl
@[simp] theorem State.modTile_focus : (s.modTile t f).focus = s.focus := rfl
@[simp] theorem State.modTile_agenda : (s.modTile t f).agenda = s.agenda := rfl
end modTile

section modStrand
variable (s : State) (t n : Nat) (f : Strand → Strand)
@[simp] theorem State.modStrand_pkg : (s.modStrand t n f).pkg = s.pkg := rfl
@[simp] theorem State.modStrand_dies : (s.modStrand t n f).dies = s.dies := rfl
@[simp] theorem State.modStrand_parts : (s.modStrand t n f).parts = s.parts := rfl
@[simp] theorem State.modStrand_ctxs : (s.modStrand t n f).ctxs = s.ctxs := rfl
@[simp] theorem State.modStrand_slots : (s.modStrand t n f).slots = s.slots := rfl
@[simp] theorem State.modStrand_mem : (s.modStrand t n f).mem = s.mem := rfl
@[simp] theorem State.modStrand_memBad : (s.modStrand t n f).memBad = s.memBad := rfl
@[simp] theorem State.modStrand_log : (s.modStrand t n f).log = s.log := rfl
@[simp] theorem State.modStrand_flying : (s.modStrand t n f).flying = s.flying := rfl
@[simp] theorem State.modStrand_lines : (s.modStrand t n f).lines = s.lines := rfl
@[simp] theorem State.modStrand_resps : (s.modStrand t n f).resps = s.resps := rfl
@[simp] theorem State.modStrand_invals : (s.modStrand t n f).invals = s.invals := rfl
@[simp] theorem State.modStrand_nextId : (s.modStrand t n f).nextId = s.nextId := rfl
@[simp] theorem State.modStrand_fresh : (s.modStrand t n f).fresh = s.fresh := rfl
@[simp] theorem State.modStrand_focus : (s.modStrand t n f).focus = s.focus := rfl
@[simp] theorem State.modStrand_agenda : (s.modStrand t n f).agenda = s.agenda := rfl
end modStrand

section modMe
variable (s : State) (f : Strand → Strand)
@[simp] theorem State.modMe_pkg : (s.modMe f).pkg = s.pkg := rfl
@[simp] theorem State.modMe_dies : (s.modMe f).dies = s.dies := rfl
@[simp] theorem State.modMe_parts : (s.modMe f).parts = s.parts := rfl
@[simp] theorem State.modMe_ctxs : (s.modMe f).ctxs = s.ctxs := rfl
@[simp] theorem State.modMe_slots : (s.modMe f).slots = s.slots := rfl
@[simp] theorem State.modMe_mem : (s.modMe f).mem = s.mem := rfl
@[simp] theorem State.modMe_memBad : (s.modMe f).memBad = s.memBad := rfl
@[simp] theorem State.modMe_log : (s.modMe f).log = s.log := rfl
@[simp] theorem State.modMe_flying : (s.modMe f).flying = s.flying := rfl
@[simp] theorem State.modMe_lines : (s.modMe f).lines = s.lines := rfl
@[simp] theorem State.modMe_resps : (s.modMe f).resps = s.resps := rfl
@[simp] theorem State.modMe_invals : (s.modMe f).invals = s.invals := rfl
@[simp] theorem State.modMe_nextId : (s.modMe f).nextId = s.nextId := rfl
@[simp] theorem State.modMe_fresh : (s.modMe f).fresh = s.fresh := rfl
@[simp] theorem State.modMe_focus : (s.modMe f).focus = s.focus := rfl
@[simp] theorem State.modMe_agenda : (s.modMe f).agenda = s.agenda := rfl
end modMe

section modDie
variable (s : State) (d : Nat) (f : Die → Die)
@[simp] theorem State.modDie_pkg : (s.modDie d f).pkg = s.pkg := rfl
@[simp] theorem State.modDie_tiles : (s.modDie d f).tiles = s.tiles := rfl
@[simp] theorem State.modDie_parts : (s.modDie d f).parts = s.parts := rfl
@[simp] theorem State.modDie_ctxs : (s.modDie d f).ctxs = s.ctxs := rfl
@[simp] theorem State.modDie_slots : (s.modDie d f).slots = s.slots := rfl
@[simp] theorem State.modDie_mem : (s.modDie d f).mem = s.mem := rfl
@[simp] theorem State.modDie_memBad : (s.modDie d f).memBad = s.memBad := rfl
@[simp] theorem State.modDie_log : (s.modDie d f).log = s.log := rfl
@[simp] theorem State.modDie_flying : (s.modDie d f).flying = s.flying := rfl
@[simp] theorem State.modDie_lines : (s.modDie d f).lines = s.lines := rfl
@[simp] theorem State.modDie_resps : (s.modDie d f).resps = s.resps := rfl
@[simp] theorem State.modDie_invals : (s.modDie d f).invals = s.invals := rfl
@[simp] theorem State.modDie_nextId : (s.modDie d f).nextId = s.nextId := rfl
@[simp] theorem State.modDie_fresh : (s.modDie d f).fresh = s.fresh := rfl
@[simp] theorem State.modDie_focus : (s.modDie d f).focus = s.focus := rfl
@[simp] theorem State.modDie_agenda : (s.modDie d f).agenda = s.agenda := rfl
end modDie

section modCtx
variable (s : State) (c : Nat) (f : Context → Context)
@[simp] theorem State.modCtx_pkg : (s.modCtx c f).pkg = s.pkg := rfl
@[simp] theorem State.modCtx_dies : (s.modCtx c f).dies = s.dies := rfl
@[simp] theorem State.modCtx_tiles : (s.modCtx c f).tiles = s.tiles := rfl
@[simp] theorem State.modCtx_parts : (s.modCtx c f).parts = s.parts := rfl
@[simp] theorem State.modCtx_slots : (s.modCtx c f).slots = s.slots := rfl
@[simp] theorem State.modCtx_mem : (s.modCtx c f).mem = s.mem := rfl
@[simp] theorem State.modCtx_memBad : (s.modCtx c f).memBad = s.memBad := rfl
@[simp] theorem State.modCtx_log : (s.modCtx c f).log = s.log := rfl
@[simp] theorem State.modCtx_flying : (s.modCtx c f).flying = s.flying := rfl
@[simp] theorem State.modCtx_lines : (s.modCtx c f).lines = s.lines := rfl
@[simp] theorem State.modCtx_resps : (s.modCtx c f).resps = s.resps := rfl
@[simp] theorem State.modCtx_invals : (s.modCtx c f).invals = s.invals := rfl
@[simp] theorem State.modCtx_nextId : (s.modCtx c f).nextId = s.nextId := rfl
@[simp] theorem State.modCtx_fresh : (s.modCtx c f).fresh = s.fresh := rfl
@[simp] theorem State.modCtx_focus : (s.modCtx c f).focus = s.focus := rfl
@[simp] theorem State.modCtx_agenda : (s.modCtx c f).agenda = s.agenda := rfl
end modCtx

section modPart
variable (s : State) (p : Nat) (f : Partition → Partition)
@[simp] theorem State.modPart_pkg : (s.modPart p f).pkg = s.pkg := rfl
@[simp] theorem State.modPart_dies : (s.modPart p f).dies = s.dies := rfl
@[simp] theorem State.modPart_tiles : (s.modPart p f).tiles = s.tiles := rfl
@[simp] theorem State.modPart_ctxs : (s.modPart p f).ctxs = s.ctxs := rfl
@[simp] theorem State.modPart_slots : (s.modPart p f).slots = s.slots := rfl
@[simp] theorem State.modPart_mem : (s.modPart p f).mem = s.mem := rfl
@[simp] theorem State.modPart_memBad : (s.modPart p f).memBad = s.memBad := rfl
@[simp] theorem State.modPart_log : (s.modPart p f).log = s.log := rfl
@[simp] theorem State.modPart_flying : (s.modPart p f).flying = s.flying := rfl
@[simp] theorem State.modPart_lines : (s.modPart p f).lines = s.lines := rfl
@[simp] theorem State.modPart_resps : (s.modPart p f).resps = s.resps := rfl
@[simp] theorem State.modPart_invals : (s.modPart p f).invals = s.invals := rfl
@[simp] theorem State.modPart_nextId : (s.modPart p f).nextId = s.nextId := rfl
@[simp] theorem State.modPart_fresh : (s.modPart p f).fresh = s.fresh := rfl
@[simp] theorem State.modPart_focus : (s.modPart p f).focus = s.focus := rfl
@[simp] theorem State.modPart_agenda : (s.modPart p f).agenda = s.agenda := rfl
end modPart

section modPkg
variable (s : State) (f : Package → Package)
@[simp] theorem State.modPkg_dies : (s.modPkg f).dies = s.dies := rfl
@[simp] theorem State.modPkg_tiles : (s.modPkg f).tiles = s.tiles := rfl
@[simp] theorem State.modPkg_parts : (s.modPkg f).parts = s.parts := rfl
@[simp] theorem State.modPkg_ctxs : (s.modPkg f).ctxs = s.ctxs := rfl
@[simp] theorem State.modPkg_slots : (s.modPkg f).slots = s.slots := rfl
@[simp] theorem State.modPkg_mem : (s.modPkg f).mem = s.mem := rfl
@[simp] theorem State.modPkg_memBad : (s.modPkg f).memBad = s.memBad := rfl
@[simp] theorem State.modPkg_log : (s.modPkg f).log = s.log := rfl
@[simp] theorem State.modPkg_flying : (s.modPkg f).flying = s.flying := rfl
@[simp] theorem State.modPkg_lines : (s.modPkg f).lines = s.lines := rfl
@[simp] theorem State.modPkg_resps : (s.modPkg f).resps = s.resps := rfl
@[simp] theorem State.modPkg_invals : (s.modPkg f).invals = s.invals := rfl
@[simp] theorem State.modPkg_nextId : (s.modPkg f).nextId = s.nextId := rfl
@[simp] theorem State.modPkg_fresh : (s.modPkg f).fresh = s.fresh := rfl
@[simp] theorem State.modPkg_focus : (s.modPkg f).focus = s.focus := rfl
@[simp] theorem State.modPkg_agenda : (s.modPkg f).agenda = s.agenda := rfl
end modPkg

section modPipe
variable (s : State) (c k : Nat) (f : Pipeline → Pipeline)
@[simp] theorem State.modPipe_pkg : (s.modPipe c k f).pkg = s.pkg := rfl
@[simp] theorem State.modPipe_dies : (s.modPipe c k f).dies = s.dies := rfl
@[simp] theorem State.modPipe_tiles : (s.modPipe c k f).tiles = s.tiles := rfl
@[simp] theorem State.modPipe_parts : (s.modPipe c k f).parts = s.parts := rfl
@[simp] theorem State.modPipe_slots : (s.modPipe c k f).slots = s.slots := rfl
@[simp] theorem State.modPipe_mem : (s.modPipe c k f).mem = s.mem := rfl
@[simp] theorem State.modPipe_memBad : (s.modPipe c k f).memBad = s.memBad := rfl
@[simp] theorem State.modPipe_log : (s.modPipe c k f).log = s.log := rfl
@[simp] theorem State.modPipe_flying : (s.modPipe c k f).flying = s.flying := rfl
@[simp] theorem State.modPipe_lines : (s.modPipe c k f).lines = s.lines := rfl
@[simp] theorem State.modPipe_resps : (s.modPipe c k f).resps = s.resps := rfl
@[simp] theorem State.modPipe_invals : (s.modPipe c k f).invals = s.invals := rfl
@[simp] theorem State.modPipe_nextId : (s.modPipe c k f).nextId = s.nextId := rfl
@[simp] theorem State.modPipe_fresh : (s.modPipe c k f).fresh = s.fresh := rfl
@[simp] theorem State.modPipe_focus : (s.modPipe c k f).focus = s.focus := rfl
@[simp] theorem State.modPipe_agenda : (s.modPipe c k f).agenda = s.agenda := rfl
end modPipe

section modStage
variable (s : State) (c k g : Nat) (f : Stage → Stage)
@[simp] theorem State.modStage_pkg : (s.modStage c k g f).pkg = s.pkg := rfl
@[simp] theorem State.modStage_dies : (s.modStage c k g f).dies = s.dies := rfl
@[simp] theorem State.modStage_tiles : (s.modStage c k g f).tiles = s.tiles := rfl
@[simp] theorem State.modStage_parts : (s.modStage c k g f).parts = s.parts := rfl
@[simp] theorem State.modStage_slots : (s.modStage c k g f).slots = s.slots := rfl
@[simp] theorem State.modStage_mem : (s.modStage c k g f).mem = s.mem := rfl
@[simp] theorem State.modStage_memBad : (s.modStage c k g f).memBad = s.memBad := rfl
@[simp] theorem State.modStage_log : (s.modStage c k g f).log = s.log := rfl
@[simp] theorem State.modStage_flying : (s.modStage c k g f).flying = s.flying := rfl
@[simp] theorem State.modStage_lines : (s.modStage c k g f).lines = s.lines := rfl
@[simp] theorem State.modStage_resps : (s.modStage c k g f).resps = s.resps := rfl
@[simp] theorem State.modStage_invals : (s.modStage c k g f).invals = s.invals := rfl
@[simp] theorem State.modStage_nextId : (s.modStage c k g f).nextId = s.nextId := rfl
@[simp] theorem State.modStage_fresh : (s.modStage c k g f).fresh = s.fresh := rfl
@[simp] theorem State.modStage_focus : (s.modStage c k g f).focus = s.focus := rfl
@[simp] theorem State.modStage_agenda : (s.modStage c k g f).agenda = s.agenda := rfl
end modStage

section modQueue
variable (s : State) (c k q : Nat) (f : Queue → Queue)
@[simp] theorem State.modQueue_pkg : (s.modQueue c k q f).pkg = s.pkg := rfl
@[simp] theorem State.modQueue_dies : (s.modQueue c k q f).dies = s.dies := rfl
@[simp] theorem State.modQueue_tiles : (s.modQueue c k q f).tiles = s.tiles := rfl
@[simp] theorem State.modQueue_parts : (s.modQueue c k q f).parts = s.parts := rfl
@[simp] theorem State.modQueue_slots : (s.modQueue c k q f).slots = s.slots := rfl
@[simp] theorem State.modQueue_mem : (s.modQueue c k q f).mem = s.mem := rfl
@[simp] theorem State.modQueue_memBad : (s.modQueue c k q f).memBad = s.memBad := rfl
@[simp] theorem State.modQueue_log : (s.modQueue c k q f).log = s.log := rfl
@[simp] theorem State.modQueue_flying : (s.modQueue c k q f).flying = s.flying := rfl
@[simp] theorem State.modQueue_lines : (s.modQueue c k q f).lines = s.lines := rfl
@[simp] theorem State.modQueue_resps : (s.modQueue c k q f).resps = s.resps := rfl
@[simp] theorem State.modQueue_invals : (s.modQueue c k q f).invals = s.invals := rfl
@[simp] theorem State.modQueue_nextId : (s.modQueue c k q f).nextId = s.nextId := rfl
@[simp] theorem State.modQueue_fresh : (s.modQueue c k q f).fresh = s.fresh := rfl
@[simp] theorem State.modQueue_focus : (s.modQueue c k q f).focus = s.focus := rfl
@[simp] theorem State.modQueue_agenda : (s.modQueue c k q f).agenda = s.agenda := rfl
end modQueue

section bump
variable (s : State)
@[simp] theorem State.bump_pkg : (s.bump).pkg = s.pkg := rfl
@[simp] theorem State.bump_dies : (s.bump).dies = s.dies := rfl
@[simp] theorem State.bump_tiles : (s.bump).tiles = s.tiles := rfl
@[simp] theorem State.bump_parts : (s.bump).parts = s.parts := rfl
@[simp] theorem State.bump_ctxs : (s.bump).ctxs = s.ctxs := rfl
@[simp] theorem State.bump_slots : (s.bump).slots = s.slots := rfl
@[simp] theorem State.bump_mem : (s.bump).mem = s.mem := rfl
@[simp] theorem State.bump_memBad : (s.bump).memBad = s.memBad := rfl
@[simp] theorem State.bump_log : (s.bump).log = s.log := rfl
@[simp] theorem State.bump_flying : (s.bump).flying = s.flying := rfl
@[simp] theorem State.bump_lines : (s.bump).lines = s.lines := rfl
@[simp] theorem State.bump_resps : (s.bump).resps = s.resps := rfl
@[simp] theorem State.bump_invals : (s.bump).invals = s.invals := rfl
@[simp] theorem State.bump_fresh : (s.bump).fresh = s.fresh := rfl
@[simp] theorem State.bump_focus : (s.bump).focus = s.focus := rfl
@[simp] theorem State.bump_agenda : (s.bump).agenda = s.agenda := rfl
end bump

section wb
variable (s : State) (k : Nat) (r : XReg) (v : Word)
@[simp] theorem State.wb_pkg : (s.wb k r v).pkg = s.pkg := rfl
@[simp] theorem State.wb_dies : (s.wb k r v).dies = s.dies := rfl
@[simp] theorem State.wb_parts : (s.wb k r v).parts = s.parts := rfl
@[simp] theorem State.wb_ctxs : (s.wb k r v).ctxs = s.ctxs := rfl
@[simp] theorem State.wb_slots : (s.wb k r v).slots = s.slots := rfl
@[simp] theorem State.wb_mem : (s.wb k r v).mem = s.mem := rfl
@[simp] theorem State.wb_memBad : (s.wb k r v).memBad = s.memBad := rfl
@[simp] theorem State.wb_log : (s.wb k r v).log = s.log := rfl
@[simp] theorem State.wb_flying : (s.wb k r v).flying = s.flying := rfl
@[simp] theorem State.wb_lines : (s.wb k r v).lines = s.lines := rfl
@[simp] theorem State.wb_resps : (s.wb k r v).resps = s.resps := rfl
@[simp] theorem State.wb_invals : (s.wb k r v).invals = s.invals := rfl
@[simp] theorem State.wb_nextId : (s.wb k r v).nextId = s.nextId := rfl
@[simp] theorem State.wb_fresh : (s.wb k r v).fresh = s.fresh := rfl
@[simp] theorem State.wb_focus : (s.wb k r v).focus = s.focus := rfl
@[simp] theorem State.wb_agenda : (s.wb k r v).agenda = s.agenda := rfl
end wb

section awaitReg
variable (s : State) (i k : Nat) (r : XReg)
@[simp] theorem State.awaitReg_pkg : (s.awaitReg i k r).pkg = s.pkg := rfl
@[simp] theorem State.awaitReg_dies : (s.awaitReg i k r).dies = s.dies := rfl
@[simp] theorem State.awaitReg_parts : (s.awaitReg i k r).parts = s.parts := rfl
@[simp] theorem State.awaitReg_ctxs : (s.awaitReg i k r).ctxs = s.ctxs := rfl
@[simp] theorem State.awaitReg_slots : (s.awaitReg i k r).slots = s.slots := rfl
@[simp] theorem State.awaitReg_mem : (s.awaitReg i k r).mem = s.mem := rfl
@[simp] theorem State.awaitReg_memBad : (s.awaitReg i k r).memBad = s.memBad := rfl
@[simp] theorem State.awaitReg_log : (s.awaitReg i k r).log = s.log := rfl
@[simp] theorem State.awaitReg_flying : (s.awaitReg i k r).flying = s.flying := rfl
@[simp] theorem State.awaitReg_lines : (s.awaitReg i k r).lines = s.lines := rfl
@[simp] theorem State.awaitReg_resps : (s.awaitReg i k r).resps = s.resps := rfl
@[simp] theorem State.awaitReg_invals : (s.awaitReg i k r).invals = s.invals := rfl
@[simp] theorem State.awaitReg_nextId : (s.awaitReg i k r).nextId = s.nextId := rfl
@[simp] theorem State.awaitReg_fresh : (s.awaitReg i k r).fresh = s.fresh := rfl
@[simp] theorem State.awaitReg_focus : (s.awaitReg i k r).focus = s.focus := rfl
@[simp] theorem State.awaitReg_agenda : (s.awaitReg i k r).agenda = s.agenda := rfl
end awaitReg

section modIssue
variable (s : State) (f : Issue → Issue)
@[simp] theorem State.modIssue_pkg : (s.modIssue f).pkg = s.pkg := rfl
@[simp] theorem State.modIssue_dies : (s.modIssue f).dies = s.dies := rfl
@[simp] theorem State.modIssue_parts : (s.modIssue f).parts = s.parts := rfl
@[simp] theorem State.modIssue_ctxs : (s.modIssue f).ctxs = s.ctxs := rfl
@[simp] theorem State.modIssue_slots : (s.modIssue f).slots = s.slots := rfl
@[simp] theorem State.modIssue_mem : (s.modIssue f).mem = s.mem := rfl
@[simp] theorem State.modIssue_memBad : (s.modIssue f).memBad = s.memBad := rfl
@[simp] theorem State.modIssue_log : (s.modIssue f).log = s.log := rfl
@[simp] theorem State.modIssue_flying : (s.modIssue f).flying = s.flying := rfl
@[simp] theorem State.modIssue_lines : (s.modIssue f).lines = s.lines := rfl
@[simp] theorem State.modIssue_resps : (s.modIssue f).resps = s.resps := rfl
@[simp] theorem State.modIssue_invals : (s.modIssue f).invals = s.invals := rfl
@[simp] theorem State.modIssue_nextId : (s.modIssue f).nextId = s.nextId := rfl
@[simp] theorem State.modIssue_fresh : (s.modIssue f).fresh = s.fresh := rfl
@[simp] theorem State.modIssue_focus : (s.modIssue f).focus = s.focus := rfl
@[simp] theorem State.modIssue_agenda : (s.modIssue f).agenda = s.agenda := rfl
end modIssue

section goTo
variable (s : State) (pc : BitVec 32)
@[simp] theorem State.goTo_pkg : (s.goTo pc).pkg = s.pkg := rfl
@[simp] theorem State.goTo_dies : (s.goTo pc).dies = s.dies := rfl
@[simp] theorem State.goTo_parts : (s.goTo pc).parts = s.parts := rfl
@[simp] theorem State.goTo_ctxs : (s.goTo pc).ctxs = s.ctxs := rfl
@[simp] theorem State.goTo_slots : (s.goTo pc).slots = s.slots := rfl
@[simp] theorem State.goTo_mem : (s.goTo pc).mem = s.mem := rfl
@[simp] theorem State.goTo_memBad : (s.goTo pc).memBad = s.memBad := rfl
@[simp] theorem State.goTo_log : (s.goTo pc).log = s.log := rfl
@[simp] theorem State.goTo_flying : (s.goTo pc).flying = s.flying := rfl
@[simp] theorem State.goTo_lines : (s.goTo pc).lines = s.lines := rfl
@[simp] theorem State.goTo_resps : (s.goTo pc).resps = s.resps := rfl
@[simp] theorem State.goTo_invals : (s.goTo pc).invals = s.invals := rfl
@[simp] theorem State.goTo_nextId : (s.goTo pc).nextId = s.nextId := rfl
@[simp] theorem State.goTo_fresh : (s.goTo pc).fresh = s.fresh := rfl
@[simp] theorem State.goTo_focus : (s.goTo pc).focus = s.focus := rfl
@[simp] theorem State.goTo_agenda : (s.goTo pc).agenda = s.agenda := rfl
end goTo

section atEnd
variable (s : State) (a : BAct)
@[simp] theorem State.atEnd_pkg : (s.atEnd a).pkg = s.pkg := rfl
@[simp] theorem State.atEnd_dies : (s.atEnd a).dies = s.dies := rfl
@[simp] theorem State.atEnd_parts : (s.atEnd a).parts = s.parts := rfl
@[simp] theorem State.atEnd_ctxs : (s.atEnd a).ctxs = s.ctxs := rfl
@[simp] theorem State.atEnd_slots : (s.atEnd a).slots = s.slots := rfl
@[simp] theorem State.atEnd_mem : (s.atEnd a).mem = s.mem := rfl
@[simp] theorem State.atEnd_memBad : (s.atEnd a).memBad = s.memBad := rfl
@[simp] theorem State.atEnd_log : (s.atEnd a).log = s.log := rfl
@[simp] theorem State.atEnd_flying : (s.atEnd a).flying = s.flying := rfl
@[simp] theorem State.atEnd_lines : (s.atEnd a).lines = s.lines := rfl
@[simp] theorem State.atEnd_resps : (s.atEnd a).resps = s.resps := rfl
@[simp] theorem State.atEnd_invals : (s.atEnd a).invals = s.invals := rfl
@[simp] theorem State.atEnd_nextId : (s.atEnd a).nextId = s.nextId := rfl
@[simp] theorem State.atEnd_fresh : (s.atEnd a).fresh = s.fresh := rfl
@[simp] theorem State.atEnd_focus : (s.atEnd a).focus = s.focus := rfl
@[simp] theorem State.atEnd_agenda : (s.atEnd a).agenda = s.agenda := rfl
end atEnd

section windowAdd
variable (s : State) (d c y x : Nat)
@[simp] theorem State.windowAdd_dies : (s.windowAdd d c y x).dies = s.dies := rfl
@[simp] theorem State.windowAdd_tiles : (s.windowAdd d c y x).tiles = s.tiles := rfl
@[simp] theorem State.windowAdd_parts : (s.windowAdd d c y x).parts = s.parts := rfl
@[simp] theorem State.windowAdd_ctxs : (s.windowAdd d c y x).ctxs = s.ctxs := rfl
@[simp] theorem State.windowAdd_slots : (s.windowAdd d c y x).slots = s.slots := rfl
@[simp] theorem State.windowAdd_mem : (s.windowAdd d c y x).mem = s.mem := rfl
@[simp] theorem State.windowAdd_memBad : (s.windowAdd d c y x).memBad = s.memBad := rfl
@[simp] theorem State.windowAdd_log : (s.windowAdd d c y x).log = s.log := rfl
@[simp] theorem State.windowAdd_flying : (s.windowAdd d c y x).flying = s.flying := rfl
@[simp] theorem State.windowAdd_lines : (s.windowAdd d c y x).lines = s.lines := rfl
@[simp] theorem State.windowAdd_resps : (s.windowAdd d c y x).resps = s.resps := rfl
@[simp] theorem State.windowAdd_invals : (s.windowAdd d c y x).invals = s.invals := rfl
@[simp] theorem State.windowAdd_nextId : (s.windowAdd d c y x).nextId = s.nextId := rfl
@[simp] theorem State.windowAdd_fresh : (s.windowAdd d c y x).fresh = s.fresh := rfl
@[simp] theorem State.windowAdd_focus : (s.windowAdd d c y x).focus = s.focus := rfl
@[simp] theorem State.windowAdd_agenda : (s.windowAdd d c y x).agenda = s.agenda := rfl
end windowAdd

/-! ## What the changed part reads as -/

/-- A tile read back after a change of it. -/
@[simp] theorem State.tile_modTile_same (s : State) (t : Nat) (f : Tile → Tile) : (s.modTile t f).tile t = f (s.tile t) := by
  simp [State.modTile, State.setTile, State.tile]
/-- Every other tile is as it was. -/
theorem State.tile_modTile_other (s : State) {u t : Nat} (f : Tile → Tile) (h : u ≠ t) : (s.modTile t f).tile u = s.tile u := by
  simp [State.modTile, State.setTile, State.tile, AMap.get_set_other _ _ _ h]
/-- Any tile after a change of one. -/
theorem State.tile_modTile (s : State) (u t : Nat) (f : Tile → Tile) :
    (s.modTile t f).tile u = if u = t then f (s.tile t) else s.tile u := by
  split
  · rename_i h; subst h; simp
  · rename_i h; exact s.tile_modTile_other f h
/-- Two changes of one tile. -/
@[simp] theorem State.modTile_modTile (s : State) (t : Nat) (f g : Tile → Tile) :
    (s.modTile t f).modTile t g = s.modTile t (fun u => g (f u)) := by
  simp [State.modTile, State.setTile, State.tile]
/-- A change of a strand is a change of its tile. -/
theorem State.modStrand_eq (s : State) (t n : Nat) (f : Strand → Strand) :
    s.modStrand t n f = s.modTile t (fun u => u.modStrand n f) := rfl
/-- A strand read back after a change of it. -/
@[simp] theorem Tile.strand_modStrand_same (u : Tile) (n : Nat) (f : Strand → Strand) : (u.modStrand n f).strand n = f (u.strand n) := by
  simp [Tile.modStrand, Tile.strand]
/-- Every other strand of the tile is as it was. -/
theorem Tile.strand_modStrand_other (u : Tile) {m n : Nat} (f : Strand → Strand) (h : m ≠ n) :
    (u.modStrand n f).strand m = u.strand m := by
  simp [Tile.modStrand, Tile.strand, AMap.get_set_other _ _ _ h]
/-- Two changes of one strand. -/
@[simp] theorem Tile.modStrand_modStrand (u : Tile) (n : Nat) (f g : Strand → Strand) :
    (u.modStrand n f).modStrand n g = u.modStrand n (fun st => g (f st)) := by
  simp [Tile.modStrand, Tile.strand]
/-- A strand read back after a change of it. -/
@[simp] theorem State.strand_modStrand_same (s : State) (t n : Nat) (f : Strand → Strand) :
    (s.modStrand t n f).strand t n = f (s.strand t n) := by
  simp [State.modStrand, State.strand]
/-- Every other strand is as it was. -/
theorem State.strand_modStrand_other (s : State) {t n u m : Nat} (f : Strand → Strand) (h : u ≠ t ∨ m ≠ n) :
    (s.modStrand t n f).strand u m = s.strand u m := by
  unfold State.modStrand State.strand
  rw [State.tile_modTile]
  split
  · rename_i e; subst e; exact Tile.strand_modStrand_other _ f (h.resolve_left (by simp))
  · rfl
/-- A die, a context, a partition read back after a change of it. -/
@[simp] theorem State.die_modDie_same (s : State) (d : Nat) (f : Die → Die) : (s.modDie d f).die d = f (s.die d) := by
  simp [State.modDie, State.die]
theorem State.die_modDie_other (s : State) {e d : Nat} (f : Die → Die) (h : e ≠ d) : (s.modDie d f).die e = s.die e := by
  simp [State.modDie, State.die, AMap.get_set_other _ _ _ h]
@[simp] theorem State.ctx_modCtx_same (s : State) (c : Nat) (f : Context → Context) : (s.modCtx c f).ctx c = f (s.ctx c) := by
  simp [State.modCtx, State.ctx]
theorem State.ctx_modCtx_other (s : State) {e c : Nat} (f : Context → Context) (h : e ≠ c) : (s.modCtx c f).ctx e = s.ctx e := by
  simp [State.modCtx, State.ctx, AMap.get_set_other _ _ _ h]
@[simp] theorem State.part_modPart_same (s : State) (p : Nat) (f : Partition → Partition) : (s.modPart p f).part p = f (s.part p) := by
  simp [State.modPart, State.part]
theorem State.part_modPart_other (s : State) {e p : Nat} (f : Partition → Partition) (h : e ≠ p) :
    (s.modPart p f).part e = s.part e := by
  simp [State.modPart, State.part, AMap.get_set_other _ _ _ h]
@[simp] theorem State.modPkg_pkg (s : State) (f : Package → Package) : (s.modPkg f).pkg = f s.pkg := rfl

/-! ## Readers that an update of another part leaves -/

section setTile_reads
variable (s : State) (t : Nat) (v : Tile)
@[simp] theorem State.die_setTile (e : Nat) : (s.setTile t v).die e = s.die e := rfl
@[simp] theorem State.ctx_setTile (e : Nat) : (s.setTile t v).ctx e = s.ctx e := rfl
@[simp] theorem State.part_setTile (e : Nat) : (s.setTile t v).part e = s.part e := rfl
end setTile_reads

section modTile_reads
variable (s : State) (t : Nat) (f : Tile → Tile)
@[simp] theorem State.die_modTile (e : Nat) : (s.modTile t f).die e = s.die e := rfl
@[simp] theorem State.ctx_modTile (e : Nat) : (s.modTile t f).ctx e = s.ctx e := rfl
@[simp] theorem State.part_modTile (e : Nat) : (s.modTile t f).part e = s.part e := rfl
end modTile_reads

section modStrand_reads
variable (s : State) (t n : Nat) (f : Strand → Strand)
@[simp] theorem State.die_modStrand (e : Nat) : (s.modStrand t n f).die e = s.die e := rfl
@[simp] theorem State.ctx_modStrand (e : Nat) : (s.modStrand t n f).ctx e = s.ctx e := rfl
@[simp] theorem State.part_modStrand (e : Nat) : (s.modStrand t n f).part e = s.part e := rfl
end modStrand_reads

section modMe_reads
variable (s : State) (f : Strand → Strand)
@[simp] theorem State.die_modMe (e : Nat) : (s.modMe f).die e = s.die e := rfl
@[simp] theorem State.ctx_modMe (e : Nat) : (s.modMe f).ctx e = s.ctx e := rfl
@[simp] theorem State.part_modMe (e : Nat) : (s.modMe f).part e = s.part e := rfl
end modMe_reads

section modDie_reads
variable (s : State) (d : Nat) (f : Die → Die)
@[simp] theorem State.tile_modDie (u : Nat) : (s.modDie d f).tile u = s.tile u := rfl
@[simp] theorem State.ctx_modDie (e : Nat) : (s.modDie d f).ctx e = s.ctx e := rfl
@[simp] theorem State.part_modDie (e : Nat) : (s.modDie d f).part e = s.part e := rfl
end modDie_reads

section modCtx_reads
variable (s : State) (c : Nat) (f : Context → Context)
@[simp] theorem State.tile_modCtx (u : Nat) : (s.modCtx c f).tile u = s.tile u := rfl
@[simp] theorem State.die_modCtx (e : Nat) : (s.modCtx c f).die e = s.die e := rfl
@[simp] theorem State.part_modCtx (e : Nat) : (s.modCtx c f).part e = s.part e := rfl
end modCtx_reads

section modPart_reads
variable (s : State) (p : Nat) (f : Partition → Partition)
@[simp] theorem State.tile_modPart (u : Nat) : (s.modPart p f).tile u = s.tile u := rfl
@[simp] theorem State.die_modPart (e : Nat) : (s.modPart p f).die e = s.die e := rfl
@[simp] theorem State.ctx_modPart (e : Nat) : (s.modPart p f).ctx e = s.ctx e := rfl
end modPart_reads

section modPkg_reads
variable (s : State) (f : Package → Package)
@[simp] theorem State.tile_modPkg (u : Nat) : (s.modPkg f).tile u = s.tile u := rfl
@[simp] theorem State.die_modPkg (e : Nat) : (s.modPkg f).die e = s.die e := rfl
@[simp] theorem State.ctx_modPkg (e : Nat) : (s.modPkg f).ctx e = s.ctx e := rfl
@[simp] theorem State.part_modPkg (e : Nat) : (s.modPkg f).part e = s.part e := rfl
end modPkg_reads

section modPipe_reads
variable (s : State) (c k : Nat) (f : Pipeline → Pipeline)
@[simp] theorem State.tile_modPipe (u : Nat) : (s.modPipe c k f).tile u = s.tile u := rfl
@[simp] theorem State.die_modPipe (e : Nat) : (s.modPipe c k f).die e = s.die e := rfl
@[simp] theorem State.part_modPipe (e : Nat) : (s.modPipe c k f).part e = s.part e := rfl
end modPipe_reads

section modStage_reads
variable (s : State) (c k g : Nat) (f : Stage → Stage)
@[simp] theorem State.tile_modStage (u : Nat) : (s.modStage c k g f).tile u = s.tile u := rfl
@[simp] theorem State.die_modStage (e : Nat) : (s.modStage c k g f).die e = s.die e := rfl
@[simp] theorem State.part_modStage (e : Nat) : (s.modStage c k g f).part e = s.part e := rfl
end modStage_reads

section modQueue_reads
variable (s : State) (c k q : Nat) (f : Queue → Queue)
@[simp] theorem State.tile_modQueue (u : Nat) : (s.modQueue c k q f).tile u = s.tile u := rfl
@[simp] theorem State.die_modQueue (e : Nat) : (s.modQueue c k q f).die e = s.die e := rfl
@[simp] theorem State.part_modQueue (e : Nat) : (s.modQueue c k q f).part e = s.part e := rfl
end modQueue_reads

section bump_reads
variable (s : State)
@[simp] theorem State.tile_bump (u : Nat) : (s.bump).tile u = s.tile u := rfl
@[simp] theorem State.die_bump (e : Nat) : (s.bump).die e = s.die e := rfl
@[simp] theorem State.ctx_bump (e : Nat) : (s.bump).ctx e = s.ctx e := rfl
@[simp] theorem State.part_bump (e : Nat) : (s.bump).part e = s.part e := rfl
end bump_reads

section wb_reads
variable (s : State) (k : Nat) (r : XReg) (v : Word)
@[simp] theorem State.die_wb (e : Nat) : (s.wb k r v).die e = s.die e := rfl
@[simp] theorem State.ctx_wb (e : Nat) : (s.wb k r v).ctx e = s.ctx e := rfl
@[simp] theorem State.part_wb (e : Nat) : (s.wb k r v).part e = s.part e := rfl
end wb_reads

section awaitReg_reads
variable (s : State) (i k : Nat) (r : XReg)
@[simp] theorem State.die_awaitReg (e : Nat) : (s.awaitReg i k r).die e = s.die e := rfl
@[simp] theorem State.ctx_awaitReg (e : Nat) : (s.awaitReg i k r).ctx e = s.ctx e := rfl
@[simp] theorem State.part_awaitReg (e : Nat) : (s.awaitReg i k r).part e = s.part e := rfl
end awaitReg_reads

section modIssue_reads
variable (s : State) (f : Issue → Issue)
@[simp] theorem State.die_modIssue (e : Nat) : (s.modIssue f).die e = s.die e := rfl
@[simp] theorem State.ctx_modIssue (e : Nat) : (s.modIssue f).ctx e = s.ctx e := rfl
@[simp] theorem State.part_modIssue (e : Nat) : (s.modIssue f).part e = s.part e := rfl
end modIssue_reads

section goTo_reads
variable (s : State) (pc : BitVec 32)
@[simp] theorem State.die_goTo (e : Nat) : (s.goTo pc).die e = s.die e := rfl
@[simp] theorem State.ctx_goTo (e : Nat) : (s.goTo pc).ctx e = s.ctx e := rfl
@[simp] theorem State.part_goTo (e : Nat) : (s.goTo pc).part e = s.part e := rfl
end goTo_reads

section atEnd_reads
variable (s : State) (a : BAct)
@[simp] theorem State.die_atEnd (e : Nat) : (s.atEnd a).die e = s.die e := rfl
@[simp] theorem State.ctx_atEnd (e : Nat) : (s.atEnd a).ctx e = s.ctx e := rfl
@[simp] theorem State.part_atEnd (e : Nat) : (s.atEnd a).part e = s.part e := rfl
end atEnd_reads

section windowAdd_reads
variable (s : State) (d c y x : Nat)
@[simp] theorem State.tile_windowAdd (u : Nat) : (s.windowAdd d c y x).tile u = s.tile u := rfl
@[simp] theorem State.die_windowAdd (e : Nat) : (s.windowAdd d c y x).die e = s.die e := rfl
@[simp] theorem State.ctx_windowAdd (e : Nat) : (s.windowAdd d c y x).ctx e = s.ctx e := rfl
@[simp] theorem State.part_windowAdd (e : Nat) : (s.windowAdd d c y x).part e = s.part e := rfl
end windowAdd_reads

/-! ## A strand changed: the tile's other fields -/

section Tile_modStrand
variable (u : Tile) (n : Nat) (f : Strand → Strand)
@[simp] theorem Tile.modStrand_ctx : (u.modStrand n f).ctx = u.ctx := rfl
@[simp] theorem Tile.modStrand_lcyc : (u.modStrand n f).lcyc = u.lcyc := rfl
@[simp] theorem Tile.modStrand_issued : (u.modStrand n f).issued = u.issued := rfl
@[simp] theorem Tile.modStrand_granted : (u.modStrand n f).granted = u.granted := rfl
@[simp] theorem Tile.modStrand_stage : (u.modStrand n f).stage = u.stage := rfl
@[simp] theorem Tile.modStrand_takeUp : (u.modStrand n f).takeUp = u.takeUp := rfl
@[simp] theorem Tile.modStrand_csb : (u.modStrand n f).csb = u.csb := rfl
@[simp] theorem Tile.modStrand_dictN : (u.modStrand n f).dictN = u.dictN := rfl
@[simp] theorem Tile.modStrand_code : (u.modStrand n f).code = u.code := rfl
@[simp] theorem Tile.modStrand_codeBad : (u.modStrand n f).codeBad = u.codeBad := rfl
@[simp] theorem Tile.modStrand_preload : (u.modStrand n f).preload = u.preload := rfl
@[simp] theorem Tile.modStrand_cur : (u.modStrand n f).cur = u.cur := rfl
@[simp] theorem Tile.modStrand_choosing : (u.modStrand n f).choosing = u.choosing := rfl
@[simp] theorem Tile.modStrand_held : (u.modStrand n f).held = u.held := rfl
@[simp] theorem Tile.modStrand_issue : (u.modStrand n f).issue = u.issue := rfl
@[simp] theorem Tile.modStrand_stopping : (u.modStrand n f).stopping = u.stopping := rfl
@[simp] theorem Tile.modStrand_status : (u.modStrand n f).status = u.status := rfl
@[simp] theorem Tile.modStrand_cmds : (u.modStrand n f).cmds = u.cmds := rfl
@[simp] theorem Tile.modStrand_sords : (u.modStrand n f).sords = u.sords := rfl
@[simp] theorem Tile.modStrand_nextOrder : (u.modStrand n f).nextOrder = u.nextOrder := rfl
@[simp] theorem Tile.modStrand_rrGrant : (u.modStrand n f).rrGrant = u.rrGrant := rfl
@[simp] theorem Tile.modStrand_emitting : (u.modStrand n f).emitting = u.emitting := rfl
@[simp] theorem Tile.modStrand_eosOut : (u.modStrand n f).eosOut = u.eosOut := rfl
@[simp] theorem Tile.modStrand_eosIn : (u.modStrand n f).eosIn = u.eosIn := rfl
@[simp] theorem Tile.modStrand_mcast : (u.modStrand n f).mcast = u.mcast := rfl
@[simp] theorem Tile.modStrand_donePast : (u.modStrand n f).donePast = u.donePast := rfl
@[simp] theorem Tile.modStrand_freeze : (u.modStrand n f).freeze = u.freeze := rfl
@[simp] theorem Tile.modStrand_image : (u.modStrand n f).image = u.image := rfl
@[simp] theorem Tile.modStrand_fargs : (u.modStrand n f).fargs = u.fargs := rfl
@[simp] theorem Tile.modStrand_load : (u.modStrand n f).load = u.load := rfl
@[simp] theorem Tile.modStrand_fstat : (u.modStrand n f).fstat = u.fstat := rfl
@[simp] theorem Tile.modStrand_roundTag : (u.modStrand n f).roundTag = u.roundTag := rfl
@[simp] theorem Tile.modStrand_arcs : (u.modStrand n f).arcs = u.arcs := rfl
@[simp] theorem Tile.modStrand_cells : (u.modStrand n f).cells = u.cells := rfl
@[simp] theorem Tile.modStrand_sram : (u.modStrand n f).sram = u.sram := rfl
@[simp] theorem Tile.modStrand_sramBad : (u.modStrand n f).sramBad = u.sramBad := rfl
@[simp] theorem Tile.modStrand_cellWrites : (u.modStrand n f).cellWrites = u.cellWrites := rfl
@[simp] theorem Tile.modStrand_sramPast : (u.modStrand n f).sramPast = u.sramPast := rfl
@[simp] theorem Tile.modStrand_primed : (u.modStrand n f).primed = u.primed := rfl
@[simp] theorem Tile.modStrand_matrix : (u.modStrand n f).matrix = u.matrix := rfl
@[simp] theorem Tile.modStrand_merge : (u.modStrand n f).merge = u.merge := rfl
@[simp] theorem Tile.modStrand_tableT : (u.modStrand n f).tableT = u.tableT := rfl
@[simp] theorem Tile.modStrand_tableP : (u.modStrand n f).tableP = u.tableP := rfl
@[simp] theorem Tile.modStrand_prevP : (u.modStrand n f).prevP = u.prevP := rfl
@[simp] theorem Tile.modStrand_utlb : (u.modStrand n f).utlb = u.utlb := rfl
@[simp] theorem Tile.modStrand_windows : (u.modStrand n f).windows = u.windows := rfl
@[simp] theorem Tile.modStrand_winRR : (u.modStrand n f).winRR = u.winRR := rfl
@[simp] theorem Tile.modStrand_residue : (u.modStrand n f).residue = u.residue := rfl
@[simp] theorem Tile.modStrand_houseResidue : (u.modStrand n f).houseResidue = u.houseResidue := rfl
@[simp] theorem Tile.modStrand_emtr : (u.modStrand n f).emtr = u.emtr := rfl
@[simp] theorem Tile.modStrand_active : (u.modStrand n f).active = u.active := rfl
@[simp] theorem Tile.modStrand_scale : (u.modStrand n f).scale = u.scale := rfl
@[simp] theorem Tile.modStrand_cursors : (u.modStrand n f).cursors = u.cursors := rfl
@[simp] theorem Tile.modStrand_holds : (u.modStrand n f).holds = u.holds := rfl
@[simp] theorem Tile.modStrand_checkpoint : (u.modStrand n f).checkpoint = u.checkpoint := rfl
@[simp] theorem Tile.modStrand_liveBanks : (u.modStrand n f).liveBanks = u.liveBanks := rfl
@[simp] theorem Tile.modStrand_steps : (u.modStrand n f).steps = u.steps := rfl
end Tile_modStrand

/-! ## Registers (R182) -/

/-- R182: x0 reads as zero. -/
@[simp] theorem Strand.rx_zero (st : Strand) : st.rx 0 = 0 := rfl
/-- R182: a write to x0 is discarded. -/
@[simp] theorem Strand.wx_zero (st : Strand) (v : Word) : st.wx 0 v = st := rfl
/-- A register written and read back, x0 apart. -/
theorem Strand.rx_wx_same (st : Strand) (r : XReg) (v : Word) : (st.wx r.toNat v).rx r = if r = 0 then 0 else v := by
  unfold Strand.rx
  split
  · rfl
  · rename_i h
    have : r.toNat ≠ 0 := fun e => h (BitVec.eq_of_toNat_eq (by simpa using e))
    simp [Strand.wx, this]
/-- Every other register is as it was. -/
theorem Strand.rx_wx_other (st : Strand) {r q : XReg} (v : Word) (h : q ≠ r) : (st.wx r.toNat v).rx q = st.rx q := by
  unfold Strand.wx Strand.rx
  split
  · rfl
  · have : q.toNat ≠ r.toNat := fun e => h (BitVec.eq_of_toNat_eq e)
    split
    · rfl
    · exact AMap.get_set_other _ _ _ this

end Sys2Proof.Machine
end

