-- ==== Sys2Proof/Laws/Memory.lean ====
section
/-! SUPPORT. Memory: a byte written is read back, every other byte reads as before, and every operation keeps the canonical form;
what bringing visibility up to date leaves as it was. -/

namespace Sys2Proof.Machine

/-! ## Bytes -/

/-- A byte reads 0 below the first address of a canonical memory. -/
theorem Memory.get_of_wfFrom : ∀ {m : List Host.Cell} {lo k : Nat}, Memory.wfFrom lo m = true → k < lo → Memory.get m k = 0
  | [], _, _, _, _ => rfl
  | (a, b) :: r, lo, k, h, hk => by
    simp only [Memory.wfFrom, Bool.and_eq_true, decide_eq_true_eq] at h
    have : k ≠ a := by omega
    simp only [Memory.get, this, if_false]
    exact Memory.get_of_wfFrom h.2 (by omega)

/-- A write leaves every other byte as it was. -/
theorem Memory.get_set_other : ∀ (m : List Host.Cell) {k j : Nat} (v : Byte), j ≠ k → Memory.get (Memory.set m k v) j = Memory.get m j
  | [], k, j, v, h => by
    simp only [Memory.set]; split <;> simp [Memory.get, h]
  | (a, b) :: r, k, j, v, h => by
    simp only [Memory.set]
    split
    · rename_i e; subst e
      split <;> simp [Memory.get, h]
    · split
      · split <;> simp [Memory.get, h]
      · simp only [Memory.get]
        split
        · rfl
        · exact Memory.get_set_other r v h

/-- A byte written is read back, from a canonical memory. -/
theorem Memory.get_set_same : ∀ {m : List Host.Cell} {lo : Nat} (k : Nat) (v : Byte), Memory.wfFrom lo m = true →
    Memory.get (Memory.set m k v) k = v
  | [], _, k, v, _ => by
    simp only [Memory.set]; split
    · rename_i h; simp [Memory.get, h]
    · simp [Memory.get]
  | (a, b) :: r, lo, k, v, h => by
    have h' := h
    simp only [Memory.wfFrom, Bool.and_eq_true, decide_eq_true_eq] at h
    simp only [Memory.set]
    split
    · rename_i e; subst e
      split
      · rename_i e; rw [e]; exact Memory.get_of_wfFrom h.2 (by omega)
      · simp [Memory.get]
    · rename_i ne
      split
      · rename_i lt
        split
        · rename_i e; rw [e]
          simp only [Memory.get, ne, if_false]
          exact Memory.get_of_wfFrom h.2 (by omega)
        · simp [Memory.get]
      · simp only [Memory.get, ne, if_false]
        exact Memory.get_set_same k v h.2

/-! ## The canonical form -/

/-- A write keeps the canonical form above any bound that it respects. -/
theorem Memory.wfFrom_set : ∀ {m : List Host.Cell} {lo : Nat} (k : Nat) (v : Byte), Memory.wfFrom lo m = true → lo ≤ k →
    Memory.wfFrom lo (Memory.set m k v) = true
  | [], lo, k, v, _, hk => by
    simp only [Memory.set]; split
    · rfl
    · rename_i h; simpa [Memory.wfFrom, hk] using h
  | (a, b) :: r, lo, k, v, h, hk => by
    have h' := h
    simp only [Memory.wfFrom, Bool.and_eq_true, decide_eq_true_eq] at h
    simp only [Memory.set]
    split
    · rename_i e; subst e
      split
      · cases r with
        | nil => rfl
        | cons c r =>
          obtain ⟨c, d⟩ := c
          have := h.2
          simp only [Memory.wfFrom, Bool.and_eq_true, decide_eq_true_eq] at this ⊢
          exact ⟨⟨by omega, this.1.2⟩, this.2⟩
      · rename_i hv; simpa [Memory.wfFrom, hk, h.2] using hv
    · split
      · rename_i lt
        split
        · exact h'
        · rename_i hv
          simp only [Memory.wfFrom, Bool.and_eq_true, decide_eq_true_eq]
          exact ⟨⟨hk, by simpa using hv⟩, ⟨by omega, h.1.2⟩, h.2⟩
      · rename_i ne lt
        simp only [Memory.wfFrom, Bool.and_eq_true, decide_eq_true_eq]
        exact ⟨h.1, Memory.wfFrom_set k v h.2 (by omega)⟩

/-- A byte written keeps the canonical form. -/
theorem Memory.wf_set {m : List Host.Cell} (k : Nat) (v : Byte) (h : Memory.wf m = true) : Memory.wf (Memory.set m k v) = true :=
  Memory.wfFrom_set k v h (Nat.zero_le k)

/-- Bytes written keep the canonical form. -/
theorem Memory.wf_setBytes : ∀ (l : List Byte) {m : List Host.Cell} (a : Nat), Memory.wf m = true → Memory.wf (Memory.setBytes m a l) = true
  | [], _, _, h => h
  | b :: l, _, a, h => Memory.wf_setBytes l (a + 1) (Memory.wf_set a b h)

/-- Bytes written leave every byte outside them as it was. -/
theorem Memory.get_setBytes_other : ∀ (l : List Byte) (m : List Host.Cell) (a : Nat) {j : Nat}, j < a ∨ a + l.length ≤ j →
    Memory.get (Memory.setBytes m a l) j = Memory.get m j
  | [], _, _, _, _ => rfl
  | b :: l, m, a, j, h => by
    simp only [List.length_cons] at h
    rw [Memory.setBytes, Memory.get_setBytes_other l _ (a + 1) (by omega), Memory.get_set_other m b (by omega)]

/-- Bytes written are read back, from a canonical memory. -/
theorem Memory.get_setBytes_same : ∀ (l : List Byte) (m : List Host.Cell) (a i : Nat), Memory.wf m = true → i < l.length →
    Memory.get (Memory.setBytes m a l) (a + i) = l.getD i 0
  | [], _, _, _, _, h => by simp at h
  | b :: l, m, a, 0, hm, _ => by
    rw [Memory.setBytes, Memory.get_setBytes_other l _ (a + 1) (by omega)]
    simpa using Memory.get_set_same a b hm
  | b :: l, m, a, i + 1, hm, h => by
    have := Memory.get_setBytes_same l (Memory.set m a b) (a + 1) i (Memory.wf_set a b hm) (by simpa using h)
    rw [Memory.setBytes, show a + (i + 1) = a + 1 + i by omega, this]
    simp

/-- A read sees bytes alone: two memories whose bytes agree read alike. -/
theorem Memory.read_congr {m m' : List Host.Cell} : ∀ (n a : Nat), (∀ j, a ≤ j → j < a + n → Memory.get m' j = Memory.get m j) →
    Memory.read m' a n = Memory.read m a n
  | 0, _, _ => rfl
  | n + 1, a, h => by
    rw [Memory.read, Memory.read, h a (by omega) (by omega), Memory.read_congr n (a + 1) (fun j h1 h2 => h j (by omega) (by omega))]

/-! ## Writes of the log that become settled memory -/

/-- Settling keeps the canonical form. -/
theorem wf_retireLog : ∀ (l : List WriteRec) {m : List Host.Cell} (b : List Nat), Memory.wf m = true →
    Memory.wf (retireLog l m b).2 = true
  | [], _, _, h => h
  | r :: l, m, b, h => by
    simp only [retireLog]
    split
    · exact wf_retireLog l b (Memory.wf_setBytes _ _ h)
    · exact wf_retireLog l (r.word :: b) h

section settle
variable (s : State)

@[simp] theorem settleOnce_mem : (settleOnce s).mem = s.mem := rfl

@[simp] theorem settleLoop_mem : ∀ (n : Nat) (s : State), (settleLoop n s).mem = s.mem
  | 0, _ => rfl
  | n + 1, s => by rw [settleLoop, settleLoop_mem n]; rfl

/-- Visibility brought up to date keeps memory canonical. -/
theorem State.wf_settle (h : Memory.wf s.mem = true) : Memory.wf (State.settle s).mem = true := by
  unfold State.settle
  exact wf_retireLog _ [] (by simpa using h)

/-- A write applied keeps memory canonical. -/
theorem State.wf_applyWrite (i d pa : Nat) (l : List Byte) (p : List Nat) (h : Memory.wf s.mem = true) :
    Memory.wf (s.applyWrite i d pa l p).mem = true := State.wf_settle _ h

/-- A write that fails keeps memory canonical. -/
theorem State.wf_dropWrite (i : Nat) (h : Memory.wf s.mem = true) : Memory.wf (s.dropWrite i).mem = true := State.wf_settle _ h

end settle

/-! ## What settling leaves: every field but the log and memory -/

@[simp] theorem settleLoop_pkg : ∀ (n : Nat) (s : State), (settleLoop n s).pkg = s.pkg
  | 0, _ => rfl
  | n + 1, s => by rw [settleLoop, settleLoop_pkg n]; rfl
@[simp] theorem State.settle_pkg (s : State) : (State.settle s).pkg = s.pkg := by simp [State.settle]
@[simp] theorem settleLoop_dies : ∀ (n : Nat) (s : State), (settleLoop n s).dies = s.dies
  | 0, _ => rfl
  | n + 1, s => by rw [settleLoop, settleLoop_dies n]; rfl
@[simp] theorem State.settle_dies (s : State) : (State.settle s).dies = s.dies := by simp [State.settle]
@[simp] theorem settleLoop_tiles : ∀ (n : Nat) (s : State), (settleLoop n s).tiles = s.tiles
  | 0, _ => rfl
  | n + 1, s => by rw [settleLoop, settleLoop_tiles n]; rfl
@[simp] theorem State.settle_tiles (s : State) : (State.settle s).tiles = s.tiles := by simp [State.settle]
@[simp] theorem settleLoop_parts : ∀ (n : Nat) (s : State), (settleLoop n s).parts = s.parts
  | 0, _ => rfl
  | n + 1, s => by rw [settleLoop, settleLoop_parts n]; rfl
@[simp] theorem State.settle_parts (s : State) : (State.settle s).parts = s.parts := by simp [State.settle]
@[simp] theorem settleLoop_ctxs : ∀ (n : Nat) (s : State), (settleLoop n s).ctxs = s.ctxs
  | 0, _ => rfl
  | n + 1, s => by rw [settleLoop, settleLoop_ctxs n]; rfl
@[simp] theorem State.settle_ctxs (s : State) : (State.settle s).ctxs = s.ctxs := by simp [State.settle]
@[simp] theorem settleLoop_slots : ∀ (n : Nat) (s : State), (settleLoop n s).slots = s.slots
  | 0, _ => rfl
  | n + 1, s => by rw [settleLoop, settleLoop_slots n]; rfl
@[simp] theorem State.settle_slots (s : State) : (State.settle s).slots = s.slots := by simp [State.settle]
@[simp] theorem settleLoop_memBad : ∀ (n : Nat) (s : State), (settleLoop n s).memBad = s.memBad
  | 0, _ => rfl
  | n + 1, s => by rw [settleLoop, settleLoop_memBad n]; rfl
@[simp] theorem State.settle_memBad (s : State) : (State.settle s).memBad = s.memBad := by simp [State.settle]
@[simp] theorem settleLoop_flying : ∀ (n : Nat) (s : State), (settleLoop n s).flying = s.flying
  | 0, _ => rfl
  | n + 1, s => by rw [settleLoop, settleLoop_flying n]; rfl
@[simp] theorem State.settle_flying (s : State) : (State.settle s).flying = s.flying := by simp [State.settle]
@[simp] theorem settleLoop_lines : ∀ (n : Nat) (s : State), (settleLoop n s).lines = s.lines
  | 0, _ => rfl
  | n + 1, s => by rw [settleLoop, settleLoop_lines n]; rfl
@[simp] theorem State.settle_lines (s : State) : (State.settle s).lines = s.lines := by simp [State.settle]
@[simp] theorem settleLoop_resps : ∀ (n : Nat) (s : State), (settleLoop n s).resps = s.resps
  | 0, _ => rfl
  | n + 1, s => by rw [settleLoop, settleLoop_resps n]; rfl
@[simp] theorem State.settle_resps (s : State) : (State.settle s).resps = s.resps := by simp [State.settle]
@[simp] theorem settleLoop_invals : ∀ (n : Nat) (s : State), (settleLoop n s).invals = s.invals
  | 0, _ => rfl
  | n + 1, s => by rw [settleLoop, settleLoop_invals n]; rfl
@[simp] theorem State.settle_invals (s : State) : (State.settle s).invals = s.invals := by simp [State.settle]
@[simp] theorem settleLoop_nextId : ∀ (n : Nat) (s : State), (settleLoop n s).nextId = s.nextId
  | 0, _ => rfl
  | n + 1, s => by rw [settleLoop, settleLoop_nextId n]; rfl
@[simp] theorem State.settle_nextId (s : State) : (State.settle s).nextId = s.nextId := by simp [State.settle]
@[simp] theorem settleLoop_fresh : ∀ (n : Nat) (s : State), (settleLoop n s).fresh = s.fresh
  | 0, _ => rfl
  | n + 1, s => by rw [settleLoop, settleLoop_fresh n]; rfl
@[simp] theorem State.settle_fresh (s : State) : (State.settle s).fresh = s.fresh := by simp [State.settle]
@[simp] theorem settleLoop_focus : ∀ (n : Nat) (s : State), (settleLoop n s).focus = s.focus
  | 0, _ => rfl
  | n + 1, s => by rw [settleLoop, settleLoop_focus n]; rfl
@[simp] theorem State.settle_focus (s : State) : (State.settle s).focus = s.focus := by simp [State.settle]
@[simp] theorem settleLoop_agenda : ∀ (n : Nat) (s : State), (settleLoop n s).agenda = s.agenda
  | 0, _ => rfl
  | n + 1, s => by rw [settleLoop, settleLoop_agenda n]; rfl
@[simp] theorem State.settle_agenda (s : State) : (State.settle s).agenda = s.agenda := by simp [State.settle]
@[simp] theorem State.applyWrite_pkg (s : State) (i d pa : Nat) (l : List Byte) (p : List Nat) : (s.applyWrite i d pa l p).pkg = s.pkg := by simp [State.applyWrite]
@[simp] theorem State.applyWrite_dies (s : State) (i d pa : Nat) (l : List Byte) (p : List Nat) : (s.applyWrite i d pa l p).dies = s.dies := by simp [State.applyWrite]
@[simp] theorem State.applyWrite_tiles (s : State) (i d pa : Nat) (l : List Byte) (p : List Nat) : (s.applyWrite i d pa l p).tiles = s.tiles := by simp [State.applyWrite]
@[simp] theorem State.applyWrite_parts (s : State) (i d pa : Nat) (l : List Byte) (p : List Nat) : (s.applyWrite i d pa l p).parts = s.parts := by simp [State.applyWrite]
@[simp] theorem State.applyWrite_ctxs (s : State) (i d pa : Nat) (l : List Byte) (p : List Nat) : (s.applyWrite i d pa l p).ctxs = s.ctxs := by simp [State.applyWrite]
@[simp] theorem State.applyWrite_slots (s : State) (i d pa : Nat) (l : List Byte) (p : List Nat) : (s.applyWrite i d pa l p).slots = s.slots := by simp [State.applyWrite]
@[simp] theorem State.applyWrite_memBad (s : State) (i d pa : Nat) (l : List Byte) (p : List Nat) : (s.applyWrite i d pa l p).memBad = s.memBad := by simp [State.applyWrite]
@[simp] theorem State.applyWrite_lines (s : State) (i d pa : Nat) (l : List Byte) (p : List Nat) : (s.applyWrite i d pa l p).lines = s.lines := by simp [State.applyWrite]
@[simp] theorem State.applyWrite_resps (s : State) (i d pa : Nat) (l : List Byte) (p : List Nat) : (s.applyWrite i d pa l p).resps = s.resps := by simp [State.applyWrite]
@[simp] theorem State.applyWrite_invals (s : State) (i d pa : Nat) (l : List Byte) (p : List Nat) : (s.applyWrite i d pa l p).invals = s.invals := by simp [State.applyWrite]
@[simp] theorem State.applyWrite_nextId (s : State) (i d pa : Nat) (l : List Byte) (p : List Nat) : (s.applyWrite i d pa l p).nextId = s.nextId := by simp [State.applyWrite]
@[simp] theorem State.applyWrite_fresh (s : State) (i d pa : Nat) (l : List Byte) (p : List Nat) : (s.applyWrite i d pa l p).fresh = s.fresh := by simp [State.applyWrite]
@[simp] theorem State.applyWrite_focus (s : State) (i d pa : Nat) (l : List Byte) (p : List Nat) : (s.applyWrite i d pa l p).focus = s.focus := by simp [State.applyWrite]
@[simp] theorem State.applyWrite_agenda (s : State) (i d pa : Nat) (l : List Byte) (p : List Nat) : (s.applyWrite i d pa l p).agenda = s.agenda := by simp [State.applyWrite]
@[simp] theorem State.dropWrite_pkg (s : State) (i : Nat) : (s.dropWrite i).pkg = s.pkg := by simp [State.dropWrite]
@[simp] theorem State.dropWrite_dies (s : State) (i : Nat) : (s.dropWrite i).dies = s.dies := by simp [State.dropWrite]
@[simp] theorem State.dropWrite_tiles (s : State) (i : Nat) : (s.dropWrite i).tiles = s.tiles := by simp [State.dropWrite]
@[simp] theorem State.dropWrite_parts (s : State) (i : Nat) : (s.dropWrite i).parts = s.parts := by simp [State.dropWrite]
@[simp] theorem State.dropWrite_ctxs (s : State) (i : Nat) : (s.dropWrite i).ctxs = s.ctxs := by simp [State.dropWrite]
@[simp] theorem State.dropWrite_slots (s : State) (i : Nat) : (s.dropWrite i).slots = s.slots := by simp [State.dropWrite]
@[simp] theorem State.dropWrite_memBad (s : State) (i : Nat) : (s.dropWrite i).memBad = s.memBad := by simp [State.dropWrite]
@[simp] theorem State.dropWrite_lines (s : State) (i : Nat) : (s.dropWrite i).lines = s.lines := by simp [State.dropWrite]
@[simp] theorem State.dropWrite_resps (s : State) (i : Nat) : (s.dropWrite i).resps = s.resps := by simp [State.dropWrite]
@[simp] theorem State.dropWrite_invals (s : State) (i : Nat) : (s.dropWrite i).invals = s.invals := by simp [State.dropWrite]
@[simp] theorem State.dropWrite_nextId (s : State) (i : Nat) : (s.dropWrite i).nextId = s.nextId := by simp [State.dropWrite]
@[simp] theorem State.dropWrite_fresh (s : State) (i : Nat) : (s.dropWrite i).fresh = s.fresh := by simp [State.dropWrite]
@[simp] theorem State.dropWrite_focus (s : State) (i : Nat) : (s.dropWrite i).focus = s.focus := by simp [State.dropWrite]
@[simp] theorem State.dropWrite_agenda (s : State) (i : Nat) : (s.dropWrite i).agenda = s.agenda := by simp [State.dropWrite]

/-! ## Charges and messages leave memory, tiles' registers and pipelines alone -/

@[simp] theorem State.charge_dies (s : State) (t k n : Nat) (o : Option Nat) : (s.charge t k n o).dies = s.dies := by
  unfold State.charge
  cases o <;> (dsimp only; split <;> rfl)
@[simp] theorem State.charge_parts (s : State) (t k n : Nat) (o : Option Nat) : (s.charge t k n o).parts = s.parts := by
  unfold State.charge
  cases o <;> (dsimp only; split <;> rfl)
@[simp] theorem State.charge_ctxs (s : State) (t k n : Nat) (o : Option Nat) : (s.charge t k n o).ctxs = s.ctxs := by
  unfold State.charge
  cases o <;> (dsimp only; split <;> rfl)
@[simp] theorem State.charge_slots (s : State) (t k n : Nat) (o : Option Nat) : (s.charge t k n o).slots = s.slots := by
  unfold State.charge
  cases o <;> (dsimp only; split <;> rfl)
@[simp] theorem State.charge_mem (s : State) (t k n : Nat) (o : Option Nat) : (s.charge t k n o).mem = s.mem := by
  unfold State.charge
  cases o <;> (dsimp only; split <;> rfl)
@[simp] theorem State.charge_memBad (s : State) (t k n : Nat) (o : Option Nat) : (s.charge t k n o).memBad = s.memBad := by
  unfold State.charge
  cases o <;> (dsimp only; split <;> rfl)
@[simp] theorem State.charge_log (s : State) (t k n : Nat) (o : Option Nat) : (s.charge t k n o).log = s.log := by
  unfold State.charge
  cases o <;> (dsimp only; split <;> rfl)
@[simp] theorem State.charge_flying (s : State) (t k n : Nat) (o : Option Nat) : (s.charge t k n o).flying = s.flying := by
  unfold State.charge
  cases o <;> (dsimp only; split <;> rfl)
@[simp] theorem State.charge_lines (s : State) (t k n : Nat) (o : Option Nat) : (s.charge t k n o).lines = s.lines := by
  unfold State.charge
  cases o <;> (dsimp only; split <;> rfl)
@[simp] theorem State.charge_resps (s : State) (t k n : Nat) (o : Option Nat) : (s.charge t k n o).resps = s.resps := by
  unfold State.charge
  cases o <;> (dsimp only; split <;> rfl)
@[simp] theorem State.charge_invals (s : State) (t k n : Nat) (o : Option Nat) : (s.charge t k n o).invals = s.invals := by
  unfold State.charge
  cases o <;> (dsimp only; split <;> rfl)
@[simp] theorem State.charge_nextId (s : State) (t k n : Nat) (o : Option Nat) : (s.charge t k n o).nextId = s.nextId := by
  unfold State.charge
  cases o <;> (dsimp only; split <;> rfl)
@[simp] theorem State.charge_fresh (s : State) (t k n : Nat) (o : Option Nat) : (s.charge t k n o).fresh = s.fresh := by
  unfold State.charge
  cases o <;> (dsimp only; split <;> rfl)
@[simp] theorem State.charge_focus (s : State) (t k n : Nat) (o : Option Nat) : (s.charge t k n o).focus = s.focus := by
  unfold State.charge
  cases o <;> (dsimp only; split <;> rfl)
@[simp] theorem State.charge_agenda (s : State) (t k n : Nat) (o : Option Nat) : (s.charge t k n o).agenda = s.agenda := by
  unfold State.charge
  cases o <;> (dsimp only; split <;> rfl)
@[simp] theorem State.uncore_tiles (s : State) (d c : Nat) (e : Uncore) (n m : Nat) : (s.uncore d c e n m).tiles = s.tiles := by unfold State.uncore State.toAccount; dsimp only; split <;> rfl
@[simp] theorem State.uncore_parts (s : State) (d c : Nat) (e : Uncore) (n m : Nat) : (s.uncore d c e n m).parts = s.parts := by unfold State.uncore State.toAccount; dsimp only; split <;> rfl
@[simp] theorem State.uncore_ctxs (s : State) (d c : Nat) (e : Uncore) (n m : Nat) : (s.uncore d c e n m).ctxs = s.ctxs := by unfold State.uncore State.toAccount; dsimp only; split <;> rfl
@[simp] theorem State.uncore_slots (s : State) (d c : Nat) (e : Uncore) (n m : Nat) : (s.uncore d c e n m).slots = s.slots := by unfold State.uncore State.toAccount; dsimp only; split <;> rfl
@[simp] theorem State.uncore_mem (s : State) (d c : Nat) (e : Uncore) (n m : Nat) : (s.uncore d c e n m).mem = s.mem := by unfold State.uncore State.toAccount; dsimp only; split <;> rfl
@[simp] theorem State.uncore_memBad (s : State) (d c : Nat) (e : Uncore) (n m : Nat) : (s.uncore d c e n m).memBad = s.memBad := by unfold State.uncore State.toAccount; dsimp only; split <;> rfl
@[simp] theorem State.uncore_log (s : State) (d c : Nat) (e : Uncore) (n m : Nat) : (s.uncore d c e n m).log = s.log := by unfold State.uncore State.toAccount; dsimp only; split <;> rfl
@[simp] theorem State.uncore_flying (s : State) (d c : Nat) (e : Uncore) (n m : Nat) : (s.uncore d c e n m).flying = s.flying := by unfold State.uncore State.toAccount; dsimp only; split <;> rfl
@[simp] theorem State.uncore_lines (s : State) (d c : Nat) (e : Uncore) (n m : Nat) : (s.uncore d c e n m).lines = s.lines := by unfold State.uncore State.toAccount; dsimp only; split <;> rfl
@[simp] theorem State.uncore_resps (s : State) (d c : Nat) (e : Uncore) (n m : Nat) : (s.uncore d c e n m).resps = s.resps := by unfold State.uncore State.toAccount; dsimp only; split <;> rfl
@[simp] theorem State.uncore_invals (s : State) (d c : Nat) (e : Uncore) (n m : Nat) : (s.uncore d c e n m).invals = s.invals := by unfold State.uncore State.toAccount; dsimp only; split <;> rfl
@[simp] theorem State.uncore_nextId (s : State) (d c : Nat) (e : Uncore) (n m : Nat) : (s.uncore d c e n m).nextId = s.nextId := by unfold State.uncore State.toAccount; dsimp only; split <;> rfl
@[simp] theorem State.uncore_fresh (s : State) (d c : Nat) (e : Uncore) (n m : Nat) : (s.uncore d c e n m).fresh = s.fresh := by unfold State.uncore State.toAccount; dsimp only; split <;> rfl
@[simp] theorem State.uncore_focus (s : State) (d c : Nat) (e : Uncore) (n m : Nat) : (s.uncore d c e n m).focus = s.focus := by unfold State.uncore State.toAccount; dsimp only; split <;> rfl
@[simp] theorem State.uncore_agenda (s : State) (d c : Nat) (e : Uncore) (n m : Nat) : (s.uncore d c e n m).agenda = s.agenda := by unfold State.uncore State.toAccount; dsimp only; split <;> rfl
/-- What a step of a fold keeps, the fold keeps. -/
theorem foldl_keeps {α β γ : Type} (g : α → γ) (f : α → β → α) (h : ∀ a b, g (f a b) = g a) : ∀ (l : List β) (a : α), g (l.foldl f a) = g a
  | [], _ => rfl
  | b :: l, a => (foldl_keeps g f h l (f a b)).trans (h a b)
@[simp] theorem State.chargeBridges_tiles (s : State) (c d e k : Nat) : (s.chargeBridges c d e k).tiles = s.tiles := by
  unfold State.chargeBridges; rw [foldl_keeps State.tiles]; intros; simp
@[simp] theorem State.chargeBridges_parts (s : State) (c d e k : Nat) : (s.chargeBridges c d e k).parts = s.parts := by
  unfold State.chargeBridges; rw [foldl_keeps State.parts]; intros; simp
@[simp] theorem State.chargeBridges_ctxs (s : State) (c d e k : Nat) : (s.chargeBridges c d e k).ctxs = s.ctxs := by
  unfold State.chargeBridges; rw [foldl_keeps State.ctxs]; intros; simp
@[simp] theorem State.chargeBridges_slots (s : State) (c d e k : Nat) : (s.chargeBridges c d e k).slots = s.slots := by
  unfold State.chargeBridges; rw [foldl_keeps State.slots]; intros; simp
@[simp] theorem State.chargeBridges_mem (s : State) (c d e k : Nat) : (s.chargeBridges c d e k).mem = s.mem := by
  unfold State.chargeBridges; rw [foldl_keeps State.mem]; intros; simp
@[simp] theorem State.chargeBridges_memBad (s : State) (c d e k : Nat) : (s.chargeBridges c d e k).memBad = s.memBad := by
  unfold State.chargeBridges; rw [foldl_keeps State.memBad]; intros; simp
@[simp] theorem State.chargeBridges_log (s : State) (c d e k : Nat) : (s.chargeBridges c d e k).log = s.log := by
  unfold State.chargeBridges; rw [foldl_keeps State.log]; intros; simp
@[simp] theorem State.chargeBridges_flying (s : State) (c d e k : Nat) : (s.chargeBridges c d e k).flying = s.flying := by
  unfold State.chargeBridges; rw [foldl_keeps State.flying]; intros; simp
@[simp] theorem State.chargeBridges_lines (s : State) (c d e k : Nat) : (s.chargeBridges c d e k).lines = s.lines := by
  unfold State.chargeBridges; rw [foldl_keeps State.lines]; intros; simp
@[simp] theorem State.chargeBridges_resps (s : State) (c d e k : Nat) : (s.chargeBridges c d e k).resps = s.resps := by
  unfold State.chargeBridges; rw [foldl_keeps State.resps]; intros; simp
@[simp] theorem State.chargeBridges_invals (s : State) (c d e k : Nat) : (s.chargeBridges c d e k).invals = s.invals := by
  unfold State.chargeBridges; rw [foldl_keeps State.invals]; intros; simp
@[simp] theorem State.chargeBridges_nextId (s : State) (c d e k : Nat) : (s.chargeBridges c d e k).nextId = s.nextId := by
  unfold State.chargeBridges; rw [foldl_keeps State.nextId]; intros; simp
@[simp] theorem State.chargeBridges_fresh (s : State) (c d e k : Nat) : (s.chargeBridges c d e k).fresh = s.fresh := by
  unfold State.chargeBridges; rw [foldl_keeps State.fresh]; intros; simp
@[simp] theorem State.chargeBridges_focus (s : State) (c d e k : Nat) : (s.chargeBridges c d e k).focus = s.focus := by
  unfold State.chargeBridges; rw [foldl_keeps State.focus]; intros; simp
@[simp] theorem State.chargeBridges_agenda (s : State) (c d e k : Nat) : (s.chargeBridges c d e k).agenda = s.agenda := by
  unfold State.chargeBridges; rw [foldl_keeps State.agenda]; intros; simp
@[simp] theorem State.chargeHops_tiles (s : State) (c d e : Nat) (h : Nat → Nat) (n : Nat) : (s.chargeHops c d e h n).tiles = s.tiles := by
  unfold State.chargeHops; rw [State.chargeBridges_tiles, foldl_keeps State.tiles]; intros; simp
@[simp] theorem State.chargeHops_parts (s : State) (c d e : Nat) (h : Nat → Nat) (n : Nat) : (s.chargeHops c d e h n).parts = s.parts := by
  unfold State.chargeHops; rw [State.chargeBridges_parts, foldl_keeps State.parts]; intros; simp
@[simp] theorem State.chargeHops_ctxs (s : State) (c d e : Nat) (h : Nat → Nat) (n : Nat) : (s.chargeHops c d e h n).ctxs = s.ctxs := by
  unfold State.chargeHops; rw [State.chargeBridges_ctxs, foldl_keeps State.ctxs]; intros; simp
@[simp] theorem State.chargeHops_slots (s : State) (c d e : Nat) (h : Nat → Nat) (n : Nat) : (s.chargeHops c d e h n).slots = s.slots := by
  unfold State.chargeHops; rw [State.chargeBridges_slots, foldl_keeps State.slots]; intros; simp
@[simp] theorem State.chargeHops_mem (s : State) (c d e : Nat) (h : Nat → Nat) (n : Nat) : (s.chargeHops c d e h n).mem = s.mem := by
  unfold State.chargeHops; rw [State.chargeBridges_mem, foldl_keeps State.mem]; intros; simp
@[simp] theorem State.chargeHops_memBad (s : State) (c d e : Nat) (h : Nat → Nat) (n : Nat) : (s.chargeHops c d e h n).memBad = s.memBad := by
  unfold State.chargeHops; rw [State.chargeBridges_memBad, foldl_keeps State.memBad]; intros; simp
@[simp] theorem State.chargeHops_log (s : State) (c d e : Nat) (h : Nat → Nat) (n : Nat) : (s.chargeHops c d e h n).log = s.log := by
  unfold State.chargeHops; rw [State.chargeBridges_log, foldl_keeps State.log]; intros; simp
@[simp] theorem State.chargeHops_flying (s : State) (c d e : Nat) (h : Nat → Nat) (n : Nat) : (s.chargeHops c d e h n).flying = s.flying := by
  unfold State.chargeHops; rw [State.chargeBridges_flying, foldl_keeps State.flying]; intros; simp
@[simp] theorem State.chargeHops_lines (s : State) (c d e : Nat) (h : Nat → Nat) (n : Nat) : (s.chargeHops c d e h n).lines = s.lines := by
  unfold State.chargeHops; rw [State.chargeBridges_lines, foldl_keeps State.lines]; intros; simp
@[simp] theorem State.chargeHops_resps (s : State) (c d e : Nat) (h : Nat → Nat) (n : Nat) : (s.chargeHops c d e h n).resps = s.resps := by
  unfold State.chargeHops; rw [State.chargeBridges_resps, foldl_keeps State.resps]; intros; simp
@[simp] theorem State.chargeHops_invals (s : State) (c d e : Nat) (h : Nat → Nat) (n : Nat) : (s.chargeHops c d e h n).invals = s.invals := by
  unfold State.chargeHops; rw [State.chargeBridges_invals, foldl_keeps State.invals]; intros; simp
@[simp] theorem State.chargeHops_nextId (s : State) (c d e : Nat) (h : Nat → Nat) (n : Nat) : (s.chargeHops c d e h n).nextId = s.nextId := by
  unfold State.chargeHops; rw [State.chargeBridges_nextId, foldl_keeps State.nextId]; intros; simp
@[simp] theorem State.chargeHops_fresh (s : State) (c d e : Nat) (h : Nat → Nat) (n : Nat) : (s.chargeHops c d e h n).fresh = s.fresh := by
  unfold State.chargeHops; rw [State.chargeBridges_fresh, foldl_keeps State.fresh]; intros; simp
@[simp] theorem State.chargeHops_focus (s : State) (c d e : Nat) (h : Nat → Nat) (n : Nat) : (s.chargeHops c d e h n).focus = s.focus := by
  unfold State.chargeHops; rw [State.chargeBridges_focus, foldl_keeps State.focus]; intros; simp
@[simp] theorem State.chargeHops_agenda (s : State) (c d e : Nat) (h : Nat → Nat) (n : Nat) : (s.chargeHops c d e h n).agenda = s.agenda := by
  unfold State.chargeHops; rw [State.chargeBridges_agenda, foldl_keeps State.agenda]; intros; simp
@[simp] theorem State.chargePath_tiles (s : State) (c t u n : Nat) : (s.chargePath c t u n).tiles = s.tiles := by simp [State.chargePath]
@[simp] theorem State.chargePath_parts (s : State) (c t u n : Nat) : (s.chargePath c t u n).parts = s.parts := by simp [State.chargePath]
@[simp] theorem State.chargePath_ctxs (s : State) (c t u n : Nat) : (s.chargePath c t u n).ctxs = s.ctxs := by simp [State.chargePath]
@[simp] theorem State.chargePath_slots (s : State) (c t u n : Nat) : (s.chargePath c t u n).slots = s.slots := by simp [State.chargePath]
@[simp] theorem State.chargePath_mem (s : State) (c t u n : Nat) : (s.chargePath c t u n).mem = s.mem := by simp [State.chargePath]
@[simp] theorem State.chargePath_memBad (s : State) (c t u n : Nat) : (s.chargePath c t u n).memBad = s.memBad := by simp [State.chargePath]
@[simp] theorem State.chargePath_log (s : State) (c t u n : Nat) : (s.chargePath c t u n).log = s.log := by simp [State.chargePath]
@[simp] theorem State.chargePath_flying (s : State) (c t u n : Nat) : (s.chargePath c t u n).flying = s.flying := by simp [State.chargePath]
@[simp] theorem State.chargePath_lines (s : State) (c t u n : Nat) : (s.chargePath c t u n).lines = s.lines := by simp [State.chargePath]
@[simp] theorem State.chargePath_resps (s : State) (c t u n : Nat) : (s.chargePath c t u n).resps = s.resps := by simp [State.chargePath]
@[simp] theorem State.chargePath_invals (s : State) (c t u n : Nat) : (s.chargePath c t u n).invals = s.invals := by simp [State.chargePath]
@[simp] theorem State.chargePath_nextId (s : State) (c t u n : Nat) : (s.chargePath c t u n).nextId = s.nextId := by simp [State.chargePath]
@[simp] theorem State.chargePath_fresh (s : State) (c t u n : Nat) : (s.chargePath c t u n).fresh = s.fresh := by simp [State.chargePath]
@[simp] theorem State.chargePath_focus (s : State) (c t u n : Nat) : (s.chargePath c t u n).focus = s.focus := by simp [State.chargePath]
@[simp] theorem State.chargePath_agenda (s : State) (c t u n : Nat) : (s.chargePath c t u n).agenda = s.agenda := by simp [State.chargePath]
@[simp] theorem State.frame_tiles (s : State) (c n : Nat) : (s.frame c n).tiles = s.tiles := by simp [State.frame]
@[simp] theorem State.frame_parts (s : State) (c n : Nat) : (s.frame c n).parts = s.parts := by simp [State.frame]
@[simp] theorem State.frame_ctxs (s : State) (c n : Nat) : (s.frame c n).ctxs = s.ctxs := by simp [State.frame]
@[simp] theorem State.frame_slots (s : State) (c n : Nat) : (s.frame c n).slots = s.slots := by simp [State.frame]
@[simp] theorem State.frame_mem (s : State) (c n : Nat) : (s.frame c n).mem = s.mem := by simp [State.frame]
@[simp] theorem State.frame_memBad (s : State) (c n : Nat) : (s.frame c n).memBad = s.memBad := by simp [State.frame]
@[simp] theorem State.frame_log (s : State) (c n : Nat) : (s.frame c n).log = s.log := by simp [State.frame]
@[simp] theorem State.frame_flying (s : State) (c n : Nat) : (s.frame c n).flying = s.flying := by simp [State.frame]
@[simp] theorem State.frame_lines (s : State) (c n : Nat) : (s.frame c n).lines = s.lines := by simp [State.frame]
@[simp] theorem State.frame_resps (s : State) (c n : Nat) : (s.frame c n).resps = s.resps := by simp [State.frame]
@[simp] theorem State.frame_invals (s : State) (c n : Nat) : (s.frame c n).invals = s.invals := by simp [State.frame]
@[simp] theorem State.frame_nextId (s : State) (c n : Nat) : (s.frame c n).nextId = s.nextId := by simp [State.frame]
@[simp] theorem State.frame_fresh (s : State) (c n : Nat) : (s.frame c n).fresh = s.fresh := by simp [State.frame]
@[simp] theorem State.frame_focus (s : State) (c n : Nat) : (s.frame c n).focus = s.focus := by simp [State.frame]
@[simp] theorem State.frame_agenda (s : State) (c n : Nat) : (s.frame c n).agenda = s.agenda := by simp [State.frame]
@[simp] theorem State.send_tiles (s : State) (e y r : Nat) (b : List Byte) : (s.send e y r b).tiles = s.tiles := by simp [State.send]
@[simp] theorem State.send_parts (s : State) (e y r : Nat) (b : List Byte) : (s.send e y r b).parts = s.parts := by simp [State.send]
@[simp] theorem State.send_ctxs (s : State) (e y r : Nat) (b : List Byte) : (s.send e y r b).ctxs = s.ctxs := by simp [State.send]
@[simp] theorem State.send_slots (s : State) (e y r : Nat) (b : List Byte) : (s.send e y r b).slots = s.slots := by simp [State.send]
@[simp] theorem State.send_mem (s : State) (e y r : Nat) (b : List Byte) : (s.send e y r b).mem = s.mem := by simp [State.send]
@[simp] theorem State.send_memBad (s : State) (e y r : Nat) (b : List Byte) : (s.send e y r b).memBad = s.memBad := by simp [State.send]
@[simp] theorem State.send_log (s : State) (e y r : Nat) (b : List Byte) : (s.send e y r b).log = s.log := by simp [State.send]
@[simp] theorem State.send_flying (s : State) (e y r : Nat) (b : List Byte) : (s.send e y r b).flying = s.flying := by simp [State.send]
@[simp] theorem State.send_lines (s : State) (e y r : Nat) (b : List Byte) : (s.send e y r b).lines = s.lines := by simp [State.send]
@[simp] theorem State.send_resps (s : State) (e y r : Nat) (b : List Byte) : (s.send e y r b).resps = s.resps := by simp [State.send]
@[simp] theorem State.send_invals (s : State) (e y r : Nat) (b : List Byte) : (s.send e y r b).invals = s.invals := by simp [State.send]
@[simp] theorem State.send_nextId (s : State) (e y r : Nat) (b : List Byte) : (s.send e y r b).nextId = s.nextId := by simp [State.send]
@[simp] theorem State.send_fresh (s : State) (e y r : Nat) (b : List Byte) : (s.send e y r b).fresh = s.fresh := by simp [State.send]
@[simp] theorem State.send_focus (s : State) (e y r : Nat) (b : List Byte) : (s.send e y r b).focus = s.focus := by simp [State.send]
@[simp] theorem State.send_agenda (s : State) (e y r : Nat) (b : List Byte) : (s.send e y r b).agenda = s.agenda := by simp [State.send]
@[simp] theorem State.event_tiles (s : State) (e y c : Nat) (b : List Byte) : (s.event e y c b).tiles = s.tiles := by simp [State.event]
@[simp] theorem State.event_parts (s : State) (e y c : Nat) (b : List Byte) : (s.event e y c b).parts = s.parts := by simp [State.event]
@[simp] theorem State.event_ctxs (s : State) (e y c : Nat) (b : List Byte) : (s.event e y c b).ctxs = s.ctxs := by simp [State.event]
@[simp] theorem State.event_slots (s : State) (e y c : Nat) (b : List Byte) : (s.event e y c b).slots = s.slots := by simp [State.event]
@[simp] theorem State.event_mem (s : State) (e y c : Nat) (b : List Byte) : (s.event e y c b).mem = s.mem := by simp [State.event]
@[simp] theorem State.event_memBad (s : State) (e y c : Nat) (b : List Byte) : (s.event e y c b).memBad = s.memBad := by simp [State.event]
@[simp] theorem State.event_log (s : State) (e y c : Nat) (b : List Byte) : (s.event e y c b).log = s.log := by simp [State.event]
@[simp] theorem State.event_flying (s : State) (e y c : Nat) (b : List Byte) : (s.event e y c b).flying = s.flying := by simp [State.event]
@[simp] theorem State.event_lines (s : State) (e y c : Nat) (b : List Byte) : (s.event e y c b).lines = s.lines := by simp [State.event]
@[simp] theorem State.event_resps (s : State) (e y c : Nat) (b : List Byte) : (s.event e y c b).resps = s.resps := by simp [State.event]
@[simp] theorem State.event_invals (s : State) (e y c : Nat) (b : List Byte) : (s.event e y c b).invals = s.invals := by simp [State.event]
@[simp] theorem State.event_nextId (s : State) (e y c : Nat) (b : List Byte) : (s.event e y c b).nextId = s.nextId := by simp [State.event]
@[simp] theorem State.event_fresh (s : State) (e y c : Nat) (b : List Byte) : (s.event e y c b).fresh = s.fresh := by simp [State.event]
@[simp] theorem State.event_focus (s : State) (e y c : Nat) (b : List Byte) : (s.event e y c b).focus = s.focus := by simp [State.event]
@[simp] theorem State.event_agenda (s : State) (e y c : Nat) (b : List Byte) : (s.event e y c b).agenda = s.agenda := by simp [State.event]
@[simp] theorem State.sendFault_tiles (s : State) (c : Nat) (r : FaultRec) : (s.sendFault c r).tiles = s.tiles := by simp [State.sendFault]
@[simp] theorem State.sendFault_parts (s : State) (c : Nat) (r : FaultRec) : (s.sendFault c r).parts = s.parts := by simp [State.sendFault]
@[simp] theorem State.sendFault_ctxs (s : State) (c : Nat) (r : FaultRec) : (s.sendFault c r).ctxs = s.ctxs := by simp [State.sendFault]
@[simp] theorem State.sendFault_slots (s : State) (c : Nat) (r : FaultRec) : (s.sendFault c r).slots = s.slots := by simp [State.sendFault]
@[simp] theorem State.sendFault_mem (s : State) (c : Nat) (r : FaultRec) : (s.sendFault c r).mem = s.mem := by simp [State.sendFault]
@[simp] theorem State.sendFault_memBad (s : State) (c : Nat) (r : FaultRec) : (s.sendFault c r).memBad = s.memBad := by simp [State.sendFault]
@[simp] theorem State.sendFault_log (s : State) (c : Nat) (r : FaultRec) : (s.sendFault c r).log = s.log := by simp [State.sendFault]
@[simp] theorem State.sendFault_flying (s : State) (c : Nat) (r : FaultRec) : (s.sendFault c r).flying = s.flying := by simp [State.sendFault]
@[simp] theorem State.sendFault_lines (s : State) (c : Nat) (r : FaultRec) : (s.sendFault c r).lines = s.lines := by simp [State.sendFault]
@[simp] theorem State.sendFault_resps (s : State) (c : Nat) (r : FaultRec) : (s.sendFault c r).resps = s.resps := by simp [State.sendFault]
@[simp] theorem State.sendFault_invals (s : State) (c : Nat) (r : FaultRec) : (s.sendFault c r).invals = s.invals := by simp [State.sendFault]
@[simp] theorem State.sendFault_nextId (s : State) (c : Nat) (r : FaultRec) : (s.sendFault c r).nextId = s.nextId := by simp [State.sendFault]
@[simp] theorem State.sendFault_fresh (s : State) (c : Nat) (r : FaultRec) : (s.sendFault c r).fresh = s.fresh := by simp [State.sendFault]
@[simp] theorem State.sendFault_focus (s : State) (c : Nat) (r : FaultRec) : (s.sendFault c r).focus = s.focus := by simp [State.sendFault]
@[simp] theorem State.sendFault_agenda (s : State) (c : Nat) (r : FaultRec) : (s.sendFault c r).agenda = s.agenda := by simp [State.sendFault]
@[simp] theorem State.fatal_tiles (s : State) (c : Nat) (r : FaultRec) : (s.fatal c r).tiles = s.tiles := by
  unfold State.fatal
  dsimp only
  repeat' split
  all_goals simp
@[simp] theorem State.fatal_parts (s : State) (c : Nat) (r : FaultRec) : (s.fatal c r).parts = s.parts := by
  unfold State.fatal
  dsimp only
  repeat' split
  all_goals simp
@[simp] theorem State.fatal_slots (s : State) (c : Nat) (r : FaultRec) : (s.fatal c r).slots = s.slots := by
  unfold State.fatal
  dsimp only
  repeat' split
  all_goals simp
@[simp] theorem State.fatal_mem (s : State) (c : Nat) (r : FaultRec) : (s.fatal c r).mem = s.mem := by
  unfold State.fatal
  dsimp only
  repeat' split
  all_goals simp
@[simp] theorem State.fatal_memBad (s : State) (c : Nat) (r : FaultRec) : (s.fatal c r).memBad = s.memBad := by
  unfold State.fatal
  dsimp only
  repeat' split
  all_goals simp
@[simp] theorem State.fatal_log (s : State) (c : Nat) (r : FaultRec) : (s.fatal c r).log = s.log := by
  unfold State.fatal
  dsimp only
  repeat' split
  all_goals simp
@[simp] theorem State.fatal_flying (s : State) (c : Nat) (r : FaultRec) : (s.fatal c r).flying = s.flying := by
  unfold State.fatal
  dsimp only
  repeat' split
  all_goals simp
@[simp] theorem State.fatal_lines (s : State) (c : Nat) (r : FaultRec) : (s.fatal c r).lines = s.lines := by
  unfold State.fatal
  dsimp only
  repeat' split
  all_goals simp
@[simp] theorem State.fatal_resps (s : State) (c : Nat) (r : FaultRec) : (s.fatal c r).resps = s.resps := by
  unfold State.fatal
  dsimp only
  repeat' split
  all_goals simp
@[simp] theorem State.fatal_invals (s : State) (c : Nat) (r : FaultRec) : (s.fatal c r).invals = s.invals := by
  unfold State.fatal
  dsimp only
  repeat' split
  all_goals simp
@[simp] theorem State.fatal_nextId (s : State) (c : Nat) (r : FaultRec) : (s.fatal c r).nextId = s.nextId := by
  unfold State.fatal
  dsimp only
  repeat' split
  all_goals simp
@[simp] theorem State.fatal_fresh (s : State) (c : Nat) (r : FaultRec) : (s.fatal c r).fresh = s.fresh := by
  unfold State.fatal
  dsimp only
  repeat' split
  all_goals simp
@[simp] theorem State.fatal_focus (s : State) (c : Nat) (r : FaultRec) : (s.fatal c r).focus = s.focus := by
  unfold State.fatal
  dsimp only
  repeat' split
  all_goals simp
@[simp] theorem State.fatal_agenda (s : State) (c : Nat) (r : FaultRec) : (s.fatal c r).agenda = s.agenda := by
  unfold State.fatal
  dsimp only
  repeat' split
  all_goals simp
@[simp] theorem State.meterHouse_dies (s : State) (t n : Nat) : (s.meterHouse t n).dies = s.dies := rfl
@[simp] theorem State.meterHouse_parts (s : State) (t n : Nat) : (s.meterHouse t n).parts = s.parts := rfl
@[simp] theorem State.meterHouse_ctxs (s : State) (t n : Nat) : (s.meterHouse t n).ctxs = s.ctxs := rfl
@[simp] theorem State.meterHouse_slots (s : State) (t n : Nat) : (s.meterHouse t n).slots = s.slots := rfl
@[simp] theorem State.meterHouse_mem (s : State) (t n : Nat) : (s.meterHouse t n).mem = s.mem := rfl
@[simp] theorem State.meterHouse_memBad (s : State) (t n : Nat) : (s.meterHouse t n).memBad = s.memBad := rfl
@[simp] theorem State.meterHouse_log (s : State) (t n : Nat) : (s.meterHouse t n).log = s.log := rfl
@[simp] theorem State.meterHouse_flying (s : State) (t n : Nat) : (s.meterHouse t n).flying = s.flying := rfl
@[simp] theorem State.meterHouse_lines (s : State) (t n : Nat) : (s.meterHouse t n).lines = s.lines := rfl
@[simp] theorem State.meterHouse_resps (s : State) (t n : Nat) : (s.meterHouse t n).resps = s.resps := rfl
@[simp] theorem State.meterHouse_invals (s : State) (t n : Nat) : (s.meterHouse t n).invals = s.invals := rfl
@[simp] theorem State.meterHouse_nextId (s : State) (t n : Nat) : (s.meterHouse t n).nextId = s.nextId := rfl
@[simp] theorem State.meterHouse_fresh (s : State) (t n : Nat) : (s.meterHouse t n).fresh = s.fresh := rfl
@[simp] theorem State.meterHouse_focus (s : State) (t n : Nat) : (s.meterHouse t n).focus = s.focus := rfl
@[simp] theorem State.meterHouse_agenda (s : State) (t n : Nat) : (s.meterHouse t n).agenda = s.agenda := rfl
@[simp] theorem State.dropPreload_dies (s : State) (t : Nat) : (s.dropPreload t).dies = s.dies := by
  unfold State.dropPreload
  dsimp only
  repeat' split
  all_goals simp
@[simp] theorem State.dropPreload_parts (s : State) (t : Nat) : (s.dropPreload t).parts = s.parts := by
  unfold State.dropPreload
  dsimp only
  repeat' split
  all_goals simp
@[simp] theorem State.dropPreload_ctxs (s : State) (t : Nat) : (s.dropPreload t).ctxs = s.ctxs := by
  unfold State.dropPreload
  dsimp only
  repeat' split
  all_goals simp
@[simp] theorem State.dropPreload_slots (s : State) (t : Nat) : (s.dropPreload t).slots = s.slots := by
  unfold State.dropPreload
  dsimp only
  repeat' split
  all_goals simp
@[simp] theorem State.dropPreload_mem (s : State) (t : Nat) : (s.dropPreload t).mem = s.mem := by
  unfold State.dropPreload
  dsimp only
  repeat' split
  all_goals simp
@[simp] theorem State.dropPreload_memBad (s : State) (t : Nat) : (s.dropPreload t).memBad = s.memBad := by
  unfold State.dropPreload
  dsimp only
  repeat' split
  all_goals simp
@[simp] theorem State.dropPreload_log (s : State) (t : Nat) : (s.dropPreload t).log = s.log := by
  unfold State.dropPreload
  dsimp only
  repeat' split
  all_goals simp
@[simp] theorem State.dropPreload_flying (s : State) (t : Nat) : (s.dropPreload t).flying = s.flying := by
  unfold State.dropPreload
  dsimp only
  repeat' split
  all_goals simp
@[simp] theorem State.dropPreload_lines (s : State) (t : Nat) : (s.dropPreload t).lines = s.lines := by
  unfold State.dropPreload
  dsimp only
  repeat' split
  all_goals simp
@[simp] theorem State.dropPreload_resps (s : State) (t : Nat) : (s.dropPreload t).resps = s.resps := by
  unfold State.dropPreload
  dsimp only
  repeat' split
  all_goals simp
@[simp] theorem State.dropPreload_invals (s : State) (t : Nat) : (s.dropPreload t).invals = s.invals := by
  unfold State.dropPreload
  dsimp only
  repeat' split
  all_goals simp
@[simp] theorem State.dropPreload_nextId (s : State) (t : Nat) : (s.dropPreload t).nextId = s.nextId := by
  unfold State.dropPreload
  dsimp only
  repeat' split
  all_goals simp
@[simp] theorem State.dropPreload_fresh (s : State) (t : Nat) : (s.dropPreload t).fresh = s.fresh := by
  unfold State.dropPreload
  dsimp only
  repeat' split
  all_goals simp
@[simp] theorem State.dropPreload_focus (s : State) (t : Nat) : (s.dropPreload t).focus = s.focus := by
  unfold State.dropPreload
  dsimp only
  repeat' split
  all_goals simp
@[simp] theorem State.dropPreload_agenda (s : State) (t : Nat) : (s.dropPreload t).agenda = s.agenda := by
  unfold State.dropPreload
  dsimp only
  repeat' split
  all_goals simp
@[simp] theorem State.fatalAt_parts (s : State) (t n k : Nat) (i : Word) (pc : BitVec 32) : (s.fatalAt t n k i pc).parts = s.parts := by simp [State.fatalAt]
@[simp] theorem State.fatalAt_slots (s : State) (t n k : Nat) (i : Word) (pc : BitVec 32) : (s.fatalAt t n k i pc).slots = s.slots := by simp [State.fatalAt]
@[simp] theorem State.fatalAt_mem (s : State) (t n k : Nat) (i : Word) (pc : BitVec 32) : (s.fatalAt t n k i pc).mem = s.mem := by simp [State.fatalAt]
@[simp] theorem State.fatalAt_memBad (s : State) (t n k : Nat) (i : Word) (pc : BitVec 32) : (s.fatalAt t n k i pc).memBad = s.memBad := by simp [State.fatalAt]
@[simp] theorem State.fatalAt_log (s : State) (t n k : Nat) (i : Word) (pc : BitVec 32) : (s.fatalAt t n k i pc).log = s.log := by simp [State.fatalAt]
@[simp] theorem State.fatalAt_flying (s : State) (t n k : Nat) (i : Word) (pc : BitVec 32) : (s.fatalAt t n k i pc).flying = s.flying := by simp [State.fatalAt]
@[simp] theorem State.fatalAt_lines (s : State) (t n k : Nat) (i : Word) (pc : BitVec 32) : (s.fatalAt t n k i pc).lines = s.lines := by simp [State.fatalAt]
@[simp] theorem State.fatalAt_resps (s : State) (t n k : Nat) (i : Word) (pc : BitVec 32) : (s.fatalAt t n k i pc).resps = s.resps := by simp [State.fatalAt]
@[simp] theorem State.fatalAt_invals (s : State) (t n k : Nat) (i : Word) (pc : BitVec 32) : (s.fatalAt t n k i pc).invals = s.invals := by simp [State.fatalAt]
@[simp] theorem State.fatalAt_nextId (s : State) (t n k : Nat) (i : Word) (pc : BitVec 32) : (s.fatalAt t n k i pc).nextId = s.nextId := by simp [State.fatalAt]
@[simp] theorem State.fatalAt_fresh (s : State) (t n k : Nat) (i : Word) (pc : BitVec 32) : (s.fatalAt t n k i pc).fresh = s.fresh := by simp [State.fatalAt]
@[simp] theorem State.fatalAt_focus (s : State) (t n k : Nat) (i : Word) (pc : BitVec 32) : (s.fatalAt t n k i pc).focus = s.focus := by simp [State.fatalAt]
@[simp] theorem State.fatalAt_agenda (s : State) (t n k : Nat) (i : Word) (pc : BitVec 32) : (s.fatalAt t n k i pc).agenda = s.agenda := by simp [State.fatalAt]
@[simp] theorem State.takeTrap_parts (s : State) (t n k : Nat) (i : Word) (pc : BitVec 32) : (s.takeTrap t n k i pc).parts = s.parts := by
  unfold State.takeTrap
  dsimp only
  repeat' split
  all_goals simp
@[simp] theorem State.takeTrap_slots (s : State) (t n k : Nat) (i : Word) (pc : BitVec 32) : (s.takeTrap t n k i pc).slots = s.slots := by
  unfold State.takeTrap
  dsimp only
  repeat' split
  all_goals simp
@[simp] theorem State.takeTrap_mem (s : State) (t n k : Nat) (i : Word) (pc : BitVec 32) : (s.takeTrap t n k i pc).mem = s.mem := by
  unfold State.takeTrap
  dsimp only
  repeat' split
  all_goals simp
@[simp] theorem State.takeTrap_memBad (s : State) (t n k : Nat) (i : Word) (pc : BitVec 32) : (s.takeTrap t n k i pc).memBad = s.memBad := by
  unfold State.takeTrap
  dsimp only
  repeat' split
  all_goals simp
@[simp] theorem State.takeTrap_log (s : State) (t n k : Nat) (i : Word) (pc : BitVec 32) : (s.takeTrap t n k i pc).log = s.log := by
  unfold State.takeTrap
  dsimp only
  repeat' split
  all_goals simp
@[simp] theorem State.takeTrap_flying (s : State) (t n k : Nat) (i : Word) (pc : BitVec 32) : (s.takeTrap t n k i pc).flying = s.flying := by
  unfold State.takeTrap
  dsimp only
  repeat' split
  all_goals simp
@[simp] theorem State.takeTrap_lines (s : State) (t n k : Nat) (i : Word) (pc : BitVec 32) : (s.takeTrap t n k i pc).lines = s.lines := by
  unfold State.takeTrap
  dsimp only
  repeat' split
  all_goals simp
@[simp] theorem State.takeTrap_resps (s : State) (t n k : Nat) (i : Word) (pc : BitVec 32) : (s.takeTrap t n k i pc).resps = s.resps := by
  unfold State.takeTrap
  dsimp only
  repeat' split
  all_goals simp
@[simp] theorem State.takeTrap_invals (s : State) (t n k : Nat) (i : Word) (pc : BitVec 32) : (s.takeTrap t n k i pc).invals = s.invals := by
  unfold State.takeTrap
  dsimp only
  repeat' split
  all_goals simp
@[simp] theorem State.takeTrap_nextId (s : State) (t n k : Nat) (i : Word) (pc : BitVec 32) : (s.takeTrap t n k i pc).nextId = s.nextId := by
  unfold State.takeTrap
  dsimp only
  repeat' split
  all_goals simp
@[simp] theorem State.takeTrap_fresh (s : State) (t n k : Nat) (i : Word) (pc : BitVec 32) : (s.takeTrap t n k i pc).fresh = s.fresh := by
  unfold State.takeTrap
  dsimp only
  repeat' split
  all_goals simp
@[simp] theorem State.takeTrap_focus (s : State) (t n k : Nat) (i : Word) (pc : BitVec 32) : (s.takeTrap t n k i pc).focus = s.focus := by
  unfold State.takeTrap
  dsimp only
  repeat' split
  all_goals simp
@[simp] theorem State.takeTrap_agenda (s : State) (t n k : Nat) (i : Word) (pc : BitVec 32) : (s.takeTrap t n k i pc).agenda = s.agenda := by
  unfold State.takeTrap
  dsimp only
  repeat' split
  all_goals simp
@[simp] theorem State.postCause_parts (s : State) (t n k : Nat) (i : Word) : (s.postCause t n k i).parts = s.parts := by
  unfold State.postCause
  dsimp only
  repeat' split
  all_goals simp
@[simp] theorem State.postCause_slots (s : State) (t n k : Nat) (i : Word) : (s.postCause t n k i).slots = s.slots := by
  unfold State.postCause
  dsimp only
  repeat' split
  all_goals simp
@[simp] theorem State.postCause_mem (s : State) (t n k : Nat) (i : Word) : (s.postCause t n k i).mem = s.mem := by
  unfold State.postCause
  dsimp only
  repeat' split
  all_goals simp
@[simp] theorem State.postCause_memBad (s : State) (t n k : Nat) (i : Word) : (s.postCause t n k i).memBad = s.memBad := by
  unfold State.postCause
  dsimp only
  repeat' split
  all_goals simp
@[simp] theorem State.postCause_log (s : State) (t n k : Nat) (i : Word) : (s.postCause t n k i).log = s.log := by
  unfold State.postCause
  dsimp only
  repeat' split
  all_goals simp
@[simp] theorem State.postCause_flying (s : State) (t n k : Nat) (i : Word) : (s.postCause t n k i).flying = s.flying := by
  unfold State.postCause
  dsimp only
  repeat' split
  all_goals simp
@[simp] theorem State.postCause_lines (s : State) (t n k : Nat) (i : Word) : (s.postCause t n k i).lines = s.lines := by
  unfold State.postCause
  dsimp only
  repeat' split
  all_goals simp
@[simp] theorem State.postCause_resps (s : State) (t n k : Nat) (i : Word) : (s.postCause t n k i).resps = s.resps := by
  unfold State.postCause
  dsimp only
  repeat' split
  all_goals simp
@[simp] theorem State.postCause_invals (s : State) (t n k : Nat) (i : Word) : (s.postCause t n k i).invals = s.invals := by
  unfold State.postCause
  dsimp only
  repeat' split
  all_goals simp
@[simp] theorem State.postCause_nextId (s : State) (t n k : Nat) (i : Word) : (s.postCause t n k i).nextId = s.nextId := by
  unfold State.postCause
  dsimp only
  repeat' split
  all_goals simp
@[simp] theorem State.postCause_fresh (s : State) (t n k : Nat) (i : Word) : (s.postCause t n k i).fresh = s.fresh := by
  unfold State.postCause
  dsimp only
  repeat' split
  all_goals simp
@[simp] theorem State.postCause_focus (s : State) (t n k : Nat) (i : Word) : (s.postCause t n k i).focus = s.focus := by
  unfold State.postCause
  dsimp only
  repeat' split
  all_goals simp
@[simp] theorem State.postCause_agenda (s : State) (t n k : Nat) (i : Word) : (s.postCause t n k i).agenda = s.agenda := by
  unfold State.postCause
  dsimp only
  repeat' split
  all_goals simp
@[simp] theorem State.sealBatch_pkg (s : State) (d : Nat) : (s.sealBatch d).pkg = s.pkg := by
  unfold State.sealBatch
  dsimp only
  repeat' split
  all_goals simp
@[simp] theorem State.sealBatch_tiles (s : State) (d : Nat) : (s.sealBatch d).tiles = s.tiles := by
  unfold State.sealBatch
  dsimp only
  repeat' split
  all_goals simp
@[simp] theorem State.sealBatch_parts (s : State) (d : Nat) : (s.sealBatch d).parts = s.parts := by
  unfold State.sealBatch
  dsimp only
  repeat' split
  all_goals simp
@[simp] theorem State.sealBatch_ctxs (s : State) (d : Nat) : (s.sealBatch d).ctxs = s.ctxs := by
  unfold State.sealBatch
  dsimp only
  repeat' split
  all_goals simp
@[simp] theorem State.sealBatch_slots (s : State) (d : Nat) : (s.sealBatch d).slots = s.slots := by
  unfold State.sealBatch
  dsimp only
  repeat' split
  all_goals simp
@[simp] theorem State.sealBatch_mem (s : State) (d : Nat) : (s.sealBatch d).mem = s.mem := by
  unfold State.sealBatch
  dsimp only
  repeat' split
  all_goals simp
@[simp] theorem State.sealBatch_memBad (s : State) (d : Nat) : (s.sealBatch d).memBad = s.memBad := by
  unfold State.sealBatch
  dsimp only
  repeat' split
  all_goals simp
@[simp] theorem State.sealBatch_log (s : State) (d : Nat) : (s.sealBatch d).log = s.log := by
  unfold State.sealBatch
  dsimp only
  repeat' split
  all_goals simp
@[simp] theorem State.sealBatch_flying (s : State) (d : Nat) : (s.sealBatch d).flying = s.flying := by
  unfold State.sealBatch
  dsimp only
  repeat' split
  all_goals simp
@[simp] theorem State.sealBatch_lines (s : State) (d : Nat) : (s.sealBatch d).lines = s.lines := by
  unfold State.sealBatch
  dsimp only
  repeat' split
  all_goals simp
@[simp] theorem State.sealBatch_resps (s : State) (d : Nat) : (s.sealBatch d).resps = s.resps := by
  unfold State.sealBatch
  dsimp only
  repeat' split
  all_goals simp
@[simp] theorem State.sealBatch_invals (s : State) (d : Nat) : (s.sealBatch d).invals = s.invals := by
  unfold State.sealBatch
  dsimp only
  repeat' split
  all_goals simp
@[simp] theorem State.sealBatch_nextId (s : State) (d : Nat) : (s.sealBatch d).nextId = s.nextId := by
  unfold State.sealBatch
  dsimp only
  repeat' split
  all_goals simp
@[simp] theorem State.sealBatch_fresh (s : State) (d : Nat) : (s.sealBatch d).fresh = s.fresh := by
  unfold State.sealBatch
  dsimp only
  repeat' split
  all_goals simp
@[simp] theorem State.sealBatch_focus (s : State) (d : Nat) : (s.sealBatch d).focus = s.focus := by
  unfold State.sealBatch
  dsimp only
  repeat' split
  all_goals simp
@[simp] theorem State.sealBatch_agenda (s : State) (d : Nat) : (s.sealBatch d).agenda = s.agenda := by
  unfold State.sealBatch
  dsimp only
  repeat' split
  all_goals simp
@[simp] theorem State.joinBatch_pkg (s : State) (d i : Nat) : (s.joinBatch d i).pkg = s.pkg := rfl
@[simp] theorem State.joinBatch_tiles (s : State) (d i : Nat) : (s.joinBatch d i).tiles = s.tiles := rfl
@[simp] theorem State.joinBatch_parts (s : State) (d i : Nat) : (s.joinBatch d i).parts = s.parts := rfl
@[simp] theorem State.joinBatch_ctxs (s : State) (d i : Nat) : (s.joinBatch d i).ctxs = s.ctxs := rfl
@[simp] theorem State.joinBatch_slots (s : State) (d i : Nat) : (s.joinBatch d i).slots = s.slots := rfl
@[simp] theorem State.joinBatch_mem (s : State) (d i : Nat) : (s.joinBatch d i).mem = s.mem := rfl
@[simp] theorem State.joinBatch_memBad (s : State) (d i : Nat) : (s.joinBatch d i).memBad = s.memBad := rfl
@[simp] theorem State.joinBatch_log (s : State) (d i : Nat) : (s.joinBatch d i).log = s.log := rfl
@[simp] theorem State.joinBatch_flying (s : State) (d i : Nat) : (s.joinBatch d i).flying = s.flying := rfl
@[simp] theorem State.joinBatch_lines (s : State) (d i : Nat) : (s.joinBatch d i).lines = s.lines := rfl
@[simp] theorem State.joinBatch_resps (s : State) (d i : Nat) : (s.joinBatch d i).resps = s.resps := rfl
@[simp] theorem State.joinBatch_invals (s : State) (d i : Nat) : (s.joinBatch d i).invals = s.invals := rfl
@[simp] theorem State.joinBatch_nextId (s : State) (d i : Nat) : (s.joinBatch d i).nextId = s.nextId := rfl
@[simp] theorem State.joinBatch_fresh (s : State) (d i : Nat) : (s.joinBatch d i).fresh = s.fresh := rfl
@[simp] theorem State.joinBatch_focus (s : State) (d i : Nat) : (s.joinBatch d i).focus = s.focus := rfl
@[simp] theorem State.joinBatch_agenda (s : State) (d i : Nat) : (s.joinBatch d i).agenda = s.agenda := rfl
@[simp] theorem State.record_pkg (s : State) (c : Nat) (r : Crumb) : (s.record c r).pkg = s.pkg := by
  unfold State.record
  repeat' split
  all_goals simp
@[simp] theorem State.record_dies (s : State) (c : Nat) (r : Crumb) : (s.record c r).dies = s.dies := by
  unfold State.record
  repeat' split
  all_goals simp
@[simp] theorem State.record_tiles (s : State) (c : Nat) (r : Crumb) : (s.record c r).tiles = s.tiles := by
  unfold State.record
  repeat' split
  all_goals simp
@[simp] theorem State.record_parts (s : State) (c : Nat) (r : Crumb) : (s.record c r).parts = s.parts := by
  unfold State.record
  repeat' split
  all_goals simp
@[simp] theorem State.record_slots (s : State) (c : Nat) (r : Crumb) : (s.record c r).slots = s.slots := by
  unfold State.record
  repeat' split
  all_goals simp
@[simp] theorem State.record_mem (s : State) (c : Nat) (r : Crumb) : (s.record c r).mem = s.mem := by
  unfold State.record
  repeat' split
  all_goals simp
@[simp] theorem State.record_memBad (s : State) (c : Nat) (r : Crumb) : (s.record c r).memBad = s.memBad := by
  unfold State.record
  repeat' split
  all_goals simp
@[simp] theorem State.record_log (s : State) (c : Nat) (r : Crumb) : (s.record c r).log = s.log := by
  unfold State.record
  repeat' split
  all_goals simp
@[simp] theorem State.record_flying (s : State) (c : Nat) (r : Crumb) : (s.record c r).flying = s.flying := by
  unfold State.record
  repeat' split
  all_goals simp
@[simp] theorem State.record_lines (s : State) (c : Nat) (r : Crumb) : (s.record c r).lines = s.lines := by
  unfold State.record
  repeat' split
  all_goals simp
@[simp] theorem State.record_resps (s : State) (c : Nat) (r : Crumb) : (s.record c r).resps = s.resps := by
  unfold State.record
  repeat' split
  all_goals simp
@[simp] theorem State.record_invals (s : State) (c : Nat) (r : Crumb) : (s.record c r).invals = s.invals := by
  unfold State.record
  repeat' split
  all_goals simp
@[simp] theorem State.record_nextId (s : State) (c : Nat) (r : Crumb) : (s.record c r).nextId = s.nextId := by
  unfold State.record
  repeat' split
  all_goals simp
@[simp] theorem State.record_fresh (s : State) (c : Nat) (r : Crumb) : (s.record c r).fresh = s.fresh := by
  unfold State.record
  repeat' split
  all_goals simp
@[simp] theorem State.record_focus (s : State) (c : Nat) (r : Crumb) : (s.record c r).focus = s.focus := by
  unfold State.record
  repeat' split
  all_goals simp
@[simp] theorem State.record_agenda (s : State) (c : Nat) (r : Crumb) : (s.record c r).agenda = s.agenda := by
  unfold State.record
  repeat' split
  all_goals simp
@[simp] theorem State.halt_pkg (s : State) (t n : Nat) : (s.halt t n).pkg = s.pkg := by
  unfold State.halt
  dsimp only
  repeat' split
  all_goals simp
@[simp] theorem State.halt_dies (s : State) (t n : Nat) : (s.halt t n).dies = s.dies := by
  unfold State.halt
  dsimp only
  repeat' split
  all_goals simp
@[simp] theorem State.halt_parts (s : State) (t n : Nat) : (s.halt t n).parts = s.parts := by
  unfold State.halt
  dsimp only
  repeat' split
  all_goals simp
@[simp] theorem State.halt_slots (s : State) (t n : Nat) : (s.halt t n).slots = s.slots := by
  unfold State.halt
  dsimp only
  repeat' split
  all_goals simp
@[simp] theorem State.halt_mem (s : State) (t n : Nat) : (s.halt t n).mem = s.mem := by
  unfold State.halt
  dsimp only
  repeat' split
  all_goals simp
@[simp] theorem State.halt_memBad (s : State) (t n : Nat) : (s.halt t n).memBad = s.memBad := by
  unfold State.halt
  dsimp only
  repeat' split
  all_goals simp
@[simp] theorem State.halt_log (s : State) (t n : Nat) : (s.halt t n).log = s.log := by
  unfold State.halt
  dsimp only
  repeat' split
  all_goals simp
@[simp] theorem State.halt_flying (s : State) (t n : Nat) : (s.halt t n).flying = s.flying := by
  unfold State.halt
  dsimp only
  repeat' split
  all_goals simp
@[simp] theorem State.halt_lines (s : State) (t n : Nat) : (s.halt t n).lines = s.lines := by
  unfold State.halt
  dsimp only
  repeat' split
  all_goals simp
@[simp] theorem State.halt_resps (s : State) (t n : Nat) : (s.halt t n).resps = s.resps := by
  unfold State.halt
  dsimp only
  repeat' split
  all_goals simp
@[simp] theorem State.halt_invals (s : State) (t n : Nat) : (s.halt t n).invals = s.invals := by
  unfold State.halt
  dsimp only
  repeat' split
  all_goals simp
@[simp] theorem State.halt_nextId (s : State) (t n : Nat) : (s.halt t n).nextId = s.nextId := by
  unfold State.halt
  dsimp only
  repeat' split
  all_goals simp
@[simp] theorem State.halt_fresh (s : State) (t n : Nat) : (s.halt t n).fresh = s.fresh := by
  unfold State.halt
  dsimp only
  repeat' split
  all_goals simp
@[simp] theorem State.halt_focus (s : State) (t n : Nat) : (s.halt t n).focus = s.focus := by
  unfold State.halt
  dsimp only
  repeat' split
  all_goals simp
@[simp] theorem State.halt_agenda (s : State) (t n : Nat) : (s.halt t n).agenda = s.agenda := by
  unfold State.halt
  dsimp only
  repeat' split
  all_goals simp
@[simp] theorem State.takeAtIssue_parts (s : State) (t n k : Nat) (i : Word) (pc : BitVec 32) : (s.takeAtIssue t n k i pc).parts = s.parts := by
  unfold State.takeAtIssue
  dsimp only
  repeat' split
  all_goals simp
@[simp] theorem State.takeAtIssue_slots (s : State) (t n k : Nat) (i : Word) (pc : BitVec 32) : (s.takeAtIssue t n k i pc).slots = s.slots := by
  unfold State.takeAtIssue
  dsimp only
  repeat' split
  all_goals simp
@[simp] theorem State.takeAtIssue_mem (s : State) (t n k : Nat) (i : Word) (pc : BitVec 32) : (s.takeAtIssue t n k i pc).mem = s.mem := by
  unfold State.takeAtIssue
  dsimp only
  repeat' split
  all_goals simp
@[simp] theorem State.takeAtIssue_memBad (s : State) (t n k : Nat) (i : Word) (pc : BitVec 32) : (s.takeAtIssue t n k i pc).memBad = s.memBad := by
  unfold State.takeAtIssue
  dsimp only
  repeat' split
  all_goals simp
@[simp] theorem State.takeAtIssue_log (s : State) (t n k : Nat) (i : Word) (pc : BitVec 32) : (s.takeAtIssue t n k i pc).log = s.log := by
  unfold State.takeAtIssue
  dsimp only
  repeat' split
  all_goals simp
@[simp] theorem State.takeAtIssue_flying (s : State) (t n k : Nat) (i : Word) (pc : BitVec 32) : (s.takeAtIssue t n k i pc).flying = s.flying := by
  unfold State.takeAtIssue
  dsimp only
  repeat' split
  all_goals simp
@[simp] theorem State.takeAtIssue_lines (s : State) (t n k : Nat) (i : Word) (pc : BitVec 32) : (s.takeAtIssue t n k i pc).lines = s.lines := by
  unfold State.takeAtIssue
  dsimp only
  repeat' split
  all_goals simp
@[simp] theorem State.takeAtIssue_resps (s : State) (t n k : Nat) (i : Word) (pc : BitVec 32) : (s.takeAtIssue t n k i pc).resps = s.resps := by
  unfold State.takeAtIssue
  dsimp only
  repeat' split
  all_goals simp
@[simp] theorem State.takeAtIssue_invals (s : State) (t n k : Nat) (i : Word) (pc : BitVec 32) : (s.takeAtIssue t n k i pc).invals = s.invals := by
  unfold State.takeAtIssue
  dsimp only
  repeat' split
  all_goals simp
@[simp] theorem State.takeAtIssue_nextId (s : State) (t n k : Nat) (i : Word) (pc : BitVec 32) : (s.takeAtIssue t n k i pc).nextId = s.nextId := by
  unfold State.takeAtIssue
  dsimp only
  repeat' split
  all_goals simp
@[simp] theorem State.takeAtIssue_fresh (s : State) (t n k : Nat) (i : Word) (pc : BitVec 32) : (s.takeAtIssue t n k i pc).fresh = s.fresh := by
  unfold State.takeAtIssue
  dsimp only
  repeat' split
  all_goals simp
@[simp] theorem State.takeAtIssue_focus (s : State) (t n k : Nat) (i : Word) (pc : BitVec 32) : (s.takeAtIssue t n k i pc).focus = s.focus := by
  unfold State.takeAtIssue
  dsimp only
  repeat' split
  all_goals simp
@[simp] theorem State.takeAtIssue_agenda (s : State) (t n k : Nat) (i : Word) (pc : BitVec 32) : (s.takeAtIssue t n k i pc).agenda = s.agenda := by
  unfold State.takeAtIssue
  dsimp only
  repeat' split
  all_goals simp
@[simp] theorem State.setSys_pkg (s : State) (t n k : Nat) (v : Word) : (s.setSys t n k v).pkg = s.pkg := by
  unfold State.setSys
  repeat' split
  all_goals rfl
@[simp] theorem State.setSys_dies (s : State) (t n k : Nat) (v : Word) : (s.setSys t n k v).dies = s.dies := by
  unfold State.setSys
  repeat' split
  all_goals rfl
@[simp] theorem State.setSys_parts (s : State) (t n k : Nat) (v : Word) : (s.setSys t n k v).parts = s.parts := by
  unfold State.setSys
  repeat' split
  all_goals rfl
@[simp] theorem State.setSys_ctxs (s : State) (t n k : Nat) (v : Word) : (s.setSys t n k v).ctxs = s.ctxs := by
  unfold State.setSys
  repeat' split
  all_goals rfl
@[simp] theorem State.setSys_slots (s : State) (t n k : Nat) (v : Word) : (s.setSys t n k v).slots = s.slots := by
  unfold State.setSys
  repeat' split
  all_goals rfl
@[simp] theorem State.setSys_mem (s : State) (t n k : Nat) (v : Word) : (s.setSys t n k v).mem = s.mem := by
  unfold State.setSys
  repeat' split
  all_goals rfl
@[simp] theorem State.setSys_memBad (s : State) (t n k : Nat) (v : Word) : (s.setSys t n k v).memBad = s.memBad := by
  unfold State.setSys
  repeat' split
  all_goals rfl
@[simp] theorem State.setSys_log (s : State) (t n k : Nat) (v : Word) : (s.setSys t n k v).log = s.log := by
  unfold State.setSys
  repeat' split
  all_goals rfl
@[simp] theorem State.setSys_flying (s : State) (t n k : Nat) (v : Word) : (s.setSys t n k v).flying = s.flying := by
  unfold State.setSys
  repeat' split
  all_goals rfl
@[simp] theorem State.setSys_lines (s : State) (t n k : Nat) (v : Word) : (s.setSys t n k v).lines = s.lines := by
  unfold State.setSys
  repeat' split
  all_goals rfl
@[simp] theorem State.setSys_resps (s : State) (t n k : Nat) (v : Word) : (s.setSys t n k v).resps = s.resps := by
  unfold State.setSys
  repeat' split
  all_goals rfl
@[simp] theorem State.setSys_invals (s : State) (t n k : Nat) (v : Word) : (s.setSys t n k v).invals = s.invals := by
  unfold State.setSys
  repeat' split
  all_goals rfl
@[simp] theorem State.setSys_nextId (s : State) (t n k : Nat) (v : Word) : (s.setSys t n k v).nextId = s.nextId := by
  unfold State.setSys
  repeat' split
  all_goals rfl
@[simp] theorem State.setSys_fresh (s : State) (t n k : Nat) (v : Word) : (s.setSys t n k v).fresh = s.fresh := by
  unfold State.setSys
  repeat' split
  all_goals rfl
@[simp] theorem State.setSys_focus (s : State) (t n k : Nat) (v : Word) : (s.setSys t n k v).focus = s.focus := by
  unfold State.setSys
  repeat' split
  all_goals rfl
@[simp] theorem State.setSys_agenda (s : State) (t n k : Nat) (v : Word) : (s.setSys t n k v).agenda = s.agenda := by
  unfold State.setSys
  repeat' split
  all_goals rfl

end Sys2Proof.Machine
end

