-- ==== Sys2Proof/Laws/Bundle.lean ====
section
/-! SUPPORT. What a charge leaves of a tile and its strands; what completing a bundle does; and, once, what issuing a bundle can
do: trap, wait, or carry out its slots. -/

namespace Sys2Proof.Machine

/-! ## Charges -/

/-- The strand after a charge to it: only TASKCHG rises (R113). -/
def Strand.charged (st : Strand) (cls n : Nat) : Strand := { st with echg := min (st.echg + tileCoef.getD cls 0 * n) (2 ^ 48 - 1) }

/-- A charge with a strand: the tile's meter and that strand's TASKCHG change. -/
theorem State.charge_tile_same (s : State) (t c n k : Nat) : ∃ r e h, (s.charge t c n (some k)).tile t =
    { (s.tile t).modStrand k (fun st => st.charged c n) with residue := r, emtr := e, houseResidue := h } := by
  unfold State.charge State.meterHouse State.meterCtx
  dsimp only
  split <;>
  · rw [State.tile_windowAdd, State.modStrand_eq, State.modTile_modTile, State.tile_modTile_same]
    exact ⟨_, _, _, rfl⟩

/-- A charge leaves every other tile as it was. -/
theorem State.charge_tile_other (s : State) {u t : Nat} (c n k : Nat) (h : u ≠ t) : (s.charge t c n (some k)).tile u = s.tile u := by
  unfold State.charge State.meterHouse State.meterCtx
  dsimp only
  split <;>
  · rw [State.tile_windowAdd, State.tile_modTile_other _ _ h, State.modStrand_eq, State.tile_modTile_other _ _ h]

/-- The charged strand. -/
theorem State.charge_strand_same (s : State) (t c n k : Nat) :
    (s.charge t c n (some k)).strand t k = (s.strand t k).charged c n := by
  obtain ⟨r, e, _, h⟩ := s.charge_tile_same t c n k
  unfold State.strand
  rw [h]
  exact Tile.strand_modStrand_same (s.tile t) k (fun st => st.charged c n)

/-- Every other strand of the tile. -/
theorem State.charge_strand_other (s : State) (t c n : Nat) {k m : Nat} (h : m ≠ k) :
    (s.charge t c n (some k)).strand t m = s.strand t m := by
  obtain ⟨r, e, _, h'⟩ := s.charge_tile_same t c n k
  unfold State.strand
  rw [h']
  exact Tile.strand_modStrand_other (s.tile t) (fun st => st.charged c n) h

/-- A charge leaves the package but for the windows' sums. -/
theorem State.charge_pkg (s : State) (t c n : Nat) (o : Option Nat) : ∃ w z, (s.charge t c n o).pkg =
    { s.pkg with windowCharges := w, windowScaled := z } := by
  unfold State.charge
  cases o <;> (dsimp only; split <;> exact ⟨_, _, rfl⟩)

/-! ## Issue -/

/-- Whether the slots of a bundle may be asked: no range that state shows broken (R170), and no privileged slot for a user. -/
def Permitted (l : List Sem) (s : State) : Bool := (l.all (fun m => !m.illegal s)) && (s.super s.focus || l.all (fun m => !m.priv))

/-- A bundle as its slots begin to act: charged, counted, with an empty list of writes. -/
def State.issued (s pre : State) (lit : Bool) (l : List Sem) : State :=
  let t := s.focus
  let n := s.cur
  let a := ((pre.chargeMissed t n).issueHead t n lit).modStrand t n (fun st => { st.gbarUsed with claim := false })
  let a := l.foldl (fun s m => m.classes.foldl (fun s c => s.charge t c 1 (some n)) s) a
  a.modTile t (fun u => { u with
    issue := { strand := n, nextPc := seqPc s.me.pc lit, pa := u.issue.pa }, steps := (u.steps + 1) % 2 ^ 64 })

/-- A bundle after its slots have acted: complete, or held until its values return (R186). -/
def State.acted (s : State) (t : Nat) : State :=
  let b := (s.tile t).issue
  let s := s.modTile t (fun u => { u with issue := {} })
  if b.waits.isEmpty then s.completeBundle t b else s.modTile t (fun u => { u with held := some b })

/-- R186, R187: a permitted bundle whose every slot can proceed carries its slots out in ascending order. -/
theorem runBundle_go {lit : Bool} {l : List Sem} {s pre : State} (h : Permitted l s = true) (g : gates l s = .go pre) :
    runBundle lit l s = State.acted (l.foldl (fun a m => m.carryOut pre a) (s.issued pre lit l)) s.focus := by
  simp only [Permitted, Bool.and_eq_true, Bool.or_eq_true, List.all_eq_true, Bool.not_eq_true'] at h
  have h1 : l.find? (fun m => m.illegal s) = none := by
    rw [List.find?_eq_none]; intro m hm; simp [h.1 m hm]
  have h2 : (if s.super s.focus then none else l.find? (fun m => m.priv)) = none := by
    split
    · rfl
    · rename_i hs
      rw [List.find?_eq_none]; intro m hm
      rcases h.2 with h2 | h2
      · exact absurd h2 hs
      · simp [h2 m hm]
  unfold runBundle
  simp only [h1, h2, g]
  rfl

/-- R332: a slot that no load of its bundle holds back acts. -/
@[simp] theorem Sem.carryOut_eq {m : Sem} (h : m.late = none) (pre s : State) : m.carryOut pre s = m.act pre s := by
  unfold Sem.carryOut; rw [h]

/-- R186: a permitted bundle of which a slot cannot proceed waits; no register is written. -/
theorem runBundle_wait {lit : Bool} {l : List Sem} {s s' : State} (h : Permitted l s = true) (g : gates l s = .wait s') :
    runBundle lit l s = s'.modStrand s.focus s.cur (fun st => { st with stall := stalls l s }) := by
  simp only [Permitted, Bool.and_eq_true, Bool.or_eq_true, List.all_eq_true, Bool.not_eq_true'] at h
  have h1 : l.find? (fun m => m.illegal s) = none := by
    rw [List.find?_eq_none]; intro m hm; simp [h.1 m hm]
  have h2 : (if s.super s.focus then none else l.find? (fun m => m.priv)) = none := by
    split
    · rfl
    · rename_i hs
      rw [List.find?_eq_none]; intro m hm
      rcases h.2 with h2 | h2
      · exact absurd h2 hs
      · simp [h2 m hm]
  unfold runBundle
  simp only [h1, h2, g]

/-- R181, R378: a permitted bundle of which the first slot that does not go traps takes that cause, its PC saved. -/
theorem runBundle_trap {lit : Bool} {l : List Sem} {s s' : State} {c : Nat} {i : Word} (h : Permitted l s = true)
    (g : gates l s = .trap s' c i) :
    runBundle lit l s = ((s'.dropMissed s.focus s.cur).issueHead s.focus s.cur lit).takeAtIssue s.focus s.cur c i s.me.pc := by
  simp only [Permitted, Bool.and_eq_true, Bool.or_eq_true, List.all_eq_true, Bool.not_eq_true'] at h
  have h1 : l.find? (fun m => m.illegal s) = none := by
    rw [List.find?_eq_none]; intro m hm; simp [h.1 m hm]
  have h2 : (if s.super s.focus then none else l.find? (fun m => m.priv)) = none := by
    split
    · rfl
    · rename_i hs
      rw [List.find?_eq_none]; intro m hm
      rcases h.2 with h2 | h2
      · exact absurd h2 hs
      · simp [h2 m hm]
  unfold runBundle
  simp only [h1, h2, g]

/-- Slots that always go. -/
theorem gates_go : ∀ (l : List Sem) (s : State), (∀ m ∈ l, m.gate = Gate.go) → gates l s = .go s
  | [], _, _ => rfl
  | m :: l, s, h => by
    simp only [gates, h m (by simp)]
    exact gates_go l s (fun m hm => h m (by simp [hm]))

/-! ## What issuing and completing a bundle leave unchanged -/

/-- State a is s but for charges to strand n of tile t and what every issue touches (R103, R113). -/
def Charged (t n : Nat) (s a : State) : Prop :=
  (∃ e c m g h, a.strand t n = { s.strand t n with echg := e, claim := c, missed := m, gbar := g, gbarH := h }) ∧ (∀ m, m ≠ n → a.strand t m = s.strand t m) ∧
    (a.tile t).still = (s.tile t).still ∧ (∀ u, u ≠ t → a.tile u = s.tile u) ∧ a.still = s.still

theorem Charged.refl (t n : Nat) (s : State) : Charged t n s s := ⟨⟨_, _, _, _, _, rfl⟩, fun _ _ => rfl, rfl, fun _ _ => rfl, rfl⟩

theorem Charged.trans {t n : Nat} {s a b : State} (h : Charged t n s a) (g : Charged t n a b) : Charged t n s b := by
  obtain ⟨⟨_, _, _, _, _, h1⟩, h2, h3, h4, h5⟩ := h
  obtain ⟨⟨e', c', m', u', v', g1⟩, g2, g3, g4, g5⟩ := g
  refine ⟨⟨e', c', m', u', v', ?_⟩, fun m hm => (g2 m hm).trans (h2 m hm), g3.trans h3, fun u hu => (g4 u hu).trans (h4 u hu), g5.trans h5⟩
  rw [g1, h1]

theorem Charged.charge (s : State) (t n c k : Nat) : Charged t n s (s.charge t c k (some n)) := by
  refine ⟨⟨_, (s.strand t n).claim, (s.strand t n).missed, (s.strand t n).gbar, (s.strand t n).gbarH, s.charge_strand_same t c k n⟩, fun m hm => s.charge_strand_other t c k hm, ?_,
    fun u hu => s.charge_tile_other c k n hu, ?_⟩
  · obtain ⟨r, e, _, h⟩ := s.charge_tile_same t c k n
    rw [h]; rfl
  · obtain ⟨w, z, hp⟩ := s.charge_pkg t c k (some n)
    simp [State.still, hp]

theorem Charged.claim (s : State) (t n : Nat) (b : Bool) :
    Charged t n s (s.modStrand t n (fun st => { st.gbarUsed with claim := b })) := by
  refine ⟨⟨(s.strand t n).echg, b, (s.strand t n).missed, (s.strand t n).gbarUsed.gbar, none, ?_⟩, fun m hm => s.strand_modStrand_other _ (Or.inr hm), ?_,
    fun u hu => by rw [State.modStrand_eq, State.tile_modTile_other _ _ hu], rfl⟩
  · rw [s.strand_modStrand_same]; unfold Strand.gbarUsed; split <;> rfl
  · rw [State.modStrand_eq, State.tile_modTile_same]; rfl

theorem Charged.dropMissed (s : State) (t n : Nat) : Charged t n s (s.dropMissed t n) := by
  refine ⟨⟨(s.strand t n).echg, (s.strand t n).claim, 0, (s.strand t n).gbar, (s.strand t n).gbarH, s.strand_modStrand_same t n _⟩,
    fun m hm => s.strand_modStrand_other _ (Or.inr hm), ?_,
    fun u hu => by rw [State.dropMissed, State.modStrand_eq, State.tile_modTile_other _ _ hu], rfl⟩
  rw [State.dropMissed, State.modStrand_eq, State.tile_modTile_same]; rfl

/-- A tile changed in what a frame does not hold to: its meter, its counts, the bundle in issue. -/
theorem Charged.tile (s : State) (t n : Nat) (f : Tile → Tile) (h : ∀ u, (f u).still = u.still) (g : ∀ u, (f u).strands = u.strands) :
    Charged t n s (s.modTile t f) := by
  have hs : ∀ m, (s.modTile t f).strand t m = s.strand t m := fun m => by
    simp [State.strand, Tile.strand, g]
  exact ⟨⟨(s.strand t n).echg, (s.strand t n).claim, (s.strand t n).missed, (s.strand t n).gbar, (s.strand t n).gbarH, by rw [hs]⟩, fun m _ => hs m, by simp [h],
    fun u hu => State.tile_modTile_other _ _ hu, rfl⟩

theorem Charged.foldl {α : Type} {t n : Nat} (l : List α) (f : State → α → State) (h : ∀ s a, Charged t n s (f s a)) :
    ∀ s, Charged t n s (l.foldl f s) := by
  induction l with
  | nil => exact fun s => Charged.refl t n s
  | cons a l ih => exact fun s => (h s a).trans (ih _)

/-- R215: the micro-TLB misses of a bundle are charged. -/
theorem Charged.missed (s : State) (t n : Nat) : Charged t n s (s.chargeMissed t n) := by
  unfold State.chargeMissed
  dsimp only
  split
  · exact Charged.refl _ _ _
  · exact Charged.trans (Charged.charge _ _ _ 46 _) (Charged.dropMissed _ _ _)

/-- R18, R101: the charge of an issue. -/
theorem Charged.head (s : State) (t n : Nat) (lit : Bool) : Charged t n s (s.issueHead t n lit) := by
  unfold State.issueHead
  dsimp only
  refine Charged.trans ?_ (Charged.tile _ _ _ _ (fun _ => rfl) (fun _ => rfl))
  refine Charged.trans (Charged.charge s _ _ 0 1) ?_
  cases lit
  · exact Charged.refl _ _ _
  · exact Charged.charge _ _ _ 7 1

/-- R215: the issue of a bundle changes nothing but counts. -/
theorem issued_charged (s pre : State) (lit : Bool) (l : List Sem) : Charged s.focus s.cur pre (s.issued pre lit l) := by
  unfold State.issued
  dsimp only
  refine Charged.trans ?_ (Charged.tile _ _ _ _ (fun _ => rfl) (fun _ => rfl))
  refine Charged.trans ?_ (Charged.foldl l _ (fun s m => Charged.foldl m.classes _ (fun s c => Charged.charge s _ _ c 1) s) _)
  refine Charged.trans ?_ (Charged.claim _ _ _ false)
  exact Charged.trans (Charged.missed pre _ _) (Charged.head _ _ _ lit)

/-- The focus is no part of what a charge changes. -/
theorem Charged.focus {t n : Nat} {s a : State} (h : Charged t n s a) : a.focus = s.focus := by
  have := congrArg State.focus h.2.2.2.2; exact this

/-- The core's choice of strand is no part of it either. -/
theorem Charged.cur {n : Nat} {s a : State} (h : Charged s.focus n s a) : a.cur = s.cur := by
  unfold State.cur
  rw [h.focus]
  have := congrArg Tile.cur h.2.2.1; exact this

/-- R187: the bundle in issue as its slots begin to act. -/
theorem issued_issue (s pre : State) (lit : Bool) (l : List Sem) :
    ((s.issued pre lit l).tile s.focus).issue.wb = [] ∧ ((s.issued pre lit l).tile s.focus).issue.waits = [] ∧
      ((s.issued pre lit l).tile s.focus).issue.sets = [] ∧ ((s.issued pre lit l).tile s.focus).issue.act = .none ∧
      ((s.issued pre lit l).tile s.focus).issue.taken = false ∧
      ((s.issued pre lit l).tile s.focus).issue.strand = s.cur ∧
      ((s.issued pre lit l).tile s.focus).issue.nextPc = seqPc s.me.pc lit := by
  unfold State.issued
  simp

end Sys2Proof.Machine
end

