-- ==== Sys2Proof/Laws/PerInstr.lean ====
section
/-! SUPPORT. Statements made per instruction: that the fields of a core instruction decode to it, for every constructor. -/

namespace Sys2Proof.Laws.Encodes

/-- R163 to R169: the fields that encode a well-formed core instruction decode to it in its home slot. Of a step that is no core
instruction nothing is said: it has no encoding. -/
def Statement (i : Instr) : Prop := i.isCore = true → i.wf = true → decodeFields i.slot i.fields = .ok i

/-- A form whose reserved bits are zero and whose fields are in range is its instruction. -/
theorem form_ok {z r : Bool} {i j : Instr} (hz : z = true) (hr : r = true) (hi : i = j) : form z r i = .ok j := by
  subst hz hr hi; rfl

/-! ## Fields within words -/

/-- A narrow field widened and narrowed again. -/
theorem back {n m : Nat} (x : BitVec n) (h : n ≤ m) : (x.setWidth m).setWidth n = x := by
  apply BitVec.eq_of_toNat_eq
  have : x.toNat < 2 ^ n := x.isLt
  have h2 : 2 ^ n ≤ 2 ^ m := Nat.pow_le_pow_right (by omega) h
  simp [BitVec.toNat_setWidth, Nat.mod_eq_of_lt, Nat.lt_of_lt_of_le this h2, this]
/-- The low field of an immediate. -/
theorem lowField {n : Nat} (x : BitVec n) (h : n ≤ 32) : (x.setWidth 32).extractLsb' 0 n = x := by
  apply BitVec.eq_of_getLsbD_eq
  intro i hi
  have : i < 32 := by omega
  simp [hi, this]
/-- An immediate that holds one field. -/
theorem below {n : Nat} (x : BitVec n) (_ : n ≤ 32) : (x.setWidth 32).toNat < 2 ^ n := by
  simp only [BitVec.toNat_setWidth]
  have : x.toNat < 2 ^ n := x.isLt
  exact Nat.lt_of_le_of_lt (Nat.mod_le _ _) this
/-- The number of a widened field. -/
theorem toNat_wide {n m : Nat} (x : BitVec n) (h : n ≤ m) : (x.setWidth m).toNat = x.toNat := by
  have : x.toNat < 2 ^ n := x.isLt
  have h2 : 2 ^ n ≤ 2 ^ m := Nat.pow_le_pow_right (by omega) h
  simp [BitVec.toNat_setWidth, Nat.mod_eq_of_lt, Nat.lt_of_lt_of_le this h2]
/-- The upper of two fields of an immediate. -/
theorem highField {m n : Nat} (x : BitVec m) (y : BitVec n) (h : m + n ≤ 32) : ((x ++ y).setWidth 32).extractLsb' n m = x := by
  apply BitVec.eq_of_getLsbD_eq
  intro i hi
  have : n + i < 32 := by omega
  simp [BitVec.getLsbD_append, this, hi]
/-- The lower of two fields of an immediate. -/
theorem lowOfPair {m n : Nat} (x : BitVec m) (y : BitVec n) (h : m + n ≤ 32) : ((x ++ y).setWidth 32).extractLsb' 0 n = y := by
  apply BitVec.eq_of_getLsbD_eq
  intro i hi
  have : i < 32 := by omega
  simp [BitVec.getLsbD_append, this, hi]


/-- A stream-bound register's number in five bits names one. -/
theorem sOk_wide : ∀ s : SReg, sOk (s.setWidth 5) = true := by decide
/-- A pattern register's number in five bits names one. -/
theorem pOk_wide : ∀ p : PReg, pOk (p.setWidth 5) = true := by decide
/-- The target of a port's immediate is the port. -/
theorem bindTarget_port : ∀ n : BitVec 4, bindTarget (((6#4 ++ n).setWidth 32).extractLsb' 0 8) = some (.port n) := by decide
/-- Two fields stay below their joint width. -/
theorem pairBelow {m n : Nat} (x : BitVec m) (y : BitVec n) (h : m + n ≤ 32) :
    ((x ++ y).setWidth 32).toNat < 2 ^ (m + n) := below (x ++ y) h
/-- The immediate of two fields that fill it. -/
theorem fullHigh {m n : Nat} (x : BitVec m) (y : BitVec n) : (x ++ y).extractLsb' n m = x := by
  apply BitVec.eq_of_getLsbD_eq
  intro i hi
  simp [BitVec.getLsbD_append, hi]
/-- The lower of two fields that fill an immediate. -/
theorem fullLow {m n : Nat} (x : BitVec m) (y : BitVec n) : (x ++ y).extractLsb' 0 n = y := by
  apply BitVec.eq_of_getLsbD_eq
  intro i hi
  simp [BitVec.getLsbD_append, hi]
/-- The bit between two fields of an immediate. -/
theorem middleBit (q : BitVec 6) (r : Bool) (id : SId) : ((q ++ BitVec.ofBool r ++ id).setWidth 32).getLsbD 5 = r := by
  simp only [BitVec.getLsbD_setWidth, BitVec.getLsbD_append]
  cases r <;> rfl
/-- The upper field of an immediate of two fields and a bit between them. -/
theorem topField (q : BitVec 6) (r : Bool) (id : SId) :
    ((q ++ BitVec.ofBool r ++ id).setWidth 32).extractLsb' 6 6 = q := by
  apply BitVec.eq_of_getLsbD_eq
  intro i hi
  have : 6 + i < 32 := by omega
  have h1 : ¬ (6 + i < 5) := by omega
  have h2 : ¬ (6 + i - 5 < 1) := by omega
  have h3 : 6 + i - 5 - 1 = i := by omega
  simp only [BitVec.getLsbD_extractLsb', BitVec.getLsbD_setWidth, BitVec.getLsbD_append, hi, this, h1, h2, h3, decide_true,
    Bool.true_and, ↓reduceIte]

/-! ## The constructors -/

theorem packageReset : Statement .packageReset := fun h => absurd h Bool.false_ne_true
theorem unitTestStart (u : Nat) : Statement (.unitTestStart u) := fun h => absurd h Bool.false_ne_true
theorem unitTestDone (u : Nat) (pass : Bool) : Statement (.unitTestDone u pass) := fun h => absurd h Bool.false_ne_true
theorem unitFailInService (u : Nat) : Statement (.unitFailInService u) := fun h => absurd h Bool.false_ne_true
theorem powerCheck (milliwatt : Nat) (hottest : List Int) : Statement (.powerCheck milliwatt hottest) := fun h => absurd h Bool.false_ne_true
theorem calibrationWindow (rail : List Nat) : Statement (.calibrationWindow rail) := fun h => absurd h Bool.false_ne_true
theorem wearSample (u indicator : Nat) (values : WearReading) : Statement (.wearSample u indicator values) := fun h => absurd h Bool.false_ne_true
theorem healthRefresh : Statement .healthRefresh := fun h => absurd h Bool.false_ne_true
theorem meterResidueSend (tile : Nat) : Statement (.meterResidueSend tile) := fun h => absurd h Bool.false_ne_true
theorem accountForward (die : Nat) : Statement (.accountForward die) := fun h => absurd h Bool.false_ne_true
theorem chargeApply (die : Nat) : Statement (.chargeApply die) := fun h => absurd h Bool.false_ne_true
theorem sliceEnd (part : Nat) : Statement (.sliceEnd part) := fun h => absurd h Bool.false_ne_true
theorem contextDispatch (part : Nat) : Statement (.contextDispatch part) := fun h => absurd h Bool.false_ne_true
theorem stopSequence (ctx : Nat) : Statement (.stopSequence ctx) := fun h => absurd h Bool.false_ne_true
theorem saveComplete (ctx : Nat) : Statement (.saveComplete ctx) := fun h => absurd h Bool.false_ne_true
theorem proofSample (part : Nat) : Statement (.proofSample part) := fun h => absurd h Bool.false_ne_true
theorem proofIntervalEnd (part : Nat) : Statement (.proofIntervalEnd part) := fun h => absurd h Bool.false_ne_true
theorem moveTakeup (tile : Nat) : Statement (.moveTakeup tile) := fun h => absurd h Bool.false_ne_true
theorem stageTakeup (tile : Nat) : Statement (.stageTakeup tile) := fun h => absurd h Bool.false_ne_true
theorem preload (tile : Nat) : Statement (.preload tile) := fun h => absurd h Bool.false_ne_true
theorem launchStart (ctx slot : Nat) : Statement (.launchStart ctx slot) := fun h => absurd h Bool.false_ne_true
theorem trigCount (ctx : Nat) : Statement (.trigCount ctx) := fun h => absurd h Bool.false_ne_true
theorem stageRetire (ctx slot stage : Nat) : Statement (.stageRetire ctx slot stage) := fun h => absurd h Bool.false_ne_true
theorem pipelineRetire (ctx slot : Nat) : Statement (.pipelineRetire ctx slot) := fun h => absurd h Bool.false_ne_true
theorem strandSelect (tile : Nat) : Statement (.strandSelect tile) := fun h => absurd h Bool.false_ne_true
theorem dividerAssign (ctx slot q : Nat) : Statement (.dividerAssign ctx slot q) := fun h => absurd h Bool.false_ne_true
theorem tlbWalk (die : Nat) : Statement (.tlbWalk die) := fun h => absurd h Bool.false_ne_true
theorem migrateRecheck (die : Nat) : Statement (.migrateRecheck die) := fun h => absurd h Bool.false_ne_true
theorem invalidationComplete : Statement .invalidationComplete := fun h => absurd h Bool.false_ne_true
theorem indexFetch (tile : Nat) : Statement (.indexFetch tile) := fun h => absurd h Bool.false_ne_true
theorem prefetchFill (tile strand : Nat) : Statement (.prefetchFill tile strand) := fun h => absurd h Bool.false_ne_true
theorem pendingTrapTake (tile : Nat) : Statement (.pendingTrapTake tile) := fun h => absurd h Bool.false_ne_true
theorem loadReturn (tile : Nat) : Statement (.loadReturn tile) := fun h => absurd h Bool.false_ne_true
theorem streamRequestGrant (tile : Nat) : Statement (.streamRequestGrant tile) := fun h => absurd h Bool.false_ne_true
theorem streamDataReturn (tile id : Nat) : Statement (.streamDataReturn tile id) := fun h => absurd h Bool.false_ne_true
theorem streamTokenTake (tile id : Nat) : Statement (.streamTokenTake tile id) := fun h => absurd h Bool.false_ne_true
theorem streamComplete (tile id : Nat) : Statement (.streamComplete tile id) := fun h => absurd h Bool.false_ne_true
theorem memoryNodeApply (die bank : Nat) : Statement (.memoryNodeApply die bank) := fun h => absurd h Bool.false_ne_true
theorem reductionApply (die bank : Nat) : Statement (.reductionApply die bank) := fun h => absurd h Bool.false_ne_true
theorem multicastSpaceReturn (tile id member : Nat) : Statement (.multicastSpaceReturn tile id member) := fun h => absurd h Bool.false_ne_true
theorem slotWriteback (die : Nat) : Statement (.slotWriteback die) := fun h => absurd h Bool.false_ne_true
theorem spillReturn (ctx slot q : Nat) : Statement (.spillReturn ctx slot q) := fun h => absurd h Bool.false_ne_true
theorem writeBatchSeal (die : Nat) : Statement (.writeBatchSeal die) := fun h => absurd h Bool.false_ne_true
theorem batchVisible (src dst : Nat) : Statement (.batchVisible src dst) := fun h => absurd h Bool.false_ne_true
theorem replicaLineApply (die : Nat) : Statement (.replicaLineApply die) := fun h => absurd h Bool.false_ne_true
theorem tokenDeliver (ctx : Nat) : Statement (.tokenDeliver ctx) := fun h => absurd h Bool.false_ne_true
theorem remoteIngress (port : Nat) (req : RemoteReq) : Statement (.remoteIngress port req) := fun h => absurd h Bool.false_ne_true
theorem remoteResponse (resp : RespArrival) : Statement (.remoteResponse resp) := fun h => absurd h Bool.false_ne_true
theorem linkFlitSend (port : Nat) : Statement (.linkFlitSend port) := fun h => absurd h Bool.false_ne_true
theorem linkDead (port : Nat) : Statement (.linkDead port) := fun h => absurd h Bool.false_ne_true
theorem groupFiring (tile cell : Nat) : Statement (.groupFiring tile cell) := fun h => absurd h Bool.false_ne_true
theorem elementWatermarkResume (tile cell : Nat) : Statement (.elementWatermarkResume tile cell) := fun h => absurd h Bool.false_ne_true
theorem roundComplete (tile : Nat) : Statement (.roundComplete tile) := fun h => absurd h Bool.false_ne_true
theorem roundDeadlock (tile : Nat) : Statement (.roundDeadlock tile) := fun h => absurd h Bool.false_ne_true
theorem cellWriteVisible (tile : Nat) : Statement (.cellWriteVisible tile) := fun h => absurd h Bool.false_ne_true
theorem fabricImageLoad (tile : Nat) : Statement (.fabricImageLoad tile) := fun h => absurd h Bool.false_ne_true
theorem crumbRecordWrite (ctx : Nat) : Statement (.crumbRecordWrite ctx) := fun h => absurd h Bool.false_ne_true
theorem replayRecordTake (ctx : Nat) : Statement (.replayRecordTake ctx) := fun h => absurd h Bool.false_ne_true
theorem partform (m : Lmsg) : Statement (.partform m) := fun h => absurd h Bool.false_ne_true
theorem partfree (m : Lmsg) : Statement (.partfree m) := fun h => absurd h Bool.false_ne_true
theorem ctxcreate (m : Lmsg) : Statement (.ctxcreate m) := fun h => absurd h Bool.false_ne_true
theorem ctxdestroy (m : Lmsg) : Statement (.ctxdestroy m) := fun h => absurd h Bool.false_ne_true
theorem keyset (m : Lmsg) : Statement (.keyset m) := fun h => absurd h Bool.false_ne_true
theorem allow (m : Lmsg) : Statement (.allow m) := fun h => absurd h Bool.false_ne_true
theorem modeset (m : Lmsg) : Statement (.modeset m) := fun h => absurd h Bool.false_ne_true
theorem retest (m : Lmsg) : Statement (.retest m) := fun h => absurd h Bool.false_ne_true
theorem mapread (m : Lmsg) : Statement (.mapread m) := fun h => absurd h Bool.false_ne_true
theorem healthread (m : Lmsg) : Statement (.healthread m) := fun h => absurd h Bool.false_ne_true
theorem idread (m : Lmsg) : Statement (.idread m) := fun h => absurd h Bool.false_ne_true
theorem proofset (m : Lmsg) : Statement (.proofset m) := fun h => absurd h Bool.false_ne_true
theorem winset (m : Lmsg) : Statement (.winset m) := fun h => absurd h Bool.false_ne_true
theorem traffic (m : Lmsg) : Statement (.traffic m) := fun h => absurd h Bool.false_ne_true
theorem tripclear (m : Lmsg) : Statement (.tripclear m) := fun h => absurd h Bool.false_ne_true
theorem dbgattach (m : Lmsg) : Statement (.dbgattach m) := fun h => absurd h Bool.false_ne_true
theorem dbgdetach (m : Lmsg) : Statement (.dbgdetach m) := fun h => absurd h Bool.false_ne_true
theorem dbghalt (m : Lmsg) : Statement (.dbghalt m) := fun h => absurd h Bool.false_ne_true
theorem dbggo (m : Lmsg) : Statement (.dbggo m) := fun h => absurd h Bool.false_ne_true
theorem dbgstep (m : Lmsg) : Statement (.dbgstep m) := fun h => absurd h Bool.false_ne_true
theorem dbgfreeze (m : Lmsg) : Statement (.dbgfreeze m) := fun h => absurd h Bool.false_ne_true
theorem dbgthaw (m : Lmsg) : Statement (.dbgthaw m) := fun h => absurd h Bool.false_ne_true
theorem dbgread (m : Lmsg) : Statement (.dbgread m) := fun h => absurd h Bool.false_ne_true
theorem dbgwrite (m : Lmsg) : Statement (.dbgwrite m) := fun h => absurd h Bool.false_ne_true
theorem launch (m : Lmsg) : Statement (.launch m) := fun h => absurd h Bool.false_ne_true
theorem qfeed (m : Lmsg) : Statement (.qfeed m) := fun h => absurd h Bool.false_ne_true
theorem qtake (m : Lmsg) : Statement (.qtake m) := fun h => absurd h Bool.false_ne_true
theorem qend (m : Lmsg) : Statement (.qend m) := fun h => absurd h Bool.false_ne_true
theorem statread (m : Lmsg) : Statement (.statread m) := fun h => absurd h Bool.false_ne_true
theorem pagereply (m : Lmsg) : Statement (.pagereply m) := fun h => absurd h Bool.false_ne_true
theorem rdmaWrite (vf qp : Nat) (va : RdmaAt) (data : List Byte) : Statement (.rdmaWrite vf qp va data) := fun h => absurd h Bool.false_ne_true
theorem rdmaRead (vf qp : Nat) (va : RdmaAt) (len : Nat) : Statement (.rdmaRead vf qp va len) := fun h => absurd h Bool.false_ne_true
theorem rdmaSend (vf qp : Nat) (data : List Byte) : Statement (.rdmaSend vf qp data) := fun h => absurd h Bool.false_ne_true
theorem nop : Statement .nop := fun _ _ => rfl
theorem add (d a b : XReg) : Statement (.add d a b) := fun _ _ => rfl
theorem sub (d a b : XReg) : Statement (.sub d a b) := fun _ _ => rfl
theorem addi (d a : XReg) (imm : Imm) : Statement (.addi d a imm) := fun _ _ => rfl
theorem mul (d a b : XReg) : Statement (.mul d a b) := fun _ _ => rfl
theorem mulh (d a b : XReg) : Statement (.mulh d a b) := fun _ _ => rfl
theorem mulhu (d a b : XReg) : Statement (.mulhu d a b) := fun _ _ => rfl
theorem div (d a b : XReg) : Statement (.div d a b) := fun _ _ => rfl
theorem divu (d a b : XReg) : Statement (.divu d a b) := fun _ _ => rfl
theorem rem (d a b : XReg) : Statement (.rem d a b) := fun _ _ => rfl
theorem remu (d a b : XReg) : Statement (.remu d a b) := fun _ _ => rfl
theorem and (d a b : XReg) : Statement (.and d a b) := fun _ _ => rfl
theorem or (d a b : XReg) : Statement (.or d a b) := fun _ _ => rfl
theorem xor (d a b : XReg) : Statement (.xor d a b) := fun _ _ => rfl
theorem andi (d a : XReg) (imm : Imm) : Statement (.andi d a imm) := fun _ _ => rfl
theorem ori (d a : XReg) (imm : Imm) : Statement (.ori d a imm) := fun _ _ => rfl
theorem xori (d a : XReg) (imm : Imm) : Statement (.xori d a imm) := fun _ _ => rfl
theorem shl (d a b : XReg) : Statement (.shl d a b) := fun _ _ => rfl
theorem shr (d a b : XReg) : Statement (.shr d a b) := fun _ _ => rfl
theorem sar (d a b : XReg) : Statement (.sar d a b) := fun _ _ => rfl
theorem shli (d : XReg) (a : XReg) (sh : BitVec 6) : Statement (.shli d a sh) := fun _ _ => by
  refine (form_ok ?_ ?_ ?_ : formSh ({ op := 0x14, d, a, imm := sh.setWidth 32 } : Fields) .shli = _)
  all_goals simp [Fields.noMd, Fields.immBelow, Fields.sub, lowField] at *
  all_goals omega
theorem shri (d : XReg) (a : XReg) (sh : BitVec 6) : Statement (.shri d a sh) := fun _ _ => by
  refine (form_ok ?_ ?_ ?_ : formSh ({ op := 0x15, d, a, imm := sh.setWidth 32 } : Fields) .shri = _)
  all_goals simp [Fields.noMd, Fields.immBelow, Fields.sub, lowField] at *
  all_goals omega
theorem sari (d : XReg) (a : XReg) (sh : BitVec 6) : Statement (.sari d a sh) := fun _ _ => by
  refine (form_ok ?_ ?_ ?_ : formSh ({ op := 0x16, d, a, imm := sh.setWidth 32 } : Fields) .sari = _)
  all_goals simp [Fields.noMd, Fields.immBelow, Fields.sub, lowField] at *
  all_goals omega
theorem min (d a b : XReg) : Statement (.min d a b) := fun _ _ => rfl
theorem max (d a b : XReg) : Statement (.max d a b) := fun _ _ => rfl
theorem minu (d a b : XReg) : Statement (.minu d a b) := fun _ _ => rfl
theorem maxu (d a b : XReg) : Statement (.maxu d a b) := fun _ _ => rfl
theorem slt (d a b : XReg) : Statement (.slt d a b) := fun _ _ => rfl
theorem sltu (d a b : XReg) : Statement (.sltu d a b) := fun _ _ => rfl
theorem seq (d a b : XReg) : Statement (.seq d a b) := fun _ _ => rfl
theorem sne (d a b : XReg) : Statement (.sne d a b) := fun _ _ => rfl
theorem slti (d a : XReg) (imm : Imm) : Statement (.slti d a imm) := fun _ _ => rfl
theorem clz (d a : XReg) : Statement (.clz d a) := fun _ _ => rfl
theorem ctz (d a : XReg) : Statement (.ctz d a) := fun _ _ => rfl
theorem popc (d a : XReg) : Statement (.popc d a) := fun _ _ => rfl
theorem bfx (d a : XReg) (off w : BitVec 8) : Statement (.bfx d a off w) := fun _ _ => by
  refine (form_ok ?_ rfl ?_ : form (0#5 == 0 && 0#5 == 0 && decide (((w ++ off).setWidth 32 : Imm).toNat < 2 ^ 16)) true
    (.bfx d a (((w ++ off).setWidth 32 : Imm).extractLsb' 0 8) (((w ++ off).setWidth 32 : Imm).extractLsb' 8 8)) = _)
  · exact decide_eq_true (pairBelow w off (by omega))
  · rw [lowOfPair w off (by omega), highField w off (by omega)]
theorem bfxR (d a b c : XReg) : Statement (.bfxR d a b c) := fun _ _ => rfl
theorem bfxs (d a : XReg) (off w : BitVec 8) : Statement (.bfxs d a off w) := fun _ _ => by
  refine (form_ok ?_ rfl ?_ : form (0#5 == 0 && 0#5 == 0 && decide (((w ++ off).setWidth 32 : Imm).toNat < 2 ^ 16)) true
    (.bfxs d a (((w ++ off).setWidth 32 : Imm).extractLsb' 0 8) (((w ++ off).setWidth 32 : Imm).extractLsb' 8 8)) = _)
  · exact decide_eq_true (pairBelow w off (by omega))
  · rw [lowOfPair w off (by omega), highField w off (by omega)]
theorem bfxsR (d a b c : XReg) : Statement (.bfxsR d a b c) := fun _ _ => rfl
theorem bfi (d a : XReg) (off w : BitVec 8) : Statement (.bfi d a off w) := fun _ _ => by
  refine (form_ok ?_ rfl ?_ : form (0#5 == 0 && 0#5 == 0 && decide (((w ++ off).setWidth 32 : Imm).toNat < 2 ^ 16)) true
    (.bfi d a (((w ++ off).setWidth 32 : Imm).extractLsb' 0 8) (((w ++ off).setWidth 32 : Imm).extractLsb' 8 8)) = _)
  · exact decide_eq_true (pairBelow w off (by omega))
  · rw [lowOfPair w off (by omega), highField w off (by omega)]
theorem bfiR (d a b c : XReg) : Statement (.bfiR d a b c) := fun _ _ => rfl
theorem movi (d : XReg) (imm : Imm) : Statement (.movi d imm) := fun _ _ => rfl
theorem movhi (d : XReg) (imm : Imm) : Statement (.movhi d imm) := fun _ _ => rfl
theorem sel (d a b c : XReg) : Statement (.sel d a b c) := fun _ _ => rfl
theorem lea (d : XReg) (a : XReg) (b : XReg) (sc : BitVec 2) (imm : Imm) : Statement (.lea d a b sc imm) := fun _ _ => by
  refine (form_ok ?_ ?_ ?_ : form (({ op := 0x29, d, a, b, md := sc.setWidth 4, imm } : Fields).c == 0) (decide (({ op := 0x29, d, a, b, md := sc.setWidth 4, imm } : Fields).md.toNat < 4)) (.lea ({ op := 0x29, d, a, b, md := sc.setWidth 4, imm } : Fields).d ({ op := 0x29, d, a, b, md := sc.setWidth 4, imm } : Fields).a ({ op := 0x29, d, a, b, md := sc.setWidth 4, imm } : Fields).b (({ op := 0x29, d, a, b, md := sc.setWidth 4, imm } : Fields).md.setWidth 2) ({ op := 0x29, d, a, b, md := sc.setWidth 4, imm } : Fields).imm) = _)
  all_goals simp at *
  all_goals omega
theorem rngP0 (d a b c : XReg) : Statement (.rngP0 d a b c) := fun _ _ => rfl
theorem rngP1 (d a b c : XReg) : Statement (.rngP1 d a b c) := fun _ _ => rfl
theorem fadd (rm : BitVec 2) (d : XReg) (a : XReg) (b : XReg) : Statement (.fadd rm d a b) := fun _ _ => by
  refine (form_ok ?_ ?_ ?_ : formFp ({ op := 0x2B, d, a, b, md := rm.setWidth 4 } : Fields) .fadd = _)
  all_goals simp [Fields.noImm] at *
  all_goals omega
theorem fsub (rm : BitVec 2) (d : XReg) (a : XReg) (b : XReg) : Statement (.fsub rm d a b) := fun _ _ => by
  refine (form_ok ?_ ?_ ?_ : formFp ({ op := 0x2C, d, a, b, md := rm.setWidth 4 } : Fields) .fsub = _)
  all_goals simp [Fields.noImm] at *
  all_goals omega
theorem fmul (rm : BitVec 2) (d : XReg) (a : XReg) (b : XReg) : Statement (.fmul rm d a b) := fun _ _ => by
  refine (form_ok ?_ ?_ ?_ : formFp ({ op := 0x2D, d, a, b, md := rm.setWidth 4 } : Fields) .fmul = _)
  all_goals simp [Fields.noImm] at *
  all_goals omega
theorem ffma (rm : BitVec 2) (d : XReg) (a : XReg) (b : XReg) (c : XReg) : Statement (.ffma rm d a b c) := fun _ _ => by
  refine (form_ok ?_ ?_ ?_ : form ({ op := 0x2E, d, a, b, md := rm.setWidth 4, c } : Fields).noImm (decide (({ op := 0x2E, d, a, b, md := rm.setWidth 4, c } : Fields).md.toNat < 4)) (.ffma (({ op := 0x2E, d, a, b, md := rm.setWidth 4, c } : Fields).md.setWidth 2) ({ op := 0x2E, d, a, b, md := rm.setWidth 4, c } : Fields).d ({ op := 0x2E, d, a, b, md := rm.setWidth 4, c } : Fields).a ({ op := 0x2E, d, a, b, md := rm.setWidth 4, c } : Fields).b ({ op := 0x2E, d, a, b, md := rm.setWidth 4, c } : Fields).c) = _)
  all_goals simp [Fields.noImm] at *
  all_goals omega
theorem fmin (d a b : XReg) : Statement (.fmin d a b) := fun _ _ => rfl
theorem fmax (d a b : XReg) : Statement (.fmax d a b) := fun _ _ => rfl
theorem fcmp (cc : BitVec 3) (d : XReg) (a : XReg) (b : XReg) : Statement (.fcmp cc d a b) := fun _ _ => by
  refine (form_ok ?_ ?_ ?_ : form (({ op := 0x31, d, a, b, md := cc.setWidth 4 } : Fields).c == 0 && ({ op := 0x31, d, a, b, md := cc.setWidth 4 } : Fields).noImm) (decide (({ op := 0x31, d, a, b, md := cc.setWidth 4 } : Fields).md.toNat < 8)) (.fcmp (({ op := 0x31, d, a, b, md := cc.setWidth 4 } : Fields).md.setWidth 3) ({ op := 0x31, d, a, b, md := cc.setWidth 4 } : Fields).d ({ op := 0x31, d, a, b, md := cc.setWidth 4 } : Fields).a ({ op := 0x31, d, a, b, md := cc.setWidth 4 } : Fields).b) = _)
  all_goals simp [Fields.noImm] at *
  all_goals omega
theorem fcvt (dt sc : BitVec 4) (rm : BitVec 2) (d a : XReg) : Statement (.fcvt dt sc rm d a) := fun _ hw => by
  replace hw : fcvtPair dt.toNat sc.toNat = true := hw
  refine (form_ok ?_ ?_ ?_ : form (0#5 == 0 && 0#5 == 0 && decide (((sc ++ dt).setWidth 32 : Imm).toNat < 2 ^ 8))
    (decide ((rm.setWidth 4).toNat < 2 ^ 2) && fcvtPair (((sc ++ dt).setWidth 32 : Imm).extractLsb' 0 4).toNat
      (((sc ++ dt).setWidth 32 : Imm).extractLsb' 4 4).toNat)
    (.fcvt (((sc ++ dt).setWidth 32 : Imm).extractLsb' 0 4) (((sc ++ dt).setWidth 32 : Imm).extractLsb' 4 4)
      ((rm.setWidth 4).setWidth 2) d a) = _)
  · exact decide_eq_true (pairBelow sc dt (by omega))
  · rw [lowOfPair sc dt (by omega), highField sc dt (by omega), hw, toNat_wide rm (by omega), decide_eq_true rm.isLt]
    rfl
  · rw [lowOfPair sc dt (by omega), highField sc dt (by omega), back rm (by omega)]
theorem ld (t : BitVec 3) (d a : XReg) (imm : Imm) : Statement (.ld t d a imm) := fun _ hw => by
  replace hw : decide (t ≠ 7#3) = true := hw
  refine (form_ok rfl ?_ ?_ : form (0#5 == 0 && 0#5 == 0) (decide ((t.setWidth 4).toNat < 7))
    (.ld ((t.setWidth 4).setWidth 3) d a imm) = _)
  · exact (show ∀ u : BitVec 3, decide (u ≠ 7#3) = true → decide ((u.setWidth 4).toNat < 7) = true by decide) t hw
  · rw [back t (by omega)]
theorem st (t : BitVec 2) (a : XReg) (b : XReg) (imm : Imm) : Statement (.st t a b imm) := fun _ _ => by
  refine (form_ok ?_ ?_ ?_ : form (({ op := 0x41, a, b, md := t.setWidth 4, imm } : Fields).d == 0 && ({ op := 0x41, a, b, md := t.setWidth 4, imm } : Fields).c == 0) (decide (({ op := 0x41, a, b, md := t.setWidth 4, imm } : Fields).md.toNat < 4)) (.st (({ op := 0x41, a, b, md := t.setWidth 4, imm } : Fields).md.setWidth 2) ({ op := 0x41, a, b, md := t.setWidth 4, imm } : Fields).a ({ op := 0x41, a, b, md := t.setWidth 4, imm } : Fields).b ({ op := 0x41, a, b, md := t.setWidth 4, imm } : Fields).imm) = _)
  all_goals simp at *
  all_goals omega
theorem atom (op : BitVec 4) (wide : Bool) (d a b : XReg) (imm : Imm) : Statement (.atom op wide d a b imm) := fun _ hw => by
  replace hw : decide (op.toNat ≤ 8) = true := hw
  cases wide <;>
    exact form_ok (z := true) (r := decide (op.toNat ≤ 8) && true) (i := .atom op _ d a b imm) rfl (by rw [hw]; rfl) rfl
theorem cas (wide : Bool) (d a b c : XReg) (imm : Imm) : Statement (.cas wide d a b c imm) := fun _ _ => by
  cases wide <;> rfl
theorem srd (d : XReg) (s : SReg) : Statement (.srd d s) := fun _ _ => by
  refine (form_ok ?_ ?_ ?_ : form (({ op := 0x44, d, a := s.setWidth 5 } : Fields).b == 0 && ({ op := 0x44, d, a := s.setWidth 5 } : Fields).noMd && ({ op := 0x44, d, a := s.setWidth 5 } : Fields).c == 0 && ({ op := 0x44, d, a := s.setWidth 5 } : Fields).noImm) (sOk ({ op := 0x44, d, a := s.setWidth 5 } : Fields).a) (.srd ({ op := 0x44, d, a := s.setWidth 5 } : Fields).d (({ op := 0x44, d, a := s.setWidth 5 } : Fields).a.setWidth 3)) = _)
  all_goals simp [Fields.noMd, Fields.noImm, sOk] at *
  all_goals omega
theorem speek (d : XReg) (s : SReg) : Statement (.speek d s) := fun _ _ => by
  refine (form_ok ?_ ?_ ?_ : form (({ op := 0x45, d, a := s.setWidth 5 } : Fields).b == 0 && ({ op := 0x45, d, a := s.setWidth 5 } : Fields).noMd && ({ op := 0x45, d, a := s.setWidth 5 } : Fields).c == 0 && ({ op := 0x45, d, a := s.setWidth 5 } : Fields).noImm) (sOk ({ op := 0x45, d, a := s.setWidth 5 } : Fields).a) (.speek ({ op := 0x45, d, a := s.setWidth 5 } : Fields).d (({ op := 0x45, d, a := s.setWidth 5 } : Fields).a.setWidth 3)) = _)
  all_goals simp [Fields.noMd, Fields.noImm, sOk] at *
  all_goals omega
theorem swr (s : SReg) (a : XReg) : Statement (.swr s a) := fun _ _ => by
  refine (form_ok ?_ ?_ ?_ : form (({ op := 0x46, d := s.setWidth 5, a } : Fields).b == 0 && ({ op := 0x46, d := s.setWidth 5, a } : Fields).noMd && ({ op := 0x46, d := s.setWidth 5, a } : Fields).c == 0 && ({ op := 0x46, d := s.setWidth 5, a } : Fields).noImm) (sOk ({ op := 0x46, d := s.setWidth 5, a } : Fields).d) (.swr (({ op := 0x46, d := s.setWidth 5, a } : Fields).d.setWidth 3) ({ op := 0x46, d := s.setWidth 5, a } : Fields).a) = _)
  all_goals simp [Fields.noMd, Fields.noImm, sOk] at *
  all_goals omega
theorem gets (d : XReg) (n : BitVec 12) : Statement (.gets d n) := fun _ hw => by
  replace hw : (sysRegs.contains n.toNat) = true := hw
  refine (form_ok ?_ ?_ ?_ : form (({ op := 0x47, d, imm := n.setWidth 32 } : Fields).a == 0 && ({ op := 0x47, d, imm := n.setWidth 32 } : Fields).b == 0 && ({ op := 0x47, d, imm := n.setWidth 32 } : Fields).noMd && ({ op := 0x47, d, imm := n.setWidth 32 } : Fields).c == 0 && ({ op := 0x47, d, imm := n.setWidth 32 } : Fields).immBelow 12) (sysRegs.contains (({ op := 0x47, d, imm := n.setWidth 32 } : Fields).sub 0 12).toNat) (.gets ({ op := 0x47, d, imm := n.setWidth 32 } : Fields).d (({ op := 0x47, d, imm := n.setWidth 32 } : Fields).sub 0 12)) = _)
  all_goals simp [Fields.noMd, Fields.immBelow, Fields.sub, lowField] at *
  all_goals omega
theorem sets (n : BitVec 12) (a : XReg) : Statement (.sets n a) := fun _ hw => by
  replace hw : (sysRegs.contains n.toNat) = true := hw
  refine (form_ok ?_ ?_ ?_ : form (({ op := 0x48, a, imm := n.setWidth 32 } : Fields).d == 0 && ({ op := 0x48, a, imm := n.setWidth 32 } : Fields).b == 0 && ({ op := 0x48, a, imm := n.setWidth 32 } : Fields).noMd && ({ op := 0x48, a, imm := n.setWidth 32 } : Fields).c == 0 && ({ op := 0x48, a, imm := n.setWidth 32 } : Fields).immBelow 12) (sysRegs.contains (({ op := 0x48, a, imm := n.setWidth 32 } : Fields).sub 0 12).toNat) (.sets (({ op := 0x48, a, imm := n.setWidth 32 } : Fields).sub 0 12) ({ op := 0x48, a, imm := n.setWidth 32 } : Fields).a) = _)
  all_goals simp [Fields.noMd, Fields.immBelow, Fields.sub, lowField] at *
  all_goals omega
theorem sbind (s : SReg) (t : BindTarget) : Statement (.sbind s t) := fun _ _ => by
  have key (z : Bool) (hz : z = true) (t : BindTarget) :
      form z (sOk (s.setWidth 5)) (.sbind ((s.setWidth 5).setWidth 3) t) = .ok (.sbind s t) :=
    form_ok hz (sOk_wide s) (by rw [back s (by omega)])
  cases t with
  | port n =>
    show (match bindTarget (((6#4 ++ n).setWidth 32).extractLsb' 0 8) with
      | some t => form _ (sOk (s.setWidth 5)) (.sbind ((s.setWidth 5).setWidth 3) t)
      | none => _) = _
    rw [bindTarget_port n]
    exact key _ (decide_eq_true (pairBelow 6#4 n (by omega))) _
  | fabric => exact key _ rfl _
  | nothing => exact key _ rfl _
theorem psetb (p : PReg) (a : XReg) (imm : BitVec 20) : Statement (.psetb p a imm) := fun _ _ => by
  refine (form_ok ?_ ?_ ?_ : form (({ op := 0x60, d := p.setWidth 5, a, imm := imm.setWidth 32 } : Fields).b == 0 && ({ op := 0x60, d := p.setWidth 5, a, imm := imm.setWidth 32 } : Fields).noMd && ({ op := 0x60, d := p.setWidth 5, a, imm := imm.setWidth 32 } : Fields).c == 0 && ({ op := 0x60, d := p.setWidth 5, a, imm := imm.setWidth 32 } : Fields).immBelow 20) (pOk ({ op := 0x60, d := p.setWidth 5, a, imm := imm.setWidth 32 } : Fields).d) (.psetb (({ op := 0x60, d := p.setWidth 5, a, imm := imm.setWidth 32 } : Fields).d.setWidth 4) ({ op := 0x60, d := p.setWidth 5, a, imm := imm.setWidth 32 } : Fields).a (({ op := 0x60, d := p.setWidth 5, a, imm := imm.setWidth 32 } : Fields).sub 0 20)) = _)
  all_goals simp [Fields.noMd, Fields.immBelow, Fields.sub, pOk, lowField] at *
  all_goals omega
theorem psetdExt (p : PReg) (k : BitVec 2) (a : XReg) (b : XReg) : Statement (.psetdExt p k a b) := fun _ _ => by
  refine (form_ok ?_ ?_ ?_ : form ({ op := 0x61, d := p.setWidth 5, a, b, c := k.setWidth 5 } : Fields).noImm (pOk ({ op := 0x61, d := p.setWidth 5, a, b, c := k.setWidth 5 } : Fields).d && decide (({ op := 0x61, d := p.setWidth 5, a, b, c := k.setWidth 5 } : Fields).c.toNat < 4)) (.psetdExt (({ op := 0x61, d := p.setWidth 5, a, b, c := k.setWidth 5 } : Fields).d.setWidth 4) (({ op := 0x61, d := p.setWidth 5, a, b, c := k.setWidth 5 } : Fields).c.setWidth 2) ({ op := 0x61, d := p.setWidth 5, a, b, c := k.setWidth 5 } : Fields).a ({ op := 0x61, d := p.setWidth 5, a, b, c := k.setWidth 5 } : Fields).b) = _)
  all_goals simp [Fields.noImm, pOk] at *
  all_goals omega
theorem psetdStr (p : PReg) (k : BitVec 2) (a : XReg) (b : XReg) : Statement (.psetdStr p k a b) := fun _ _ => by
  refine (form_ok ?_ ?_ ?_ : form ({ op := 0x61, d := p.setWidth 5, a, b, md := 1, c := k.setWidth 5 } : Fields).noImm (pOk ({ op := 0x61, d := p.setWidth 5, a, b, md := 1, c := k.setWidth 5 } : Fields).d && decide (({ op := 0x61, d := p.setWidth 5, a, b, md := 1, c := k.setWidth 5 } : Fields).c.toNat < 4)) (.psetdStr (({ op := 0x61, d := p.setWidth 5, a, b, md := 1, c := k.setWidth 5 } : Fields).d.setWidth 4) (({ op := 0x61, d := p.setWidth 5, a, b, md := 1, c := k.setWidth 5 } : Fields).c.setWidth 2) ({ op := 0x61, d := p.setWidth 5, a, b, md := 1, c := k.setWidth 5 } : Fields).a ({ op := 0x61, d := p.setWidth 5, a, b, md := 1, c := k.setWidth 5 } : Fields).b) = _)
  all_goals simp [Fields.noImm, pOk] at *
  all_goals omega
theorem psetdBnd (p : PReg) (k : BitVec 2) (a : XReg) (b : XReg) : Statement (.psetdBnd p k a b) := fun _ _ => by
  refine (form_ok ?_ ?_ ?_ : form ({ op := 0x61, d := p.setWidth 5, a, b, md := 2, c := k.setWidth 5 } : Fields).noImm (pOk ({ op := 0x61, d := p.setWidth 5, a, b, md := 2, c := k.setWidth 5 } : Fields).d && decide (({ op := 0x61, d := p.setWidth 5, a, b, md := 2, c := k.setWidth 5 } : Fields).c.toNat < 4)) (.psetdBnd (({ op := 0x61, d := p.setWidth 5, a, b, md := 2, c := k.setWidth 5 } : Fields).d.setWidth 4) (({ op := 0x61, d := p.setWidth 5, a, b, md := 2, c := k.setWidth 5 } : Fields).c.setWidth 2) ({ op := 0x61, d := p.setWidth 5, a, b, md := 2, c := k.setWidth 5 } : Fields).a ({ op := 0x61, d := p.setWidth 5, a, b, md := 2, c := k.setWidth 5 } : Fields).b) = _)
  all_goals simp [Fields.noImm, pOk] at *
  all_goals omega
theorem psetf (p : PReg) (a : XReg) (b : XReg) (imm : Imm) : Statement (.psetf p a b imm) := fun _ _ => by
  refine (form_ok ?_ ?_ ?_ : form (({ op := 0x62, d := p.setWidth 5, a, b, imm } : Fields).noMd && ({ op := 0x62, d := p.setWidth 5, a, b, imm } : Fields).c == 0) (pOk ({ op := 0x62, d := p.setWidth 5, a, b, imm } : Fields).d) (.psetf (({ op := 0x62, d := p.setWidth 5, a, b, imm } : Fields).d.setWidth 4) ({ op := 0x62, d := p.setWidth 5, a, b, imm } : Fields).a ({ op := 0x62, d := p.setWidth 5, a, b, imm } : Fields).b ({ op := 0x62, d := p.setWidth 5, a, b, imm } : Fields).imm) = _)
  all_goals simp [Fields.noMd, pOk] at *
  all_goals omega
theorem sla (sp : Port) (p : PReg) (b : XReg) (id : SId) : Statement (.sla sp p b id) := fun _ _ => by
  refine (form_ok ?_ ?_ ?_ : formSA ({ op := 0x68, d := sp.setWidth 5, a := p.setWidth 5, b, imm := id.setWidth 32 } : Fields) .sla = _)
  all_goals simp [Fields.noMd, Fields.immBelow, Fields.sub, pOk, lowField] at *
  all_goals omega
theorem ssa (sp : Port) (p : PReg) (b : XReg) (id : SId) : Statement (.ssa sp p b id) := fun _ _ => by
  refine (form_ok ?_ ?_ ?_ : formSA ({ op := 0x69, d := sp.setWidth 5, a := p.setWidth 5, b, imm := id.setWidth 32 } : Fields) .ssa = _)
  all_goals simp [Fields.noMd, Fields.immBelow, Fields.sub, pOk, lowField] at *
  all_goals omega
theorem sli (sp : Port) (p : PReg) (c : Port) (id : SId) : Statement (.sli sp p c id) := fun _ _ => by
  refine (form_ok ?_ ?_ ?_ : formSI ({ op := 0x6A, d := sp.setWidth 5, a := p.setWidth 5, c := c.setWidth 5, imm := id.setWidth 32 } : Fields) .sli = _)
  all_goals simp [Fields.noMd, Fields.immBelow, Fields.sub, pOk, lowField] at *
  all_goals omega
theorem ssi (sp : Port) (p : PReg) (c : Port) (id : SId) : Statement (.ssi sp p c id) := fun _ _ => by
  refine (form_ok ?_ ?_ ?_ : formSI ({ op := 0x6B, d := sp.setWidth 5, a := p.setWidth 5, c := c.setWidth 5, imm := id.setWidth 32 } : Fields) .ssi = _)
  all_goals simp [Fields.noMd, Fields.immBelow, Fields.sub, pOk, lowField] at *
  all_goals omega
theorem sra (op : BitVec 4) (sp : Port) (p : PReg) (b : XReg) (id : SId) (r : Bool) (q : BitVec 6) :
    Statement (.sra op sp p b id r q) := fun _ hw => by
  replace hw : decide (op.toNat ≤ 11) = true := hw
  refine (form_ok ?_ ?_ ?_ : form (0#5 == 0 && decide (((q ++ BitVec.ofBool r ++ id).setWidth 32 : Imm).toNat < 2 ^ 12))
    (pOk (sp.setWidth 5) && pOk (p.setWidth 5) && decide (op.toNat ≤ 11))
    (.sra op ((sp.setWidth 5).setWidth 4) ((p.setWidth 5).setWidth 4) b (((q ++ BitVec.ofBool r ++ id).setWidth 32 : Imm).extractLsb' 0 5)
      (((q ++ BitVec.ofBool r ++ id).setWidth 32 : Imm).getLsbD 5) (((q ++ BitVec.ofBool r ++ id).setWidth 32 : Imm).extractLsb' 6 6)) = _)
  · exact decide_eq_true (pairBelow (q ++ BitVec.ofBool r) id (by omega))
  · rw [pOk_wide, pOk_wide, hw]; rfl
  · rw [back sp (by omega), back p (by omega), lowOfPair _ id (by omega), middleBit, topField]
theorem sri (op : BitVec 4) (sp : Port) (p : PReg) (c : Port) (id : SId) (r : Bool) (q : BitVec 6) :
    Statement (.sri op sp p c id r q) := fun _ hw => by
  replace hw : decide (op.toNat ≤ 11) = true := hw
  refine (form_ok ?_ ?_ ?_ : form (0#5 == 0 && decide (((q ++ BitVec.ofBool r ++ id).setWidth 32 : Imm).toNat < 2 ^ 12))
    (pOk (sp.setWidth 5) && pOk (p.setWidth 5) && pOk (c.setWidth 5) && decide (op.toNat ≤ 11))
    (.sri op ((sp.setWidth 5).setWidth 4) ((p.setWidth 5).setWidth 4) ((c.setWidth 5).setWidth 4) (((q ++ BitVec.ofBool r ++ id).setWidth 32 : Imm).extractLsb' 0 5)
      (((q ++ BitVec.ofBool r ++ id).setWidth 32 : Imm).getLsbD 5) (((q ++ BitVec.ofBool r ++ id).setWidth 32 : Imm).extractLsb' 6 6)) = _)
  · exact decide_eq_true (pairBelow (q ++ BitVec.ofBool r) id (by omega))
  · rw [pOk_wide, pOk_wide, pOk_wide, hw]; rfl
  · rw [back sp (by omega), back p (by omega), back c (by omega), lowOfPair _ id (by omega), middleBit, topField]
theorem smc (sp : Port) (p : PReg) (b : XReg) (id : SId) : Statement (.smc sp p b id) := fun _ _ => by
  refine (form_ok ?_ ?_ ?_ : formSA ({ op := 0x6F, d := sp.setWidth 5, a := p.setWidth 5, b, imm := id.setWidth 32 } : Fields) .smc = _)
  all_goals simp [Fields.noMd, Fields.immBelow, Fields.sub, pOk, lowField] at *
  all_goals omega
theorem sfill (v : BitVec 2) (sp : Port) (p : PReg) (b : XReg) (id : SId) : Statement (.sfill v sp p b id) := fun _ hw => by
  replace hw : decide (v ≠ 3#2) = true := hw
  refine (form_ok ?_ ?_ ?_ : form (0#5 == 0 && decide ((id.setWidth 32 : Imm).toNat < 2 ^ 5))
    (pOk (sp.setWidth 5) && pOk (p.setWidth 5) && decide ((v.setWidth 4).toNat < 3))
    (.sfill ((v.setWidth 4).setWidth 2) ((sp.setWidth 5).setWidth 4) ((p.setWidth 5).setWidth 4) b
      ((id.setWidth 32 : Imm).extractLsb' 0 5)) = _)
  · exact decide_eq_true (below id (by omega))
  · rw [pOk_wide, pOk_wide, Bool.true_and, Bool.true_and]
    exact (show ∀ u : BitVec 2, decide (u ≠ 3#2) = true → decide ((u.setWidth 4).toNat < 3) = true by decide) v hw
  · rw [back v (by omega), back sp (by omega), back p (by omega), lowField id (by omega)]
theorem srec (sp c : Port) (a : XReg) (id dep : SId) : Statement (.srec sp c a id dep) := fun _ _ => by
  refine (form_ok ?_ ?_ ?_ : form (0#5 == 0 && 0#4 == 0 && decide (((dep ++ id).setWidth 32 : Imm).toNat < 2 ^ 10))
    (pOk (sp.setWidth 5) && pOk (c.setWidth 5))
    (.srec ((sp.setWidth 5).setWidth 4) ((c.setWidth 5).setWidth 4) a (((dep ++ id).setWidth 32 : Imm).extractLsb' 0 5)
      (((dep ++ id).setWidth 32 : Imm).extractLsb' 5 5)) = _)
  · exact decide_eq_true (pairBelow dep id (by omega))
  · rw [pOk_wide, pOk_wide]; rfl
  · rw [back sp (by omega), back c (by omega), lowOfPair dep id (by omega), highField dep id (by omega)]
theorem scpy (sat : Bool) (pd pa : PReg) (id : SId) : Statement (.scpy sat pd pa id) := fun _ _ => by
  have key (m : BitVec 4) (hm : m.toNat < 2) : form (0#5 == 0 && 0#5 == 0 && decide ((id.setWidth 32 : Imm).toNat < 2 ^ 5))
      (pOk (pd.setWidth 5) && pOk (pa.setWidth 5) && decide (m.toNat < 2))
      (.scpy (m == 1) ((pd.setWidth 5).setWidth 4) ((pa.setWidth 5).setWidth 4) ((id.setWidth 32 : Imm).extractLsb' 0 5))
        = .ok (.scpy (m == 1) pd pa id) := by
    refine form_ok (decide_eq_true (below id (by omega))) ?_ ?_
    · rw [pOk_wide, pOk_wide, decide_eq_true hm]; rfl
    · rw [back pd (by omega), back pa (by omega), lowField id (by omega)]
  cases sat
  · exact key 0 (by decide)
  · exact key 1 (by decide)
theorem sqin (sp : Port) (q : QNum) (id : SId) : Statement (.sqin sp q id) := fun _ _ => by
  refine (form_ok ?_ ?_ ?_ : form (0#5 == 0 && 0#5 == 0 && 0#4 == 0 && 0#5 == 0 && decide (((q ++ id).setWidth 32 : Imm).toNat < 2 ^ 12))
    (pOk (sp.setWidth 5)) (.sqin ((sp.setWidth 5).setWidth 4) (((q ++ id).setWidth 32 : Imm).extractLsb' 5 7)
      (((q ++ id).setWidth 32 : Imm).extractLsb' 0 5)) = _)
  · exact decide_eq_true (pairBelow q id (by omega))
  · exact pOk_wide sp
  · rw [back sp (by omega), lowOfPair q id (by omega), highField q id (by omega)]
theorem sqout (sp : Port) (q : QNum) (id : SId) : Statement (.sqout sp q id) := fun _ _ => by
  refine (form_ok ?_ ?_ ?_ : form (0#5 == 0 && 0#5 == 0 && 0#4 == 0 && 0#5 == 0 && decide (((q ++ id).setWidth 32 : Imm).toNat < 2 ^ 12))
    (pOk (sp.setWidth 5)) (.sqout ((sp.setWidth 5).setWidth 4) (((q ++ id).setWidth 32 : Imm).extractLsb' 5 7)
      (((q ++ id).setWidth 32 : Imm).extractLsb' 0 5)) = _)
  · exact decide_eq_true (pairBelow q id (by omega))
  · exact pOk_wide sp
  · rw [back sp (by omega), lowOfPair q id (by omega), highField q id (by omega)]
theorem sbar (m : BitVec 3) : Statement (.sbar m) := fun _ hw => by
  replace hw : (decide (m.toNat ≤ 4)) = true := hw
  refine (form_ok ?_ ?_ ?_ : form (({ op := 0x74, md := m.setWidth 4 } : Fields).d == 0 && ({ op := 0x74, md := m.setWidth 4 } : Fields).a == 0 && ({ op := 0x74, md := m.setWidth 4 } : Fields).b == 0 && ({ op := 0x74, md := m.setWidth 4 } : Fields).c == 0 && ({ op := 0x74, md := m.setWidth 4 } : Fields).noImm) (decide (({ op := 0x74, md := m.setWidth 4 } : Fields).md.toNat ≤ 4)) (.sbar (({ op := 0x74, md := m.setWidth 4 } : Fields).md.setWidth 3)) = _)
  all_goals simp [Fields.noImm] at *
  all_goals omega
theorem swaitDone (d : XReg) (id : SId) : Statement (.swaitDone d id) := fun _ _ => by
  refine (form_ok ?_ rfl ?_ : form (0#5 == 0 && 0#5 == 0 && 0#5 == 0 && decide ((id.setWidth 32 : Imm).toNat < 2 ^ 5)) true
    (.swaitDone d ((id.setWidth 32 : Imm).extractLsb' 0 5)) = _)
  · exact decide_eq_true (below id (by omega))
  · rw [lowField id (by omega)]
theorem swaitMark (d : XReg) (id : SId) (n : BitVec 27) : Statement (.swaitMark d id n) := fun _ _ => by
  refine (form_ok rfl rfl ?_ : form (0#5 == 0 && 0#5 == 0 && 0#5 == 0) true
    (.swaitMark d ((n ++ id).extractLsb' 0 5) ((n ++ id).extractLsb' 5 27)) = _)
  rw [fullLow, fullHigh]
theorem swaitPoll (d : XReg) (id : SId) : Statement (.swaitPoll d id) := fun _ _ => by
  refine (form_ok ?_ rfl ?_ : form (0#5 == 0 && 0#5 == 0 && 0#5 == 0 && decide ((id.setWidth 32 : Imm).toNat < 2 ^ 5)) true
    (.swaitPoll d ((id.setWidth 32 : Imm).extractLsb' 0 5)) = _)
  · exact decide_eq_true (below id (by omega))
  · rw [lowField id (by omega)]
theorem sabt (id : SId) : Statement (.sabt id) := fun _ _ => by
  refine (form_ok ?_ ?_ ?_ : form (({ op := 0x76, imm := id.setWidth 32 } : Fields).d == 0 && ({ op := 0x76, imm := id.setWidth 32 } : Fields).a == 0 && ({ op := 0x76, imm := id.setWidth 32 } : Fields).b == 0 && ({ op := 0x76, imm := id.setWidth 32 } : Fields).noMd && ({ op := 0x76, imm := id.setWidth 32 } : Fields).c == 0 && ({ op := 0x76, imm := id.setWidth 32 } : Fields).immBelow 5) true (.sabt (({ op := 0x76, imm := id.setWidth 32 } : Fields).sub 0 5)) = _)
  all_goals simp [Fields.noMd, Fields.immBelow, Fields.sub, lowField] at *
  all_goals omega
theorem sord (id j : SId) : Statement (.sord id j) := fun _ hw => by
  replace hw : decide (id ≠ j) = true := hw
  refine (form_ok ?_ ?_ ?_ : form (0#5 == 0 && 0#5 == 0 && 0#5 == 0 && 0#4 == 0 && 0#5 == 0
      && decide (((j ++ id).setWidth 32 : Imm).toNat < 2 ^ 10))
    (((j ++ id).setWidth 32 : Imm).extractLsb' 0 5 != ((j ++ id).setWidth 32 : Imm).extractLsb' 5 5)
    (.sord (((j ++ id).setWidth 32 : Imm).extractLsb' 0 5) (((j ++ id).setWidth 32 : Imm).extractLsb' 5 5)) = _)
  · exact decide_eq_true (pairBelow j id (by omega))
  · rw [lowOfPair j id (by omega), highField j id (by omega)]; exact bne_iff_ne.mpr (of_decide_eq_true hw)
  · rw [lowOfPair j id (by omega), highField j id (by omega)]
theorem sslot (d a : XReg) (z : BitVec 4) (zero : Bool) : Statement (.sslot d a z zero) := fun _ hw => by
  replace hw : decide (z.toNat ≤ 8) = true := hw
  refine (form_ok ?_ ?_ ?_ : form (0#5 == 0 && 0#4 == 0 && 0#5 == 0
      && decide (((BitVec.ofBool zero ++ z).setWidth 32 : Imm).toNat < 2 ^ 5))
    (decide ((((BitVec.ofBool zero ++ z).setWidth 32 : Imm).extractLsb' 0 4).toNat ≤ 8))
    (.sslot d a (((BitVec.ofBool zero ++ z).setWidth 32 : Imm).extractLsb' 0 4)
      (((BitVec.ofBool zero ++ z).setWidth 32 : Imm).getLsbD 4)) = _)
  · exact decide_eq_true (pairBelow (BitVec.ofBool zero) z (by omega))
  · rw [lowOfPair _ z (by omega), hw]
  · have : ((BitVec.ofBool zero ++ z).setWidth 32 : Imm).getLsbD 4 = zero := by
      simp only [BitVec.getLsbD_setWidth, BitVec.getLsbD_append]
      cases zero <;> rfl
    rw [lowOfPair _ z (by omega), this]
theorem srel (a : XReg) : Statement (.srel a) := fun _ _ => rfl
theorem qpush (d : XReg) (q : QNum) (a : XReg) (b : XReg) : Statement (.qpush d q a b) := fun _ _ => by
  refine (form_ok ?_ ?_ ?_ : form (({ op := 0x90, d, a, b, imm := q.setWidth 32 } : Fields).noMd && ({ op := 0x90, d, a, b, imm := q.setWidth 32 } : Fields).c == 0 && ({ op := 0x90, d, a, b, imm := q.setWidth 32 } : Fields).immBelow 7) true (.qpush ({ op := 0x90, d, a, b, imm := q.setWidth 32 } : Fields).d (({ op := 0x90, d, a, b, imm := q.setWidth 32 } : Fields).sub 0 7) ({ op := 0x90, d, a, b, imm := q.setWidth 32 } : Fields).a ({ op := 0x90, d, a, b, imm := q.setWidth 32 } : Fields).b) = _)
  all_goals simp [Fields.noMd, Fields.immBelow, Fields.sub, lowField] at *
  all_goals omega
theorem qpop (d : XReg) (q : QNum) : Statement (.qpop d q) := fun _ _ => by
  refine (form_ok ?_ ?_ ?_ : formDQ ({ op := 0x91, d, imm := q.setWidth 32 } : Fields) .qpop = _)
  all_goals simp [Fields.noMd, Fields.immBelow, Fields.sub, lowField] at *
  all_goals omega
theorem qtry (d : XReg) (q : QNum) : Statement (.qtry d q) := fun _ _ => by
  refine (form_ok ?_ ?_ ?_ : formDQ ({ op := 0x92, d, imm := q.setWidth 32 } : Fields) .qtry = _)
  all_goals simp [Fields.noMd, Fields.immBelow, Fields.sub, lowField] at *
  all_goals omega
theorem qstat (d : XReg) (q : QNum) : Statement (.qstat d q) := fun _ _ => by
  refine (form_ok ?_ ?_ ?_ : formDQ ({ op := 0x93, d, imm := q.setWidth 32 } : Fields) .qstat = _)
  all_goals simp [Fields.noMd, Fields.immBelow, Fields.sub, lowField] at *
  all_goals omega
theorem qclose (q : QNum) : Statement (.qclose q) := fun _ _ => by
  refine (form_ok ?_ ?_ ?_ : formQ ({ op := 0x94, imm := q.setWidth 32 } : Fields) .qclose = _)
  all_goals simp [Fields.noMd, Fields.immBelow, Fields.sub, lowField] at *
  all_goals omega
theorem qres (d : XReg) (q : QNum) (a : XReg) : Statement (.qres d q a) := fun _ _ => by
  refine (form_ok ?_ ?_ ?_ : form (({ op := 0x95, d, a, imm := q.setWidth 32 } : Fields).b == 0 && ({ op := 0x95, d, a, imm := q.setWidth 32 } : Fields).noMd && ({ op := 0x95, d, a, imm := q.setWidth 32 } : Fields).c == 0 && ({ op := 0x95, d, a, imm := q.setWidth 32 } : Fields).immBelow 7) true (.qres ({ op := 0x95, d, a, imm := q.setWidth 32 } : Fields).d (({ op := 0x95, d, a, imm := q.setWidth 32 } : Fields).sub 0 7) ({ op := 0x95, d, a, imm := q.setWidth 32 } : Fields).a) = _)
  all_goals simp [Fields.noMd, Fields.immBelow, Fields.sub, lowField] at *
  all_goals omega
theorem fcfg (d a : XReg) : Statement (.fcfg d a) := fun _ _ => rfl
theorem farg (n : BitVec 4) (e : BitVec 5) (a : XReg) : Statement (.farg n e a) := fun _ _ => by
  refine (form_ok ?_ ?_ ?_ : form (({ op := 0x99, a, c := n.setWidth 5, imm := e.setWidth 32 } : Fields).d == 0 && ({ op := 0x99, a, c := n.setWidth 5, imm := e.setWidth 32 } : Fields).b == 0 && ({ op := 0x99, a, c := n.setWidth 5, imm := e.setWidth 32 } : Fields).noMd && ({ op := 0x99, a, c := n.setWidth 5, imm := e.setWidth 32 } : Fields).immBelow 5) (pOk ({ op := 0x99, a, c := n.setWidth 5, imm := e.setWidth 32 } : Fields).c) (.farg (({ op := 0x99, a, c := n.setWidth 5, imm := e.setWidth 32 } : Fields).c.setWidth 4) (({ op := 0x99, a, c := n.setWidth 5, imm := e.setWidth 32 } : Fields).sub 0 5) ({ op := 0x99, a, c := n.setWidth 5, imm := e.setWidth 32 } : Fields).a) = _)
  all_goals simp [Fields.noMd, Fields.immBelow, Fields.sub, pOk, lowField] at *
  all_goals omega
theorem fgo : Statement .fgo := fun _ _ => rfl
theorem fstat (d : XReg) : Statement (.fstat d) := fun _ _ => rfl
theorem fdrn (d : XReg) : Statement (.fdrn d) := fun _ _ => rfl
theorem tsend (d a b : XReg) : Statement (.tsend d a b) := fun _ _ => rfl
theorem twait (d : XReg) (tag : Imm) : Statement (.twait d tag) := fun _ _ => rfl
theorem tpoll (d : XReg) (tag : Imm) : Statement (.tpoll d tag) := fun _ _ => rfl
theorem join (a : XReg) : Statement (.join a) := fun _ _ => rfl
theorem leave (a : XReg) : Statement (.leave a) := fun _ _ => rfl
theorem gbar (a : XReg) : Statement (.gbar a) := fun _ _ => rfl
theorem garr (d a : XReg) : Statement (.garr d a) := fun _ _ => rfl
theorem fence (sc : BitVec 3) (d : XReg) : Statement (.fence sc d) := fun _ hw => by
  replace hw : (decide (sc.toNat ≤ 4)) = true := hw
  refine (form_ok ?_ ?_ ?_ : form (({ op := 0xA7, d, md := sc.setWidth 4 } : Fields).a == 0 && ({ op := 0xA7, d, md := sc.setWidth 4 } : Fields).b == 0 && ({ op := 0xA7, d, md := sc.setWidth 4 } : Fields).c == 0 && ({ op := 0xA7, d, md := sc.setWidth 4 } : Fields).noImm) (decide (({ op := 0xA7, d, md := sc.setWidth 4 } : Fields).md.toNat ≤ 4)) (.fence (({ op := 0xA7, d, md := sc.setWidth 4 } : Fields).md.setWidth 3) ({ op := 0xA7, d, md := sc.setWidth 4 } : Fields).d) = _)
  all_goals simp [Fields.noImm] at *
  all_goals omega
theorem trig : Statement .trig := fun _ _ => rfl
theorem emtrTask (d : XReg) : Statement (.emtrTask d) := fun _ _ => rfl
theorem emtrCtx (d : XReg) : Statement (.emtrCtx d) := fun _ _ => rfl
theorem ebgt (a : XReg) : Statement (.ebgt a) := fun _ _ => rfl
theorem invl (a b : XReg) : Statement (.invl a b) := fun _ _ => rfl
theorem invw (a b : XReg) : Statement (.invw a b) := fun _ _ => rfl
theorem br (off : Imm) : Statement (.br off) := fun _ _ => rfl
theorem beq (a b : XReg) (off : Imm) : Statement (.beq a b off) := fun _ _ => rfl
theorem bne (a b : XReg) (off : Imm) : Statement (.bne a b off) := fun _ _ => rfl
theorem blt (a b : XReg) (off : Imm) : Statement (.blt a b off) := fun _ _ => rfl
theorem bge (a b : XReg) (off : Imm) : Statement (.bge a b off) := fun _ _ => rfl
theorem bltu (a b : XReg) (off : Imm) : Statement (.bltu a b off) := fun _ _ => rfl
theorem bgeu (a b : XReg) (off : Imm) : Statement (.bgeu a b off) := fun _ _ => rfl
theorem bz (a : XReg) (off : Imm) : Statement (.bz a off) := fun _ _ => rfl
theorem bnz (a : XReg) (off : Imm) : Statement (.bnz a off) := fun _ _ => rfl
theorem jr (a : XReg) : Statement (.jr a) := fun _ _ => rfl
theorem ret (a : XReg) : Statement (.ret a) := fun _ _ => rfl
theorem call (d : XReg) (off : Imm) : Statement (.call d off) := fun _ _ => rfl
theorem loop (a : XReg) (off : Imm) : Statement (.loop a off) := fun _ _ => rfl
theorem yield : Statement .yield := fun _ _ => rfl
theorem waitq (q : QNum) : Statement (.waitq q) := fun _ _ => by
  refine (form_ok ?_ ?_ ?_ : formQ ({ op := 0xCE, imm := q.setWidth 32 } : Fields) .waitq = _)
  all_goals simp [Fields.noMd, Fields.immBelow, Fields.sub, lowField] at *
  all_goals omega
theorem done : Statement .done := fun _ _ => rfl
theorem trap (code : Imm) : Statement (.trap code) := fun _ _ => rfl
theorem brk (code : Imm) : Statement (.brk code) := fun _ _ => rfl
theorem tret : Statement .tret := fun _ _ => rfl
theorem fcEdge (die : Nat) : Statement (.fcEdge die) := fun h => absurd h Bool.false_ne_true
theorem lanternMessageDrop (d : Datagram) : Statement (.lanternMessageDrop d) := fun h => absurd h Bool.false_ne_true
theorem rdmaInvalidRequest (vf qp : Nat) : Statement (.rdmaInvalidRequest vf qp) := fun h => absurd h Bool.false_ne_true

end Sys2Proof.Laws.Encodes
end

