-- ==== Sys2Proof/Laws/VaIO.lean ====
section
/-! SUPPORT. What the device's own reads and writes of virtual memory do where nothing stands at the memory nodes. -/

namespace Sys2Proof.Machine

/-- Does nothing stand at any memory node? -/
def State.NodesEmpty (s : State) : Prop := ∀ d k, (s.die d).nodes.get [] k = []

theorem AMap.get_of_all {α : Type} {P : α → Prop} {e : α} (he : P e) : ∀ (l : AMap α) (k : Nat), (∀ p ∈ l, P p.2) → P (l.get e k)
  | [], _, _ => he
  | (j, v) :: r, k, h => by
    unfold AMap.get; split
    · exact h (j, v) (List.mem_cons_self ..)
    · exact AMap.get_of_all he r k (fun p m => h p (List.mem_cons_of_mem _ m))

theorem State.nodesEmpty_of_dies {s : State} (h : ∀ p ∈ s.dies, p.2.nodes = []) : s.NodesEmpty := by
  intro d k
  have e : (s.die d).nodes = [] := AMap.get_of_all (P := fun x : Die => x.nodes = []) rfl s.dies d h
  rw [e]; rfl

/-- R288: an access goes to a node where nothing stands at once. -/
theorem State.nodeBusy_of_empty {s : State} (h : s.NodesEmpty) (pa n : Nat) (write : Bool) : s.nodeBusy pa n write = false := by
  have e := h (nodeOf s.pkg.ordering pa).1 (nodeOf s.pkg.ordering pa).2
  unfold State.nodeBusy; simp only [e, List.any_nil]

/-- R288: a device read whose pages translate is made at once where nothing stands at the nodes. -/
theorem State.readVa_of_empty {s s' : State} (h : s.NodesEmpty) {who : Requester} {ctx t va n : Nat} {super : Bool} {pas reps : List Nat}
    (x : s.xlPages who ctx .read super (pagesOf va n) = .ok s' pas reps) : s.readVa who ctx t va n super =
      .ok (s'.chargeRun ctx t va n pas false) ((List.range n).map (fun i => s'.pkgByte (runAddr va pas i))) := by
  simp [State.readVa, x, nodeBusy_of_empty h]

/-- R288: a device write whose pages translate is made at once where nothing stands at the nodes. -/
theorem State.writeVa_of_empty {s s' : State} (h : s.NodesEmpty) {who : Requester} {ctx t va : Nat} {data : List Byte} {super : Bool} {pas reps : List Nat}
    (x : s.xlPages who ctx .write super (pagesOf va data.length) = .ok s' pas reps) : s.writeVa who ctx t va data super =
      .ok ((s'.chargeRun ctx t va data.length pas true).putRun (s.reqDie who) ctx va pas reps data) := by
  simp [State.writeVa, x, nodeBusy_of_empty h]

end Sys2Proof.Machine
end

