-- ==== Sys2Proof/Tests/Slice0.lean ====
section
/-! SUPPORT. Tests of the model against values of the spec and hand calculation from its rules, and witnesses: states and operands
that meet the hypotheses of the statements. -/

namespace Sys2Proof.Tests

open Sys2Proof Sys2Proof.Machine

set_option Elab.async false

/-! ## A small machine -/

/-- A page of context 5 in the L2 of die 0, readable, writable and executable, at 0x10000. -/
def leafL2 : TlbEntry := { ctx := 5, base := 0x10000, size := 12, leaf := 0x0001000000001038, dirty := true }
/-- A page of context 5 in the HBM of die 0, at 0x20000. -/
def leafHbm : TlbEntry := { ctx := 5, base := 0x20000, size := 12, leaf := 0x0000000000200038, dirty := true }
/-- A stage that takes from queue 0 and pushes to queue 1. -/
def stage0 : Stage := { desc := { inputs := [0], outputs := [1], ratios := [1] }, tasks := [(0, { used := true })], tiles := [0] }
/-- A pipeline of that stage and three queues. -/
def pipe0 : Pipeline :=
  { active := true, started := true, ready := true, stages := [stage0],
    queues := [{ desc := { capacity := 4 } }, { desc := { capacity := 4 } }, { desc := { capacity := 4 } }] }
/-- A tile of context 5 whose strand 0 runs a task of the stage. -/
def tile0 : Tile := { ctx := 5, stage := some (0, 0), strands := [(0, { state := .run, entry := some 0 })], utlb := [leafL2, leafHbm] }
/-- Partition 0 of octet 0 of die 0, whose running context is 5. -/
def part0 : Partition :=
  { formed := true, octets := [0], dies := [0], base := 0x200000, length := 0x200000, running := some 5 }
/-- Context 5, with a handler. -/
def ctx5 : Context := { live := true, state := .running, handler := 0x1000, pipes := [(0, pipe0)], balance := oneNJ }
/-- The machine. -/
def m0 : State := { tiles := [(0, tile0)], ctxs := [(5, ctx5)], parts := [(0, part0)], pkg := State.reset.pkg }
/-- The machine with values in registers of its strand. -/
def regs (l : AMap Word) : State := m0.modMe (fun st => { st with x := l })
/-- The machine in handler state. -/
def inHandler : State := m0.modMe (fun st => { st with handler := true })
/-- What follows a step that answers a next state. -/
def after : Host.Outcome State Fault Refusal → State
  | .next s => s
  | _ => {}
/-- Register r of the issuing strand after an instruction. -/
def result (i : Instr) (s : State) (r : XReg) : Word := (after (exec i s)).rx r

/-- Context 5 has a handler, and its strand is in none. -/
theorem canTrap_m0 : CanTrap m0 := ⟨rfl, by decide⟩

/-! ## Ill-formed terms: each check of WellFormed refuses one -/

theorem test_wf_unit : (Instr.unitTestStart 222).wf = false ∧ (Instr.unitTestDone 222 true).wf = false
    ∧ (Instr.unitFailInService 222).wf = false ∧ (Instr.wearSample 222 0 ⟨[], 0, 0⟩).wf = false ∧ (Instr.wearSample 9 0 ⟨[1], 0, 0⟩).wf = false := by decide
theorem test_wf_sensors : (Instr.powerCheck 0 [0]).wf = false ∧ (Instr.calibrationWindow [0]).wf = false := by decide
theorem test_wf_tile : (Instr.meterResidueSend 576).wf = false ∧ (Instr.prefetchFill 576 0).wf = false
    ∧ (Instr.streamDataReturn 576 0).wf = false ∧ (Instr.multicastSpaceReturn 0 0 576).wf = false ∧ (Instr.groupFiring 576 0).wf = false := by decide
theorem test_wf_tile_parts : (Instr.prefetchFill 0 8).wf = false ∧ (Instr.streamComplete 0 32).wf = false
    ∧ (Instr.elementWatermarkResume 0 16).wf = false := by decide
theorem test_wf_die : (Instr.tlbWalk 9).wf = false ∧ (Instr.batchVisible 0 9).wf = false ∧ (Instr.memoryNodeApply 0 66).wf = false
    ∧ (Instr.reductionApply 9 0).wf = false := by decide
theorem test_wf_partition_context : (Instr.sliceEnd 72).wf = false ∧ (Instr.stopSequence 289).wf = false ∧ (Instr.launchStart 0 8).wf = false
    ∧ (Instr.stageRetire 0 0 64).wf = false ∧ (Instr.dividerAssign 0 0 128).wf = false := by decide
theorem test_wf_link : (Instr.linkDead 128).wf = false ∧ (Instr.linkFlitSend 128).wf = false := by decide
theorem test_wf_message : (let m : Lmsg := { ty := 0x0101, ep := 288, rid := 0, seq := 1, payload := [], tag := List.replicate 16 0 }
    ((Instr.launch m).wf, (Instr.launch { m with ep := 289 }).wf, (Instr.qfeed m).wf)) = (true, false, false) := by decide
theorem test_wf_rdma : (Instr.rdmaSend 0 0 []).wf = false ∧ (Instr.rdmaRead 289 0 ⟨0, 8, 0⟩ 0).wf = false ∧ (Instr.rdmaWrite 1 16 ⟨0, 8, 0⟩ []).wf = false := by decide
theorem test_wf_datagram : (Instr.lanternMessageDrop { header := [], payload := [], tag := [] }).wf = false := by decide
theorem test_wf_fcvt : (Instr.fcvt 0 0 0 1 1).wf = false ∧ (Instr.fcvt 9 0 0 1 1).wf = false ∧ (Instr.fcvt 1 2 0 1 1).wf = false := by decide
theorem test_wf_ld : (Instr.ld 7 1 1 0).wf = false := by decide
theorem test_wf_atom : (Instr.atom 9 true 1 1 1 0).wf = false := by decide
theorem test_wf_sysreg : (Instr.gets 1 0x007).wf = false ∧ (Instr.sets 0x029 1).wf = false := by decide
theorem test_wf_reduce : (Instr.sra 12 0 0 0 0 false 0).wf = false ∧ (Instr.sri 12 0 0 0 0 false 0).wf = false := by decide
theorem test_wf_sfill : (Instr.sfill 3 0 0 0 0).wf = false := by decide
theorem test_wf_sbar : (Instr.sbar 5).wf = false := by decide
theorem test_wf_sord : (Instr.sord 4 4).wf = false := by decide
theorem test_wf_sslot : (Instr.sslot 1 1 9 false).wf = false := by decide
theorem test_wf_fence : (Instr.fence 5 1).wf = false := by decide

/-! ## Words written out from the encodings of R163 to R169: op, d, a, b, mod, c, imm32 -/

theorem test_decode_add : decodeSlot 0 (0x01#8 ++ 3#5 ++ 1#5 ++ 2#5 ++ 0#4 ++ 0#5 ++ 0#32) = .ok (.add 3 1 2) := by decide
theorem test_decode_bfi : decodeSlot 1 (0x25#8 ++ 3#5 ++ 1#5 ++ 0#5 ++ 0#4 ++ 0#5 ++ 0x0810#32) = .ok (.bfi 3 1 16 8) := by decide
theorem test_decode_ffma : decodeSlot 1 (0x2E#8 ++ 3#5 ++ 1#5 ++ 2#5 ++ 1#4 ++ 4#5 ++ 0#32) = .ok (.ffma 1 3 1 2 4) := by decide
theorem test_decode_fcvt : decodeSlot 0 (0x32#8 ++ 3#5 ++ 1#5 ++ 0#5 ++ 3#4 ++ 0#5 ++ 0x03#32) = .ok (.fcvt 3 0 3 3 1) := by decide
theorem test_decode_ld : decodeSlot 2 (0x40#8 ++ 3#5 ++ 1#5 ++ 0#5 ++ 6#4 ++ 0#5 ++ 0xFFFFFFFC#32) = .ok (.ld 6 3 1 (-4)) := by decide
theorem test_decode_atom : decodeSlot 2 (0x42#8 ++ 3#5 ++ 1#5 ++ 2#5 ++ 8#4 ++ 3#5 ++ 8#32) = .ok (.atom 8 true 3 1 2 8) := by decide
theorem test_decode_sbind : decodeSlot 2 (0x49#8 ++ 2#5 ++ 0#5 ++ 0#5 ++ 0#4 ++ 0#5 ++ 0x6F#32) = .ok (.sbind 2 (.port 15)) := by decide
theorem test_decode_gets : decodeSlot 2 (0x47#8 ++ 9#5 ++ 0#5 ++ 0#5 ++ 0#4 ++ 0#5 ++ 0x051#32) = .ok (.gets 9 0x051) := by decide
theorem test_decode_psetf : decodeSlot 3 (0x62#8 ++ 15#5 ++ 1#5 ++ 2#5 ++ 0#4 ++ 0#5 ++ 7#32) = .ok (.psetf 15 1 2 7) := by decide
theorem test_decode_sri : decodeSlot 3 (0x6D#8 ++ 4#5 ++ 1#5 ++ 0#5 ++ 3#4 ++ 5#5 ++ 0x0E2#32) = .ok (.sri 3 4 1 5 2 true 3) := by decide
theorem test_decode_sqout : decodeSlot 3 (0x73#8 ++ 4#5 ++ 0#5 ++ 0#5 ++ 0#4 ++ 0#5 ++ 0xFE1#32) = .ok (.sqout 4 127 1) := by decide
theorem test_decode_swait : decodeSlot 3 (0x75#8 ++ 4#5 ++ 0#5 ++ 0#5 ++ 1#4 ++ 0#5 ++ 0x41#32) = .ok (.swaitMark 4 1 2) := by decide
theorem test_decode_qres : decodeSlot 4 (0x95#8 ++ 4#5 ++ 6#5 ++ 0#5 ++ 0#4 ++ 0#5 ++ 0x7F#32) = .ok (.qres 4 127 6) := by decide
theorem test_decode_tpoll : decodeSlot 4 (0xA2#8 ++ 4#5 ++ 0#5 ++ 0#5 ++ 0#4 ++ 0#5 ++ 0xFFFFFFFF#32) = .ok (.tpoll 4 (-1)) := by decide
theorem test_decode_call : decodeSlot 5 (0xCA#8 ++ 31#5 ++ 0#5 ++ 0#5 ++ 0#4 ++ 0#5 ++ 0xFFFFFFFE#32) = .ok (.call 31 (-2)) := by decide
theorem test_decode_waitq : decodeSlot 5 (0xCE#8 ++ 0#5 ++ 0#5 ++ 0#5 ++ 0#4 ++ 0#5 ++ 5#32) = .ok (.waitq 5) := by decide
theorem test_decode_table_word : decodeTableWord 64 0x0118440000000000 = some (.add 3 1 2) := by decide
/-- R83, R84: a header of version 1, type STATREAD, endpoint 5, no payload, sequence number 7, request id 9. -/
theorem test_decode_datagram : decodeDatagram
    { header := [1, 0, 5, 1, 5, 0, 0, 0, 7, 0, 0, 0, 0, 0, 0, 0, 9, 0, 0, 0, 0, 0, 0, 0, 0, 0, 0, 0, 0, 0, 0, 0], payload := [], tag := [] }
    = .statread { ty := 0x0105, ep := 5, rid := 9, seq := 7, payload := [], tag := [] } := by decide

/-! ## The A class: R193 to R200 -/

theorem test_add_wraps : result (.add 3 1 2) (regs [(1, 7), (2, 0xFFFFFFFFFFFFFFFF)]) 3 = 6 := by decide
theorem test_write_to_x0_is_discarded : result (.add 0 1 1) (regs [(1, 7)]) 0 = 0 := by decide
theorem test_sub : result (.sub 1 1 2) (regs [(1, 7), (2, 9)]) 1 = -2 := by decide
theorem test_addi : result (.addi 3 1 (-1)) (regs [(1, 0)]) 3 = 0xFFFFFFFFFFFFFFFF := by decide
theorem test_mulh : result (.mulh 3 1 2) (regs [(1, -1), (2, 2)]) 3 = -1 := by decide
theorem test_mulhu : result (.mulhu 3 1 2) (regs [(1, -1), (2, 2)]) 3 = 1 := by decide
theorem test_div_truncates : result (.div 3 1 2) (regs [(1, -7), (2, 2)]) 3 = -3 := by decide
theorem test_div_by_zero : result (.div 3 1 2) (regs [(1, 5), (2, 0)]) 3 = -1 := by decide
theorem test_div_overflow : result (.div 3 1 2) (regs [(1, 0x8000000000000000), (2, -1)]) 3 = 0x8000000000000000 := by decide
theorem test_rem_sign : result (.rem 3 1 2) (regs [(1, -7), (2, 2)]) 3 = -1 := by decide
theorem test_remu_by_zero : result (.remu 3 1 2) (regs [(1, 5), (2, 0)]) 3 = 5 := by decide
theorem test_andi_extends : result (.andi 3 1 (-16)) (regs [(1, -1)]) 3 = 0xFFFFFFFFFFFFFFF0 := by decide
theorem test_shl_takes_six_bits : result (.shl 3 1 2) (regs [(1, 1), (2, 65)]) 3 = 2 := by decide
theorem test_sar : result (.sar 3 1 2) (regs [(1, 0x8000000000000000), (2, 63)]) 3 = -1 := by decide
theorem test_slt : result (.slt 3 1 2) (regs [(1, -1), (2, 0)]) 3 = 1 := by decide
theorem test_sltu : result (.sltu 3 1 2) (regs [(1, -1), (2, 0)]) 3 = 0 := by decide
theorem test_clz_of_zero : result (.clz 3 1) (regs []) 3 = 64 := by decide
theorem test_ctz : result (.ctz 3 1) (regs [(1, 0x8000000000000000)]) 3 = 63 := by decide
theorem test_popc : result (.popc 3 1) (regs [(1, -1)]) 3 = 64 := by decide
/-- R195's worked field: bits [63:60] where the field of width 8 at 60 is clipped. -/
theorem test_bfx_clips : result (.bfx 3 1 60 8) (regs [(1, 0xF000000000000000)]) 3 = 0xF := by decide
theorem test_bfxs : result (.bfxs 3 1 4 4) (regs [(1, 0x80)]) 3 = -8 := by decide
theorem test_bfi_keeps_the_rest : result (.bfi 3 1 8 8) (regs [(1, 0xAB), (3, -1)]) 3 = 0xFFFFFFFFFFFFABFF := by decide
theorem test_movhi : result (.movhi 3 0x12345678) (regs [(3, 0xFFFFFFFF9ABCDEF0)]) 3 = 0x123456789ABCDEF0 := by decide
theorem test_sel : result (.sel 3 1 2 4) (regs [(1, 5), (2, 6), (4, 0)]) 3 = 6 := by decide
theorem test_lea : result (.lea 3 1 2 3 (-8)) (regs [(1, 0x100), (2, 2)]) 3 = 0x108 := by decide
/-- R57: 1.0 + 2^-24 lies halfway and rounds to even. -/
theorem test_fadd_ties_to_even : result (.fadd 0 3 1 2) (regs [(1, 0x3F800000), (2, 0x33800000)]) 3 = 0x3F800000 := by decide
theorem test_fsub : result (.fsub 0 3 1 2) (regs [(1, 0x3F800000), (2, 0x40000000)]) 3 = 0xBF800000 := by decide
theorem test_fmul : result (.fmul 0 3 1 2) (regs [(1, 0x40000000), (2, 0x40400000)]) 3 = 0x40C00000 := by decide
theorem test_ffma : result (.ffma 0 3 1 2 4) (regs [(1, 0x40000000), (2, 0x40400000), (4, 0x3F800000)]) 3 = 0x40E00000 := by decide
theorem test_fmin_of_nan : result (.fmin 3 1 2) (regs [(1, 0x7FC00000), (2, 0x3F800000)]) 3 = 0x3F800000 := by decide
theorem test_fcmp_unordered_flag : (after (exec (.fcmp 2 3 1 2) (regs [(1, 0x7FC00000)]))).me.fflags ≠ 0 := by decide
/-- R199: f32 1.0 as bf16 is 0x3F80. -/
theorem test_fcvt_to_bf16 : result (.fcvt 1 0 0 3 1) (regs [(1, 0x3F800000)]) 3 = 0x3F80 := by decide

theorem witness_IntegerInstructions : (intResult m0 (.div 31 1 2) = some (31, 0xFFFFFFFFFFFFFFFF) ∧ m0.me.stepOnce = false)
    ∧ intResult (regs [(2, 1)]) (.remu 0 1 2) = some (0, 0) ∧ (intResult m0 (.bfiR 1 2 3 4)).isSome = true
    ∧ (intResult m0 (.rngP1 1 2 3 4)).isSome = true := by decide
theorem witness_FloatInstructions : (floatResult m0 (.fadd 0 3 1 2)).isSome = true ∧ (floatResult m0 (.fcmp 7 3 1 2)).isSome = true
    ∧ m0.me.stepOnce = false ∧ (∃ d r, floatResult m0 (.fmax 3 1 2) = some (d, r)) := ⟨by decide, by decide, rfl, 3, _, rfl⟩
/-- Both cases of a conversion: 1.0 does not underflow, 2^-30 does into e4m3. -/
theorem witness_ConversionsWriteResultAndCountUnderflow :
    (convertResult (regs [(1, 0x3F800000)]) (.fcvt 3 0 0 3 1)).isSome = true
    ∧ convertResult (regs [(1, 0x30800000)]) (.fcvt 3 0 0 3 1) = none := by decide

/-! ## The B class: R210 to R214 -/

theorem test_bne_goes_back : (after (exec (.bne 1 2 (-50)) ((regs [(1, 1)]).modMe (fun st => { st with pc := 100 })))).me.pc = 50 := by decide
theorem test_loop_counts : result (.loop 1 (-1)) (regs [(1, 2)]) 1 = 1 ∧ (after (exec (.loop 1 (-1)) (regs [(1, 2)]))).me.pc = -1 := by decide
theorem test_loop_ends : result (.loop 1 (-1)) (regs [(1, 1)]) 1 = 0 ∧ (after (exec (.loop 1 (-1)) (regs [(1, 1)]))).me.pc = 1 := by decide
theorem test_call_links : result (.call 13 9) (regs []) 13 = 1 ∧ (after (exec (.call 13 9) m0)).me.pc = 9 := by decide
theorem test_trap_saves : (after (exec (.trap 7) m0)).me.trapc = 0x38 ∧ (after (exec (.trap 7) m0)).me.trapv = 7
    ∧ (after (exec (.trap 7) m0)).me.trappc = 1 ∧ (after (exec (.trap 7) m0)).me.pc = 0 := by decide
theorem test_tret_returns : (after (exec .tret (inHandler.modMe (fun st => { st with trappc := 9 })))).me.pc = 9 := by decide
theorem test_done_ends_the_task : (after (exec .done m0)).me.state = .idle := by decide

theorem witness_Transfers : branchResult (regs [(1, 2)]) (.loop 1 (-1)) = some (some (1, 1), -1) ∧ (regs [(1, 2)]).me.stepOnce = false
    ∧ branchResult m0 (.loop 0 3) = some (some (0, 0), 1) ∧ branchResult m0 .nop = some (none, 1)
    ∧ branchResult m0 (.bge 1 2 (-1)) = some (none, -1) ∧ (branchResult m0 (.call 31 1)).isSome = true := by decide
/-- The machine whose tile leaves its stage for the pool. -/
def leaver : State := m0.modTile 0 (fun u => { u with takeUp := .leaving none })
theorem witness_TaskEndsSuspendOrEndTheTask : (m0.tile m0.focus).canUnbindAll m0.cur = true ∧ m0.me.handler = false
    ∧ m0.inputQueue (0 : QNum).toNat = true ∧ (m0.tile m0.focus).isDonor = false ∧ m0.me.entry = some 0
    ∧ ((leaver.tile leaver.focus).isDonor = true ∧ (leaver.tile leaver.focus).stage = some (0, 0)
      ∧ 0 < (leaver.pipe (leaver.tile leaver.focus).ctx 0).stages.length ∧ (leaver.tile leaver.focus).canUnbindAll leaver.cur = true
      ∧ leaver.me.handler = false ∧ leaver.inputQueue (0 : QNum).toNat = true) := by decide
/-- R122: the continuation record of a YIELD at PC 4 of a tile that leaves. -/
theorem test_yield_of_a_leaver : ((((after (exec .yield (leaver.modMe (fun st => { st with pc := 4, item := 7 })))).pipe 5 0).stage 0).resume.map
    (fun r => (r.recPc, r.recItem, r.recWait))) = [(5, 7, none)] := by decide
theorem witness_TrapBrkAndTret : (CanTrap m0 ∧ (m0.ctx (m0.tile m0.focus).ctx).attach = false)
    ∧ (CanTrap (m0.modCtx 5 (fun c => { c with attach := true }))
      ∧ ((m0.modCtx 5 (fun c => { c with attach := true })).ctx 5).attach = true) ∧ inHandler.me.handler = true :=
  ⟨⟨canTrap_m0, rfl⟩, ⟨⟨rfl, by decide⟩, rfl⟩, rfl⟩
theorem witness_OutOfRangeAndPrivilegedSlotsTrap : CanTrap m0 ∧ m0.inputQueue (127 : QNum).toNat = false
    ∧ (m0.tile m0.focus).ctx ≠ 0 ∧ invCtx 1 (regs [(1, 0x4800000000000000)]) = 288 := ⟨canTrap_m0, by decide⟩
theorem witness_CauseWithNoWayToHandleItIsFatal :
    ((inHandler.ctx (inHandler.tile inHandler.focus).ctx).state = .running ∧ (inHandler.ctx 5).fault = none ∧ inHandler.me.handler = true)
    ∧ let s := m0.modCtx 5 (fun c => { c with handler := 0 })
      (s.ctx 5).state = .running ∧ (s.ctx 5).fault = none ∧ s.me.handler = false ∧ (s.ctx 5).handler = 0 := by decide
/-- The machine with its strand stepped by a debugger. -/
def stepped : State := m0.modMe (fun st => { st with stepOnce := true })
theorem witness_SteppedStrandHaltsAfterItsBundle : stepped.me.stepOnce = true ∧ CanTrap stepped := ⟨rfl, rfl, by decide⟩

/-! ## The M class: R201 to R209 -/

/-- The machine with an address in x1 and a value in x2. -/
def at1 (a : Word) : State := regs [(1, a), (2, 0x8877665544332211)]
/-- The address of a byte of the tile's cells. -/
def cellVa (k : Nat) : Word := w64 (0xFFFFFFFFFFF00000 + k)
/-- Cells whose byte k is k + 0x80. -/
def cellBytes (s : State) : State := s.modTile 0 (fun u => { u with sram := (List.range 8).map (fun k => (k, byte (k + 0x80))) })

theorem test_ld_extends_sign : result (.ld 0 3 1 0) (cellBytes (at1 (cellVa 0))) 3 = 0xFFFFFFFFFFFFFF80 := by decide
theorem test_ld_unsigned : result (.ld 5 3 1 2) (cellBytes (at1 (cellVa 0))) 3 = 0x8382 := by decide
theorem test_st_not_seen_at_once : ((after (exec (.st 2 1 2 4) (at1 (cellVa 0)))).tile 0).cellSeen 3 4 = 0
    ∧ ((after (exec (.st 2 1 2 4) (at1 (cellVa 0)))).tile 0).cellSeen 4 4 = 0x11 := by decide
theorem test_atom_add : result (.atom 0 false 3 1 2 0) (cellBytes (at1 (cellVa 0))) 3 = 0xFFFFFFFF83828180 := by decide
theorem test_cas_fails : ((after (exec (.cas true 3 1 2 4 0) (cellBytes (at1 (cellVa 0))))).tile 0).cellSeen 9 0 = 0x80 := by decide
theorem test_noncanonical_traps : (after (exec (.ld 3 3 1 0) (at1 0x0100000000000000))).me.trapc = 0x10 := by decide
theorem test_misaligned_traps : (after (exec (.ld 3 3 1 4) (at1 (cellVa 0)))).me.trapc = 0x11 := by decide
theorem test_hbm_is_stream_only : (after (exec (.ld 3 3 1 0) (at1 0x20000))).me.trapc = 0x13 := by decide
theorem test_load_is_held : (((after (exec (.ld 3 3 1 0) (at1 0x10008))).tile 0).held.map (fun b => b.waits)) = some [(1, 2, 3)] := by decide
theorem test_gets_itag : result (.gets 3 0x019) (m0.modMe (fun st => { st with itag := 77 })) 3 = 77 := by decide
theorem test_sets_clears_flags : (after (exec (.sets 0x031 2) ((regs [(2, 0x13)]).modMe (fun st => { st with fflags := 0x1F })))).me.fflags = 0x0C := by decide

/-- A token of two valid lanes. -/
def tok : Token := { lanes := 0x11111111 :: 0x22222222 :: List.replicate 14 0, mask := 3 }
/-- The machine with register s0 bound to port 2, a token at its head, and its cursors at c. -/
def bound (k : List Token) (c : Nat) : State :=
  (m0.modTile 0 (fun u => { u with arcs := k.map (fun t => (inletEnd 2, t)) })).modMe (fun st =>
    { st with s := [(0, { target := .port 2, rcur := c, wcur := c })] })
/-- The same with the port's own arc full. -/
def boundFull (c : Nat) : State := (bound [] c).modTile 0 (fun u => { u with arcs := [(spEnd 2, tok)] })

theorem test_srd_reads_lanes : result (.srd 3 0) (bound [tok] 0) 3 = 0x2222222211111111 := by decide
theorem test_srd_zeroes_invalid_lanes : result (.srd 3 0) (bound [tok] 1) 3 = 0 := by decide
theorem test_speek : result (.speek 3 0) (bound [tok] 1) 3 = 0x30009 := by decide
theorem test_swr_sends_after_word_7 : (((after (exec (.swr 0 2) ((bound [] 7).modMe (fun st => { st with x := [(2, 0x100000002)] })))).tile 0).arc
    (spEnd 2)).map (fun k => (k.lanes.getD 14 0, k.lanes.getD 15 0, k.mask)) = some (2, 1, 0xC000) := by decide
theorem test_sbind : ((after (exec (.sbind 1 (.port 2)) (bound [] 0))).me.binding 0).target = .unbound
    ∧ ((after (exec (.sbind 1 (.port 2)) (bound [] 0))).me.binding 1).target = .port 2 := by decide

theorem witness_CellLoad : CellAccess (at1 (cellVa 0xBFFF8)) (.ld 3 3 1 0) 0xBFFF8 8 ∧ CellAccess (at1 (cellVa 0)) (.ld 0 0 1 0) 0 1
    ∧ ((at1 (cellVa 0)).tile 0).cellPending 0 0 1 = false :=
  ⟨⟨1, 0, .read, rfl, by unfold inCells; decide⟩, ⟨1, 0, .read, rfl, by unfold inCells; decide⟩, by decide⟩
theorem witness_CellStore : CellAccess (at1 (cellVa 0xBFFF8)) (.st 3 1 2 0) 0xBFFF8 8 ∧ Settled (at1 (cellVa 0xBFFF8)) 0xBFFF8 8 :=
  ⟨⟨1, 0, .write, rfl, by unfold inCells; decide⟩, by intro w h; cases h⟩
theorem witness_CellAtomics : (CellAccess (at1 (cellVa 0xBFFFC)) (.atom 8 false 3 1 2 0) 0xBFFFC 4 ∧ Settled (at1 (cellVa 0xBFFFC)) 0xBFFFC 4
      ∧ (8#4).toNat ≤ 8 ∧ newValue (at1 (cellVa 0xBFFFC)) 0 (.atom 8 false 3 1 2 0) = some (0x44332211, 3, 4))
    ∧ CellAccess (at1 (cellVa 8)) (.cas true 3 1 2 4 0) 8 8 ∧ newValue (at1 (cellVa 8)) 0 (.cas true 3 1 2 4 0) = some (0, 3, 8) :=
  ⟨⟨⟨1, 0, .atomic, rfl, by unfold inCells; decide⟩, (by intro w h; cases h), by decide, by decide⟩,
    ⟨1, 0, .atomic, rfl, by unfold inCells; decide⟩, by decide⟩
/-- The state a translation leaves, with its physical address. -/
def xlOf (s : State) (va : Word) (a : Access) : State × Nat :=
  match s.translate (.strand 0 0) 5 va a false false with
  | .ok s pa _ => (s, pa)
  | .wait s => (s, 0)
  | .fault s c r => (s, c + 256 * r)
theorem witness_ScalarAccessToL2SendsItsRequest : (Instr.cas true 3 1 2 4 0).wf = true
    ∧ memForm (.cas true 3 1 2 4 0) = some (1, 0, 8, .atomic) ∧ isCanonical (formAddr (at1 0x10FF8) 1 0)
    ∧ (formAddr (at1 0x10FF8) 1 0).toNat % 8 = 0
    ∧ ReachesL2 (at1 0x10FF8) (formAddr (at1 0x10FF8) 1 0) .atomic (xlOf (at1 0x10FF8) 0x10FF8 .atomic).1 0x1000000001FF8 :=
  ⟨by decide, rfl, by unfold isCanonical; decide, by decide, by unfold inCells; decide, ⟨false, rfl⟩, by decide⟩
theorem witness_ScalarAddressChecksTrapInOrder : CanTrap m0 ∧ (Instr.st 3 1 2 0).wf = true
    ∧ ¬ isCanonical (formAddr (at1 0x0100000000000000) 1 0)
    ∧ (isCanonical (formAddr (at1 0x00FFFFFFFFFFFFFF) 1 0) ∧ (formAddr (at1 0x00FFFFFFFFFFFFFF) 1 0).toNat % 8 ≠ 0)
    ∧ (inCells (formAddr (at1 (cellVa 0xC0000)) 1 0) ∧ (formAddr (at1 (cellVa 0xC0000)) 1 0).toNat / 65536 % 16 = 12)
    ∧ (¬ inCells (formAddr (at1 0x20000) 1 0)
      ∧ (∃ s1 pa p, (at1 0x20000).translate (.strand 0 0) 5 (formAddr (at1 0x20000) 1 0) .write false false = .ok s1 pa p ∧ pa / 2 ^ 48 % 16 ≠ 1))
    ∧ (∃ s1, (at1 0x30000).translate (.strand 0 0) 5 (formAddr (at1 0x30000) 1 0) .write false false = .wait s1)
    ∧ (∃ s1, (m0.modTile 0 (fun u => { u with utlb := [{ leafL2 with leaf := 0x0001000000001008 }] })).translate (.strand 0 0) 5 0x10000 .write
        false false = .fault s1 0x13 0) :=
  ⟨canTrap_m0, by decide, by unfold isCanonical; decide, ⟨by unfold isCanonical; decide, by decide⟩,
    ⟨by unfold inCells; decide, by decide⟩, ⟨by unfold inCells; decide, _, 0x200000, _, rfl, by decide⟩, ⟨_, rfl⟩, ⟨_, rfl⟩⟩
theorem witness_StreamBoundRegisters_read : (bindingOf m0 m0 0).target = .unbound
    ∧ ((bindingOf (bound [] 0) (bound [] 0) 0).target ≠ .unbound ∧ (bound [] 0).head 0 0 0 = none)
    ∧ (∃ k, (bound [{ tok with kind := .poison }] 0).head 0 0 0 = some k ∧ k.kind = .poison ∧ CanTrap (bound [{ tok with kind := .poison }] 0))
    ∧ (∃ k, (bound [{ tok with kind := .eos }] 0).head 0 0 0 = some k ∧ k.kind = .eos)
    ∧ (∃ k, (bound [tok] 6).head 0 0 0 = some k ∧ k.kind = .data) ∧ (∃ k, (bound [tok] 7).head 0 0 0 = some k ∧ k.kind = .data)
    ∧ m0.me.stepOnce = false :=
  ⟨rfl, ⟨by decide, rfl⟩, ⟨_, rfl, rfl, rfl, by decide⟩, ⟨_, rfl, rfl⟩, ⟨_, rfl, rfl⟩, ⟨_, rfl, rfl⟩, rfl⟩
theorem witness_StreamBoundRegisters_write :
    ((bindingOf (boundFull 0) (boundFull 0) 0).target ≠ .unbound ∧ ((boundFull 0).tile 0).canSend 0 (bindingOf (boundFull 0) (boundFull 0) 0) 0 = false)
    ∧ (((bound [] 6).tile 0).canSend 0 (bindingOf (bound [] 6) (bound [] 6) 0) 0 = true ∧ (bindingOf (bound [] 6) (bound [] 6) 0).wcur ≠ 7)
    ∧ (((bound [] 7).tile 0).canSend 0 (bindingOf (bound [] 7) (bound [] 7) 0) 0 = true ∧ (bindingOf (bound [] 7) (bound [] 7) 0).wcur = 7)
    ∧ ((boundFull 1).tile 0).canUnbind 0 0 = false
    ∧ ((bound [] 0).tile 0).canUnbind 0 1 = true ∧ bindHolder (.port 2) (bound [] 0) 1 = some (0, 0) ∧ ((bound [] 0).tile 0).canUnbind 0 0 = true := by
  decide
theorem witness_SystemRegisters : (0x051#12).toNat ∈ sysRegs ∧ (0x020#12).toNat ∈ sysRegs ∧ (0x028#12).toNat ∈ sysRegs ∧ m0.me.stepOnce = false
    ∧ (0x048#12).toNat ∈ sysRegs := by decide

/-! ## The C class: R293 to R327 -/

/-- A pattern of 32-bit words, 16 to a token, four of them from 0x20000. -/
def pat4 : Pattern :=
  Pattern.setBase (Pattern.put (Pattern.put (Pattern.put (Pattern.put 0 288 32 4) 320 40 4) 384 32 0) 416 32 100) 0x20000 0x9000
/-- The machine with that pattern in p1 and the same in p2. -/
def withPat : State := m0.modMe (fun st => { st with p := [(1, pat4), (2, pat4)], x := [(3, 0x20000)] })
/-- A command that runs under id 3. -/
def cmd3 : Cmd := { kind := .sla, strand := 0, slot := 0, stage := 0, ctx := 5, order := 7, port := 2, pat := pat4 }
/-- The machine with it. -/
def running3 : State := withPat.modTile 0 (fun u => { u with cmds := [(3, cmd3)], status := [(3, { state := 1, count := 2 })] })
/-- The status word of an id after an instruction. -/
def statusAfter (i : Instr) (s : State) (id : Nat) : StreamStatus := ((after (exec i s)).tile 0).status.get {} id

/-- R309's fields by hand: BASE, MFMT 3, PFMT 1, LPT 4. -/
theorem test_psetb : (after (exec (.psetb 1 5 0x413) (regs [(5, 0x20000)]))).me.p = [(1, 0x20000 + 3 * 2 ^ 64 + 1 * 2 ^ 68 + 4 * 2 ^ 72)] := by decide +kernel
theorem test_psetd_stride : (after (exec (.psetdStr 1 1 5 0) (regs [(5, -4)]))).me.p = [(1, (2 ^ 40 - 4) * 2 ^ 512)] := by decide +kernel
theorem test_sla_issues : statusAfter (.sla 2 1 0 3) withPat 3 = { state := 1 } := by decide +kernel
theorem test_sla_badpat : statusAfter (.sla 2 5 0 3) withPat 3 = { state := 2, code := 1 } := by decide +kernel
theorem test_smc_noset : statusAfter (.smc 2 1 0 3) withPat 3 = { state := 2, code := 21 } := by decide +kernel
theorem test_sqin_badq : statusAfter (.sqin 2 1 3) withPat 3 = { state := 2, code := 2 } := by decide +kernel
theorem test_swait_poll : result (.swaitPoll 9 3) running3 9 = 0x200000001 := by decide +kernel
theorem test_sabt : (((after (exec (.sabt 3) running3)).tile 0).cmd 3).map (fun c => c.ending) = some (some 5)
    ∧ (statusAfter (.sabt 3) running3 3).code = 5 := by decide +kernel
theorem test_sslot_zeroed : result (.sslot 9 3 0 true) withPat 9 = 2
    ∧ ((after (exec (.sslot 9 3 0 true) withPat)).slotAt 5 0x20000).map (fun x => (x.size, x.holder)) = some (256, some 0) := by decide +kernel

theorem witness_PatternWritesSetTheirFields : (patternFields m0 (.psetb 15 31 0xFFFFF)).isSome = true
    ∧ (patternFields m0 (.psetdExt 15 3 1 2)).isSome = true ∧ (patternFields m0 (.psetdStr 0 3 1 2)).isSome = true
    ∧ (patternFields m0 (.psetdBnd 0 3 1 2)).isSome = true ∧ (patternFields m0 (.psetf 0 1 2 (-1))).isSome = true ∧ m0.me.stepOnce = false := by
  decide
theorem witness_CommandsTakeTheirIdOrFailAtIssue : (∃ f, commandForm running3 (.sla 2 1 0 3) = some f ∧ ((running3.tile 0).cmd f.id.toNat).isSome = true)
    ∧ (∃ f, commandForm withPat (.sla 2 1 0 31) = some f ∧ (withPat.tile 0).cmd f.id.toNat = none ∧ failsAtIssue withPat f = none)
    ∧ (∃ f, commandForm withPat (.sra 0 2 1 0 0 false 63) = some f ∧ failsAtIssue withPat f = some 1)
    ∧ (∃ f, commandForm withPat (.scpy false 1 2 0) = some f ∧ failsAtIssue withPat f = none)
    ∧ (∃ f, commandForm withPat (.sqout 2 1 0) = some f ∧ failsAtIssue withPat f = none)
    ∧ ∃ f, commandForm (withPat.modPipe 5 0 (fun p => { p with seqs := [(63, { frontier := 1 })] })) (.sra 0 2 1 0 0 false 63) = some f ∧ failsAtIssue (withPat.modPipe 5 0 (fun p => { p with seqs := [(63, { frontier := 1 })] })) f = some 4 :=
  ⟨⟨_, rfl, by decide +kernel⟩, ⟨_, rfl, by decide +kernel, by decide +kernel⟩, ⟨_, rfl, by decide +kernel⟩, ⟨_, rfl, by decide +kernel⟩, ⟨_, rfl, by decide +kernel⟩, ⟨_, rfl, by decide +kernel⟩⟩
theorem witness_WaitingOnAndOrderingCommands :
    (∃ r, swaitForm running3 (.swaitMark 9 3 2) = some (9, 3, r) ∧ r)
    ∧ (∃ r, swaitForm running3 (.swaitMark 9 3 3) = some (9, 3, r) ∧ ¬ r) ∧ (∃ r, swaitForm running3 (.swaitDone 9 3) = some (9, 3, r) ∧ ¬ r)
    ∧ (4#3).toNat ≤ 4 ∧ (3 : SId) ≠ 4 ∧ (running3.tile 0).cmd (4 : SId).toNat = none
    ∧ (running3.tile 0).cmd (3 : SId).toNat = some cmd3 ∧ cmd3.ending = none ∧ cmd3.strand = running3.cur ∧ cmd3.classes ≠ [] :=
  ⟨⟨_, rfl, .inr (by decide)⟩, ⟨_, rfl, fun h => h.elim (by decide) (by decide)⟩, ⟨_, rfl, fun h => absurd h (by decide)⟩,
    by decide, by decide, by decide, rfl, rfl, rfl, by decide⟩
/-- The machine with a slot at 0x20000. -/
def withSlot (h : Option Nat) (size : Nat) : State :=
  { withPat with slots := [{ ctx := 5, va := 0x20000, size, die := 0, bytes := List.replicate size 1, holder := h, used := 0, pins := 0 }] }
theorem witness_SlotInstructions : CanTrap withPat ∧ (8#4).toNat ≤ 8
    ∧ ¬ isCanonical ((regs [(3, 0x0100000000000000)]).rx 3) ∧ ((regs [(3, 0x20080)]).rx 3).toNat % 2 ^ (8 + 0) ≠ 0
    ∧ (isCanonical (withPat.rx 3) ∧ (withPat.rx 3).toNat % 256 = 0 ∧ ∃ s1 reps, slotXl withPat 0x20000 256 = .ok s1 [0x200000] reps ∧ s1.slotAt 5 0x20000 = none
      ∧ s1.slotFits 0 256 = true)
    ∧ (∃ s1 reps, slotXl (at1 0x10000) 0x10000 256 = .ok s1 [0x1000000001000] reps)
    ∧ (∃ s1 reps x, slotXl (withSlot (some 1) 256) 0x20000 256 = .ok s1 [0x200000] reps ∧ s1.slotAt 5 0x20000 = some x ∧ x.holder = some 1)
    ∧ (∃ s1 reps x, slotXl (withSlot (some 0) 256) 0x20000 256 = .ok s1 [0x200000] reps ∧ s1.slotAt 5 0x20000 = some x ∧ x.holder = some 0 ∧ x.size = 256)
    ∧ (∃ s1 reps x, slotXl (withSlot (some 0) 512) 0x20000 256 = .ok s1 [0x200000] reps ∧ s1.slotAt 5 0x20000 = some x ∧ x.holder = some 0 ∧ x.size ≠ 256)
    ∧ (∃ x, (withSlot (some 0) 256).slotAt 5 ((withSlot (some 0) 256).rx 3).toNat = some x ∧ x.holder = some 0)
    ∧ ¬ holdsSlot withPat withPat (withPat.rx 3).toNat :=
  ⟨⟨rfl, by decide⟩, by decide, by unfold isCanonical; decide, by decide,
    ⟨by unfold isCanonical; decide, by decide, _, _, rfl, by decide, by decide⟩, ⟨_, _, rfl⟩, ⟨_, _, _, rfl, rfl, rfl⟩, ⟨_, _, _, rfl, rfl, rfl, rfl⟩,
    ⟨_, _, _, rfl, rfl, rfl, by decide⟩, ⟨_, rfl, rfl⟩, fun ⟨_, h, _⟩ => nomatch (show (none : Option Slot) = some _ from h)⟩
/-- The machine with a slot at 0x20000 that no tile holds, resident on a die, whose own die has room or not. -/
def idleSlot (die : Nat) (full : Bool) : State :=
  { withPat with slots := { ctx := 5, va := 0x20000, size := 256, die, bytes := List.replicate 256 1, holder := none, used := 0, pins := 0 } ::
      (if full then [{ ctx := 5, va := 0x80000, size := 33554432, die := 0, bytes := [], holder := some 1, used := 0, pins := 1 }] else []) }
/-- A store of strand 0 that stands at its node. -/
def storeAt (pa : Nat) : MemReq := { id := 8, ctx := 5, die := 0, src := .store 0 0, pa, va := 0x20008, op := .store [1], past := [] }
theorem test_sslot_moves_its_bytes : result (.sslot 9 3 0 true) (idleSlot 1 false) 9 = 1
    ∧ ((after (exec (.sslot 9 3 0 true) (idleSlot 1 false))).slotAt 5 0x20000).map (fun x => (x.die, x.holder, x.bytes.take 1)) = some (0, some 0, [1]) := by
  decide +kernel
theorem witness_SlotInstructions_idle :
    (∀ d ∈ [0, 1], ∀ f ∈ [true, false], ∃ s1 reps x, slotXl (idleSlot d f) 0x20000 256 = .ok s1 [0x200000] reps ∧ s1.slotAt 5 0x20000 = some x ∧ x.holder = none
      ∧ x.size = 256 ∧ x.die = d ∧ s1.slotFits 0 256 = !f)
    ∧ (∃ s1 reps, slotXl withPat 0x20000 256 = .ok s1 [0x200000] reps ∧ s1.pagesBusy [0x200000] 256 false = false)
    ∧ ∃ s1 reps, slotXl (withPat.modDie 0 (fun d => { d with nodes := [(64, [storeAt 0x200008])] })) 0x20000 256 = .ok s1 [0x200000] reps ∧ s1.slotAt 5 0x20000 = none ∧ s1.pagesBusy [0x200000] 256 false = true := by
  refine ⟨?_, ⟨_, _, rfl, by decide⟩, _, _, rfl, by decide, by decide⟩
  intro d hd f hf
  simp only [List.mem_cons, List.not_mem_nil, or_false] at hd hf
  obtain rfl | rfl := hd <;> obtain rfl | rfl := hf <;> exact ⟨_, _, _, rfl, rfl, rfl, rfl, rfl, by decide⟩

/-! ## The Q class: R347 to R366 -/

/-- An item. -/
def item1 : Item := { payload := [11, 12, 13, 14, 15, 16, 17, 0], tag := 9, past := [4] }
/-- The machine with items in a queue of its pipeline, and a token pair in x8 and x9. -/
def withItems (q : Nat) (l : List Item) (f : Queue → Queue) : State :=
  (regs [(1, 7), (8, 0x500000006), (9, 0x200000001)]).modQueue 5 0 q (fun x => f { x with subs := [(0, { items := l })] })
/-- The same with an ordered stage, a braid entry of the task and the braid full. -/
def braided (n : Nat) : State :=
  ((withItems 0 [item1] id).modStage 5 0 0 (fun g => { g with
    desc := { g.desc with ord := true, braidCap := 2, seqin := true },
    braid := (List.range n).map (fun i => { serial := i, tag := BitVec.ofNat 32 i, owner := 0 }) })).modTask 5 0 0 0 (fun e => { e with braids := n })
/-- Reserved slots of queue 1. -/
def reserved1 : State :=
  (withItems 1 [] (fun x => { x with reserved := 4 })).modTask 5 0 0 0 (fun e => { e with reserved := 4 :: List.replicate 7 0 })

/-- The machine whose set 255 is m. -/
def withSet (m : MSet) : State := (regs [(1, 255)]).modCtx 5 (fun c => { c with sets := [(255, m)] })
theorem test_qpop_takes_item : result (.qpop 9 0) (withItems 0 [item1] id) 3 = 14
    ∧ (after (exec (.qpop 9 0) (withItems 0 [item1] id))).me.item = 11
    ∧ ((after (exec (.qpop 9 0) (withItems 0 [item1] id))).pipe 5 0).free 1 = 3 := by decide
theorem test_qtry_empty : result (.qtry 9 0) m0 9 = 2 := by decide
theorem test_qpush_item : ((((after (exec (.qpush 9 1 8 9) m0)).pipe 5 0).queue 1).sub 0).items.length = 1
    ∧ (((((after (exec (.qpush 9 1 8 9) (withItems 1 [] id))).pipe 5 0).queue 1).sub 0).items.map (fun i => (i.tag, i.key, i.payload.take 2)))
      = [(1, 2, [0x500000006, 7])] := by decide
theorem test_qstat : result (.qstat 9 1) (withItems 1 [item1] (fun x => { x with closed := true, reserved := 1 })) 9 = 0x100020001 := by decide
theorem test_qres : result (.qres 9 1 1) (m0.modMe (fun st => { st with x := [(1, 5)] })) 9 = 0 := by decide
theorem test_twait : result (.tpoll 9 3) (m0.modMe (fun st => { st with mailbox := [⟨2, 1, []⟩, ⟨3, 0xFFFFFFFF, []⟩] })) 9 = 0x80000000FFFFFFFF := by decide
/-- R361: a LEAVE of the only participant that has not arrived closes the phase. -/
theorem test_leave_closes_phase : let s := withSet { members := [0, 1], participants := [0, 1], arrived := [1] }
    ((setOf s (after (exec (.leave 1) s)) 1).members, (setOf s (after (exec (.leave 1) s)) 1).phase) = ([1], 1) := by decide
theorem test_garr_of_no_member : result (.garr 9 1) (regs [(1, 2)]) 9 = 0x8000000000000000 := by decide
theorem test_fence_word : result (.fence 3 9) (m0.modMe (fun st => { st with fail := { count := 2, faddr := 0x12345678, refused := true } })) 9
    = 0x1234567800020002 := by decide
theorem test_ebgt : (after (exec (.ebgt 1) (regs [(1, 0x1FFFFFFFF)]))).me.budget = 0xFFFFFFFF := by decide
theorem test_fcfg_badimage : result (.fcfg 9 1) (regs [(1, 0x20020)]) 9 = 1 := by decide

/-- The supervisor's tile, its registers naming pages 0x20 to 0x23 of context 5. -/
def supervisor : State :=
  (regs [(1, 0x20FFF), (2, 4 + 5 * 2 ^ 54)]).modTile 0 (fun u => { u with ctx := 0, stage := none })
theorem test_invl : ((after (exec (.invl 1 2) supervisor)).tile 0).utlb = [leafL2] := by decide

theorem witness_OutOfRangeQSlotsTrap : CanTrap m0 ∧ m0.inputQueue 2 = false ∧ m0.outputQueue 0 = false ∧ m0.myPipe.queues.length ≤ 3
    ∧ (m0.tile m0.focus).hasElem 0 4 = false ∧ 256 ≤ ((regs [(1, 256)]).rx 1).toNat % 65536
    ∧ 288 < ((regs [(1, 289 * 2 ^ 54)]).rx 1).toNat / 2 ^ 54 := ⟨canTrap_m0, by decide, by decide, by decide, by decide, by decide, by decide⟩
theorem witness_QueuePops_taken :
    (Poppable (withItems 0 [item1] id) 0 0 0 ∧ ((withItems 0 [item1] id).pipe 5 0).canReserve 0 = true
      ∧ (((withItems 0 [item1] id).pipe 5 0).stage 0).braidRoom = true ∧ ((withItems 0 [item1] id).pipe 5 0).drained 0 = false
      ∧ Holdable (withItems 0 [item1] id) 0 0 ((((withItems 0 [item1] id).pipe 5 0).stage 0).desc.ratios.getD · 0))
    ∧ (OwnQueue m0 0 0 0 ∧ m0.inputQueue 0 = true
      ∧ (m0.modMe (fun st => { st with granted := some (0, { item1 with poison := true }) })).me.granted = some (0, { item1 with poison := true }))
    ∧ ((withItems 0 [] (fun x => { x with closed := true })).pipe 5 0).drained 0 = true
    ∧ (queueOf (withItems 0 [] (fun x => { x with closed := true })) (withItems 0 [] (fun x => { x with closed := true })) 0 0).waiting = [] := by
  unfold Poppable OwnQueue Holdable; decide
/-- Queue 0 with its one item in spill. -/
def spilled0 : State := m0.modQueue 5 0 0 (fun x => { x with subs := [(0, { spilled := [item1] })] })
/-- A QTRY of such a queue waits. -/
theorem test_qtry_spilled : ((after (exec (.qtry 9 0) spilled0)).strand 0 0).pc = (spilled0.strand 0 0).pc ∧ ((after (exec (.qtry 9 0) spilled0)).pipe 5 0).queues.map (fun x => x.waiting.length) = [1, 0, 0] := by decide
theorem witness_QueuePops_not_taken : OwnQueue m0 0 0 0 ∧ m0.me.granted = none ∧ (queueOf m0 m0 0 0).waiting = []
    ∧ (m0.pipe 5 0).drained 0 = false ∧ (m0.ctx m0.myCtx).rpl ≠ 2 ∧ (queueOf m0 m0 0 0).choose 0 = none ∧ (queueOf m0 m0 0 0).spilled = 0
    ∧ (∃ r, (queueOf spilled0 spilled0 0 0).choose 0 = some r ∧ (r.2.1.sub r.1).items = [])
    ∧ (spilled0.pipe 5 0).canReserve 0 = true ∧ ((spilled0.pipe 5 0).stage 0).braidRoom = true ∧ (spilled0.pipe 5 0).drained 0 = false
    ∧ (Poppable (braided 2) 0 0 0 ∧ (((braided 2).pipe 5 0).stage 0).braidRoom = false ∧ ((braided 2).pipe 5 0).drained 0 = false)
    ∧ ∃ s : State, Poppable s 0 0 0 ∧ (s.pipe s.myCtx 0).canReserve 0 = false ∧ (s.pipe s.myCtx 0).drained 0 = false := by
  refine ⟨by unfold OwnQueue; decide, by decide, by decide, by decide, by decide, by decide, by decide, ⟨_, rfl, rfl⟩, by decide, by decide, by decide, by unfold Poppable OwnQueue; decide,
    (withItems 0 [item1] id).modQueue 5 0 1 (fun x => { x with reserved := 4 }), by unfold Poppable OwnQueue; decide, by decide, by decide⟩
theorem witness_QpushIsDecidedInOrder : OwnQueue m0 0 0 1 ∧ m0.outputQueue 1 = true
    ∧ (queueOf (withItems 1 [] (fun x => { x with closed := true })) (withItems 1 [] (fun x => { x with closed := true })) 0 1).closed = true
    ∧ (queueOf (withItems 1 [] (fun x => { x with poisoned := true })) (withItems 1 [] (fun x => { x with poisoned := true })) 0 1).poisoned = true
    ∧ (reservedIn m0 (withItems 1 [item1, item1, item1, item1] id) 0 0 1 = 0 ∧ ((withItems 1 [item1, item1, item1, item1] id).pipe 5 0).free 1 = 0
      ∧ (queueOf m0 (withItems 1 [item1, item1, item1, item1] id) 0 1).desc.spill = false)
    ∧ (reservedIn m0 reserved1 0 0 1 = 4 ∧ (reserved1.pipe 5 0).free 1 = 0 ∧ reserved1.spillBlocked 5 0 1 = false
      ∧ (queueOf m0 reserved1 0 1).pushSub (reserved1.cursorOf 0 0 1 1) = some 0 ∧ ((queueOf m0 reserved1 0 1).sub 0).spilled = [])
    ∧ ((((braided 1).pipe 5 0).stage 0).desc.ord = true ∧ 0 < (taskOf m0 (braided 1) 0 0).braids ∧ 0 < ((braided 1).pipe 5 0).free 1) := by
  unfold OwnQueue; decide
theorem witness_QueueStateInstructions : OwnQueue m0 0 0 1 ∧ m0.outputQueue 1 = true ∧ (m0.rx 9).toNat = 0
    ∧ 0 < ((regs [(9, 4)]).rx 9).toNat ∧ ((regs [(9, 4)]).rx 9).toNat ≤ ((regs [(9, 4)]).pipe 5 0).free 1
    ∧ Holdable (regs [(9, 4)]) 0 0 (fun _ => 4) ∧ ((regs [(9, 5)]).pipe 5 0).free 1 < ((regs [(9, 5)]).rx 9).toNat := by
  unfold OwnQueue Holdable; decide
theorem witness_FabricInstructions : (m0.modMe (fun st => { st with fcfg := some 0 })).me.fcfg = some 0 ∧ m0.me.fcfg = none
    ∧ ((regs [(1, 0x20020)]).rx 1).toNat % 64 ≠ 0 ∧ ((regs [(1, 0x20040)]).rx 1).toNat % 64 = 0 ∧ (m0.tile 0).load = none
    ∧ (m0.modTile 0 (fun u => { u with fstat := { run := true } })).tile 0 = { m0.tile 0 with fstat := { run := true } }
    ∧ (m0.tile 0).fstat.run = false
    ∧ ((m0.modTile 0 (fun u => { u with image := some { cells := [(15, { elems := List.replicate 32 0 })] } })).tile 0).hasElem 15 31 = true := by
  decide
/-- A global strand address: package, die, tile, strand. -/
def gaddr (pkg die tile strand : Nat) : Word := w64 (pkg * 8192 + die * 512 + tile * 8 + strand)
/-- The machine sending to it. -/
def sending (pkg die tile : Nat) : State := regs [(1, gaddr pkg die tile 7)]
theorem witness_TokenInstructions_tsend : 4 ≤ (m0.modMe (fun st => { st with sent := 4 })).me.sent ∧ (sending 0 9 0).me.sent < 4
    ∧ 8 < ((sending 0 9 0).rx 1).toNat / 2 ^ 9 % 16
    ∧ (((sending 0 8 7).rx 1).toNat / 2 ^ 9 % 16 = 8 ∧ ((sending 0 8 7).rx 1).toNat / 2 ^ 3 % 64 = 7)
    ∧ (((sending 0 0 7).rx 1).toNat / 2 ^ 9 % 16 * 64 + ((sending 0 0 7).rx 1).toNat / 2 ^ 3 % 64
        ∈ ((sending 0 0 7).part ((sending 0 0 7).ctx (sending 0 0 7).myCtx).part).tiles)
    ∧ ¬ ((sending 0 0 8).rx 1).toNat / 2 ^ 9 % 16 * 64 + ((sending 0 0 8).rx 1).toNat / 2 ^ 3 % 64
        ∈ ((sending 0 0 8).part ((sending 0 0 8).ctx (sending 0 0 8).myCtx).part).tiles := by decide
/-- The machine with tokens of tag 3 in the mailbox. -/
def withMail : State := m0.modMe (fun st => { st with mailbox := [⟨2, 1, []⟩, ⟨3, 5, [6]⟩, ⟨3, 7, []⟩] })
theorem witness_TokenInstructions_mailbox : withMail.me.mailbox.find? (fun m => m.tag == (3 : Imm)) = some ⟨3, 5, [6]⟩
    ∧ ∀ m ∈ m0.me.mailbox, m.tag ≠ (3 : Imm) := by decide
theorem witness_MembershipAndBarriers : ((withSet {}).rx 1).toNat % 65536 < 256
    ∧ ((setOf (withSet {}) (withSet {}) 1).members = [] ∧ (withSet {}).focus ∉ (setOf (withSet {}) (withSet {}) 1).members)
    ∧ (setOf (withSet { members := [0, 1], participants := [0, 1] }) (withSet { members := [0, 1], participants := [0, 1] }) 1).members ≠ []
    ∧ (¬ othersArrived m0 { members := [0, 1], participants := [0, 1] })
    ∧ othersArrived m0 { members := [0, 1], participants := [0, 1], arrived := [1], phase := 2 ^ 48 - 1 }
    ∧ (let s := withSet { members := [0, 1], participants := [0, 1], arrived := [1], phase := 2 ^ 48 - 1 }
      s.focus ∈ (setOf s s 1).members ∧ (∃ u ∈ (setOf s s 1).members, u ≠ s.focus) ∧ s.focus ∈ (setOf s s 1).participants ∧ othersArrived s (setOf s s 1))
    ∧ (0 ∈ ({ members := [0, 1], participants := [1] } : MSet).members ∧ 0 ∉ ({ members := [0, 1], participants := [1] } : MSet).participants)
    ∧ ({ phase := 0 } : MSet).closed (2 ^ 48 - 1) = true ∧ ({ phase := 3 } : MSet).closed 3 = false
    ∧ (m0.modMe (fun st => { st with gbar := some (255, 3) })).me.gbar = some (((withSet {}).rx 1).toNat % 65536, 3) := by
  unfold othersArrived; decide
/-- The machine with stores of its strand, the last of them in no die's visible set but its own. -/
def storing : State :=
  { m0.modMe (fun st => { st with stores := [(9, 0)] }) with log := [{ id := 9, word := 0, die := 0, val := 1, seen := [0], past := [] }] }
/-- The machine whose strand's command has sent a write to another package that is not answered. -/
def remoteWrite : State :=
  (running3.modPkg (fun p => { p with flights := [{ tag := 8, tile := 0, id := 3, n := 0, ctx := 5, window := 3, port := 3, addr := 0, isWrite := true, wid := 9 }] }))
theorem witness_FenceAndTrigger : (∀ w ∈ (m0.modMe (fun st => { st with stores := [(2, 0)] })).me.stores, m0.storeDone 0 0 (3#3).toNat w = true)
    ∧ (∃ w ∈ storing.me.stores, storing.storeDone storing.focus storing.cur (3#3).toNat w = false) ∧ (m0.tile m0.focus).stage = some (0, 0)
    ∧ storing.storeDone 0 0 2 (9, 0) = true ∧ m0.podDone 0 0 = true ∧ remoteWrite.podDone remoteWrite.focus remoteWrite.cur = false
    ∧ (∃ w ∈ (m0.modMe (fun st => { st with stores := [(7, 3)] })).me.stores, w.2 = 3) := by decide
/-- R363: a TRIG after a store in the cell window waits until that store is four fc old. -/
theorem test_trig_waits_for_cell_stores : ((after (exec .trig (m0.modMe (fun st => { st with stores := [(7, 3)] })))).ctx 5).trigQueue.map (fun r => r.cellFc)
    = [11] := by decide
theorem witness_EnergyInstructions : m0.me.stepOnce = false := rfl
theorem witness_InvalidationRemovesTranslations : (supervisor.tile supervisor.focus).ctx = 0
    ∧ ((invRange supervisor 1 2).1 ≤ 288 ∧ (supervisor.ctx (invRange supervisor 1 2).1).live = true) ∧ supervisor.me.invw = none
    ∧ ((invRange supervisor 1 3).1 ≤ 288 ∧ (supervisor.ctx (invRange supervisor 1 3).1).live = false)
    ∧ (∀ i ∈ supervisor.me.invls, supervisor.invalOpen i = false) ∧ (∀ v ∈ supervisor.invals, v.id ≠ 0)
    ∧ ((supervisor.modMe (fun st => { st with invw := some 7 })).me.invw = some 7 ∧ supervisor.invalOpen 7 = false)
    ∧ ({ supervisor with invals := [{ id := 7, ctx := 5, lo := 0, hi := 4096, part := 0, reqs := [] }] } : State).invalOpen 7 = true := by decide
/-- The package field of a global strand address. -/
theorem pkg_of_gaddr (pkg : Nat) (h : pkg < 2 ^ 19) : (gaddr pkg 0 7 7).toNat / 2 ^ 13 % 2 ^ 19 = pkg := by
  simp only [gaddr, w64, BitVec.toNat_ofNat]
  omega
theorem rx_sending (pkg die tile : Nat) : (sending pkg die tile).rx 1 = gaddr pkg die tile 7 := rfl
theorem witness_TsendInside : ((sending Config.pkgid.toNat 0 7).rx 1).toNat / 2 ^ 13 % 2 ^ 19 = Config.pkgid.toNat := by
  rw [rx_sending]; exact pkg_of_gaddr _ Config.pkgid.isLt
/-- The machine with every port ready, in a switched topology whose own package is not package 1. -/
theorem witness_TsendAway (ht : Config.topologyTorus = false) (hp : Config.pkgid.toNat ≠ 1) (s : State)
    (hu : ∀ p, s.unitReady (portUnit p) = true) : ∃ p, s.routePort 0 0 1 = some p := by
  have e : bundleTo 1 = List.range 128 := by unfold bundleTo; rw [ht]; exact (if_neg hp).trans rfl
  have f : (bundleTo 1).filter (fun p => s.unitReady (portUnit p)) = List.range 128 := by
    rw [e]; exact List.filter_eq_self.2 (fun p _ => hu p)
  exact ⟨1, by unfold State.routePort; rw [f]; decide +kernel⟩
/-- The machine whose queue 1 is full and spills to the page at 0x20000. -/
def spillsTo : State :=
  ({ m0 with dies := [(0, { tlb := [(0, [leafHbm])] })] } : State).modQueue 5 0 1 (fun x =>
    { x with desc := { x.desc with spill := true, spillBase := 0x20000, spillSize := 256 }, subs := [(0, { items := [item1, item1, item1, item1] })] })
theorem test_qpush_spills : ((((after (exec (.qpush 9 1 8 9) spillsTo)).pipe 5 0).queue 1).sub 0).spilled.length = 1
    ∧ result (.qpush 9 1 8 9) spillsTo 9 = 0 := by decide +kernel
theorem witness_QpushSpills : OwnQueue spillsTo 0 0 1 ∧ spillsTo.outputQueue 1 = true ∧ spillsTo.Inv ∧ reservedIn spillsTo spillsTo 0 0 1 = 0
    ∧ (spillsTo.pipe 5 0).free 1 = 0 ∧ (queueOf spillsTo spillsTo 0 1).desc.spill = true ∧ (taskOf spillsTo spillsTo 0 0).braids = 0
    ∧ spillsTo.spillBlocked 5 0 1 = false
    ∧ (let own := spillsTo.cursorOf 0 0 1 (queueOf spillsTo spillsTo 0 1).desc.k % (queueOf spillsTo spillsTo 0 1).desc.k
      (queueOf spillsTo spillsTo 0 1).spillRoom own = true ∧ ∃ s1 rep, spillsTo.translate (.spill 5 0 1) 5
        (w64 ((queueOf spillsTo spillsTo 0 1).desc.spillVa own ((queueOf spillsTo spillsTo 0 1).sub own).spillPos)) .write false false = .ok s1 0x200000 rep)
    ∧ spillsTo.nodeBusy 0x200000 128 true = false := by
  refine ⟨by unfold OwnQueue; decide, by decide, by unfold State.Inv; decide, by decide, by decide, by decide, by decide, by decide, ⟨by decide, _, _, rfl⟩, by decide⟩
/-- A GBAR that arrives, one that stands at its phase, and a handler's. -/
theorem witness_BarriersCountArrivals : m0.me.gbarNow = none ∧ (m0.modMe (fun st => { st with gbar := some (255, 3) })).me.gbarNow = some (255, 3)
    ∧ (inHandler.modMe (fun st => { st with gbar := some (255, 3) })).me.gbarNow = none := by decide
/-- R362: the barrier that a strand was trapped at keeps its own arrival. -/
theorem test_handler_barrier_arrives_for_itself : let s := (withSet { members := [0, 1], participants := [0, 1] }).modMe (fun st =>
      { st with handler := true, gbar := some (254, 3) })
    ((after (exec (.gbar 1) s)).me.gbar, (after (exec (.gbar 1) s)).me.gbarH) = (some (254, 3), some (255, 0)) := by decide

/-! ## Units, power, energy accounts: R20 to R36, R101 to R112 -/

/-- The machine with unit u in state x, die 4 ready. -/
def unitIs (u : Nat) (x : UnitState) : State := m0.modPkg (fun p => { p with units := [(4, .ready), (u, x)] })
theorem test_die4_is_tested_first : State.reset.testable 4 = true ∧ State.reset.testable 1 = false := by decide
theorem test_unitfail : (((unitIs 9 .ready).unitFault 0 9).ctx 5).fault.map (fun r => (r.cause, r.trapv)) = some (0x47, 9) := by decide
/-- R26: ten readings of a mean one tenth of a milliwatt above 4,600 W. -/
theorem test_powerCheck_steps_down : (after (exec (.powerCheck 4600001 []) (m0.modPkg (fun p =>
    { p with power := List.replicate 10 4600000, clockMHz := 1000 })))).pkg.clockMHz = 950 := by decide +kernel
/-- R101: class 56 is 160 pJ, 2,560 units of 1/16 pJ, at scale 1.0. -/
theorem test_fcEdge_charges : ((after (exec (.fcEdge 0) m0)).tile 0).residue = 2560 * 2 ^ 14 ∧ ((after (exec (.fcEdge 0) m0)).die 0).fc = 1
    ∧ ((after (exec (.fcEdge 0) m0)).tile 0).lcyc = 1 ∧ ((after (exec (.fcEdge 0) m0)).tile 64).lcyc = 0 := by
  decide +kernel
/-- R101, R105: a tile of no stage is charged to the house. -/
theorem test_fcEdge_charges_the_house : ((after (exec (.fcEdge 0) m0)).tile 1).houseResidue = 2560 * 2 ^ 14 := by decide +kernel
theorem test_wear_sample_joins_those_kept : (after (exec (.wearSample 81 2 ⟨[7], 0, 0⟩) (m0.modPkg (fun p => { p with wear := [(650, [[5]])] })))).pkg.wear.get [] 650
    = [[7], [5]] := by decide
/-- The machine with an amount on die 0's accumulator for context 5, 2.5 nJ. -/
def charged : State := m0.modDie 0 (fun x => { x with accounts := [(5, 5 * oneNJ / 2)] })
theorem test_charge_guttered : ((after (exec (.chargeApply 0) charged)).ctx 5).balance = (-3 : Int) * oneNJ / 2
    ∧ ((after (exec (.chargeApply 0) charged)).ctx 5).stopTo = some .guttered := by decide
theorem test_calibration_rounds_down : (after (exec (.calibrationWindow [1]) (m0.modPkg (fun p =>
    { p with windowScaled := [(0, 3 * 2 ^ 14)] })))).scaleOf 0 = 0x3F00 := by decide +kernel

theorem witness_UnitsAndHealthChangeAsListed : (State.reset.testable 4 = true ∧ State.reset.testTurn 4 = true)
    ∧ (unitIs 221 .testing).unit 221 = .testing
    ∧ ((unitIs 9 .ready).unit 9 = .ready ∧ (0, part0) ∈ (unitIs 9 .ready).formedParts ∧ 9 ∈ part0.units ∧ 5 ∈ (unitIs 9 .ready).residents 0
      ∧ ((unitIs 9 .ready).ctx 5).state = .running ∧ ((unitIs 9 .ready).ctx 5).fault = none)
    ∧ (unitIs 9 .ready).unit 9 ≠ .untested ∧ (unitIs 9 .ready).unit 9 ≠ .testing ∧ (unitIs 9 .failed).unit 9 ≠ .ready
    ∧ 4 ∈ unitIndicators 8 ∧ 3 ∈ unitIndicators 220 ∧ 2 ∉ unitIndicators 80 ∧ (unitIs 8 .failed).unit (healthUnit 80) = .failed
    ∧ (m0.pkg.health.get {} 221).noticed = false := by decide +kernel
theorem witness_PowerChecksAndCalibration : (∃ x ∈ [(1840 : Int)], 115 * 16 ≤ x) ∧ m0.pkg.tripped = false ∧ (m0.ctx 5).state = .running
    ∧ (∀ x ∈ [(1519 : Int)], x < 95 * 16) ∧ (∀ p ∈ State.reset.ctxs, p.2.state ≠ .running)
    ∧ (m0.modPkg (fun p => { p with tripped := true, tripClear := true })).pkg.tripClear = true := by decide
theorem witness_ChargesMoveAndTimeIsCharged : dueAmount charged 0 = some (5, -((5 * oneNJ / 2 : Nat) : Int)) ∧ dueAmount m0 0 = none
    ∧ (charged.ctx 5).live = true ∧ charged.homeDie 5 = 0 ∧ m0.homeDie 0 ≠ 0
    ∧ dueAmount (m0.modDie 0 (fun x => { x with arrivals := [(7, 3)] })) 0 = some (7, 3) ∧ (m0.ctx 7).live = false
    ∧ m0.pkg.clockStopped = false := by decide

/-! ## Schedulers, tiles and pipelines: R91, R92, R95 to R99, R115 to R125, R386 to R399 -/

/-- The machine with a page at 0x20000 in its lead die's TLB, and a context changed. -/
def sched (f : Context → Context) : State := ({ m0 with dies := [(0, { tlb := [(0, [leafHbm])] })] } : State).modCtx 5 f
/-- A pipeline ready to start. -/
def waiting0 : Pipeline := { active := true, ready := true, handle := 3, descVa := 0x20000 }
/-- The machine with context 6 runnable beside context 5. -/
def twoCtx : State := m0.modCtx 6 (fun _ => { live := true, pipes := [(0, waiting0)], balance := 1 })
/-- The machine with its partition idle and context 5 ready. -/
def idlePart : State := (m0.modCtx 5 (fun x => { x with state := .ready })).modPart 0 (fun p => { p with running := none })
/-- The machine restoring context 5, every page read back. -/
def restoring : State := m0.modCtx 5 (fun x => { x with saved := some [(0, tile0), (1, {})], saveAt := 1000 })
/-- The machine whose context 5 has no work left. -/
def resting : State := (m0.modCtx 5 (fun x => { x with pipes := [], moves := [] })).modPart 0 (fun p => { p with pool := p.tiles })
theorem test_slice_end_asks_stop : ((after (exec (.sliceEnd 0) twoCtx)).ctx 5).stopTo = some .ready := by decide
theorem test_dispatch_in_ascending_order : idlePart.nextRunnable 0 = some 5 := by decide

theorem witness_SlicesAndDispatch : ActsFor twoCtx 0 5 ∧ (twoCtx.ctx 5).rpl ≠ 2 ∧ (∃ d ∈ twoCtx.residents 0, d ≠ 5 ∧ twoCtx.runnable d = true)
    ∧ (ActsFor m0 0 5 ∧ ∀ d ∈ m0.residents 0, d ≠ 5 → m0.runnable d = false)
    ∧ ((idlePart.part 0).running = none ∧ (idlePart.part 0).formed = true ∧ idlePart.nextRunnable 0 = some 5)
    ∧ ((restoring.part 0).running = some 5 ∧ (restoring.ctx 5).saved = some [(0, tile0), (1, {})] ∧ (restoring.ctx 5).stopTo = none
      ∧ (restoring.ctx 5).destroying = none ∧ (savePages [(0, tile0), (1, {})]).length ≤ (restoring.ctx 5).saveAt
      ∧ ([(0, tile0), (1, {})].map (fun p => p.1)).Nodup)
    ∧ (ActsFor resting 0 5 ∧ (resting.ctx 5).hasWork = false ∧ (resting.ctx 5).moves = []
      ∧ (∀ u ∈ (resting.part 0).tiles, u ∈ (resting.part 0).pool) ∧ resting.nodesQuiet (resting.part 0).tiles = true) := by
  unfold ActsFor; decide +kernel
/-- The machine whose context 5 is to be stopped, k pages of it saved. -/
def saving (k : Nat) (st : Bool) : State := sched (fun x => { x with stopTo := some .guttered, stopped := st, saveAt := k, saveArea := 0x1E000 })
theorem pageLength (s : State) : (s.savePage 5 none 0x2000).length = 4096 := by
  simp [State.savePage, cut, Context.requestBytes]; omega
theorem headerLength (s : State) : (s.saveHeader 5 true).length = 64 := by simp [State.saveHeader, leBytes]
theorem witness_StopsAndSaves : (((saving 0 false).ctx 5).destroying = none ∧ ((saving 0 false).ctx 5).stopTo.isSome = true
      ∧ ((saving 0 false).ctx 5).stopped = false ∧ ((saving 0 false).ctx 5).state = .running ∧ ((saving 0 false).ctx 5).saved = none
      ∧ (∀ u ∈ (saving 0 false).tilesOf 5, ((saving 0 false).tile u).held = none)
      ∧ (stoppingAll (saving 0 false) 5).firingsOver ((saving 0 false).tilesOf 5) = true
      ∧ (stoppingAll (saving 0 false) 5).nodesQuiet ((saving 0 false).tilesOf 5) = true
      ∧ ∀ u ∈ (saving 0 false).tilesOf 5, ∀ k ∈ ((saving 0 false).tile u).cmds, k.2.ending ≠ some 8 ∧ k.2.fault ≠ some 8)
    ∧ (((saving 2 true).ctx 5).recordDue = false ∧ ((saving 2 true).ctx 5).stopped = true ∧ ((saving 2 true).ctx 5).saveAt = 2
      ∧ (savePages (((saving 2 true).tilesOf 5).map (fun u => (u, (saving 2 true).tile u))))[2]? = some (none, 0x2000))
    ∧ (((saving 128 true).ctx 5).saveAt = (savePages (((saving 128 true).tilesOf 5).map (fun u => (u, (saving 128 true).tile u)))).length
      ∧ ((saving 128 true).ctx 5).stopTo = some .guttered) := by decide +kernel
theorem witness_StopsAndSaves_page : ∃ s1, (saving 2 true).writeVa ((saving 2 true).saver 5 none).1 5 ((saving 2 true).saver 5 none).2
    (((saving 2 true).ctx 5).saveArea + 0x2000) ((saving 2 true).savePage 5 none 0x2000) false = .ok s1 := by
  have h : ∃ s1 l r, (saving 2 true).xlPages (.scheduler 5) 5 .write false [0x20000] = .ok s1 l r := ⟨_, _, _, rfl⟩
  obtain ⟨s1, l, r, h⟩ := h
  have e : pagesOf (((saving 2 true).ctx 5).saveArea + 0x2000) 4096 = [0x20000] := by decide
  exact ⟨_, State.writeVa_of_empty (State.nodesEmpty_of_dies (by decide)) (by rw [pageLength, e]; exact h)⟩
theorem witness_StopsAndSaves_header : ∃ s1, (sched (fun x => { x with stopTo := some .ready, stopped := true, saveArea := 0x20000 })).writeVa (.scheduler 5) 5
    ((sched (fun x => { x with stopTo := some .ready, stopped := true, saveArea := 0x20000 })).leadTile 5) 0x20000
    ((sched (fun x => { x with stopTo := some .ready, stopped := true, saveArea := 0x20000 })).saveHeader 5 true) false = .ok s1 := by
  exact ⟨_, State.writeVa_of_empty (State.nodesEmpty_of_dies (by decide)) (by rw [headerLength]; rfl)⟩

/-- The machine one fc into an interval of 16 fc, n samples taken, its stage under pressure and a tile in the pool. -/
def proofing (n : Nat) : State :=
  (((m0.modPart 0 (fun p => { p with interval := 16, sample := n, pool := [3] })).modTile 0 (fun u => { u with lcyc := 1 })).modStage 5 0 0 (fun g =>
    { g with desc := { g.desc with maxTiles := 2 }, pressure := 513, samples := n }))
theorem test_proof_move : ((after (exec (.proofIntervalEnd 0) (proofing 16))).ctx 5).moves.map (fun m => (m.tile, m.fromPool)) = [(3, true)] := by decide
theorem witness_ProofSamplesAndIntervals : ActsFor (proofing 0) 0 5 ∧ (((proofing 0).ctx 5).pipes.map (fun p => p.1)).Nodup
    ∧ ((proofing 0).part 0).sample < 16
    ∧ (((proofing 0).part 0).sample + 1) * ((proofing 0).part 0).interval / 16 ≤ (proofing 0).proofCount 0
    ∧ ((proofing 0).ctx 5).stageKeys = [(0, 0)]
    ∧ (ActsFor (proofing 16) 0 5 ∧ ((proofing 16).part 0).sample = 16 ∧ ((proofing 16).ctx 5).rpl ≠ 2
      ∧ lowestBy (fun k => -(((proofing 16).ctx 5).stageAt k).pressure) (((proofing 16).ctx 5).stageKeys.filter (fun k =>
          decide ((((proofing 16).ctx 5).stageAt k).tiles.length < (((proofing 16).ctx 5).stageAt k).desc.maxTiles)
            && ((proofing 16).ctx 5).movesIn k.1 k.2 == 0)) = some (0, 0)
      ∧ 16 * ((((proofing 16).ctx 5).stageAt (0, 0)).desc.hyst : Int) < (((proofing 16).ctx 5).stageAt (0, 0)).pressure
      ∧ lowestBy (fun (u : Nat) => (u : Int)) ((proofing 16).part 0).pool = some 3) := by
  unfold ActsFor; decide

/-- The machine whose tile 0 leaves its stage, or takes up a stage of one entry at 0x20000. -/
def moving (x : TakeUp) : State :=
  (m0.modStage 5 0 0 (fun g => { g with desc := { g.desc with dictN := 1, dictBase := 0x20000 } })).modTile 0 (fun u => { u with strands := [], takeUp := x })
theorem test_leaves_for_pool : (after (exec (.moveTakeup 0) (moving (.leaving none)))).part 0 = { part0 with pool := [0] } := by decide +kernel
theorem test_takes_up : ((after (exec (.stageTakeup 0) (moving (.loading 0)))).tile 0).dictN = 1
    ∧ ((after (exec (.stageTakeup 0) (moving (.loading 0)))).tile 0).takeUp = .none := by decide +kernel
theorem witness_TilesLeaveAndTakeUpStages :
    (((moving (.leaving none)).tile 0).takeUp = .leaving none ∧ ((moving (.leaving none)).tile 0).stopping = false
      ∧ ((moving (.leaving none)).tile 0).drained = true ∧ (moving (.leaving none)).returnsLater 0 = false)
    ∧ (((moving (.loading 0)).tile 0).takeUp = .loading 0 ∧ ((moving (.loading 0)).tile 0).stage = some (0, 0) ∧ (moving (.loading 0)).preloadFits 0 = false
      ∧ ∃ s1 b, (moving (.loading 0)).readVa (.loader 0) 5 0 0x20000 48 ((moving (.loading 0)).super 0) = .ok s1 b)
    ∧ ((moving (.leaving (some (0, 0)))).nextStage 0 = some (5, 0, 0) ∧ ((moving (.leaving (some (0, 0)))).tile 0).preload = none
      ∧ ∃ s1 b, (moving (.leaving (some (0, 0)))).readVa (.loader 0) 5 0 0x20000 48 false = .ok s1 b) :=
  ⟨by decide +kernel, ⟨by decide, by decide, by decide, _, _, State.readVa_of_empty (State.nodesEmpty_of_dies (by decide)) rfl⟩,
    by decide +kernel, by decide, _, _, State.readVa_of_empty (State.nodesEmpty_of_dies (by decide)) rfl⟩

/-- A pipeline descriptor of one stage and one queue (R38), and the rest of a copy whose stage number is wrong. -/
def pipeDesc : List Byte := [1, 0, 1, 1] ++ List.replicate 60 0
/-- The machine with a launch in slot 1 that has copied some descriptors. -/
def launching (va : Nat) (copy : List Byte) : State :=
  { sched (fun x => { x with pipes := x.pipes.set 1 { waiting0 with descVa := va, copy } }) with mem := [(0x200000, 1), (0x200002, 1), (0x200003, 1)] }
/-- The machine with a TRIG counted, its stage's work done, or its pipeline at its end. -/
def ending (p : Pipeline → Pipeline) : State :=
  (((sched (fun x => { x with trigQueue := [{ tile := 0, strand := 0, slot := 0 }] })).modPipe 5 0 p).modPipe 5 1 (fun _ => { active := true, trigHandle := 0, trigN := 1 })).modMe
    (fun st => { st with state := .idle })
theorem test_launch_refused : ((after (exec (.launchStart 5 1) (launching 0x20000 (pipeDesc ++ List.replicate 192 1)))).pipe 5 1).ending
    = some (4, [4, 0, 0, 0, 1, 0, 0, 0]) := by decide +kernel
theorem test_stage_retires : ((after (exec (.stageRetire 5 0 0) (ending (fun p => { p with queues := p.queues.map (fun q => { q with closed := true }) })))).pipe
    5 0).queue 1 = { desc := { capacity := 4 }, closed := true } := by decide
theorem witness_PipelinesStartAndEnd :
    (((launching (2 ^ 60) []).pipe 5 1).active = true ∧ ((launching (2 ^ 60) []).pipe 5 1).ready = true
      ∧ ((launching (2 ^ 60) []).pipe 5 1).started = false ∧ ((launching (2 ^ 60) []).pipe 5 1).ending = none ∧ (launching (2 ^ 60) []).schedules 5 = true
      ∧ ∃ s1 code r a, (launching (2 ^ 60) []).readVa (.scheduler 5) 5 0 (2 ^ 60) 64 false = .fault s1 code r a)
    ∧ (pipeFail pipeDesc = none ∧ ∃ s1 d, (launching 0x20000 []).readVa (.scheduler 5) 5 0 0x20000 64 false = .ok s1 d)
    ∧ (64 ≤ (pipeDesc ++ List.replicate 192 1).length ∧ pipeFail ((pipeDesc ++ List.replicate 192 1).take 64) = none
      ∧ nextDesc (pipeDesc ++ List.replicate 192 1) 0x20000 = none)
    ∧ ((ending id).nextTrig 5 ((ending id).ctx 5).trigQueue [] = some { tile := 0, strand := 0, slot := 0 } ∧ ((ending id).pipe 5 1).trigHandle = ((ending id).pipe 5 0).handle)
    ∧ (ending (fun p => { p with queues := p.queues.map (fun q => { q with closed := true }) })).stageDone 5 0 0 = true
    ∧ (endOf (m0.modPipe 5 0 (fun p => { p with ending := some (4, [1]) })) 5 0 = some (4, [1])
      ∧ endOf (m0.modPipe 5 0 (fun p => { p with stages := [] })) 5 0 = some (0, []) ∧ m0.pipeQuiet 5 0 = true)
    ∧ ∃ s1, (sched id).writeVa (.scheduler 5) 5 0 0x20000 (leBytes 8 1) false = .ok s1 :=
  ⟨⟨by decide, by decide, by decide, by decide, by decide, _, _, _, _, rfl⟩,
    ⟨by decide, _, _, State.readVa_of_empty (State.nodesEmpty_of_dies (by decide)) rfl⟩, by decide +kernel, by decide, by decide, by decide,
    _, State.writeVa_of_empty (State.nodesEmpty_of_dies (by decide)) rfl⟩
/-- A sample of a replaying context, and one that ends its interval. -/
theorem witness_ProofSamplesAndIntervals_replay : let s := (proofing 0).modCtx 5 (fun c => { c with liveModes := 8 })
    ActsFor s 0 5 ∧ (s.ctx 5).rpl = 2 ∧ (s.ctx 5).crumbCount ≤ (s.ctx 5).replayPos ∧ (s.part 0).sample < 16
      ∧ ((after (exec (.proofSample 0) s)).ctx 5).stageAt (0, 0) = (s.ctx 5).stageAt (0, 0) := by
  unfold ActsFor; decide
/-- The machine whose context 5 is FAULTED, its record to be written once more. -/
def recordOwed : State := sched (fun x => { x with state := .faulted, recordDue := true, saveArea := 0x20000 })
theorem faultBodyLength (r : FaultRec) : (State.faultBody r).length = 64 := by simp [State.faultBody, leBytes]
theorem witness_StopsAndSaves_record : (recordOwed.ctx 5).destroying = none ∧ (recordOwed.ctx 5).recordDue = true
    ∧ ∃ s1, recordOwed.writeVa (.scheduler 5) 5 (recordOwed.leadTile 5) (0x20000 + 64) (State.faultBody ((recordOwed.ctx 5).fault.getD {})) false = .ok s1 :=
  ⟨by decide, by decide, _, State.writeVa_of_empty (State.nodesEmpty_of_dies (by decide)) (by rw [faultBodyLength]; rfl)⟩
theorem witness_PipelinesStartAndEnd_retire : (sched (fun x => { x with state := .guttered })).mayRetire 5 = true
    ∧ (sched (fun x => { x with state := .faulted })).mayRetire 5 = false ∧ m0.mayRetire 5 = true := by decide

/-! ## Cores, translation, memory nodes: R122 to R158, R184 to R189, R288 to R291, R331 to R344, R381 to R385 -/

/-- The machine whose core is to choose, an item in its input queue. -/
def choosing (st : SState) (l : List Item) : State :=
  (((withItems 0 [item1] id).modStage 5 0 0 (fun g => { g with resume := l, desc := { g.desc with entry := 77, budget := 3 } })).modTile 0 (fun u =>
    { u with choosing := true, strands := [(1, { state := st, prio := 1, pc := 9, x := [(3, 4), (7, 5)] })], cur := 7 }))
/-- A continuation record written out from R122, waiting on queue 0 or not: PC 5, item 6, x1 to x6, tag 7. -/
def record1 (w : Bool) : Item := { payload := [5 + (if w then 2 ^ 48 else 0), 6, 1, 2, 3, 4, 5, 6], tag := 7, key := 0 }
theorem test_fresh_task : (after (exec (.strandSelect 0) (choosing .idle []))).strand 0 0 =
    { pc := 77, state := .run, budget := 3, entry := some 1, part := 1, claim := true } := by decide
theorem test_yielded_task_keeps_x1_to_x6 : ((after (exec (.strandSelect 0) (choosing .yielded []))).strand 0 1).x = [(3, 4)] := by decide
/-- The machine with an item in queue 0 and strand 3 waiting at a pop of it, ahead of another. -/
def askingPop (l : List PopReq) : State :=
  ((withItems 0 [item1] id).modQueue 5 0 0 (fun x => { x with waiting := l })).modStrand 0 3 (fun st => { st with state := .run, stall := [(0x91, 0)] })
theorem test_divider_first_come : ((after (exec (.dividerAssign 5 0 0) (askingPop [⟨0, 3, none⟩, ⟨0, 2, none⟩]))).strand 0 3).granted
    = some (0, item1) := by decide
/-- The machine fetching an index from its prefetch buffer. -/
def fetching (h : Half) : State := (m0.modTile 0 (fun u => { u with dictN := 3, code := [(2, 9)] })).modMe (fun st => { st with prefetch := [(0, h)] })
theorem test_index_out_of_dictionary : ((after (exec (.indexFetch 0) (fetching 3))).me.trapc, (after (exec (.indexFetch 0) (fetching 3))).me.trapv) = (2, 3) := by
  decide
theorem witness_TasksStartAndItemsAreDivided :
    (Chooses (choosing .idle []) 0 0 0 0 ∧ ((choosing .idle []).strand 0 0).state = .idle ∧ (((choosing .idle []).pipe 5 0).stage 0).resume = [])
    ∧ (Chooses (choosing .yielded []) 0 1 0 0 ∧ ((choosing .yielded []).strand 0 1).state ≠ .idle)
    ∧ (Chooses (choosing .idle [record1 false]) 0 0 0 0 ∧ Chooses (choosing .idle [record1 true]) 0 0 0 0
      ∧ (record1 true).recWait = some 0 ∧ (record1 false).recWait = none ∧ (record1 true).recPc = 5)
    ∧ ∃ s : State, ((s.pipe 5 0).queue 0).waiting = [⟨0, 3, none⟩] ∧ (s.pipe 5 0).consumer 0 = some 0 ∧ (s.strand 0 3).asksPop 0 = true ∧ (s.strand 0 3).granted = none
      ∧ (s.tile 0).stopping = false ∧ (s.pipe 5 0).strandReady 0 = true ∧ (s.ctx 5).rpl ≠ 2 ∧ s.spillBlocked 5 0 0 = false
      ∧ ∃ r, ((s.pipe 5 0).queue 0).choose 0 = some r ∧ (r.2.1.sub r.1).items = [item1] := by
  unfold Chooses
  exact ⟨by decide, by decide, by decide, askingPop [⟨0, 3, none⟩],
    by decide, by decide, by decide, by decide, by decide, by decide, by decide, by decide, _, rfl, rfl⟩
/-- A bundle held for one value. -/
def held1 : Issue := { nextPc := 4, waits := [(9, 2, 3)], wb := [{ slot := 0, reg := 4, val := 1 }] }
/-- The answer it waits for. -/
def answer1 : MemResp := { id := 9, src := .core 0 0 2 3 1 true, data := 0x80, past := [] }
/-- The machine with both. -/
def returning : State := { m0.modTile 0 (fun u => { u with held := some held1 }) with resps := [(0, answer1)] }
theorem test_load_return : ((after (exec (.loadReturn 0) returning)).me.rx 3, (after (exec (.loadReturn 0) returning)).me.rx 4, (after (exec (.loadReturn 0) returning)).me.pc)
    = (0xFFFFFFFFFFFFFF80, 1, 4) := by decide
theorem witness_FetchesAndLoadsReturn : Fetches (fetching 2) 0
    ∧ ((fetching 2).strand 0 0).prefetch.find? (fun p => p.1 == ((fetching 2).halfVa 0 0 ((fetching 2).strand 0 0).pc).toNat)
      = some (((fetching 2).halfVa 0 0 ((fetching 2).strand 0 0).pc).toNat, 2)
    ∧ (2 : Half).toNat < ((fetching 2).tile 0).dictN ∧ (2 : Half).toNat ∉ ((fetching 2).tile 0).codeBad
    ∧ ((fetching 3).tile 0).dictN ≤ (3 : Half).toNat ∧ ((fetching 3).strand 0 0).handler = false ∧ ((fetching 3).ctx ((fetching 3).tile 0).ctx).handler ≠ 0
    ∧ (∃ s1, (m0.modTile 0 (fun u => { u with csb := 0x20000 })).silentXlate (.fetcher 0 0) 5 0x20000 ((m0.modTile 0 (fun u => { u with csb := 0x20000 })).super 0)
      = (s1, some 0x200000))
    ∧ (returning.tile 0).held = some held1 ∧ returning.resps = [(0, answer1)] ∧ (∀ w ∈ held1.wb, w.reg ≠ (3 : XReg).toNat) ∧ returning.respReady 0 answer1 = true := by
  refine ⟨?_, ?_, ?_, ?_, ?_, ?_, ?_, ⟨_, rfl⟩, ?_, ?_, ?_, ?_⟩ <;> first | decide | (unfold Fetches; decide)
theorem witness_PendingCausesAreTaken : m0.me.state = .run ∧ m0.me.handler = false ∧ (m0.tile 0).held = none ∧ (m0.tile 0).choosing = false
    ∧ (m0.tile 0).stopping = false ∧ (m0.ctx (m0.tile 0).ctx).handler ≠ 0
    ∧ (let st := (m0.modMe (fun st => { st with pending := [⟨0x23, 5⟩, ⟨0x22, 6⟩], budget := 1, echg := 16000 })).me
       (st.budget = 0 ∨ st.echg ≤ 16000 * st.budget.toNat) ∧ firstCause st.pending = some ⟨0x22, 6⟩)
    ∧ (let st := (m0.modMe (fun st => { st with budget := 1, echg := 16001 })).me
       st.budget ≠ 0 ∧ 16000 * st.budget.toNat < st.echg ∧ st.pending = []) := by decide

/-- A miss of context 5 at 0x20000. -/
def miss1 : Miss := { who := .loader 0, ctx := 5, va := 0x20000, addr := 0x20000, access := .write, stand := .walk }
/-- Page tables at 0x300000 whose leaf for 0x20000 has the given top byte (R136, R137). -/
def tables (top : Byte) : List Host.Cell :=
  [(0x300000, 1), (0x300001, 0x10), (0x300002, 0x30), (0x301000, 1), (0x301001, 0x20), (0x301002, 0x30), (0x302000, 1), (0x302001, 0x30), (0x302002, 0x30),
   (0x303000, 1), (0x303001, 0x40), (0x303002, 0x30), (0x304100, 0x3B), (0x304102, 0x20)]
    ++ (if top = 0 then [] else [(0x304107, top)])
/-- The machine with the miss, a root and memory. -/
def missing (root : Nat) (m : List Host.Cell) : State :=
  { (m0.modCtx 5 (fun c => { c with root })).modDie 0 (fun d => { d with misses := [miss1] }) with mem := m }
theorem test_walk_sets_A_and_D : (after (exec (.tlbWalk 0) (missing 0x300000 (tables 0)))).nodeWord (0x304100 / 8) = 0x2001BB := by
  decide +kernel
/-- The same while a newer entry of the leaf's word, not yet performed, stands at its node. -/
def overtaken : State :=
  { missing 0x300000 (tables 0) with log := [{ id := 9, word := 0x304100 / 8, die := 0, val := 0, seen := [0], past := [] }] }
/-- R140: the compare-and-swap fails, and the miss walks again. -/
theorem test_walk_loses_to_a_newer_entry : ((after (exec (.tlbWalk 0) overtaken)).die 0).misses = [miss1]
    ∧ (after (exec (.tlbWalk 0) overtaken)).nodeWord (0x304100 / 8) = 0 := by decide +kernel
/-- The machine with an invalidation of all of context 5, and a write applied and not performed. -/
def invalidating (x : Bool) (writes reqs : List Nat) : State :=
  { m0 with invals := [{ id := 7, ctx := 5, lo := 0, hi := 2 ^ 57, part := 0, writes, settled := x, reqs }],
            log := [{ id := 9, word := 5, die := 0, val := 1, seen := [0], past := [] }] }
theorem test_invalidation_settles_and_purges : ((after (exec .invalidationComplete (invalidating false [] []))).tile 0).utlb = []
    ∧ (after (exec .invalidationComplete (invalidating false [] []))).invals.map (fun v => (v.settled, v.reqs)) = [(true, [9])] := by decide +kernel
theorem witness_InvalidationsComplete :
    (∀ v ∈ (invalidating true [] [9]).invals, v.settled = true ∧ ∃ i ∈ v.reqs, (invalidating true [] [9]).unperformed i = true)
    ∧ (∀ v ∈ (invalidating false [9] []).invals, v.settled = false ∧ ∃ i ∈ v.writes, (invalidating false [9] []).unperformed i = true)
    ∧ (∀ v ∈ (invalidating false [8] []).invals, v.settled = false ∧ (∀ i ∈ v.writes, (invalidating false [8] []).unperformed i = false)
      ∧ ∃ i ∈ (invalidating false [8] []).invalReqs v, (invalidating false [8] []).unperformed i = true) := by decide
theorem witness_WalksFillOrRequest : NoneWaits (missing 0x300000 (tables 0)) ∧ ((missing 0x300000 (tables 0)).die 0).nextMiss = some miss1
    ∧ (missing 0x300000 (tables 4)).walk 5 0x20000 = .bad ∧ (missing 0x300000 []).walk 5 0x20000 = .noLeaf
    ∧ ((missing 0x300000 (tables 1)).walk 5 0x20000 = .leaf 0 0x304100 0x10000000020003B ∧ pteM 0x10000000020003B = true)
    ∧ ((missing 0x300000 (tables 0)).walk 5 0x20000 = .leaf 0 0x304100 0x20003B ∧ pteM 0x20003B = false
      ∧ usedLeaf 0x20003B .write ≠ 0x20003B ∧ (missing 0x300000 (tables 0)).nodeWord (0x304100 / 8) = 0x20003B ∧ Memory.wf (tables 0) = true
      ∧ miss1.va = miss1.addr / 4096 * 4096)
    ∧ (overtaken.walk 5 0x20000 = .leaf 0 0x304100 0x20003B ∧ overtaken.nodeWord (0x304100 / 8) ≠ 0x20003B)
    ∧ ((missing 0x300000 []).ctx 5).pageReqs = [] := by
  refine ⟨⟨by decide, by decide, fun c => ?_⟩, by decide, by decide +kernel, by decide +kernel, by decide +kernel, by decide +kernel, by decide +kernel, by decide⟩
  by_cases h : c = 5
  · subst h; rfl
  · simp [missing, State.ctx, m0, State.modDie, State.modCtx, AMap.set, AMap.get, h]
/-- The machine whose strand's bundle waits on a page request, or that a debugger has halted, with a cause pending. -/
def heldBack (page : Bool) : State :=
  (if page then m0.modDie 0 (fun d => { d with misses := [{ miss1 with who := .strand 0 0, stand := .page 3 }] })
   else m0.modMe (fun st => { st with halted := true })).modMe (fun st => { st with pending := [⟨0x23, 5⟩] })
theorem test_held_back_strand_takes_no_cause : ∀ p ∈ [true, false], ((after (exec (.pendingTrapTake 0) (heldBack p))).me.handler,
    (after (exec (.pendingTrapTake 0) (heldBack p))).me.pending) = (false, [⟨0x23, 5⟩]) := by decide
theorem witness_PendingCausesAreTaken_not : (heldBack true).pageHeld 0 0 = true ∧ (heldBack false).me.halted = true ∧ m0.pageHeld 0 0 = false
    ∧ ∀ p ∈ [true, false], (heldBack p).me.state = .run ∧ (heldBack p).me.handler = false ∧ ((heldBack p).tile 0).held = none
      ∧ ((heldBack p).tile 0).choosing = false ∧ ((heldBack p).tile 0).stopping = false ∧ ((heldBack p).ctx 5).handler ≠ 0 := by decide
/-- A walk whose leaf has its A already, for a read; and one whose leaf a store that stands at the node will change. -/
theorem witness_WalksFillOrRequest_more : usedLeaf 0x2000BB .read = 0x2000BB
    ∧ ((missing 0x300000 (tables 0)).modDie 0 (fun d => { d with nodes := [(64, [storeAt 0x304100])] })).nodeBusy 0x304100 8 true = true := by decide +kernel
/-- An invalidation that ends, a strand of its context with a prefetched index. -/
theorem test_invalidation_ends_with_its_indices : ((after (exec .invalidationComplete ((invalidating true [] []).modMe (fun st =>
    { st with prefetch := [(0, 3)], fetched := some (0, false) })))).me.prefetch, (after (exec .invalidationComplete ((invalidating true [] []).modMe (fun st =>
    { st with prefetch := [(0, 3)], fetched := some (0, false) })))).me.fetched) = ([], none) := by decide +kernel
/-- R114, R382: a task past its budget at a bundle boundary has BUDGET pending. -/
theorem test_budget_falls_due : (((m0.modMe (fun st => { st with budget := 1, echg := 16001 })).budgetDue 0).me.pending.map (fun c => c.code)) = [0x30] := by decide

/-! ## Memory nodes and consistency -/

/-- A request of context 5 for the word at 0x200008, at the first HBM node of die 0. -/
def req1 (op : MemOp) (seq : Option (Nat × Nat × Lane)) : MemReq :=
  { id := 9, ctx := 5, die := 0, src := .core 0 0 2 3 8 false, pa := 0x200008, va := 0x20008, op, past := [], seq }
/-- The machine with it at its node, behind a contribution whose tag its sequence has not reached. -/
def atNode (op : MemOp) (seq : Option (Nat × Nat × Lane)) : State :=
  { (m0.modDie 0 (fun d => { d with nodes := [(64, [{ req1 (.reduce 0 0 1 0) (some (0, 1, 5)) with id := 8 }, req1 op seq])] })) with
    mem := [(0x200008, 0x44), (0x20000F, 0x88)] }
theorem test_node_store : (after (exec (.memoryNodeApply 0 64) (atNode (.store [1, 2]) none))).nodeWord 0x40001 = 0x8800000000000201 := by decide +kernel
theorem test_node_atomic_max : ((after (exec (.memoryNodeApply 0 64) (atNode (.atom 2 true 5) none))).resps.map (fun r => r.2.data),
    (after (exec (.memoryNodeApply 0 64) (atNode (.atom 2 true 5) none))).nodeWord 0x40001) = ([0x8800000000000044], 5) := by decide +kernel
/-- The same with a store of strand 0 whose node's unit has failed. -/
def atFailed : State :=
  ((m0.modDie 0 (fun d => { d with nodes := [(64, [{ req1 (.store [1, 2]) none with src := .store 0 0 }])] })).modPkg (fun p =>
    { p with units := (List.range 222).map (fun u => (u, UnitState.failed)) }))
theorem test_store_at_failed_node : (((after (exec (.memoryNodeApply 0 64) atFailed)).strand 0 0).fail.refused) = true := by decide +kernel
theorem witness_MemoryNodesApply : Memory.wf (atNode (.load 8) none).mem = true ∧ NoHostJobs (atNode (.load 8) none) ∧ nextAt (atNode (.load 8) none) 0 64 = some (req1 (.load 8) none)
    ∧ CheckedOk (atNode (.load 8) none) 0x200008 8 ∧ nextAt (atNode (.store [1, 2]) none) 0 64 = some (req1 (.store [1, 2]) none)
    ∧ nextAt (atNode (.atom 8 false 5) none) 0 64 = some (req1 (.atom 8 false 5) none)
    ∧ nextAt (atNode (.cas true 5 6) none) 0 64 = some (req1 (.cas true 5 6) none)
    ∧ nextAt (atNode (.reduce 0 1 5 0) none) 0 64 = some (req1 (.reduce 0 1 5 0) none)
    ∧ (((atNode (.reduce 0 1 5 0) (some (0, 1, 0))).die 0).nodes.get [] 64).find?
        (fun q => q.seq.isSome && (atNode (.reduce 0 1 5 0) (some (0, 1, 0))).nextFor 0 64 q) = some (req1 (.reduce 0 1 5 0) (some (0, 1, 0)))
    ∧ (∀ q ∈ ((atNode (.load 8) none).die 0).nodes.get [] 64, q.seq = none ∨ (atNode (.load 8) none).nextFor 0 64 q = false)
    ∧ (NoHostJobs atFailed ∧ nextAt atFailed 0 64 = some { req1 (.store [1, 2]) none with src := .store 0 0 } ∧ atFailed.nodeFailed 0 64 = true
      ∧ (atNode (.load 8) none).nodeFailed 0 64 = false ∧ (atFailed.ctx 5).saved = none ∧ (atFailed.strand 0 0).runsPart 0 = true) := by
  unfold CheckedOk NoHostJobs; decide +kernel
/-- The machine with write 9 of die 0 applied there, in its next batch, and a line of it on its way to die 1. -/
def batched : State :=
  { m0.modDie 0 (fun d => { d with sealedBatches := [(1, [9])], openBatch := [10] }) with
    log := [{ id := 9, word := 5, die := 0, val := 1, seen := [0], past := [7] }],
    lines := [{ line := 3, bytes := List.replicate 64 7, stamp := 4, src := 0, dst := 1, wid := 11, past := [] }], nextId := 12 }
/-- The same with a line of the write that stands in the batch. -/
def lineBehind : State := { batched with lines := [{ line := 3, bytes := List.replicate 64 7, stamp := 4, src := 0, dst := 1, wid := 9, past := [] }] }
/-- R334, R341: such a line comes with its batch. -/
theorem test_line_comes_with_its_batch : (after (exec (.replicaLineApply 1) lineBehind)).seenAt 1 9 = true
    ∧ (after (exec (.replicaLineApply 1) lineBehind)).lines = [] := by decide +kernel
theorem test_batch_visible : (after (exec (.batchVisible 0 1) batched)).seenAt 1 9 = true ∧ batched.seenAt 1 9 = false
    ∧ (after (exec (.batchVisible 0 1) batched)).seenAt 2 9 = false := by decide
theorem test_line_stands : (after (exec (.replicaLineApply 1) batched)).nodeWord (2 ^ 41 + 24 + 7) = 0x0707070707070707 := by decide +kernel
theorem witness_BatchesAndLinesBecomeVisible : (batched.die 0).openBatch ≠ [] ∧ (batched.die 1).openBatch = []
    ∧ ((batched.log.map (fun r => r.id)).Nodup ∧ (batched.die 0).sealedBatches.find? (fun p => p.1 == ((batched.die 1).vclk.get 0 0 + 1) % 2 ^ 48) = some (1, [9])
      ∧ (∀ i ∈ [9], batched.seenAt 0 i = true) ∧ (∀ r ∈ batched.log, r.id ∈ [9] → ∀ i ∈ r.past, i ∈ [9] ∨ batched.seenAt 1 i = true)
      ∧ ∀ i ∈ [9], i < batched.nextId)
    ∧ (∀ p ∈ ({ batched with flying := [9] }.die 0).sealedBatches, ∃ i ∈ p.2, ({ batched with flying := [9] } : State).seenAt 0 i = false)
    ∧ (∀ x ∈ batched.lines, x.dst ≠ 2)
    ∧ (∃ l r, lineBehind.lines.find? (fun x => x.dst == 1) = some l ∧ lineBehind.log.find? (fun r => r.id == l.wid) = some r ∧ 1 ∉ r.seen ∧ r.die ≠ 1)
    ∧ (∃ l, batched.lines.find? (fun x => x.dst == 1) = some l ∧ batched.log.find? (fun r => r.id == l.wid) = none ∧ l.bytes.length = 64
      ∧ ((batched.die 1).stamps.get (0, 0) l.line).1 < l.stamp) ∧ Memory.wf batched.mem = true :=
  ⟨by decide, by decide, by decide, by decide, by decide, ⟨_, _, rfl, rfl, by decide, by decide⟩, ⟨_, rfl, by decide, by decide, by decide⟩, by decide⟩
/-- The machine with a token in its context's lane. -/
def mailing : State := m0.modCtx 5 (fun c => { c with lane := [(0, 2, 0, 2, ⟨1, 2, []⟩)] })
/-- The machine whose die 0 needs more slot memory than it has, a slot of 256 bytes and a later used one of 8,192 unpinned. -/
def slotFull : State :=
  { sched id with slots := [{ ctx := 5, va := 0x20000, size := 256, die := 0, bytes := List.replicate 256 1, holder := none, used := 0, pins := 0 },
      { ctx := 5, va := 0x20100, size := 33554432, die := 0, bytes := [], holder := some 1, used := 0, pins := 1 },
      { ctx := 5, va := 0x40000, size := 8192, die := 0, bytes := List.replicate 8192 2, holder := none, used := 3, pins := 0 }] }.modDie 0 (fun d => { d with slotNeed := 256 })
/-- The machine whose queue 0 spills, one item in its spill area. -/
def spilling : State :=
  let y : SubQueue := { spilled := [{ payload := [], poison := true }], spillPos := 1 }
  { ((sched id).modQueue 5 0 0 (fun x => { x with desc := { x.desc with spill := true, spillBase := 0x20000, spillSize := 256 }, subs := [(0, y)] }))
    with mem := [(0x200038, 3), (0x200040, 4), (0x200044, 5)] }
theorem test_spill_return : ((((after (exec (.spillReturn 5 0 0) spilling)).pipe 5 0).queue 0).sub 0).items
    = [{ payload := [0, 0, 0, 0, 0, 0, 0, 3], tag := 4, key := 5, poison := true }] := by rfl
theorem witness_TokensSlotsAndSpilledItems : ((mailing.ctx 5).saved = none ∧ nextMail mailing 5 (mailing.ctx 5).lane [] = some (0, 2, 0, 2, ⟨1, 2, []⟩)
      ∧ (mailing.tile 0).ctx = 5)
    ∧ ((slotFull.die 0).slotNeed ≠ 0 ∧ slotFull.slotFits 0 (slotFull.die 0).slotNeed = false
      ∧ (slotFull.slots.filter (fun y => y.die == 0 && !y.pinned)).map (fun y => (y.size, y.bytes.length, y.used)) = [(256, 256, 0), (8192, 8192, 3)]
      ∧ ((slotFull.slots.filter (fun y => y.die == 0 && !y.pinned)).find? (fun y => (slotFull.slots.filter (fun y => y.die == 0 && !y.pinned)).all
        (fun z => decide (y.used ≤ z.used)))).map (fun y => y.va) = some 0x20000
      ∧ slotFull.pagesBusy [0x200000] 256 true = false ∧ (atNode (.store [1]) none).pagesBusy [0x200000] 256 true = true
      ∧ slotPages 0x40000 8192 = [0x40000, 0x41000]
      ∧ slotPages 0x20000 256 = [0x20000] ∧ ∃ s1 reps, slotFull.xlPages (.scheduler 5) 5 .write false [0x20000] = .ok s1 [0x200000] reps)
    ∧ ((spilling.ctx 5).hostOps = [] ∧ (∀ g ∈ (spilling.pipe 5 0).stages, g.braid = []) ∧ ((((spilling.pipe 5 0).queue 0).sub 0).spilled.length = 1) ∧ ((spilling.pipe 5 0).queue 0).desc.subCap = 4
      ∧ ∃ s1 rep, spilling.translate (.spill 5 0 0) 5 (w64 (((spilling.pipe 5 0).queue 0).desc.spillVa 0 0)) .read false false = .ok s1 0x200000 rep) :=
  ⟨by decide, ⟨by decide, by decide +kernel, by decide +kernel, by decide +kernel, by decide, by decide, by decide, by decide, _, _, rfl⟩, by decide, by decide, by decide, by decide, _, _, rfl⟩
theorem witness_NothingStandsAtTheNodes : NoHostJobs batched ∧ NoHostJobs lineBehind ∧ spilling.nodeBusy 0x200000 128 false = false := by
  unfold NoHostJobs; decide +kernel

/-! ## The stream engine and links -/

/-- A pattern of four 32-bit words from a base, its LO, SPACE and OCLS given, four to a token. -/
def patAt (base : Word) (lo space ocls : Nat) : Pattern :=
  let p := Pattern.put (Pattern.put (Pattern.put (Pattern.put 0 288 32 4) 320 40 4) 384 32 lo) 416 32 100
  Pattern.put (Pattern.put (Pattern.setBase p base 0x8400) 77 2 space) 82 2 ocls
/-- The machine whose only command is c under id 3, tokens on its arcs. -/
def commanding (c : Cmd) (arcs : AMap Token := []) : State :=
  m0.modTile 0 (fun u => { u with cmds := [(3, c)], status := [(3, { state := 1, count := 2 })], arcs })
/-- A load. -/
def load3 (p : Pattern) : Cmd := { cmd3 with pat := p }
/-- A gathering load that holds an index value, its index port 4. -/
def gather3 (x : Option Lane) : Cmd := { load3 (patAt 0x20000 0 0 1) with kind := .sli, cport := some 4, idx := [(x, [6])] }
theorem test_pad_takes_its_place : ((((after (exec (.streamRequestGrant 0) (commanding (load3 (patAt 0x10000 1 0 0))))).tile 0).cmd 3).map
    (fun c => (c.next, c.flight))) = some (1, [{ n := 0, val := some (some 0) }]) := by decide +kernel

/-- The only command of the machine may form an element when it waits on nothing. -/
theorem commanding_mayForm {c : Cmd} {arcs : AMap Token} (h : c.ending = none ∧ c.fault = none ∧ c.after = [] ∧ c.barred = [] ∧ c.afterStores = []
    ∧ c.link = none ∧ (commanding c arcs).behindFull 0 3 = false) : MayForm (commanding c arcs) 0 3 c := by
  obtain ⟨a, b, d, e, f, g, k⟩ := h
  refine ⟨by decide, rfl, ?_, rfl, rfl, a, b, d, e, f, g, rfl, k, fun m hm => (List.not_mem_nil hm).elim, ?_⟩
  · exact List.nodup_singleton 3
  · intro place i hi hp x hx
    by_cases e3 : i = 3
    · subst e3; exact absurd hp (Nat.lt_irrefl _)
    · have n : ((commanding c arcs).tile 0).cmd i = none := by
        show (List.find? (fun q : Nat × Cmd => q.1 == i) [(3, c)]).map (fun q => q.2) = none
        rw [List.find?_cons_of_neg (by simpa using Ne.symm e3)]; rfl
      rw [n] at hx; cases hx

theorem witness_LoadsFormTheirElements : ((commanding (load3 (patAt 0x10000 1 0 0))).modTile 0 (fun u => { u with granted := true })).tile 0 |>.granted := by
  decide
theorem witness_LoadsFormTheirElements_loads :
    (∀ c ∈ [load3 (patAt 0x10000 1 0 0), load3 (patAt 0x10000 0 1 0), load3 (patAt 0x20000 0 0 1), load3 (patAt 0x10001 0 0 0), gather3 none, gather3 (some 0)],
      MayForm (commanding c) 0 3 c ∧ (c.kind = .sla ∨ c.kind = .sli) ∧ c.idxPoison = false ∧ c.flight.length < 64
        ∧ c.flight.length < Pattern.perToken c.pat ∧ c.eos = false ∧ ∀ f ∈ c.flight, f.n < c.next ∧ (f.val = none → f.req ≠ 0))
    ∧ ((gather3 none).indexed = true ∧ (gather3 none).idx = [(none, [6])] ∧ Pattern.countFrom (gather3 none).pat 1 ≠ 0)
    ∧ ElementAt (load3 (patAt 0x10000 1 0 0)) .pad
    ∧ (ElementAt (load3 (patAt 0x10000 0 1 0)) (.at 0x10000) ∧ Pattern.space (patAt 0x10000 0 1 0) = 1)
    ∧ ElementAt (load3 (patAt 0x10001 0 0 0)) (.fault 10) := by
  refine ⟨?_, by decide +kernel, .inl (by decide +kernel), ⟨.inl (by decide +kernel), by decide +kernel⟩, .inl (by decide +kernel)⟩
  intro c hc
  have hb : c.ending = none ∧ c.fault = none ∧ c.after = [] ∧ c.barred = [] ∧ c.afterStores = [] ∧ c.link = none
      ∧ (commanding c).behindFull 0 3 = false := by
    revert c; decide +kernel
  refine ⟨commanding_mayForm hb, ?_⟩
  revert c; decide +kernel
/-- Reads of the machine's HBM page: the first element of a strided and of a gathering load. -/
theorem witness_LoadsFormTheirElements_reads : (ElementAt (load3 (patAt 0x20000 0 0 1)) (.at 0x20000)
      ∧ ∃ s1, ElementReaches (commanding (load3 (patAt 0x20000 0 0 1))) 0 3 (load3 (patAt 0x20000 0 0 1)) (patAt 0x20000 0 0 1) 0x20000 .read s1 0x200000
        ∧ s1.nextId ≠ 0)
    ∧ ElementAt (gather3 (some 0)) (.at 0x20000)
    ∧ ∃ s1, ElementReaches (commanding (gather3 (some 0))) 0 3 (gather3 (some 0)) (patAt 0x20000 0 0 1) 0x20000 .read s1 0x200000 ∧ s1.nextId ≠ 0 :=
  ⟨⟨.inl (by decide +kernel), _, ⟨by decide +kernel, ⟨_, rfl⟩, by decide, by decide +kernel⟩, by decide +kernel⟩,
    .inr ⟨by decide, by decide +kernel, 0, [6], [], rfl, by decide +kernel⟩,
    _, ⟨by decide +kernel, ⟨_, rfl⟩, by decide, by decide +kernel⟩, by decide +kernel⟩

/-- A store with a value. -/
def store3 (p : Pattern) (v : Option Nat) : Cmd := { load3 p with kind := .ssa, vals := [(v, [6]), (some 8, [])] }
/-- A scattering store with an index value and a value. -/
def scatter3 : Cmd := { gather3 (some 0) with kind := .ssi, idx := [(some 0, [6]), (some 1, [])], vals := [(some 7, [6])] }
/-- A copy from a pattern, its element in the command's hands or not. -/
def copy3 (p p2 : Pattern) (l : List Flight) : Cmd := { load3 p with kind := .scpy true, pat2 := p2, flight := l }
/-- R296, R306: the value 7 stands in the cell and counts. -/
theorem test_store_writes_its_cell : ((after (exec (.streamRequestGrant 0) (commanding (store3 (patAt 0x10000 0 1 0) (some 7))))).tile 0).cellSeen 4 0x10000 = 7
    ∧ (((after (exec (.streamRequestGrant 0) (commanding (store3 (patAt 0x10000 0 1 0) (some 7))))).tile 0).status.get {} 3).count = 3 := by
  decide +kernel
theorem witness_StoresAndCopiesFormTheirElements :
    (∀ c ∈ [store3 (patAt 0x10000 1 0 0) (some 7), store3 (patAt 0x10000 0 1 0) none, store3 (patAt 0x10000 0 1 0) (some 7), store3 (patAt 0x20000 0 0 1) (some 7),
        scatter3],
      MayForm (commanding c) 0 3 c ∧ (c.kind = .ssa ∨ c.kind = .ssi) ∧ c.vals ≠ [] ∧ c.valsPoison = false ∧ c.idxPoison = false
        ∧ c.advance.nextElem ≠ .stop ∧ ∀ w ∈ ((commanding c).tile 0).cellWrites, w.addr < 0x10000)
    ∧ (ElementAt (store3 (patAt 0x10000 1 0 0) (some 7)) .pad ∧ ElementAt (store3 (patAt 0x10000 0 1 0) none) (.at 0x10000)
      ∧ ElementAt (store3 (patAt 0x10000 0 1 0) (some 7)) (.at 0x10000) ∧ ElementAt scatter3 (.at 0x20000))
    ∧ (∃ s1, ElementReaches (commanding (store3 (patAt 0x20000 0 0 1) (some 7))) 0 3 (store3 (patAt 0x20000 0 0 1) (some 7)) (patAt 0x20000 0 0 1) 0x20000 .write
        s1 0x200000)
    ∧ ∃ s1, ElementReaches (commanding scatter3) 0 3 scatter3 (patAt 0x20000 0 0 1) 0x20000 .write s1 0x200000 := by
  refine ⟨?_, ⟨.inl (by decide +kernel), .inl (by decide +kernel), .inl (by decide +kernel), .inr ⟨by decide, by decide +kernel, 0, [6], _, rfl, by decide +kernel⟩⟩,
    ⟨_, by decide +kernel, ⟨_, rfl⟩, by decide, by decide +kernel⟩, ⟨_, by decide +kernel, ⟨_, rfl⟩, by decide, by decide +kernel⟩⟩
  intro c hc
  have hb : c.ending = none ∧ c.fault = none ∧ c.after = [] ∧ c.barred = [] ∧ c.afterStores = [] ∧ c.link = none
      ∧ (commanding c).behindFull 0 3 = false := by
    revert c; decide +kernel
  refine ⟨commanding_mayForm hb, ?_⟩
  revert c; decide +kernel
theorem witness_StoresAndCopiesFormTheirElements_copies :
    (∀ l ∈ [[], [({ n := 0, val := some (some 7) } : Flight)]],
      MayForm (commanding (copy3 (patAt 0x10000 0 1 0) (patAt 0x10000 0 1 0) l)) 0 3 (copy3 (patAt 0x10000 0 1 0) (patAt 0x10000 0 1 0) l)
        ∧ MayForm (commanding (copy3 (patAt 0x20000 0 0 1) (patAt 0x20000 0 0 1) l)) 0 3 (copy3 (patAt 0x20000 0 0 1) (patAt 0x20000 0 0 1) l))
    ∧ 0 < Pattern.total (patAt 0x10000 0 1 0) ∧ 0 < Pattern.total (patAt 0x20000 0 0 1)
    ∧ (copy3 (patAt 0x10000 0 1 0) (patAt 0x10000 0 1 0) []).elemAddr (patAt 0x10000 0 1 0) 0 none = .at 0x10000
    ∧ (copy3 (patAt 0x20000 0 0 1) (patAt 0x20000 0 0 1) []).elemAddr (patAt 0x20000 0 0 1) 0 none = .at 0x20000
    ∧ ∀ l ∈ [[], [({ n := 0, val := some (some 7) } : Flight)]], ∀ a ∈ [Access.read, .write],
      ∃ s1, ElementReaches (commanding (copy3 (patAt 0x20000 0 0 1) (patAt 0x20000 0 0 1) l)) 0 3 (copy3 (patAt 0x20000 0 0 1) (patAt 0x20000 0 0 1) l)
        (patAt 0x20000 0 0 1) 0x20000 a s1 0x200000 ∧ s1.nextId ≠ 0 := by
  refine ⟨?_, by decide +kernel, by decide +kernel, by decide +kernel, by decide +kernel, ?_⟩
  · intro l hl
    simp only [List.mem_cons, List.not_mem_nil, or_false] at hl
    obtain rfl | rfl := hl <;> exact ⟨commanding_mayForm (by decide +kernel), commanding_mayForm (by decide +kernel)⟩
  · intro l hl a ha
    simp only [List.mem_cons, List.not_mem_nil, or_false] at hl ha
    obtain rfl | rfl := hl <;> obtain rfl | rfl := ha <;> exact ⟨_, ⟨by decide +kernel, ⟨_, rfl⟩, by decide, by decide +kernel⟩, by decide +kernel⟩

/-- A load with an element outstanding, its answer under way. -/
def waiting3 : Cmd := { load3 (patAt 0x20000 0 0 1) with next := 1, flight := [{ n := 0, req := 9, va := 0x20000 }] }
/-- The answer. -/
def answer3 : MemResp := { id := 9, src := .elem 0 3 0, data := 0x55, past := [4] }
/-- The machine with it. -/
def answering3 : State := { commanding waiting3 with resps := [(0, answer3)] }
/-- A load with a token to place. -/
def placing3 : Cmd := { load3 (patAt 0x20000 0 0 1) with next := 4, out := [({ kind := .eos }, 0)], eos := true }
/-- A fill of 9. -/
def fill3 : Cmd := { load3 (patAt 0x20000 0 0 1) with kind := .sfill 0, xb := 9 }
/-- The machine with it behind an earlier command at its port. -/
def filling3 : State := m0.modTile 0 (fun u => { u with cmds := [(3, fill3), (4, { cmd3 with order := 1 })] })
/-- A command that has stopped. -/
def ended3 : Cmd := { load3 (patAt 0x20000 0 0 1) with ending := some 0 }
theorem test_answer_gives_value : ((((after (exec (.streamDataReturn 0 3) answering3)).tile 0).cmd 3).map
    (fun c => c.flight)) = some [{ n := 0, req := 9, va := 0x20000, val := some (some 0x55), past := [4] }] := by decide +kernel
theorem test_complete_shows_code : (((after (exec (.streamComplete 0 3) (commanding ended3))).tile 0).status.get {} 3) = { state := 2, count := 2 } := by
  decide +kernel
/-- The machine with a token of a kind at the store's port. -/
def stored (k : TKind) : State := commanding { store3 (patAt 0x20000 0 0 1) none with vals := [] } [(spEnd 2, { kind := k })]
/-- The machine with a token of a kind at the index port of a gathering load. -/
def indexed (k : TKind) : State := commanding (gather3 (some 0)) [(spEnd 4, { kind := k })]
/-- A multicast of tile 0 that has sent one token of 2 elements to tile 1. -/
def mcast3 : Cmd := { load3 (patAt 0x20000 0 0 1) with kind := .smc 0, members := [1], sent := [2], permits := 1 }
/-- A multicast with its EOS to send. -/
def sending3 : Cmd := { mcast3 with next := 4, out := [({ kind := .eos }, 0)] }
theorem test_fill_forms_its_token : (((after (exec (.streamDataReturn 0 3) filling3)).tile 0).cmd 3).map (fun c => (c.next, c.flight.map (fun f => f.val)))
    = some (4, [some (some 9), some (some 9), some (some 9), some (some 9)]) := by decide +kernel
theorem witness_CommandsMoveTokensAndComplete :
    ((answering3.tile 0).cmd 3 = some waiting3 ∧ (answering3.tile 0).engineOff = false ∧ waiting3.kind = .sla ∧ waiting3.out = [] ∧ waiting3.ending = none
      ∧ waiting3.fault = none ∧ waiting3.flight.length < Pattern.perToken waiting3.pat ∧ waiting3.skipEmpty.nextElem ≠ .stop ∧ waiting3.wants answer3.id = true
      ∧ answering3.resps.find? (fun x => x.1 == 0 && (match x.2.src with | .elem _ i _ => i == 3 | _ => false) && answering3.respReady 0 x.2) = some (0, answer3))
    ∧ ((filling3.tile 0).cmd 3 = some fill3 ∧ (filling3.tile 0).engineOff = false ∧ fill3.next < Pattern.total fill3.pat
      ∧ (filling3.tile 0).portTurnAt fill3.order fill3.port = false ∧ fill3.ending = none ∧ fill3.fault = none)
    ∧ (((commanding placing3).tile 0).cmd 3 = some placing3 ∧ placing3.isReduce = false ∧ placing3.headToken = some ({ kind := .eos }, 0)
      ∧ placing3.outPort = some 2 ∧ ((commanding placing3).tile 0).portTurnAt placing3.order 2 = true ∧ ((commanding placing3).tile 0).emitting = []
      ∧ ((commanding placing3).tile 0).portFree 2 = true)
    ∧ (sending3.kind = .smc 0 ∧ sending3.headToken = some ({ kind := .eos }, 0) ∧ sending3.members ≠ [] ∧ sending3.members.Nodup ∧ 0 < sending3.permits)
    ∧ (∀ k ∈ [TKind.data, .hdr, .eos, .poison], ∃ c, ((stored k).tile 0).cmd 3 = some c ∧ AtPort (stored k) 0 c { kind := k } ∧ c.kind = .ssa ∧ c.ending = none
      ∧ c.fault = none ∧ c.drain = [] ∧ c.valsEnd = false ∧ c.valsPoison = false ∧ c.next + c.vals.length < Pattern.total c.pat ∧ c.vals.length < 256)
    ∧ (∀ k ∈ [TKind.data, .hdr, .eos, .poison], ∃ c, ((indexed k).tile 0).cmd 3 = some c ∧ ((indexed k).tile 0).engineOff = false ∧ c.kind = .sli ∧ c.ending = none
      ∧ c.fault = none ∧ c.drain = [] ∧ c.idxEnd = false ∧ c.idxPoison = false ∧ c.idx ≠ [] ∧ c.idx.length < 16 ∧ Pattern.countFrom c.pat 1 ≠ 0
      ∧ c.cport = some 4 ∧ ((indexed k).tile 0).portTurnAt c.order 4 = true ∧ ((indexed k).tile 0).arcAt (spEnd 4) ((indexed k).fcOf 0) = some { kind := k }
      ∧ c.valsPoison = false)
    ∧ (((commanding ended3).tile 0).cmd 3 = some ended3 ∧ (commanding ended3).canComplete 0 3 ended3 = true)
    ∧ (commanding waiting3).canComplete 0 3 waiting3 = false := by
  refine ⟨by decide +kernel, by decide +kernel, by decide +kernel, by decide +kernel, ?_, ?_, by decide +kernel, by decide +kernel⟩
  · intro k hk
    refine ⟨_, rfl, ?_⟩
    unfold AtPort; revert k; decide +kernel
  · intro k hk
    refine ⟨_, rfl, ?_⟩
    revert k; decide +kernel

/-- The machine whose SQIN waits at the divider of queue 0, which holds an item. -/
def sqining : State :=
  (withItems 0 [item1] (fun x => { x with waiting := [{ tile := 0, strand := 0, stream := some 3 }] })).modTile 0 (fun u =>
    { u with cmds := [(3, { cmd3 with kind := .sqin 0 })] })
/-- A queue command's push to queue 1, or a recurrence of depth 1 over the slot at 0x20000, which it has read or not. -/
def queue3 (kind : CmdKind) (n : Nat) : Cmd := { cmd3 with kind, itag := 6, cport := some 4, next := n, ring := [{ kind := .data }] }
/-- The machine with that command and a token at its port, queue 1 closed or not, a slot at 0x20000. -/
def pushing3 (kind : CmdKind) (n : Nat) (k : TKind) (closed : Bool) : State :=
  ({ commanding (queue3 kind n) [(spEnd 2, { kind := k })] with
    slots := [{ ctx := 5, va := 0x20000, size := 256, die := 0, bytes := List.replicate 256 1, holder := some 0, used := 0, pins := 1 }] } : State).modQueue 5 0 1
    (fun x => { x with closed })
theorem test_sqin_gives_its_item : (((after (exec (.dividerAssign 5 0 0) sqining)).tile 0).status.get {} 3).count = 1 := by decide +kernel
theorem test_srec_leaves_its_ring : ((after (exec (.streamTokenTake 0 3) (pushing3 (.srec 0x20000 1) 1 .eos false))).slotAt 5 0x20000).map
    (fun x => (x.bytes.take 65)) = some (List.replicate 64 0 ++ [1]) := by decide +kernel
theorem witness_QueueCommandsAndRecurrences :
    (((sqining.pipe 5 0).queue 0).waiting = [{ tile := 0, strand := 0, stream := some 3 }] ∧ (sqining.tile 0).cmd 3 = some { cmd3 with kind := .sqin 0 }
      ∧ (sqining.tile 0).emitting = [] ∧ (sqining.tile 0).portOpen 2 = true ∧ (sqining.tile 0).freeze = false ∧ (sqining.ctx 5).rpl ≠ 2
      ∧ sqining.spillBlocked 5 0 0 = false ∧ item1.payload.length = 8
      ∧ ∃ y drew, ((sqining.pipe 5 0).queue 0).choose 0 = some (0, y, drew) ∧ (y.sub 0).items = [item1])
    ∧ (∀ k ∈ [TKind.eos, .data], ∀ b, let s := pushing3 (.sqout 1) 0 k b
      let c := queue3 (.sqout 1) 0
      (s.tile 0).cmd 3 = some c ∧ AtPort s 0 c { kind := k } ∧ c.ending = none ∧ c.fault = none ∧ c.drain = [] ∧ c.after = [] ∧ c.barred = [] ∧ c.afterStores = []
        ∧ ((s.pipe c.ctx c.slot).queue 1).closed = b ∧ ((s.pipe c.ctx c.slot).queue 1).poisoned = false ∧ 0 < (s.pipe c.ctx c.slot).free 1
        ∧ (s.ctx c.ctx).rpl ≠ 2 ∧ s.spillBlocked c.ctx c.slot 1 = false ∧ 1 < (s.pipe c.ctx c.slot).queues.length
        ∧ ((s.pipe c.ctx c.slot).queue 1).pushSub (s.cursorOf 0 c.slot 1 ((s.pipe c.ctx c.slot).queue 1).desc.k) = some 0
        ∧ (((s.pipe c.ctx c.slot).queue 1).sub 0).spilled = [])
    ∧ (∀ k ∈ [TKind.eos, .data], let s := pushing3 (.srec 0x20000 1) 1 k false
      let c := queue3 (.srec 0x20000 1) 1
      (s.tile 0).cmd 3 = some c ∧ AtPort s 0 c { kind := k } ∧ c.ending = none ∧ c.drain = [] ∧ c.next ≠ 0 ∧ c.out.length < 4
        ∧ (s.slotAt c.ctx 0x20000).isSome = true) := by
  refine ⟨⟨rfl, rfl, rfl, by decide +kernel, rfl, by decide, by decide +kernel, rfl, _, _, rfl, rfl⟩, ?_, ?_⟩ <;>
    (unfold AtPort; decide +kernel)
theorem witness_QueueCommandsAndRecurrences_start : let s := pushing3 (.srec 0x20000 1) 0 .data false
    MayForm s 0 3 (queue3 (.srec 0x20000 1) 0) ∧ (s.tile 0).cmds = [(3, queue3 (.srec 0x20000 1) 0)] ∧ (s.tile 0).portTurnAt 7 2 = true
      ∧ (s.tile 0).portTurnAt 7 4 = true ∧ (s.slotAt 5 0x20000).isSome = true := by
  have h : MayForm (commanding (queue3 (.srec 0x20000 1) 0) [(spEnd 2, { kind := .data })]) 0 3 (queue3 (.srec 0x20000 1) 0) :=
    commanding_mayForm (by decide +kernel)
  exact ⟨h, rfl, by decide +kernel, by decide +kernel, by decide +kernel⟩

/-- The machine with the token at tile 1. -/
def multicasting (k : TKind) : State := (commanding mcast3).modTile 1 (fun u => { u with mcast := [{ port := 4, src := 0, id := 3, order := 1, toks := [{ kind := k }] }] })
theorem test_member_returns_permit : ((((after (exec (.multicastSpaceReturn 0 3 1) (multicasting .data))).tile 0).cmd 3).map (fun c => (c.permits, c.delivered)))
    = some (2, [(1, 1)]) := by decide +kernel
theorem witness_MembersDeliverAndReturnPermits : ∀ k ∈ [TKind.data, .eos],
    (((multicasting k).tile 1).mcast = [{ port := 4, src := 0, id := 3, order := 1, toks := [{ kind := k }] }] ∧ ((multicasting k).tile 1).engineOff = false
      ∧ ((multicasting k).tile 1).emitting = []
      ∧ ((multicasting k).tile 1).portTurnAt 1 4 = true ∧ ((multicasting k).tile 1).portFree 4 = true)
    ∧ (((multicasting k).tile 0).cmds = [(3, mcast3)] ∧ 1 ∈ mcast3.members ∧ mcast3.delivered.get 0 1 < mcast3.sent.length
      ∧ ∀ i ∈ mcast3.members, i ≠ 1 → mcast3.delivered.get 0 1 < mcast3.delivered.get 0 i) := by decide +kernel

/-- A remote request to this package, for context 5, from context 6 of package 77. -/
def remote (kind : RemoteKind) : RemoteReq :=
  { srcPkg := 77, srcCtx := 6, srcTile := 0, srcStrand := 0, dstPkg := Config.pkgid.toNat, dstCtx := 5, lane := 2, addr := 0x20000, kind, tag := 8 }
/-- The machine whose context 5 has a window in, the page at 0x20000 in the TLB of die 0, every port ready. -/
def linked : State :=
  ((sched (fun c => { c with windows := [(3, { out := true, inn := true, lane := 2, rctx := 6, rpkg := 77, base := 0x20000, size := 4096 })] }))).modPkg
    (fun p => { p with units := (List.range 222).map (fun u => (u, UnitState.ready)) })
theorem witness_RemoteRequestsAreServed : (∀ k ∈ [RemoteKind.read 8, .write [1, 2], .atomic 8 false 3 0], Arrives linked 3 (remote k) ∧ linked.admits 5 (remote k) = true
      ∧ ∃ s1 rep, (arrived linked 3 (remote k)).translate (.ingress 3) 5 0x20000 (remoteAccess k) false (remoteAccess k == Access.atomic)
        = .ok s1 0x200000 rep)
    ∧ (([1, 2] : List Byte) ≠ [] ∧ 0x200000 % 64 + 2 ≤ 64)
    ∧ (Arrives linked 3 { remote (.read 8) with srcCtx := 7 } ∧ linked.admits 5 { remote (.read 8) with srcCtx := 7 } = false)
    ∧ (Arrives linked 3 (remote (.token 1 2 0xF)) ∧ linked.liveCtxs.find? (fun c => linked.admits c (remote (.token 1 2 0xF))
        && (linked.part (linked.ctx c).part).tiles.contains (64 * ((0xF : BitVec 32).toNat / 512 % 16) + (0xF : BitVec 32).toNat / 8 % 64)) = some 5)
    ∧ (linked.unit (portUnit 3) = .ready ∧ ({ remote (.read 8) with dstPkg := Config.pkgid.toNat + 1 } : RemoteReq).dstPkg ≠ Config.pkgid.toNat) := by
  refine ⟨?_, by decide, ⟨⟨by decide +kernel, rfl, by decide⟩, by decide⟩, ⟨⟨by decide +kernel, rfl, by decide⟩, by decide +kernel⟩,
    ⟨by decide +kernel, by simp⟩⟩
  intro k hk
  simp only [List.mem_cons, List.not_mem_nil, or_false] at hk
  obtain rfl | rfl | rfl := hk <;>
    exact ⟨⟨by decide +kernel, rfl, by decide⟩, by decide, _, _, rfl⟩
/-- A request of a command sent on a port. -/
def sentOn (w : Bool) : RemoteFlight :=
  { tag := 8, tile := 0, id := 3, n := 0, ctx := 5, window := 3, port := 3, addr := 0x20000, isWrite := w, wid := 9 }
/-- The machine with it and the command it serves. -/
def outstanding (w : Bool) (c : Cmd) : State :=
  { (linked.modTile 0 (fun u => { u with cmds := [(3, c)] })).modPkg (fun p => { p with flights := [sentOn w] }) with flying := [9] }
/-- A port with a flit to send. -/
def sending1 : State := linked.modPort 3 (fun p => { p with rr := 1, lanes := [(2, [{ ctx := none, lane := 2, dst := 77, packet := .response { tag := 8, accepted := true, data := [] } }])] })
theorem test_refused_write_is_a_failed_store : (((after (exec (.remoteResponse ⟨3, Config.pkgid.toNat, 2, { tag := 8, accepted := false, data := [] }⟩) (outstanding true { store3 (patAt 0x20000 0 0 1) none with writes := [(9, 3)] }))).strand 0 0).fail.refused) = true := by
  simp only [exec, execRemoteResponse, State.respArrives, engine, ne_eq, not_true_eq_false, ↓reduceIte]; decide +kernel
theorem test_refused_read_stops : ((after (exec (.remoteResponse ⟨3, Config.pkgid.toNat, 2, { tag := 8, accepted := false, data := [] }⟩) (outstanding false { waiting3 with flight := [{ n := 0, req := 8 }] }))).tile 0).cmds.map (fun c => c.2.fault) = [some 19] := by
  simp only [exec, execRemoteResponse, State.respArrives, engine, ne_eq, not_true_eq_false, ↓reduceIte]; decide +kernel
theorem witness_FlitsResponsesAndDeadPorts : linked.unit (portUnit 3) = .ready ∧ (linked.linkPort 3).replies = []
    ∧ (sending1.linkPort 3).replies = [] ∧ (sending1.linkPort 3).lanes.get [] 2 ≠ []
    ∧ (Outstanding (outstanding true { store3 (patAt 0x20000 0 0 1) none with writes := [(9, 3)] }) (sentOn true) { store3 (patAt 0x20000 0 0 1) none with writes := [(9, 3)] }
      ∧ (((outstanding true { store3 (patAt 0x20000 0 0 1) none with writes := [(9, 3)] }).tile 0).strand 0).runsPart 0 = true)
    ∧ (Outstanding (outstanding false { waiting3 with flight := [{ n := 0, req := 8 }] }) (sentOn false) { waiting3 with flight := [{ n := 0, req := 8 }] })
    ∧ ((∀ p ∈ ((outstanding false waiting3).linkPort 3).lanes, p.2 = []) ∧ (outstanding false waiting3).unit (portUnit 3) = .ready
      ∧ (∀ p ∈ (outstanding false waiting3).formedParts, portUnit 3 ∉ p.2.units) ∧ waiting3.fault = none
      ∧ ∀ d ∈ (outstanding false waiting3).dies, ∀ q ∈ d.2.nodes, q.2 = [])
    ∧ m0.unit (portUnit 3) ≠ .ready ∧ Config.pkgid.toNat + 1 ≠ Config.pkgid.toNat ∧ (∀ f ∈ m0.pkg.flights, f.tag ≠ 8)
    ∧ (({ waiting3 with flight := [{ n := 0, req := 8 }] } : Cmd).wants 8 = true ∧ ((outstanding false waiting3).ctx 5).state = .running
      ∧ ((outstanding false waiting3).ctx 5).stopped = false) := by
  refine ⟨by decide +kernel, by decide, by decide, by decide, ⟨?_, by decide⟩, ?_, ⟨by decide, by decide +kernel, by decide, by decide, by decide⟩, by decide, by simp, by decide, by decide⟩ <;>
    (unfold Outstanding; decide +kernel)
/-- The same with a page that leads to a window of another package, or with no translation at hand. -/
def linkedTo (l : List TlbEntry) : State := { linked with dies := [(0, { tlb := [(0, l)] })] }
theorem test_window_behind_a_window_is_refused : ((after (exec (.remoteIngress 3 (remote (.read 8))) (linkedTo [{ leafHbm with leaf := 0x0008000000200038 }]))).linkPort
    3).replies.map (fun p => p.2.packet) = [.response { tag := 8, accepted := false, data := [] }] := by
  simp only [exec, execRemoteIngress, engine, remote, ne_eq, not_true_eq_false, ↓reduceIte]; decide +kernel
theorem witness_RemoteRequestsAreServed_more :
    (Arrives (linkedTo [{ leafHbm with leaf := 0x0008000000200038 }]) 3 (remote (.read 8))
      ∧ (linkedTo [{ leafHbm with leaf := 0x0008000000200038 }]).admits 5 (remote (.read 8)) = true
      ∧ ∃ s1 pa rep, (arrived (linkedTo [{ leafHbm with leaf := 0x0008000000200038 }]) 3 (remote (.read 8))).translate (.ingress 3) 5 0x20000 .read false false
        = .ok s1 pa rep ∧ 8 ≤ pa / 2 ^ 48 % 16)
    ∧ (Arrives (linkedTo []) 3 (remote (.read 8)) ∧ (linkedTo []).admits 5 (remote (.read 8)) = true
      ∧ ∃ s1, (arrived (linkedTo []) 3 (remote (.read 8))).translate (.ingress 3) 5 0x20000 .read false false = .wait s1)
    ∧ sameWay (remote (.read 8)) { remote (.read 8) with srcCtx := 7 } = false :=
  ⟨⟨⟨by decide +kernel, rfl, by decide⟩, by decide, _, _, _, rfl, by decide⟩, ⟨⟨by decide +kernel, rfl, by decide⟩, by decide, _, rfl⟩, by decide +kernel⟩
/-- R374: a request of another context goes past one that waits. -/
theorem witness_RemoteRequestsAreServed_past : ∃ s1 s2, (arrived ((linkedTo []).modPort 3 (fun p => { p with inbox := [remote (.read 8)] })) 3
      { remote (.read 8) with srcCtx := 7 }).ingressOne 3 (remote (.read 8)) = (none, s1)
    ∧ (s1.ingressOne 3 { remote (.read 8) with srcCtx := 7 }).1 = some s2 := ⟨_, _, rfl, rfl⟩
theorem witness_FlitsResponsesAndDeadPorts_more : (∃ g ∈ ({ waiting3 with flight := [{ n := 0, req := 8 }] } : Cmd).flight, g.n = (sentOn false).n)
    ∧ NoHostJobs linked ∧ NoHostJobs (outstanding false waiting3)
    ∧ ((linked.modPort 3 (fun p => { p with replies := [([], { ctx := none, lane := 2, dst := 77, packet := .response { tag := 8, accepted := true, data := [] } })] })).linkPort
      3).replies ≠ [] := by
  unfold NoHostJobs; decide +kernel
/-- R375: a loss farther on ends the read's command with DEADLINK. -/
theorem test_lost_read_stops : ((after (exec (.remoteResponse ⟨3, Config.pkgid.toNat, 2, { tag := 8, accepted := false, data := [], lost := true }⟩)
    (outstanding false { waiting3 with flight := [{ n := 0, req := 8 }] }))).tile 0).cmds.map (fun c => c.2.fault) = [some 20] := by
  simp only [exec, execRemoteResponse, State.respArrives, engine, ne_eq, not_true_eq_false, ↓reduceIte]; decide +kernel

/-! ## The fabric of a tile -/

/-- An element word (R175): OPER, SFMT = DFMT, SEL0, SEL1, SEL2, DREG, OUT, K. -/
def elemWord (oper fmt sel0 sel1 sel2 dreg out k : Nat) : BitVec 128 :=
  BitVec.ofNat 128 (oper * 2 ^ 118 + fmt * 2 ^ 114 + fmt * 2 ^ 110 + sel0 * 2 ^ 105 + sel1 * 2 ^ 100 + sel2 * 2 ^ 95 + dreg * 2 ^ 91 + out * 2 ^ 88
    + 2 ^ 81 + k)
/-- A cell of one group that takes port 0 and drives output 0, with one element. -/
def oneCell (e : BitVec 128) : CellImage := { groups := [{ first := 0, count := 1, imask := 1, omask := 1, present := true }], elems := [e] }
/-- A DATA token whose lanes hold a value, all or some valid. -/
def laneTok (v : Lane) (mask : BitVec 16) : Token := { lanes := List.replicate 16 v, mask }
/-- The firing of that group in progress. -/
def firing1 (k : Token) : Held := { group := 0, elem := 0, frame := 0, ins := [(0, k)], bypass := [], start := 0 }
/-- The machine in a round of cell 0, whose route leads to stream port 0. -/
def inRound (e : BitVec 128) (f : Tile → Tile) : State :=
  m0.modTile 0 (fun u => f { u with image := some { cells := [(0, oneCell e)], routes := [{ src := 0x40, dst := 0x60 }] }, fstat := { run := true } })
/-- A round whose cell adds 5 to each lane of 32 bits, the element due. -/
def adding (k : Token) : State := inRound (elemWord 0x080 10 0 16 17 2 1 5) (fun u => u.modCell 0 (fun c => { c with held := some (firing1 k) }))
/-- A round whose cell loads a line of cell memory, the element due. -/
def loading (l : AMap Cmd) : State := inRound (elemWord 0x1C0 0 0 17 17 2 1 8) (fun u =>
  { u.modCell 0 (fun c => { c with held := some (firing1 (laneTok 4 1)) }) with sram := [(12, 0x34), (13, 0x12)], cmds := l })
theorem test_add_lanes : (((after (exec (.groupFiring 0 0) (adding (laneTok 0xFFFFFFFE 0x3)))).tile 0).arc 0x60).map (fun k => (k.lanes.take 3, k.mask))
    = some ([3, 3, 0], 3) := by decide +kernel
theorem test_load_line : ((((after (exec (.elementWatermarkResume 0 0) (loading []))).tile 0).cell 0).v.get {} 2).lanes.take 2 = [0x1234, 0] := by decide +kernel
/-- A store to the line that is under way. -/
def filling : Cmd := { cmd3 with kind := .ssa, pat := patAt 0 0 1 0 }
/-- A round whose cell has a token at its port and a free arc. -/
def startable (l : AMap Nat) : State := inRound (elemWord 0x080 10 0 16 17 2 1 5) (fun u => { u.modCell 0 (fun c => { c with refusals := l }) with arcs := [(0, laneTok 1 1)] })
/-- What its group needs. -/
def need1 : Need := { ports := [0], arcs := [0x60] }
theorem witness_CellsFireTheirGroups :
    (((startable []).tile 0).fstat.run = true ∧ ((startable []).tile 0).stopping = false ∧ (startable []).firings 0 ((startable []).fcOf 0) = [(0, 0, need1)]
      ∧ AMap.get [] ((startable []).ready 0 ((startable []).fcOf 0)) 0 = [(0, need1)] ∧ (startable []).cands 0 ((startable []).fcOf 0) = [(0, [(0, need1)])]
      ∧ (∀ x ∈ [(0, need1)], ∀ a ∈ x.2.arcs, ((startable []).tile 0).arcFull a = false)
      ∧ ([(0, need1)].map (fun m => m.1)).Nodup
      ∧ ([(0, need1)].find? (fun m => decide (8 ≤ (((startable []).tile 0).cell 0).refusals.get 0 m.1))).or [(0, need1)].head? = some (0, need1)
      ∧ (((startable []).tile 0).cell 1).held = none)
    ∧ (Due (adding (laneTok 1 3)) 0 0 (oneCell (elemWord 0x080 10 0 16 17 2 1 5)) (firing1 (laneTok 1 3)) (elemWord 0x080 10 0 16 17 2 1 5)
      ∧ Elem.sfmt (elemWord 0x080 10 0 16 17 2 1 5) = 10
      ∧ (operandOf (adding (laneTok 1 3)) 0 0 (firing1 (laneTok 1 3)) (elemWord 0x080 10 0 16 17 2 1 5) 0).kind = .data
      ∧ (operandOf (adding (laneTok 1 3)) 0 0 (firing1 (laneTok 1 3)) (elemWord 0x080 10 0 16 17 2 1 5) 1).kind = .data)
    ∧ (∀ l ∈ [[], [(3, filling)]], Due (loading l) 0 0 (oneCell (elemWord 0x1C0 0 0 17 17 2 1 8)) (firing1 (laneTok 4 1)) (elemWord 0x1C0 0 0 17 17 2 1 8)
      ∧ Elem.oper (elemWord 0x1C0 0 0 17 17 2 1 8) = 0x1C0 ∧ ((loading l).tile 0).sramBad = [] ∧ ((loading l).ctx ((loading l).tile 0).ctx).pendTrap = false
      ∧ (operandOf (loading l) 0 0 (firing1 (laneTok 4 1)) (elemWord 0x1C0 0 0 17 17 2 1 8) 0).kind = .data
      ∧ (operandOf (loading l) 0 0 (firing1 (laneTok 4 1)) (elemWord 0x1C0 0 0 17 17 2 1 8) 0).ok 0 = true)
    ∧ (loading [(3, filling)]).fillHolds 0 12 = true ∧ ∀ a ∈ List.range 72, (loading []).fillHolds 0 a = false := by
  refine ⟨by decide +kernel, ?_, ?_, by decide +kernel, by decide +kernel⟩ <;> (unfold Due; decide +kernel)
theorem witness_IntegerElementOperators : ∀ a b, laneOf32 (Elem.oper (elemWord 0x080 10 0 16 17 2 1 5)) a b = some ((a + b) % 2 ^ 32) := by
  intro a b
  have h : Elem.oper (elemWord 0x080 10 0 16 17 2 1 5) = 0x080 := by decide +kernel
  rw [h]; rfl

/-- An element word (R175) with its selects, formats, MODE, AUX and K: DREG 2, OUT 0 or 1. -/
def elemOf (oper sfmt dfmt sel0 sel1 sel2 out mode aux k : Nat) : BitVec 128 :=
  BitVec.ofNat 128 (oper * 2 ^ 118 + sfmt * 2 ^ 114 + dfmt * 2 ^ 110 + sel0 * 2 ^ 105 + sel1 * 2 ^ 100 + sel2 * 2 ^ 95 + 2 * 2 ^ 91 + out * 2 ^ 88
    + mode * 2 ^ 84 + 2 ^ 81 + aux * 2 ^ 64 + k)
/-- A cell of one group that takes ports 0 and 1 and drives output 0, with one element. -/
def cellOf (e : BitVec 128) : CellImage := { groups := [{ first := 0, count := 1, imask := 3, omask := 1, present := true }], elems := [e] }
/-- The firing of that group in progress, its two tokens. -/
def firing2 (a b : Token) : Held := { group := 0, elem := 0, frame := 0, ins := [(0, a), (1, b)], bypass := [], start := 0 }
/-- The machine in a round of cell c, whose element is due on two tokens; its route leads to stream port 0. -/
def dueAt (c : Nat) (e : BitVec 128) (a b : Token) (f : Tile → Tile) : State :=
  m0.modTile 0 (fun u => f { u.modCell c (fun x => { x with held := some (firing2 a b) }) with
    image := some { cells := [(c, cellOf e)], routes := [{ src := 0x40 + 2 * c, dst := 0x60 }] }, fstat := { run := true } })
/-- A token of a pair, key and value. -/
def pairTok (k v : Lane) : Token := { lanes := k :: v :: List.replicate 14 0, mask := 3 }
/-- The machine after an element of cell c, and the token on the arc from it. -/
def fired (c : Nat) (s : State) : State × Option (List Lane × BitVec 16) :=
  let t := after (exec (.groupFiring 0 c) s)
  (t, ((t.tile 0).arc 0x60).map (fun k => (k.lanes.take 2, k.mask)))
/-- R239: 1.0 + 2.0 = 3.0 and 1.0 + (1 + 2^-23) raises NX, the last lane not valid. -/
theorem test_add_f32 : (fired 0 (dueAt 0 (elemOf 0x001 1 1 0 1 17 1 0 0 0) { lanes := 0x3F800000 :: List.replicate 15 0x3F800001, mask := 0xFFFF }
      { lanes := 0x40000000 :: List.replicate 15 0x3F800000, mask := 0x7FFF } id)).2 = some ([0x40400000, 0x40000000], 0x7FFF)
    ∧ (((fired 0 (dueAt 0 (elemOf 0x001 1 1 0 1 17 1 0 0 0) (laneTok 0x3F800001 1) (laneTok 0x3F800000 1) id)).1.tile 0).cell 0).flags = 1 := by
  decide +kernel
/-- R254: fifteen valid lanes of 2. -/
theorem test_lane_sum : (fired 0 (dueAt 0 (elemOf 0x140 13 13 0 17 17 1 0 0 0) (laneTok 2 0x7FFF) (laneTok 0 0) id)).2 = some ([30, 0], 1) := by
  decide +kernel
/-- R277: equal keys meet, their values added under MODE 0. -/
theorem test_merge_union : (fired 14 (dueAt 14 (elemOf 0x240 13 13 0 1 17 1 0 0 0) (pairTok 3 4) (pairTok 3 4) (fun u =>
    { u with merge := { u.merge with groups := [(0, { fifoB := [(3, 5)] })] } }))).2 = some ([3, 9], 3) := by decide +kernel
/-- R273: a column's sum of 2 in row 0 and -1 in row 2 against weights 5 and -3, both in i8. -/
theorem test_matrix_column : beatColumn { active := [(0, 5), (128, 253)], pfActive := 8 } 8 0
    [.fin false 2 0, .fin false 0 0, .fin true 1 0] [] 0 = (13, .none) := by decide +kernel
/-- R282: entry 3 + 7 of the table. -/
theorem test_table_lookup : (fired 15 (dueAt 15 (elemOf 0x280 13 13 0 17 17 1 0 0 7) (laneTok 3 1) (laneTok 0 0) (fun u => { u with tableT := [(10, 99)] }))).2
    = some ([99, 0], 1) := by decide +kernel
/-- An element due on two DATA tokens, with its formats and the operands' kinds. -/
def DueOn (c : Nat) (e : BitVec 128) (a b : Token) (f : Tile → Tile) : Prop :=
  Due (dueAt c e a b f) 0 c (cellOf e) (firing2 a b) e ∧ ∀ i, i < 3 → (operandOf (dueAt c e a b f) 0 c (firing2 a b) e i).kind = .data
theorem witness_ElementsComputeTheirResults_lanes :
    DueOn 0 (elemOf 0x001 1 1 0 1 17 1 0 0 0) (laneTok 1 3) (laneTok 2 7) id ∧ DueOn 0 (elemOf 0x140 13 13 0 17 17 1 0 0 0) (laneTok 1 3) (laneTok 2 7) id
    ∧ (∀ o ∈ [0x144, 0x145, 0x146, 0x147], DueOn 0 (elemOf o 10 10 0 1 18 1 0 0 0) (laneTok 1 3) (laneTok 2 7) id)
    ∧ Elem.dfmt (elemOf 0x001 1 1 0 1 17 1 0 0 0) = 1 ∧ Elem.sat (elemOf 0x001 1 1 0 1 17 1 0 0 0) = false ∧ Elem.sfmt (elemOf 0x140 13 13 0 17 17 1 0 0 0) = 13 := by
  unfold DueOn Due; decide +kernel
theorem witness_ElementsComputeTheirResults_f32 : ∀ a b, laneOfF32 (Elem.oper (elemOf 0x001 1 1 0 1 17 1 0 0 0))
    (RMode.ofCode (Elem.mode (elemOf 0x001 1 1 0 1 17 1 0 0 0))) a b = some (fadd32 a b (RMode.ofCode 0)) := by
  intro a b
  have h : Elem.oper (elemOf 0x001 1 1 0 1 17 1 0 0 0) = 0x001 ∧ Elem.mode (elemOf 0x001 1 1 0 1 17 1 0 0 0) = 0 := by decide +kernel
  rw [h.1, h.2]; rfl
theorem witness_ElementsComputeTheirResults_moves : ∀ o ∈ [0x144, 0x145, 0x146, 0x147], ∀ k, k < 16 →
    (laneMove (elemOf o 10 10 0 1 18 1 0 0 0) (laneTok 1 3).opnd (laneTok 2 7).opnd {} k).isSome = true := by decide +kernel
/-- The weights of a matrix cell in i8. -/
def weighed (u : Tile) : Tile := u.modMx 12 (fun m => { m with pfActive := 8 })
/-- A merge cell whose group 0 is m. -/
def merging (m : MergeGroup) (u : Tile) : Tile := { u with merge := { u.merge with groups := [(0, m)] } }
theorem witness_ElementsComputeTheirResults_matrix : ((weighed tile0).mx 12).pfActive = 8 ∧ ((weighed tile0).mx 12).poisonActive = false
    ∧ ((weighed tile0).mx 12).badActive = [] ∧ ((weighed tile0).mx 12).rowPoison.getLsbD 0 = false := by decide +kernel
theorem witness_ElementsComputeTheirResults_matrix_due : DueOn 12 (elemOf 0x200 8 0 0 1 17 0 0 0 0) (laneTok 1 3) (laneTok 2 7) weighed
    ∧ DueOn 12 (elemOf 0x201 0 0 17 17 17 0 0 0 0) (laneTok 1 3) (laneTok 2 7) weighed
    ∧ DueOn 12 (elemOf 0x202 8 13 0 1 17 0 0 1 0) (laneTok 1 3) (laneTok 2 7) weighed
    ∧ DueOn 12 (elemOf 0x203 0 13 17 17 17 1 0 1 0) (laneTok 1 3) (laneTok 2 7) weighed
    ∧ DueOn 12 (elemOf 0x204 0 0 17 17 17 0 0 0 0) (laneTok 1 3) (laneTok 2 7) weighed := by
  unfold DueOn Due; decide +kernel
theorem witness_ElementsComputeTheirResults_merge : ∀ o ∈ [0x240, 0x241],
    ∀ m ∈ [({ endB := true } : MergeGroup), { fifoB := [(2, 5)] }, { fifoB := [(3, 5)] }, { fifoB := [(4, 5)] }],
    DueOn 14 (elemOf o 13 13 0 1 17 1 0 0 0) (pairTok 3 4) (pairTok 3 4) (merging m)
      ∧ ((dueAt 14 (elemOf o 13 13 0 1 17 1 0 0 0) (pairTok 3 4) (pairTok 3 4) (merging m)).tile 0).mg 0 = m ∧ m.endA = false ∧ m.fifoA = [] := by
  unfold DueOn Due; decide +kernel
theorem witness_ElementsComputeTheirResults_island : (firing2 (pairTok 3 4) (pairTok 3 4)).ins.head? = some (0, pairTok 3 4)
    ∧ pairsOf (pairTok 3 4).opnd = [(3, 4)]
    ∧ DueOn 15 (elemOf 0x280 13 13 0 17 17 1 0 0 7) (laneTok 3 1) (laneTok 0 0) id
    ∧ DueOn 15 (elemOf 0x283 13 13 0 1 17 0 0 0 7) (laneTok 3 1) (laneTok 0 1) id
    ∧ (operandOf (dueAt 15 (elemOf 0x283 13 13 0 1 17 0 0 0 7) (laneTok 3 1) (laneTok 0 1) id) 0 15 (firing2 (laneTok 3 1) (laneTok 0 1))
        (elemOf 0x283 13 13 0 1 17 0 0 0 7) 1).ok 0 = true ∧ Elem.aux (elemOf 0x283 13 13 0 1 17 0 0 0 7) % 2 = 0 := by
  unfold DueOn Due; decide +kernel

/-- The machine whose round has seen EOS at its only end, a token left on an arc and a flag raised. -/
def finished : State := inRound (elemWord 0x080 10 0 16 17 2 1 5) (fun u =>
  { u.modCell 0 (fun c => { c with flags := 5 }) with eosIn := [0x60], arcs := [(0x60, laneTok 1 1), (0x85, laneTok 1 1)] })
/-- The machine whose round waits for ever on its stream port, which nothing drains. -/
def stuck : State := (inRound (elemWord 0x080 10 0 16 17 2 1 5) (fun u => { u with arcs := [(0x60, laneTok 1 1)] })).modMe (fun st => { st with state := .yielded })
theorem test_round_ends : ((after (exec (.roundComplete 0) finished)).tile 0).fstat = { cmpl := true, disc := 1 }
    ∧ ((after (exec (.roundComplete 0) finished)).strand 0 0).fflags = 5 := by decide +kernel
theorem test_deadlock_word : (((after (exec (.roundDeadlock 0) stuck)).strand 0 0).pending.map (fun x => x.code)) = [0x20]
    ∧ ((after (exec (.roundDeadlock 0) stuck)).tile 0).fstat.pblk = 1 := by decide +kernel
/-- The bytes of an image of cell 0 with the adding group and its route (R172 to R178). -/
def imageBytes : List Byte :=
  leBytes 2 1 ++ leBytes 2 1 ++ [1, 0, 0, 0] ++ leBytes 8 (imageSize 1 1 0) ++ List.replicate 48 0
    ++ leBytes 4 0x28820 ++ List.replicate 12 0 ++ [1] ++ List.replicate 15 0 ++ leBytes 16 (elemWord 0x080 10 0 16 17 2 1 5).toNat ++ List.replicate 496 0
    ++ [0x40, 0x60, 0, 0, 0, 0, 0, 0]
/-- Memory with bytes from 0x200000 on. -/
def memOf (l : List Byte) : List Host.Cell := ((List.range l.length).zip l).filterMap (fun p => if p.2 = 0 then none else some (0x200000 + p.1, p.2))
/-- The machine that loads the image there. -/
def loadingImage (l : List Byte) : State := { m0.modTile 0 (fun u => { u with load := some { va := 0x20000, strand := some 0 } }) with mem := memOf l }
/-- Is a read of an image one that passes its checks, or one refused with a code and position? -/
def passes : ImageRead → Option (Option (Nat × Nat))
  | .got _ (.ok _) => some none
  | .got _ (.refused c p) => some (some (c, p))
  | _ => none
theorem got_of_refused {r : ImageRead} {c p : Nat} (h : passes r = some (some (c, p))) : ∃ s, r = .got s (.refused c p) := by
  match r, h with
  | .got s (.refused _ _), rfl => exact ⟨s, rfl⟩
/-- That image. -/
def image0 : Image :=
  { cells := [(0, { groups := [{ first := 0, count := 1, imask := 1, omask := 1, present := true }, {}, {}, {}], elems := [elemWord 0x080 10 0 16 17 2 1 5] })],
    routes := [{ src := 0x40, dst := 0x60 }], inits := [] }
theorem image_checked : checkImage imageBytes = .ok image0 := by
  have h : (match checkImage imageBytes with | .ok im => im == image0 | _ => false) = true := by decide +kernel
  split at h
  · next im hm => rw [hm, eq_of_beq h]
  · cases h
/-- Does a read give these bytes, on a tile with no image, whose cells may take that image as the flag says? -/
def readsImage (r : VaRead) (l : List Byte) (b : Bool) : Bool :=
  match r with
  | .ok s d => d == l && (s.tile 0).canConfigure image0 == b && (s.tile 0).image.isNone
  | _ => false
theorem got_image {s : State} {b : Bool} (h1 : readsImage (s.readVa (.loader 0) (s.tile 0).ctx 0 0x20000 64 (s.super 0)) (imageBytes.take 64) b = true)
    (h2 : readsImage (s.readVa (.loader 0) (s.tile 0).ctx 0 0x20000 (imgNat (imageBytes.take 64) 8 8) (s.super 0)) imageBytes b = true) :
    ∃ s1, s.readImage 0 0x20000 = .got s1 (.ok image0) ∧ (s1.tile 0).canConfigure image0 = b ∧ (s1.tile 0).image = none := by
  have hf : headerFail (imageBytes.take 64) = none := by decide +kernel
  unfold readsImage at h1 h2
  split at h1
  · next s1 d1 e1 =>
    split at h2
    · next s2 d2 e2 =>
      simp only [Bool.and_eq_true, beq_iff_eq, Option.isNone_iff_eq_none] at h1 h2
      obtain ⟨⟨rfl, -⟩, -⟩ := h1
      obtain ⟨⟨rfl, h3⟩, h4⟩ := h2
      exact ⟨s2, by simp only [State.readImage, e1, hf, e2, image_checked], h3, h4⟩
    · cases h2
  · cases h1
theorem free_reads : ∃ s1, (loadingImage imageBytes).readImage 0 0x20000 = .got s1 (.ok image0) ∧ (s1.tile 0).canConfigure image0 = true
    ∧ (s1.tile 0).image = none := got_image (by decide +kernel) (by decide +kernel)
/-- The same machine with a token on the arc into port 0 of cell 0. -/
def loadingBusy : State := (loadingImage imageBytes).modTile 0 (fun u => { u with arcs := [(0, laneTok 1 1)] })
theorem busy_reads : ∃ s1, loadingBusy.readImage 0 0x20000 = .got s1 (.ok image0) ∧ (s1.tile 0).canConfigure image0 = false
    ∧ (s1.tile 0).image = none := got_image (by decide +kernel) (by decide +kernel)
theorem image_waits {s s1 : State} {im : Image} (hl : (s.tile 0).load = some { va := 0x20000, strand := some 0 })
    (hr : ((s.tile 0).fstat.run || (s.tile 0).stopping) = false) (e : s.readImage 0 0x20000 = .got s1 (.ok im))
    (hc : (s1.tile 0).canConfigure im = false) (hi : (s1.tile 0).image = none) : ∃ t, exec (.fabricImageLoad 0) s = .next t
    ∧ (t.tile 0).image = none ∧ (t.tile 0).load = some { va := 0x20000, strand := some 0, next := some im } := by
  refine ⟨_, rfl, ?_⟩
  simp [execFabricImageLoadState, hl, hr, e, hc, hi]
/-- R226: a cell is configured once no token stands on the arcs into it. -/
theorem test_image_waits_for_its_arcs : ∃ t, exec (.fabricImageLoad 0) loadingBusy = .next t ∧ (t.tile 0).image = none
    ∧ (t.tile 0).load = some { va := 0x20000, strand := some 0, next := some image0 } :=
  busy_reads.elim fun _ h => image_waits (by decide +kernel) (by decide +kernel) h.1 h.2.1 h.2.2
theorem witness_RoundsEndAndImagesLoad : finished.roundDone 0 = true ∧ m0.roundDone 0 = false ∧ m0.roundStuck 0 = false
    ∧ (stuck.roundStuck 0 = true ∧ (stuck.strand 0 (stuck.tile 0).fstat.rstr).state ≠ .idle
      ∧ ∀ x ∈ (stuck.strand 0 (stuck.tile 0).fstat.rstr).pending, x.code ≠ 0x20)
    ∧ (∀ l ∈ [imageBytes, []], ((loadingImage l).tile 0).load = some { va := 0x20000, strand := some 0 }
      ∧ ((loadingImage l).tile 0).fstat.run = false ∧ ((loadingImage l).tile 0).stopping = false)
    ∧ (∃ s1 im, (loadingImage imageBytes).readImage 0 0x20000 = .got s1 (.ok im) ∧ (s1.tile 0).canConfigure im = true)
    ∧ (∃ s1 im, loadingBusy.readImage 0 0x20000 = .got s1 (.ok im) ∧ (s1.tile 0).canConfigure im = false)
    ∧ (let s := m0.modTile 0 (fun u => { u with load := some { va := 0x20000, strand := some 0, next := some {} } })
      (s.tile 0).load = some { va := 0x20000, strand := some 0, next := some {} } ∧ (s.tile 0).canConfigure {} = true ∧ (s.tile 0).fstat.run = false)
    ∧ ∃ s1, (loadingImage []).readImage 0 0x20000 = .got s1 (.refused 1 0) :=
  ⟨by decide +kernel, by decide, by decide, by decide +kernel, by decide +kernel, free_reads.elim fun s1 h => ⟨s1, _, h.1, h.2.1⟩, busy_reads.elim fun s1 h => ⟨s1, _, h.1, h.2.1⟩,
    by decide +kernel, got_of_refused (by decide +kernel)⟩
/-- The machine with an EOS on the arc into register 2, whose binding holds nothing. -/
def eosAtRegister : State := m0.modTile 0 (fun u => { u with arcs := [(regEnd 2, { kind := .eos })], fstat := { run := true }, strands := [(0, { state := .run, s := [(2, { target := .fabric })] })] })
/-- An image whose load faults, one whose addresses lie on no page. -/
def loadingNowhere : State := m0.modTile 0 (fun u => { u with load := some { va := 0x0100000000000000, strand := some 0 } })
theorem test_image_fault_status : ((after (exec (.fabricImageLoad 0) loadingNowhere)).strand 0 0).fcfg = some 3 := by decide +kernel
theorem witness_RoundsEndAndImagesLoad_more : (eosAtRegister.tile 0).eosAtHead (eosAtRegister.fcOf 0) 2 = some { kind := .eos }
    ∧ (finished.acceptEnds 0).roundDone 0 = true ∧ (m0.acceptEnds 0).roundDone 0 = false ∧ (m0.acceptEnds 0).roundStuck 0 = false
    ∧ (stuck.acceptEnds 0).roundStuck 0 = true
    ∧ ∃ s1 code a, loadingNowhere.readImage 0 0x0100000000000000 = .fault s1 code a ∧ code ≠ 0x40 :=
  ⟨by decide +kernel, by decide +kernel, by decide, by decide, by decide +kernel, _, _, _, rfl, by decide⟩

/-! ## Host commands -/

/-- The key of an endpoint. -/
def keyOf (ep : Nat) : List Byte := List.replicate 32 (if ep = 0 then 0 else 1)
/-- A message of a type on an endpoint, with its tag under that endpoint's key. -/
def msg (ty ep : Nat) (payload : List Byte) : Lmsg := { ty, ep, rid := 21, seq := 1, payload, tag := lanternTag (keyOf ep) ty ep 1 21 false payload }
/-- The machine with every unit ready, and keys on endpoints 0 and 5; what is changed. -/
def hosted (f : State → State) : State :=
  let units := (List.range 222).map (fun u => (u, UnitState.ready))
  let endpoints : AMap Endpoint := [(0, { key := some (keyOf 0) }), (5, { key := some (keyOf 5) })]
  f (m0.modPkg (fun p => { p with units, endpoints }))
/-- The machine with its pipelines gone. -/
def noPipes (x : CtxState) : State := hosted (fun s => s.modCtx 5 (fun c => { c with pipes := [], state := x }))
/-- The machine with a context under destruction for each outstanding command. -/
def busy : State := hosted (fun s => { s with ctxs := s.ctxs ++ (List.range 256).map (fun i => (6 + i, { destroying := some i })) })
/-- A payload of n bytes. -/
def pay (l : List Byte) (n : Nat) : List Byte := l ++ List.replicate (n - l.length) 0

theorem test_keyset_answers : ((after (exec (.keyset (msg 0x0005 0 (pay [7] 40))) (hosted id))).pkg.endpoints.get {} 7).key = some (List.replicate 32 0)
    ∧ ((after (exec (.keyset (msg 0x0005 0 (pay [7] 40))) (hosted id))).pkg.sent.map (fun m => (m.ep, m.ty, m.rid, m.body))) = [(0, 0x8005, 21, List.replicate 8 0)] := by
  decide +kernel
theorem test_partform_range : ((after (exec (.partform (msg 0x0001 0 (pay [1, 0, 2, 0, 2] 32))) (hosted id))).part 1).base = 0 := by decide +kernel
/-- FIPS 197, appendix C.3: AES-256 of one block. -/
theorem test_aes_block : aesBlock (aesKeys (List.range 32)) ((List.range 16).map (fun i => 17 * i)) = natBytes 16 0x8EA2B7CA516745BFEAFC49904B496089 := by
  decide +kernel
/-- The published test case 14 of GCM: 16 zero bytes under a zero key and nonce. -/
theorem test_gcm : gcmText (List.replicate 32 0) (List.replicate 12 0) (List.replicate 16 0) = natBytes 16 0xCEA7403D4D606B6E074EC5D3BAF39D18
    ∧ gcmTag (List.replicate 32 0) (List.replicate 12 0) [] (natBytes 16 0xCEA7403D4D606B6E074EC5D3BAF39D18) = natBytes 16 0xD0D1C8A799996BF0265B98B5D48AB919 := by
  decide +kernel
/-- R81: the nonce of endpoint 288's message 2 to the host; and a message with a byte of its tag changed is dropped and counted. -/
theorem test_nonce_and_tag : lanternNonce 288 2 true = [1, 32, 128, 0, 0, 0, 0, 0, 0, 0, 0, 2]
    ∧ (let m := msg 0x0009 0 []
       (after (exec (.mapread { m with tag := (m.tag.headD 0 ^^^ 1) :: m.tag.drop 1 }) (hosted id))).pkg.endpoints.get {} 0).drops = 1 := by decide +kernel
/-- R81: a message to the host, read back from its datagram with the key and the nonce. -/
theorem test_sent_datagram : (let x : Msg := { ep := 5, ty := 0x8105, rid := 21, seq := 1, body := [1, 2, 3], key := keyOf 5 }
    (x.datagram.wellFormed, lanternText (keyOf 5) 5 1 true x.datagram.payload)) = (true, [1, 2, 3]) := by decide +kernel
/-- R84, R31: a PARTFORM on the wrong endpoint is refused NOTMGMT, its fields given all the same. -/
theorem test_refused_partform_has_its_fields : ((after (exec (.partform (msg 0x0001 5 [])) (hosted id))).pkg.sent.map (fun m => m.body))
    = [leBytes 4 2 ++ leBytes 4 0 ++ leBytes 4 0 ++ leBytes 2 0xFFFF] := by decide +kernel
/-- R104: what has reached the home unit is applied ahead of an ALLOW that comes after it. -/
theorem test_allow_comes_behind_arrivals : ((after (exec (.allow (msg 0x0006 0 (pay [5, 0] 16))) (hosted (fun s =>
    s.modDie 0 (fun d => { d with arrivals := [(5, -(2 * oneNJ : Nat))] }))))).ctx 5).balance = -(oneNJ : Int) := by decide +kernel
theorem test_statread_on_management : ((after (exec (.statread (msg 0x0105 0 [])) (hosted id))).pkg.sent.map (fun m => m.body.take 1)) = [[3]] := by decide +kernel
/-- A message sealed under its endpoint's key is admitted where the rest of R81's conditions hold. -/
theorem admits_msg {s : State} {ty ep : Nat} {p : List Byte} (h : (s.pkg.endpoints.get {} ep).key = some (keyOf ep) ∧ ep ≤ 288 ∧ p.length ≤ 8896
    ∧ ((s.pkg.endpoints.get {} ep).highest : Int) - 64 < 1 ∧ 1 ∉ (s.pkg.endpoints.get {} ep).accepted) : Admits s (msg ty ep p) := by
  obtain ⟨hk, h1, h2, h3, h4⟩ := h
  refine ⟨h1, h2, ?_, h3, h4⟩
  simp only [msg, hk, Option.any_some, beq_self_eq_true]
theorem accepted_msg {s : State} {ty ep : Nat} {p : List Byte} (h : ((s.pkg.endpoints.get {} ep).key = some (keyOf ep) ∧ ep ≤ 288 ∧ p.length ≤ 8896
    ∧ ((s.pkg.endpoints.get {} ep).highest : Int) - 64 < 1 ∧ 1 ∉ (s.pkg.endpoints.get {} ep).accepted) ∧ s.outstanding ep < 256) :
    Accepted s (msg ty ep p) := ⟨admits_msg h.1, h.2⟩
theorem witness_CommandsAreAdmittedOrRefused : (∃ ty b, commandOf (.keyset (msg 0x0005 289 [])) = some (ty, b, msg 0x0005 289 []) ∧ 288 < (msg 0x0005 289 []).ep)
    ∧ (¬ Admits (hosted id) (msg 0x0101 6 []) ∧ (msg 0x0101 6 []).ep ≤ 288 ∧ (msg 0x0101 6 []).payload.length ≤ 8896)
    ∧ (Admits busy (msg 0x0009 0 []) ∧ 256 ≤ busy.outstanding 0)
    ∧ Accepted (hosted id) (msg 0x0105 5 []) ∧ Accepted (hosted id) (msg 0x0009 0 []) := by
  refine ⟨⟨_, _, rfl, by decide⟩, ?_, ⟨admits_msg (by decide +kernel), by decide +kernel⟩, accepted_msg (by decide +kernel), accepted_msg (by decide +kernel)⟩
  unfold Admits; decide +kernel
/-- A context descriptor for context 7 in partition 0. -/
def desc7 : List Byte := pay ([7, 0, 0, 0] ++ leBytes 4 100 ++ leBytes 8 0x300000 ++ leBytes 8 0 ++ leBytes 8 1 ++ leBytes 8 0 ++ leBytes 8 0x40000 ++ leBytes 8 0x40000) 128
/-- A window record for context 5. -/
def window5 : List Byte := [5, 0, 63, 0, 0, 0, 0, 0, 3, 2, 6, 0] ++ leBytes 3 77 ++ List.replicate 9 0 ++ leBytes 8 0x20000 ++ leBytes 8 4096
/-- The machine whose context 5 has a write that no other die sees. -/
def unseen : State := { (noPipes .ready).modStrand 0 0 (fun st => { st with stores := [(9, 0)] }) with log := [{ id := 9, word := 0, die := 0, val := 1, seen := [0], past := [] }] }
theorem witness_ManagementCommandsAct_partitions :
    (let m := msg 0x0001 0 (pay [1, 0, 2, 0, 2] 32)
     m.ep = 0 ∧ Accepted (hosted id) m ∧ m.payload.length = 32 ∧ m.at 0 1 ≤ 71 ∧ m.at 1 1 = 0 ∧ m.at 2 2 < 512 ∧ m.at 13 3 = 0
      ∧ (List.range 72).filter (fun k => (m.at 4 9).testBit k) = [1] ∧ (List.range 9).filter (fun k => (m.at 2 2).testBit k) = [1]
      ∧ (List.range 128).filter (fun k => (m.at 16 16).testBit k) = [] ∧ ((hosted id).part (m.at 0 1)).formed = false
      ∧ (∀ q ∈ (hosted id).formedParts, (∀ k ∈ [1], k ∉ q.2.octets) ∧ ∀ k ∈ ([] : List Nat), k ∉ q.2.ports)
      ∧ (∀ u ∈ ({ octets := [1], dies := [1], ports := [], lead := 0 } : Partition).units, (hosted id).unit u = .ready)
      ∧ (hosted id).findBase [1] (Config.octetShare (hosted id).pkg.ordering / 2097152 * 2097152) = some 0)
    ∧ (let m := msg 0x0002 0 [0]
       let s := hosted (fun s => { s with ctxs := [] })
       m.ep = 0 ∧ Accepted s m ∧ m.payload.length = 1 ∧ m.at 0 1 ≤ 71 ∧ (s.part (m.at 0 1)).formed = true ∧ s.residents (m.at 0 1) = [])
    ∧ (let m := msg 0x000C 0 (pay [0, 0, 0, 0, 0, 0x10] 8)
       m.ep = 0 ∧ Accepted (hosted id) m ∧ m.payload.length = 8 ∧ m.at 0 1 ≤ 71 ∧ m.at 1 3 = 0 ∧ m.at 4 4 % 4096 = 0 ∧ 4096 ≤ m.at 4 4
        ∧ m.at 4 4 ≤ 1048576 ∧ ((hosted id).part (m.at 0 1)).formed = true) := by
  repeat' first | with_reducible exact accepted_msg (by decide +kernel) | with_reducible exact admits_msg (by decide +kernel) | with_reducible apply And.intro
  all_goals decide +kernel
theorem witness_ManagementCommandsAct_contexts :
    (let m := msg 0x0003 0 desc7
     m.ep = 0 ∧ Accepted (hosted id) m ∧ ctxOk m = true ∧ ((hosted id).ctx (m.at 0 2)).live = false ∧ ((hosted id).part (m.at 2 1)).formed = true
      ∧ ((hosted id).residents (m.at 2 1)).length < 16)
    ∧ (let m := msg 0x0004 0 [5, 0]
       ∀ s ∈ [noPipes .ready, unseen], m.ep = 0 ∧ Accepted s m ∧ m.payload.length = 2 ∧ Live s (m.at 0 2) ∧ (s.ctx (m.at 0 2)).hostOps = []
        ∧ (s.ctx (m.at 0 2)).state ≠ .running ∧ (s.ctx (m.at 0 2)).pipes = [])
    ∧ ((noPipes .ready).ctxWrites 5).all (noPipes .ready).seenEverywhere = true ∧ (unseen.ctxWrites 5).all unseen.seenEverywhere = false
    ∧ (let m := msg 0x0005 0 (pay [7] 40)
       m.ep = 0 ∧ Accepted (hosted id) m ∧ m.payload.length = 40 ∧ 1 ≤ m.at 0 2 ∧ m.at 0 2 ≤ 288 ∧ m.at 2 6 = 0) := by
  unfold Live
  repeat' first | with_reducible exact accepted_msg (by decide +kernel) | with_reducible exact admits_msg (by decide +kernel) | with_reducible apply And.intro
  all_goals first | decide +kernel | (unfold Accepted Admits; decide +kernel)
theorem witness_ManagementCommandsAct_settings :
    (let m := msg 0x0006 0 (pay [5, 0] 16)
     let s := noPipes .guttered
     m.ep = 0 ∧ Accepted s m ∧ m.payload.length = 16 ∧ m.at 2 6 = 0 ∧ Live s (m.at 0 2)
      ∧ (let a := s.applyArrivals (s.homeDie (m.at 0 2))
        0 < balanceAfter (a.ctx (m.at 0 2)).balance (m.int 8 * oneNJ) ∧ (a.ctx (m.at 0 2)).state = .guttered
        ∧ (s.ctx (m.at 0 2)).lowWater * oneNJ ≤ balanceAfter (a.ctx (m.at 0 2)).balance (m.int 8 * oneNJ)))
    ∧ (let m := msg 0x0007 0 (pay [5, 0, 0x73] 24)
       let s := noPipes .ready
       m.ep = 0 ∧ Accepted s m ∧ m.payload.length = 24 ∧ m.at 3 5 = 0 ∧ modesOk (m.at 2 1) = true
        ∧ logOk (m.at 2 1 / 4 % 4) (m.at 8 8) (m.at 16 8) = true ∧ Live s (m.at 0 2) ∧ (s.ctx (m.at 0 2)).state = .ready ∧ (s.ctx (m.at 0 2)).pipes = [])
    ∧ (let m := msg 0x000D 0 window5
       let s := noPipes .ready
       m.ep = 0 ∧ Accepted s m ∧ m.payload.length = 40 ∧ m.at 2 1 ≤ 63 ∧ m.at 3 5 = 0 ∧ windowOk m = true ∧ Live s (m.at 0 2)
        ∧ (s.ctx (m.at 0 2)).state ≠ .running) := by
  unfold Live
  repeat' first | with_reducible exact accepted_msg (by decide +kernel) | with_reducible exact admits_msg (by decide +kernel) | with_reducible apply And.intro
  all_goals decide +kernel
/-- KEYSET of endpoint 0, answered under the new key. -/
theorem test_keyset_of_endpoint_0 : ((after (exec (.keyset (msg 0x0005 0 (pay [0] 40))) (hosted id))).pkg.sent.map (fun x => (x.ep, x.ty, x.seq, x.key)))
    = [(0, 0x8005, 1, List.replicate 32 0)] := by decide +kernel
/-- The machine whose context 5 runs with no pipeline, a bundle of its tile held, or a write of it that no other die sees. -/
def runningIdle (f : State → State) : State := f (noPipes .running)
/-- A bundle held at tile 0. -/
def withHeld (s : State) : State := s.modTile 0 (fun u => { u with held := some { nextPc := 4, waits := [(9, 2, 3)] } })
/-- A write of the tile's strand that its own die sees alone. -/
def withUnseen (s : State) : State :=
  { s.modStrand 0 0 (fun st => { st with stores := [(9, 0)] }) with log := [{ id := 9, word := 0, die := 0, val := 1, seen := [0], past := [] }] }
/-- R400: a context that runs is stopped; it is gone once nothing of it is left. -/
theorem test_ctxdestroy_of_a_running_context : ((after (exec (.ctxdestroy (msg 0x0004 0 [5, 0])) (runningIdle id))).ctx 5).live = false
    ∧ ((after (exec (.ctxdestroy (msg 0x0004 0 [5, 0])) (runningIdle withHeld))).ctx 5).destroying = some 21 := by decide +kernel
theorem witness_ManagementCommandsAct_destroy : let m := msg 0x0004 0 [5, 0]
    (∀ s ∈ [runningIdle id, runningIdle withHeld, runningIdle withUnseen], Accepted s m ∧ Live s 5 ∧ (s.ctx 5).hostOps = [] ∧ (s.ctx 5).state = .running
      ∧ (s.ctx 5).stopped = false ∧ (s.ctx 5).pipes = [])
    ∧ (((toDestroy (runningIdle withHeld) m 5).stopSteps 5).ctx 5).stopped = false
    ∧ ((((toDestroy (runningIdle id) m 5).stopSteps 5).ctx 5).stopped = true
      ∧ (((toDestroy (runningIdle id) m 5).stopSteps 5).dropWithdrawn 5 |>.ctxWrites 5).all
        (((toDestroy (runningIdle id) m 5).stopSteps 5).dropWithdrawn 5).seenEverywhere = true)
    ∧ ((((toDestroy (runningIdle withUnseen) m 5).stopSteps 5).ctx 5).stopped = true
      ∧ (((toDestroy (runningIdle withUnseen) m 5).stopSteps 5).dropWithdrawn 5 |>.ctxWrites 5).all
        (((toDestroy (runningIdle withUnseen) m 5).stopSteps 5).dropWithdrawn 5).seenEverywhere = false)
    ∧ ((toDestroy (noPipes .ready) m 5).dropWithdrawn 5 |>.ctxWrites 5).all ((toDestroy (noPipes .ready) m 5).dropWithdrawn 5).seenEverywhere = true
    ∧ ((toDestroy unseen m 5).dropWithdrawn 5 |>.ctxWrites 5).all ((toDestroy unseen m 5).dropWithdrawn 5).seenEverywhere = false := by
  intro m
  refine ⟨?_, by decide +kernel, by decide +kernel, by decide +kernel, by decide +kernel, by decide +kernel⟩
  unfold Live Accepted Admits; decide +kernel
theorem witness_ManagementCommandsAct_keys : (let m := msg 0x0005 0 (pay [0] 40)
    m.ep = 0 ∧ Accepted (hosted id) m ∧ m.payload.length = 40 ∧ m.at 0 2 = 0 ∧ m.at 2 6 = 0) := by
  unfold Accepted Admits; decide +kernel

theorem witness_RecordCommandsAnswer :
    (let m := msg 0x0008 0 (leBytes 2 100)
     m.ep = 0 ∧ Accepted (hosted id) m ∧ m.payload.length = 2 ∧ m.at 0 2 ≤ 221 ∧ (∀ p ∈ (hosted id).formedParts, m.at 0 2 ∉ p.2.units)
      ∧ (hosted id).unit (m.at 0 2) ≠ .untested)
    ∧ (let s := hosted (fun s => s.modPkg (fun p => { p with tripped := true, hottest := [94 * 16] }))
       Accepted s (msg 0x000F 0 []) ∧ s.pkg.tripped = true ∧ ∀ x ∈ s.pkg.hottest, x < 95 * 16)
    ∧ (let s := hosted (fun s => s.modPkg (fun p => { p with tripped := true, hottest := [95 * 16] }))
       Accepted s (msg 0x000F 0 []) ∧ s.pkg.tripped = true ∧ ∃ x ∈ s.pkg.hottest, 95 * 16 ≤ x)
    ∧ (Accepted (noPipes .ready) (msg 0x0105 5 []) ∧ Live (noPipes .ready) 5 ∧ ((noPipes .ready).ctx 5).pipes = []) := by
  unfold Live
  repeat' first | with_reducible exact accepted_msg (by decide +kernel) | with_reducible exact admits_msg (by decide +kernel) | with_reducible apply And.intro
  all_goals decide +kernel
/-- A debugger message of a type on strand n of tile 0 of context 5. -/
def debugMsg (ty n : Nat) (l : List Byte) : Lmsg := msg ty 0 ([5, 0, 0, 0, byte n, 0, 0, 0] ++ l)
/-- The machine whose tile 0 is frozen with no round, its strand 1 halted by BRK. -/
def frozen : State := hosted (fun s => s.modTile 0 (fun u => { u.modStrand 1 (fun st => { st with halted := true, byBrk := true, trappc := 9 }) with
  freeze := true, sram := [(8, 0x5A)] }))
theorem test_dbgread_cells : ((after (exec (.dbgread (debugMsg 0x0017 0 (leBytes 4 0x40008 ++ leBytes 4 8))) frozen)).pkg.sent.map (fun m => m.body.drop 8))
    = [[0x5A, 0, 0, 0, 0, 0, 0, 0]] := by decide +kernel
theorem test_dbggo_resumes_at_trappc : ((after (exec (.dbggo (debugMsg 0x0013 1 [])) frozen)).strand 0 1).pc = 9 := by decide +kernel
/-- The machine whose strand 0 of that tile has a bundle held. -/
def holding : State := frozen.modTile 0 (fun u => { u with held := some { nextPc := 4, strand := 0 } })
theorem witness_Debugs : Debugs frozen (debugMsg 0x0013 1 []) 5 0 1 ∧ Debugs holding (debugMsg 0x0012 0 []) 5 0 0
    ∧ Debugs frozen (debugMsg 0x0017 0 (leBytes 4 0x40008 ++ leBytes 4 8)) 5 0 0
    ∧ Debugs frozen (debugMsg 0x0018 0 (leBytes 4 0x40008 ++ leBytes 4 8 ++ List.replicate 8 1)) 5 0 0 := by
  refine ⟨?_, ?_, ?_, ?_⟩ <;> (unfold Debugs Live; refine ⟨by decide +kernel, accepted_msg (by decide +kernel), ?_⟩; decide +kernel)
theorem witness_DebuggerCommandsAct : ((debugMsg 0x0013 1 []).payload.length = 8 ∧ (frozen.strand 0 1).halted = true ∧ (frozen.tile 0).held = none)
    ∧ ((holding.tile 0).held.map (fun b => b.strand) = some 0 ∧ (holding.strand 0 0).halted = false ∧ (debugMsg 0x0012 0 []).payload.length = 8)
    ∧ (let m := debugMsg 0x0017 0 (leBytes 4 0x40008 ++ leBytes 4 8)
       m.at 8 4 = 0x40008 ∧ m.at 12 4 = 8 ∧ (frozen.tile 0).freeze = true ∧ (frozen.tile 0).fstat.run = false ∧ m.payload.length = 16)
    ∧ (debugMsg 0x0018 0 (leBytes 4 0x40008 ++ leBytes 4 8 ++ List.replicate 8 1)).payload.length = 24 := by decide +kernel
/-- A started pipeline of context 5 whose queue 0 is the host's. -/
def hostQueue (l : List Item) : State := hosted (fun s =>
  (s.modPipe 5 0 (fun p => { p with handle := 3 })).modQueue 5 0 0 (fun x => { x with desc := { x.desc with ext := true }, subs := [(0, { items := l })] }))
/-- A QFEED, or a QTAKE with its 4 bytes, on that queue for n items. -/
def queueMsg (n : Nat) (k : Nat) : Lmsg := msg (if k = 4 then 0x0103 else 0x0102) 5 (pay [3, 0, 0, byte n] k)
/-- The same with the queue closed. -/
def hostClosed : State := (hostQueue []).modQueue 5 0 0 (fun x => { x with closed := true })
/-- R353: a QFEED of a closed queue is refused BADQ. -/
theorem test_qfeed_of_closed_queue : ((after (exec (.qfeed (queueMsg 1 80)) hostClosed)).pkg.sent.map (fun m => m.body)) = [14 :: List.replicate 7 0] := by
  decide +kernel
theorem test_qfeed_counts : ((after (exec (.qfeed (queueMsg 1 80)) (hostQueue []))).pkg.sent.map (fun m => m.body)) = [List.replicate 8 0 ++ [1]] := by
  decide +kernel
theorem test_qtake_entry : ((after (exec (.qtake (queueMsg 1 4)) (hostQueue [item1]))).pkg.sent.map (fun m => (m.body.drop 8).take 24))
    = [leBytes 8 1 ++ leBytes 8 11 ++ leBytes 8 12] := by decide +kernel
/-- A launch message. -/
def launchMsg : Lmsg := msg 0x0101 5 (pay (leBytes 8 0x20000 ++ leBytes 8 0x20008 ++ [0xFF, 0xFF]) 64)
/-- The machine with pipelines in n slots. -/
def pipesIn (n : Nat) : State := hosted (fun s => s.modCtx 5 (fun c => { c with pipes := (List.range n).map (fun k => (k, pipe0)) }))
/-- The machine with a page request of id 17, and an access of the loader that waits on it. -/
def asking : State :=
  hosted (fun s => (s.modCtx 5 (fun c => { c with generation := 4, pageReqs := [{ rid := 17, va := 0x20000, access := .read }] })).modDie 0 (fun d =>
    { d with misses := [{ who := .loader 0, ctx := 5, va := 0x20000, addr := 0x20000, access := .read, stand := .page 17 }] }))
/-- A page reply. -/
def replyMsg (rid gen st : Nat) : Lmsg := msg 0x2002 5 (leBytes 4 rid ++ leBytes 4 gen ++ leBytes 1 st)
theorem witness_VirtualFunctionCommandsAct_launch :
    (Accepted (pipesIn 1) launchMsg ∧ Live (pipesIn 1) 5 ∧ ((pipesIn 1).ctx 5).hostOps = [] ∧ launchOk launchMsg = true ∧ launchMsg.at 16 2 = 0xFFFF
      ∧ ((pipesIn 1).ctx 5).state ≠ .faulted ∧ ((pipesIn 1).ctx 5).rpl ≠ 2 ∧ ((pipesIn 1).ctx 5).modes.toNat / 4 % 4 ≠ 2
      ∧ ((pipesIn 1).pipe 5 1).active = false ∧ ∀ k, k < 1 → ((pipesIn 1).pipe 5 k).active = true)
    ∧ (Accepted (pipesIn 8) launchMsg ∧ Live (pipesIn 8) 5 ∧ ((pipesIn 8).ctx 5).state ≠ .faulted ∧ ∀ k, k < 8 → ((pipesIn 8).pipe 5 k).active = true) := by
  unfold Live launchMsg
  repeat' first | with_reducible exact accepted_msg (by decide +kernel) | with_reducible exact admits_msg (by decide +kernel) | with_reducible apply And.intro
  all_goals decide +kernel
theorem witness_VirtualFunctionCommandsAct_queues :
    (OnQueue (hostQueue []) (queueMsg 1 80) 0 0 ∧ (queueMsg 1 80).at 3 1 = 1 ∧ (queueMsg 1 80).payload.length = 80 ∧ (queueMsg 1 80).at 4 4 = 0)
    ∧ (((hostQueue []).pipe 5 0).queue 0).closed = false ∧ (((hostQueue []).pipe 5 0).queue 0).poisoned = false ∧ 0 < ((hostQueue []).pipe 5 0).free 0
    ∧ (((hostQueue []).pipe 5 0).queue 0).pushSub ((((hostQueue []).pipe 5 0).queue 0).hostCursor % (((hostQueue []).pipe 5 0).queue 0).desc.k) = some 0
    ∧ ((((hostQueue []).pipe 5 0).queue 0).sub 0).spilled = []
    ∧ (OnQueue (hostQueue [item1]) (queueMsg 1 4) 0 0 ∧ (queueMsg 1 4).at 3 1 = 1 ∧ (queueMsg 1 4).payload.length = 4)
    ∧ ((((hostQueue [item1]).pipe 5 0).queue 0).desc.relaxed = false ∧ ((((hostQueue [item1]).pipe 5 0).queue 0).sub 0).items = [item1])
    ∧ (OnQueue (hostQueue []) (msg 0x0104 5 [3, 0, 0]) 0 0 ∧ (msg 0x0104 5 [3, 0, 0]).payload.length = 3)
    ∧ (OnQueue hostClosed (queueMsg 1 80) 0 0 ∧ ((hostClosed.pipe 5 0).queue 0).closed = true) := by
  refine ⟨⟨?_, by decide +kernel⟩, by decide +kernel, by decide +kernel, by decide +kernel, by decide +kernel, by decide +kernel, ⟨?_, by decide +kernel⟩, by decide +kernel,
    ⟨?_, by decide +kernel⟩, ⟨?_, by decide +kernel⟩⟩ <;> (unfold OnQueue Live; refine ⟨accepted_msg (by decide +kernel), ?_⟩; decide +kernel)
theorem witness_VirtualFunctionCommandsAct_pages : Admits asking (replyMsg 17 4 0) ∧ Admits asking (replyMsg 17 3 0)
    ∧ ((asking.ctx 5).live = true ∧ (asking.ctx 5).hostOps = [] ∧ (asking.ctx 5).rpl ≠ 2 ∧ (replyMsg 17 4 0).payload.length = 9
      ∧ (replyMsg 17 4 0).at 8 1 = 0 ∧ (replyMsg 17 4 0).at 4 4 = (asking.ctx 5).generation
      ∧ (∃ r ∈ (asking.ctx 5).pageReqs, r.rid = (replyMsg 17 4 0).at 0 4) ∧ (replyMsg 17 3 0).at 4 4 ≠ (asking.ctx 5).generation
      ∧ (replyMsg 17 3 0).payload.length = 9 ∧ (asking.ctx 5).pageWaits = []) := by
  unfold replyMsg
  repeat' first | with_reducible exact accepted_msg (by decide +kernel) | with_reducible exact admits_msg (by decide +kernel) | with_reducible apply And.intro
  all_goals decide +kernel

/-! ## RDMA, the crumb log -/

/-- A datagram of a type, from context 5's endpoint, with a payload. -/
def datagram (ty : Nat) (l : List Byte) : Datagram :=
  { header := leBytes 2 1 ++ leBytes 2 ty ++ leBytes 2 5 ++ leBytes 2 l.length ++ leBytes 8 1 ++ leBytes 4 21 ++ List.replicate 12 0, payload := l,
    tag := (msg ty 5 l).tag }
/-- The machine with a page at 0x20000 in the TLB of the host port's die, and of its lead die. -/
def ported : State := hosted (fun s => { s with dies := [(0, { tlb := [(0, [leafHbm])] }), (4, { tlb := [(0, [leafHbm])] })] })
theorem test_datagram_decodes : decodeDatagram (datagram 0x0105 []) = .statread (msg 0x0105 5 [])
    ∧ decodeDatagram (datagram 0x0019 []) = .lanternMessageDrop (datagram 0x0019 []) := by decide +kernel
theorem witness_UnassignedMessagesAndRdma : ({ header := [], payload := [], tag := [] } : Datagram).wellFormed = false
    ∧ ((datagram 0x0019 []).wellFormed = true ∧ Admits (hosted id) (datagram 0x0019 []).msg)
    ∧ (m0.ctx 6).live = false
    ∧ ((ported.ctx 5).live = true ∧ (ported.ctx 5).stopTo = none ∧ (ported.ctx 5).destroying = none ∧ ported.pkg.qps.get .normal (16 * 5 + 3) = .normal)
    ∧ (0x20000 ≤ 0x20004 ∧ 0x20004 + 2 ≤ 0x20000 + 6) ∧ ¬ (0x20000 ≤ 0x20004 ∧ 0x20004 + 2 ≤ 0x20000 + 5)
    ∧ (∃ s1 pas reps, (ported.frame 5 2).xlPages (.hostPort 5 3) 5 .write false (pagesOf 0x20004 2) = .ok s1 pas reps)
    ∧ (∃ s1 pas reps, ported.xlPages (.hostPort 5 3) 5 .read false (pagesOf 0x20004 2) = .ok s1 pas reps ∧ s1.memBad = [])
    ∧ (∃ s1, ((hosted id).frame 5 2).xlPages (.hostPort 5 3) 5 .write false (pagesOf 0x20004 2) = .wait s1)
    ∧ (∃ s1, (hosted id).xlPages (.hostPort 5 3) 5 .read false (pagesOf 0x20004 2) = .wait s1)
    ∧ (∃ s1 c r a, (ported.frame 5 2).xlPages (.hostPort 5 3) 5 .write false (pagesOf 0x100000000000000 2) = .fault s1 c r a)
    ∧ ∃ s1 c r a, ported.xlPages (.hostPort 5 3) 5 .read false (pagesOf 0x100000000000000 2) = .fault s1 c r a :=
  ⟨by decide, ⟨by decide, admits_msg (s := hosted id) (ty := 0x0019) (ep := 5) (p := []) (by decide +kernel)⟩, by decide, by decide, by decide, by decide, ⟨_, _, _, rfl⟩, ⟨_, _, _, rfl, rfl⟩, ⟨_, rfl⟩, ⟨_, rfl⟩,
    ⟨_, _, _, _, rfl⟩, ⟨_, _, _, _, rfl⟩⟩
/-- R87: an access outside the range of its memory key is refused, and its queue pair is in error. -/
theorem test_rdma_outside_its_key : let t := after (exec (.rdmaRead 5 3 ⟨0x20000, 6, 0x20004⟩ 4) ported)
    (t.pkg.rdma, t.pkg.qps.get .normal (16 * 5 + 3)) = ([(5, 3, .accessError)], .error) := by decide +kernel
/-- The machine whose context 5 records, with a log of n bytes at 0x20000 and a record to write. -/
def recording (started : Bool) (n k : Nat) : State :=
  sched (fun c => { c with liveModes := 4, liveLog := (0x20000, n), logStarted := started, crumbCount := k, crumbs := [{ kind := 3, b := 7 }] })
/-- The machine whose context 5 replays a log. -/
def replaying (k pos : Nat) : State :=
  sched (fun c => { c with liveModes := 8, modes := 8, liveLog := (0x20000, 4096), replayChecked := true, crumbCount := k, replayPos := pos })
/-- The page of the host port's access, its words in HBM. -/
theorem witness_RdmaParts : (∃ s1 reps, (ported.frame 5 2).xlPages (.hostPort 5 3) 5 .write false (pagesOf 0x20004 2) = .ok s1 [0x200004] reps)
    ∧ (∃ s1 reps, ported.xlPages (.hostPort 5 3) 5 .read false (pagesOf 0x20004 2) = .ok s1 [0x200004] reps)
    ∧ ∀ i, i < 2 → runAddr 0x20004 [0x200004] i / 2 ^ 48 % 16 < 8 := ⟨⟨_, _, rfl⟩, ⟨_, _, rfl⟩, by decide⟩
/-- The machine whose page leads to window 0 of context 5, out or not. -/
def portedAway (out : Bool) : State :=
  hosted (fun s => { s.modCtx 5 (fun c => { c with windows := [(0, { out, inn := true, lane := 2, rctx := 6, rpkg := 1, base := 0x40000, size := 2 ^ 40 })] }) with
    dies := [(4, { tlb := [(0, [{ leafHbm with leaf := 0x0008000000200038 }])] })] })
/-- R370, R372: its path leads to a port as `witness_TsendAway` shows. -/
theorem witness_RdmaAway : ∀ out ∈ [true, false], ∃ s1 reps,
    (portedAway out).xlPages (.hostPort 5 3) 5 .read false (pagesOf 0x20004 2) = .ok s1 [0x8000000200004] reps
    ∧ 8 ≤ runAddr 0x20004 [0x8000000200004] 0 / 2 ^ 48 % 16 ∧ runAddr 0x20004 [0x8000000200004] 0 / 2 ^ 45 % 64 = 0
    ∧ ((s1.ctx 5).windows.get {} 0).out = out ∧ runAddr 0x20004 [0x8000000200004] 0 % 2 ^ 45 < ((s1.ctx 5).windows.get {} 0).size
    ∧ s1.pkg.inWindow 5 0 < 16 ∧ 2 ≤ 64 - (0x40000 + runAddr 0x20004 [0x8000000200004] 0 % 2 ^ 45) % 2 ^ 64 % 64 := by
  intro out h
  simp only [List.mem_cons, List.not_mem_nil, or_false] at h
  obtain rfl | rfl := h <;> exact ⟨_, _, rfl, by decide, by decide, by decide, by decide, by decide, by decide⟩
/-- A read of 8 bytes whose second word is still asked for. -/
def job1 : HostJob := { job := 2, va := 0x20008, len := 8, write := false, data := [], pas := [0x200008], reps := [], next := 8, open' := 1, got := [(0, [1, 2, 3, 4])] }
/-- The request for it. -/
def jobReq : MemReq := { id := 9, ctx := 5, die := 4, src := .host 5 3 2 4, pa := 0x200008, va := 0x20008, op := .load 4, past := [] }
/-- The machine with both. -/
def readingHost : State :=
  ((m0.modPkg (fun p => { p with qps := [(16 * 5 + 3, .busy job1)] })).modDie 0 (fun d => { d with nodes := [(64, [jobReq])] }))
theorem test_rdma_read_answers : (after (exec (.memoryNodeApply 0 64) { readingHost with mem := [(0x200009, 9)] })).pkg.rdma
    = [(5, 3, .data [1, 2, 3, 4, 0, 9, 0, 0])] := by decide +kernel
theorem witness_RdmaReadEnds : readingHost.Inv ∧ (readingHost.ctx 5).live = true ∧ (readingHost.ctx 5).destroying = none
    ∧ readingHost.pkg.qps = [(16 * 5 + 3, .busy job1)] ∧ job1.write = false ∧ job1.len ≤ job1.next ∧ job1.open' = 1
    ∧ nextAt readingHost 0 64 = some jobReq ∧ CheckedOk readingHost 0x200008 4 ∧ ∀ q ∈ job1.got, q.1 < 4 := by
  unfold State.Inv CheckedOk; decide +kernel

theorem test_record_bytes : Crumb.bytes { kind := 7, sub := 1, tile := 0x0203, a := 4, b := 5, c := 6, d := 7 }
    = [7, 1, 3, 2, 4, 0, 0, 0] ++ leBytes 8 5 ++ leBytes 8 6 ++ leBytes 8 7 := by decide

/-- Partitions, contexts, die TLBs, misses and what stands at the memory nodes are as before. -/
def Alike (s t : State) : Prop := t.parts = s.parts ∧ t.ctxs = s.ctxs ∧ ∀ d, (t.die d).tlb = (s.die d).tlb ∧
  (t.die d).misses = (s.die d).misses ∧ (t.die d).nodes = (s.die d).nodes
theorem Alike.refl (s : State) : Alike s s := ⟨rfl, rfl, fun _ => ⟨rfl, rfl, rfl⟩⟩
theorem Alike.trans {a b c : State} (h : Alike a b) (g : Alike b c) : Alike a c :=
  ⟨g.1.trans h.1, g.2.1.trans h.2.1, fun d => ⟨(g.2.2 d).1.trans (h.2.2 d).1, (g.2.2 d).2.1.trans (h.2.2 d).2.1,
    (g.2.2 d).2.2.trans (h.2.2 d).2.2⟩⟩
theorem Alike.die (s : State) (d : Nat) (f : Die → Die) (ht : ∀ x, (f x).tlb = x.tlb ∧ (f x).misses = x.misses ∧ (f x).nodes = x.nodes) :
    Alike s (s.modDie d f) := by
  refine ⟨rfl, rfl, fun e => ?_⟩
  by_cases h : e = d
  · subst h; simp [State.die, State.modDie, ht]
  · simp [State.die, State.modDie, AMap.get_set_other _ _ _ h]
theorem Alike.uncore (s : State) (d c : Nat) (e : Uncore) (n m : Nat) : Alike s (s.uncore d c e n m) := by
  have a (amt : Int) : Alike s (s.toAccount d c amt) := by
    unfold State.toAccount; split <;> exact Alike.die _ _ _ (fun _ => ⟨rfl, rfl, rfl⟩)
  exact (a _).trans ⟨rfl, rfl, fun _ => ⟨rfl, rfl, rfl⟩⟩
theorem Alike.fold {α : Type} (l : List α) (f : State → α → State) (h : ∀ s a, Alike s (f s a)) (s : State) : Alike s (l.foldl f s) := by
  induction l generalizing s with
  | nil => exact Alike.refl s
  | cons a l ih => exact (h s a).trans (ih _)
theorem Alike.nodeEvent (s : State) (e c pa : Nat) (w a : Bool) : Alike s (s.nodeEvent e c pa w a) := by
  have h : Alike s (s.nodeCharge c pa w a) := by
    unfold State.nodeCharge; dsimp only; split <;> exact Alike.uncore ..
  unfold State.nodeEvent
  dsimp only
  split
  · exact h
  · refine h.trans (Alike.die _ _ _ (fun x => ?_)); split <;> exact ⟨rfl, rfl, rfl⟩
theorem Alike.chargePath (s : State) (c t u n : Nat) : Alike s (s.chargePath c t u n) :=
  (Alike.fold _ _ (fun _ _ => Alike.uncore ..) s).trans (Alike.fold _ _ (fun _ _ => Alike.uncore ..) _)
theorem Alike.chargeRun (s : State) (c t va n : Nat) (pas : List Nat) (w : Bool) : Alike s (s.chargeRun c t va n pas w) :=
  Alike.fold _ _ (fun _ _ => (Alike.chargePath ..).trans (Alike.nodeEvent ..)) s
theorem Alike.settle (s : State) : Alike s s.settle := by
  have once (a : State) : Alike a (settleOnce a) := ⟨rfl, rfl, fun _ => ⟨rfl, rfl, rfl⟩⟩
  have loop (n : Nat) (s : State) : Alike s (settleLoop n s) := by
    induction n generalizing s with
    | zero => exact Alike.refl s
    | succ n ih => exact (once s).trans (ih _)
  exact (loop s.log.length s).trans ⟨rfl, rfl, fun _ => ⟨rfl, rfl, rfl⟩⟩
theorem Alike.devWriteWord (s : State) (pa : Nat) (l : List Byte) : Alike s (s.devWriteWord pa l) :=
  let r : WriteRec := { id := s.nextId, die := 0, word := pa / 8, val := mergeBytes (s.nodeWord (pa / 8)) (pa % 8) l, past := [], seen := List.range 9 }
  Alike.trans (b := { s with nextId := s.nextId + 1, log := r :: s.log, memBad := if l.length = 8 then s.memBad.filter (· != pa / 8) else s.memBad })
    ⟨rfl, rfl, fun _ => ⟨rfl, rfl, rfl⟩⟩ (Alike.settle _)
theorem Alike.devLine (s : State) (d c pa : Nat) (l : List Byte) : Alike s (s.devLine d c pa l false) :=
  Alike.fold _ _ (fun s _ => Alike.devWriteWord s _ _) s
theorem Alike.putRun (s : State) (d c va : Nat) (pas : List Nat) (l : List Byte) : Alike s (s.putRun d c va pas [] l) :=
  Alike.fold _ _ (fun s _ => Alike.devLine s d c _ _) s
/-- The addresses in the log's page that are written first: its header's and its third record's. -/
def LogVa (va : Nat) : Prop := va = 0x20000 ∨ va = 0x20080
/-- A walk under way for a header that stands in the page before. -/
def headMiss : Miss := { who := .scheduler 5, ctx := 5, va := 0x1F000, addr := 0x1FFC0, access := .write, stand := .walk }
/-- What one page of the log takes: its translation stands in the TLB of die 0, the lead of partition 0. -/
def Logs (s : State) : Prop :=
  s.parts = m0.parts ∧ (s.ctx 5).part = 0 ∧ (∀ m ∈ (s.die 0).misses, m = headMiss) ∧ (∀ va a, LogVa va → (s.die 0).tlbFind 5 va a = some leafHbm) ∧ s.NodesEmpty
theorem Logs.of_alike {s t : State} (h : Logs s) (g : Alike s t) : Logs t :=
  ⟨g.1.trans h.1, by rw [← h.2.1]; simp [State.ctx, g.2.1], by rw [(g.2.2 0).2.1]; exact h.2.2.1, fun va a v => by
    rw [Die.tlbFind, (g.2.2 0).1]; exact h.2.2.2.1 va a v, fun d k => by rw [(g.2.2 d).2.2]; exact h.2.2.2.2 d k⟩
theorem find_filled (k va : Nat) (m : AMap (List TlbEntry)) (a : Access) (v : LogVa va)
    (h : m.findSome? (fun p => p.2.find? (fun t => t.hits 5 va a)) = some leafHbm) :
    (AMap.set m k (lruPut 8 (AMap.get [] m k) leafHbm)).findSome? (fun p => p.2.find? (fun t => t.hits 5 va a)) = some leafHbm := by
  have hits : leafHbm.hits 5 va a = true := by obtain rfl | rfl := v <;> cases a <;> decide
  have first (l : List TlbEntry) : (lruPut 8 l leafHbm).find? (fun t => t.hits 5 va a) = some leafHbm := by
    simp [lruPut, hits]
  have all (m : AMap (List TlbEntry)) (v : List TlbEntry) (hv : v.find? (fun t => t.hits 5 va a) = some leafHbm)
      (h : m.findSome? (fun p => p.2.find? (fun t => t.hits 5 va a)) = some leafHbm) :
      (AMap.set m k v).findSome? (fun p => p.2.find? (fun t => t.hits 5 va a)) = some leafHbm := by
    induction m with
    | nil => simp [AMap.set, hv]
    | cons p m ih =>
      obtain ⟨j, w⟩ := p
      unfold AMap.set
      split
      · simp [hv]
      · split
        · simp [hv]
        · rw [List.findSome?_cons] at h ⊢
          cases hw : w.find? (fun t => t.hits 5 va a) with
          | some e => simp only [hw] at h ⊢; exact h
          | none => simp only [hw] at h ⊢; exact ih h
  exact all m _ (first _) h
theorem Logs.writes {s : State} (h : Logs s) (va : Nat) (data : List Byte) (x : LogVa va) (hp : pagesOf va data.length = [va]) :
    ∃ s1, s.writeVa (.scheduler 5) 5 (s.leadTile 5) va data false = .ok s1 ∧ s1.ctxs = s.ctxs ∧ (s1.die 0).misses = (s.die 0).misses ∧ Logs s1 := by
  obtain ⟨p, c, m, f, z⟩ := h
  have hd : s.reqDie (.scheduler 5) = 0 := by simp only [State.reqDie, State.part, p, c]; rfl
  let s' := (s.uncore 0 5 .tlb 1 (uncoreDomain 0)).fillDie 0 leafHbm
  have g : Alike s (s.uncore 0 5 .tlb 1 (uncoreDomain 0)) := Alike.uncore ..
  have l' : Logs s' := by
    obtain ⟨p1, c1, m1, f1, z1⟩ := Logs.of_alike ⟨p, c, m, f, z⟩ g
    refine ⟨p1, c1, ?_, fun va a v => ?_, fun d k => ?_⟩
    · have := m1; simpa [s', State.fillDie, State.modDie, State.die] using this
    · have := find_filled (Config.dieTlbSet leafHbm.ctx leafHbm.base % 4096) va _ a v (f1 va a v)
      simpa [s', State.fillDie, State.modDie, State.die, Die.tlbFind] using this
    · have := z1 d k
      by_cases e : d = 0
      · subst e; simpa [s', State.fillDie, State.modDie, State.die] using this
      · simpa [s', State.fillDie, State.modDie, State.die, AMap.get_set_other _ _ _ e] using this
  have look : s.tlbLookup (.scheduler 5) 5 va .write = (s', some leafHbm) := by
    have e : ((s.uncore 0 5 .tlb 1 (uncoreDomain 0)).die 0).tlbFind 5 va .write = some leafHbm :=
      (Logs.of_alike ⟨p, c, m, f, z⟩ g).2.2.2.1 va .write x
    simp only [State.tlbLookup, State.reqPort, hd, e]
    rfl
  have tr : s.translate (.scheduler 5) 5 (w64 va) .write false false = .ok s' (va + 0x1E0000) false := by
    have c' : canonical (w64 va) = true := by obtain rfl | rfl := x <;> decide
    have v : (w64 va).toNat = va := by obtain rfl | rfl := x <;> decide
    have r : rightFault leafHbm.leaf .write false = none := by decide
    have q : s'.place 5 0 va leafHbm.size leafHbm.leaf false = .ok (va + 0x1E0000) := by
      have e : s'.part (s'.ctx 5).part = part0 := by rw [l'.2.1]; simp only [State.part, l'.1]; rfl
      unfold State.place
      rw [e]
      obtain rfl | rfl := x <;> decide +kernel
    have n : (s.die 0).misses.find? (fun m => m.isFor (.scheduler 5) 5 va .write) = none := by
      rw [List.find?_eq_none]; intro e he; rw [m e he]; obtain rfl | rfl := x <;> decide
    simp only [State.translate, State.use, hd, v, look, r, q, c', n]
    rfl
  have e := State.writeVa_of_empty z (t := s.leadTile 5) (data := data)
    (show s.xlPages (.scheduler 5) 5 .write false (pagesOf va data.length) = .ok s' [va + 0x1E0000] [] by rw [hp]; simp only [State.xlPages, tr]; rfl)
  have a := (Alike.chargeRun s' 5 (s.leadTile 5) va data.length [va + 0x1E0000] true).trans
    (Alike.putRun _ (s.reqDie (.scheduler 5)) 5 va [va + 0x1E0000] data)
  have k : (s'.die 0).misses = (s.die 0).misses := by
    have := (g.2.2 0).2.1; simpa [s', State.fillDie, State.modDie, State.die] using this
  exact ⟨_, e, a.2.1.trans (show s'.ctxs = s.ctxs from g.2.1), (a.2.2 0).2.1.trans k, l'.of_alike a⟩
theorem logs_recording (b : Bool) (n k : Nat) : Logs (recording b n k) :=
  ⟨rfl, rfl, fun _ h => (List.not_mem_nil h).elim, fun _ a v => by obtain rfl | rfl := v <;> cases a <;> rfl, State.nodesEmpty_of_dies (show ∀ p ∈ (sched id).dies, p.2.nodes = [] by decide)⟩
theorem logHeader_length (s : State) (c : Nat) : (s.logHeader c).length = 64 := by simp [State.logHeader, leBytes]
theorem witness_CrumbsAreWritten :
    (∃ s1, (recording false 4096 0).writeVa (.scheduler 5) 5 ((recording false 4096 0).leadTile 5) 0x20000 ((recording false 4096 0).logHeader 5) false = .ok s1)
    ∧ ((recording false 4096 0).ctx 5).rpl = 1 ∧ ((recording false 4096 0).ctx 5).state ≠ .faulted
    ∧ (64 + 32 * (((recording true 4096 2).ctx 5).crumbCount + 1) ≤ ((recording true 4096 2).ctx 5).liveLog.2
      ∧ ∃ s1, (recording true 4096 2).writeVa (.scheduler 5) 5 ((recording true 4096 2).leadTile 5) (0x20000 + (64 + 32 * 2))
          (Crumb.bytes { kind := 3, b := 7 }) false = .ok s1 ∧ (s1.ctx 5).crumbCount = 2 ∧ (s1.ctx 5).crumbs = [{ kind := 3, b := 7 }]
          ∧ let s2 := s1.modCtx 5 (fun y => { y with crumbs := [], crumbCount := 3 })
            ∃ s3, s2.writeVa (.scheduler 5) 5 (s2.leadTile 5) 0x20000 (s2.logHeader 5) false = .ok s3)
    ∧ (((recording true 64 0).ctx 5).liveLog.2 < 64 + 32 * (((recording true 64 0).ctx 5).crumbCount + 1)
      ∧ let s1 := (recording true 64 0).modCtx 5 (fun y => { y with trunc := true })
        ∃ s2, s1.writeVa (.scheduler 5) 5 (s1.leadTile 5) (0x20000 + 0) (s1.logHeader 5) false = .ok s2) := by
  have one (s : State) (h : Logs s) (l : List Byte) (hp : pagesOf 0x20000 l.length = [0x20000]) :
      ∃ s1, s.writeVa (.scheduler 5) 5 (s.leadTile 5) 0x20000 l false = .ok s1 := (h.writes 0x20000 l (.inl rfl) hp).imp (fun _ g => g.1)
  have changed (s : State) (f : Context → Context) (hf : ∀ c, (f c).part = c.part) (h : Logs s) : Logs (s.modCtx 5 f) :=
    ⟨h.1, by simpa [State.ctx, State.modCtx, hf] using h.2.1, h.2.2.1, h.2.2.2⟩
  refine ⟨one _ (logs_recording ..) _ (by rw [logHeader_length]; decide), by decide, by decide, ⟨by decide, ?_⟩, by decide, ?_⟩
  · obtain ⟨s1, e, c, -, l⟩ := (logs_recording true 4096 2).writes (0x20000 + (64 + 32 * 2)) (Crumb.bytes { kind := 3, b := 7 }) (.inr rfl) (by decide)
    have x : s1.ctx 5 = (recording true 4096 2).ctx 5 := by simp only [State.ctx, c]
    refine ⟨s1, e, by rw [x]; rfl, by rw [x]; rfl, ?_⟩
    exact one _ (changed s1 (fun y => { y with crumbs := [], crumbCount := 3 }) (fun _ => rfl) l) _ (by rw [logHeader_length]; decide)
  · exact one _ (changed (recording true 64 0) (fun y => { y with trunc := true }) (fun _ => rfl) (logs_recording ..)) _ (by rw [logHeader_length]; decide)
/-- The machine whose header stands in a page that is being walked, a record to write behind it. -/
def headWaits : State :=
  ((recording true 4096 0).modCtx 5 (fun c => { c with liveLog := (0x1FFC0, 4096) })).modDie 0 (fun d => { d with misses := [headMiss] })
/-- R402: the record is written, and the header waits; and a header owed is written. -/
theorem witness_CrumbsAreWritten_header : (headWaits.ctx 5).headerDue = false ∧ (headWaits.ctx 5).logStarted = true
    ∧ (headWaits.ctx 5).crumbs = [{ kind := 3, b := 7 }] ∧ 64 + 32 * ((headWaits.ctx 5).crumbCount + 1) ≤ (headWaits.ctx 5).liveLog.2
    ∧ (∃ s1, headWaits.writeVa (.scheduler 5) 5 (headWaits.leadTile 5) (0x1FFC0 + (64 + 32 * 0)) (Crumb.bytes { kind := 3, b := 7 }) false = .ok s1
      ∧ let s2 := s1.modCtx 5 (fun y => { y with crumbs := [], crumbCount := 1 })
        ∃ s3, s2.writeVa (.scheduler 5) 5 (s2.leadTile 5) 0x1FFC0 (s2.logHeader 5) false = .wait s3)
    ∧ (let s := (recording true 4096 1).modCtx 5 (fun y => { y with headerDue := true })
      (s.ctx 5).headerDue = true ∧ ∃ s1, s.writeVa (.scheduler 5) 5 (s.leadTile 5) 0x20000 (s.logHeader 5) false = .ok s1) := by
  have l0 : Logs headWaits :=
    ⟨rfl, rfl, fun _ h => List.mem_singleton.1 h, fun _ a v => by obtain rfl | rfl := v <;> cases a <;> rfl,
      State.nodesEmpty_of_dies (by decide)⟩
  have l1 : Logs ((recording true 4096 1).modCtx 5 (fun y => { y with headerDue := true })) :=
    ⟨rfl, rfl, fun _ h => (List.not_mem_nil h).elim, fun _ a v => by obtain rfl | rfl := v <;> cases a <;> rfl,
      State.nodesEmpty_of_dies (show ∀ p ∈ (sched id).dies, p.2.nodes = [] by decide)⟩
  refine ⟨by decide, by decide, by decide, by decide, ?_, by decide,
    (l1.writes 0x20000 _ (.inl rfl) (by rw [logHeader_length]; decide)).imp (fun _ g => g.1)⟩
  obtain ⟨s1, e, c, k, l⟩ := l0.writes (0x1FFC0 + (64 + 32 * 0)) (Crumb.bytes { kind := 3, b := 7 }) (.inl rfl) (by decide)
  refine ⟨s1, e, ?_⟩
  intro s2
  have hd : s2.reqDie (.scheduler 5) = 0 := by
    have p : s2.parts = m0.parts := l.1
    have q : (s2.ctx 5).part = 0 := by have := l.2.1; simpa [s2, State.ctx, State.modCtx] using this
    simp only [State.reqDie, State.part, p, q]; rfl
  have hm : (s2.die 0).misses = [headMiss] := k
  have t : s2.translate (.scheduler 5) 5 (w64 0x1FFC0) .write false false = .wait s2 := by
    have n : [headMiss].find? (fun m => m.isFor (.scheduler 5) 5 (w64 0x1FFC0).toNat .write) = some headMiss := by decide
    have c' : canonical (w64 0x1FFC0) = true := by decide
    simp only [State.translate, hd, hm, n, c']
    rfl
  refine ⟨s2, ?_⟩
  unfold State.writeVa
  rw [logHeader_length, show pagesOf 0x1FFC0 64 = [0x1FFC0] by decide]
  simp only [State.xlPages, t]
/-- Has a read of the device given bytes that are no STOP record, context 5 as it was? -/
def readAs (x : Context) : VaRead → Bool
  | .ok s b => decide (s.ctx 5 = x) && decide (leNat (b.take 1) ≠ 7)
  | _ => false
theorem ok_of_readAs {r : VaRead} {x : Context} (h : readAs x r = true) : ∃ s b, r = .ok s b ∧ s.ctx 5 = x ∧ leNat (b.take 1) ≠ 7 := by
  match r with
  | .ok s b => simp only [readAs, Bool.and_eq_true, decide_eq_true_eq] at h; exact ⟨s, b, rfl, h.1, h.2⟩
theorem witness_CrumbsAreReplayed : (((replaying 3 0).ctx 5).live = true ∧ ((replaying 3 0).ctx 5).destroying = none ∧ ((replaying 3 0).ctx 5).state = .running
      ∧ ((replaying 3 0).ctx 5).rpl = 2 ∧ ((replaying 3 0).ctx 5).msgRpl = 2 ∧ (∀ p ∈ ((replaying 3 0).ctx 5).pipes, ∀ g ∈ p.2.stages, g.braid = [])
      ∧ ((replaying 3 0).ctx 5).hostOps = [] ∧ ((replaying 3 0).ctx 5).replayed = [])
    ∧ (∃ s1 b, (replaying 3 0).readVa (.scheduler 5) 5 ((replaying 3 0).leadTile 5) (0x20000 + 64 + 32 * 0) 32 false = .ok s1 b
      ∧ s1.ctx 5 = (replaying 3 0).ctx 5 ∧ leNat (b.take 1) ≠ 7)
    ∧ (((replaying 1 1).ctx 5).crumbCount ≤ ((replaying 1 1).ctx 5).replayPos ∧ 0 < ((replaying 1 1).ctx 5).balance) :=
  ⟨by decide, ok_of_readAs (by decide +kernel), by decide⟩

/-- The machine whose next record is a CALIB of domain 2, the factor 0x4100, before anything has taken a tile. -/
def calibrating : State :=
  { (replaying 3 0).modStage 5 0 0 (fun g => { g with tiles := [] }) with mem := [(0x200040, 8), (0x200041, 2), (0x200049, 0x41)] }
/-- Is that record read? -/
def readsCalib (x : Context) : VaRead → Bool
  | .ok s b => decide (s.ctx 5 = x) && decide (leNat (b.take 1) = 8)
  | _ => false
theorem test_calib_record_holds_at_once : ((after (exec (.replayRecordTake 5) calibrating)).ctx 5).calib.get 0 2 = 0x4100 := by decide +kernel
theorem witness_CrumbsAreReplayed_calib : (calibrating.ctx 5).moves = [] ∧ (∀ p ∈ (calibrating.ctx 5).pipes, ∀ g ∈ p.2.stages, g.tiles = [])
    ∧ readsCalib (calibrating.ctx 5) (calibrating.readVa (.scheduler 5) 5 (calibrating.leadTile 5) (0x20000 + 64 + 32 * 0) 32 false) = true := by
  decide +kernel

/-! ## Decoding and the step -/

/-- ADD x3, x1, x2, and the same with a reserved bit set. -/
def addWord : Nat := 0x0118440000000000
/-- ADD x3, x1, x2 with a reserved bit set. -/
def badWord : Nat := 0x0118440000000001
theorem test_reset_decodes : decodeTableWord 64 addWord = some (.add 3 1 2) ∧ decodeTableWord 64 badWord = none := by decide +kernel
theorem test_step_runs_word : (match step ((regs [(1, 5), (2, 7)]).withFetchWord 64 addWord) with
    | .next t => (t.strand 0 0).rx 3
    | _ => 0) = 12 := by decide +kernel
theorem witness_EncodingAndDecodingAgree : (Instr.isCore (.add 3 1 2) = true ∧ Instr.wf (.add 3 1 2) = true ∧ opClass (Instr.fields (.add 3 1 2)).op.toNat = some 1
    ∧ slotAdmits 1 1 = true) ∧ decodeSlot 1 (w64 addWord) = .ok (.add 3 1 2) := by decide +kernel
theorem witness_StepRunsTheDecodedInstruction :
    (({ m0 with agenda := [.event (.fcEdge 0)] } : State).agenda = [.event (.fcEdge 0)] ∧ (Instr.fcEdge 0).wf = true ∧ (Instr.fcEdge 0).isCore = false)
    ∧ (∃ u rest, rota m0 = u :: rest)
    ∧ (let s1 := ({ m0.withFetchWord 64 addWord with agenda := [], focus := 0 } : State).budgetDue 0
       s1.coreDoes 0 = .issue ∧ ∃ s2, s1.fetchBundle 0 (s1.tile 0).cur = .ok s2 (Sys2Proof.bundleOf (Instr.slot (.add 3 1 2)) (w64 addWord), false)
        ∧ decodeSlot (Instr.slot (.add 3 1 2)) (w64 addWord) = .ok (.add 3 1 2) ∧ s2.focus = 0)
    ∧ (let s1 := ({ m0.withFetchWord 64 badWord with agenda := [], focus := 0 } : State).budgetDue 0
       s1.coreDoes 0 = .issue ∧ ∃ s2, s1.fetchBundle 0 (s1.tile 0).cur = .ok s2 (Sys2Proof.bundleOf 0 (w64 badWord), false)
        ∧ decodeBundle (Sys2Proof.bundleOf 0 (w64 badWord)) = .error (0, 3) ∧ (∀ m ∈ lowerSems (Sys2Proof.bundleOf 0 (w64 badWord)) 0, m.illegal s2 = false)
        ∧ CanTrap s2) := by
  refine ⟨by decide, ⟨_, _, rfl⟩, ⟨by decide +kernel, _, rfl, by decide +kernel, rfl⟩, by decide +kernel, _, rfl, by decide +kernel, ?_, rfl, by decide⟩
  intro m hm
  exact absurd hm (by simp [lowerSems, decodeSlots])
theorem witness_EveryStepKeepsMemoryCanonical : State.reset.Inv ∧ ∃ t, step m0 = .next t := ⟨by unfold State.Inv; decide, _, rfl⟩

/-- The header of a message of a type at an endpoint, with no payload, under a version. -/
def headerOf (v ty ep : Nat) : List Byte := leBytes 2 v ++ leBytes 2 ty ++ leBytes 2 ep ++ leBytes 26 0
theorem witness_WorkedWordsDecode : opClass ((0xFF00000000000000 : Word).extractLsb' 56 8).toNat = none
    ∧ (opClass ((0x0118440000000000 : Word).extractLsb' 56 8).toNat = some 1 ∧ slotAdmits 2 1 = false)
    ∧ (let d : Datagram := { header := headerOf 1 0x0105 5, payload := [], tag := [] }
       d.wellFormed = true ∧ (lanternCommand (field d.header 2 2) d.msg).isSome = true)
    ∧ (let d : Datagram := { header := headerOf 2 0x0105 5, payload := [], tag := [] }
       d.wellFormed = false)
    ∧ (let d : Datagram := { header := headerOf 1 0x0FFF 5, payload := [], tag := [] }
       d.wellFormed = true ∧ (lanternCommand (field d.header 2 2) d.msg).isNone = true) := by decide +kernel

end Sys2Proof.Tests
end

section
/-! SUPPORT. What the lamplighter's steps leave as it was, and its statements: reset, power checks, calibration windows. -/

namespace Sys2Proof.Machine

/-! ## Numbered data: what is absent, and what is taken out -/

/-- A number under which nothing is kept reads as the default. -/
theorem AMap.get_of_absent {α : Type} (d : α) : ∀ {m : AMap α} {k : Nat}, (∀ p ∈ m, p.1 ≠ k) → AMap.get d m k = d
  | [], _, _ => rfl
  | (j, v) :: r, k, h => by
    obtain ⟨hj, hr⟩ := List.forall_mem_cons.mp h
    rw [AMap.get, if_neg (Ne.symm hj)]
    exact AMap.get_of_absent d hr

@[simp] theorem AMap.get_erase_same {α : Type} (d : α) (m : AMap α) (k : Nat) : AMap.get d (AMap.erase m k) k = d :=
  AMap.get_of_absent d (fun _ hp => by simpa using (List.mem_filter.mp hp).2)

theorem AMap.get_erase_other {α : Type} (d : α) (m : AMap α) {j k : Nat} (h : j ≠ k) :
    AMap.get d (AMap.erase m k) j = AMap.get d m j := by
  unfold AMap.erase
  induction m with
  | nil => rfl
  | cons p r ih =>
    by_cases e : p.1 = k
    · have hj : j ≠ p.1 := e ▸ h
      rw [List.filter_cons_of_neg (by simpa using e), ih, AMap.get, if_neg hj]
    · rw [List.filter_cons_of_pos (by simpa using e), AMap.get, AMap.get, ih]

/-- A running context stands among the contexts: one that is not there is READY. -/
theorem State.mem_ctxs_of_running {s : State} {c : Nat} (h : (s.ctx c).state = .running) : c ∈ s.ctxs.map (fun p => p.1) := by
  by_contra hc
  have absent : s.ctx c = {} := AMap.get_of_absent _ (fun p hp e => hc (List.mem_map.mpr ⟨p, hp, e⟩))
  rw [absent] at h
  cases h

/-! ## What programs see -/

/-- What `ProgramsKept` speaks of: tiles, memory and the log of writes. -/
def State.programs (s : State) : AMap Tile × List Host.Cell × List WriteRec := (s.tiles, s.mem, s.log)

theorem programsKept_of_programs {s t : State} (h : t.programs = s.programs) : ProgramsKept s t := by
  obtain ⟨htiles, hmem, hlog⟩ : t.tiles = s.tiles ∧ t.mem = s.mem ∧ t.log = s.log := by
    simpa [State.programs] using h
  have hstrand (u n : Nat) : t.strand u n = s.strand u n := by simp [State.strand, State.tile, htiles]
  exact ⟨fun u n => by simp [hstrand], hmem, hlog⟩

@[simp] theorem State.modPkg_programs (s : State) (f : Package → Package) : (s.modPkg f).programs = s.programs := rfl
@[simp] theorem State.modCtx_programs (s : State) (c : Nat) (f : Context → Context) : (s.modCtx c f).programs = s.programs := rfl
@[simp] theorem State.modDie_programs (s : State) (d : Nat) (f : Die → Die) : (s.modDie d f).programs = s.programs := rfl
@[simp] theorem State.uncore_programs (s : State) (d c : Nat) (e : Uncore) (n m : Nat) :
    (s.uncore d c e n m).programs = s.programs := by simp [State.programs]
@[simp] theorem State.event_programs (s : State) (e y c : Nat) (b : List Byte) : (s.event e y c b).programs = s.programs := by
  simp [State.programs]
@[simp] theorem State.record_programs (s : State) (c : Nat) (r : Crumb) : (s.record c r).programs = s.programs := by
  simp [State.programs]

/-! ## Events (R85) -/

@[simp] theorem leBytes_length : ∀ n v : Nat, (leBytes n v).length = n
  | 0, _ => rfl
  | n + 1, v => by rw [leBytes, List.length_cons, leBytes_length n]

/-- The package but for what a message on an endpoint changes: the endpoint, what has been sent, and its charge (R81, R102). -/
def Package.unsent (p : Package) : Package := { p with endpoints := [], sent := [], windowScaled := [], windowCharges := [] }

/-- A charge to an account leaves the package. -/
@[simp] theorem State.toAccount_pkg (s : State) (d c : Nat) (a : Int) : (s.toAccount d c a).pkg = s.pkg := by
  unfold State.toAccount
  split <;> rfl

/-- A charge of an uncore block leaves the package but for the windows' sums. -/
theorem State.uncore_pkg (s : State) (d c : Nat) (e : Uncore) (n m : Nat) : ∃ w z, (s.uncore d c e n m).pkg =
    { s.pkg with windowCharges := w, windowScaled := z } := by
  unfold State.uncore State.windowAdd
  rw [State.modPkg_pkg, State.toAccount_pkg]
  exact ⟨_, _, rfl⟩

@[simp] theorem State.uncore_scales (s : State) (d c : Nat) (e : Uncore) (n m : Nat) :
    (s.uncore d c e n m).pkg.scales = s.pkg.scales := by
  obtain ⟨w, z, h⟩ := s.uncore_pkg d c e n m
  rw [h]

theorem State.send_unsent (s : State) (e y r : Nat) (b : List Byte) : (s.send e y r b).pkg.unsent = s.pkg.unsent := by
  unfold State.send State.frame
  obtain ⟨w, z, h⟩ := s.uncore_pkg 4 e .hostFrame ((Config.frameBytes (48 + b.length) + 63) / 64) hostDomain
  rw [State.modPkg_pkg, h]
  rfl

theorem State.event_unsent (s : State) (e y c : Nat) (b : List Byte) : (s.event e y c b).pkg.unsent = s.pkg.unsent := by
  unfold State.event
  rw [State.send_unsent, State.modPkg_pkg]
  rfl

theorem State.send_sent (s : State) (e y r : Nat) (b : List Byte) : ∃ m, (s.send e y r b).pkg.sent = s.pkg.sent ++ [m] ∧
    m.ep = e ∧ m.ty = y ∧ m.body = b := by
  unfold State.send State.frame
  obtain ⟨w, z, h⟩ := s.uncore_pkg 4 e .hostFrame ((Config.frameBytes (48 + b.length) + 63) / 64) hostDomain
  rw [State.modPkg_pkg, h]
  exact ⟨_, rfl, rfl, rfl, rfl⟩

theorem State.event_sent (s : State) (e y c : Nat) (b : List Byte) : ∃ m n, (s.event e y c b).pkg.sent = s.pkg.sent ++ [m] ∧
    m.ep = e ∧ m.ty = y ∧ m.body = leBytes 8 n ++ (leBytes 2 c ++ leBytes 6 0 ++ b) := by
  unfold State.event
  obtain ⟨m, hsent, hep, hty, hbody⟩ := State.send_sent _ e y 0 _
  exact ⟨m, _, hsent, hep, hty, by rw [hbody, List.append_assoc, List.append_assoc, List.append_assoc]⟩

/-- An event sent where as much had been sent as before the step, and nothing since, is an event of the step. -/
theorem event_of_sent {s s1 t : State} {e y c : Nat} {b : List Byte} (hbefore : s1.pkg.sent = s.pkg.sent)
    (hafter : t.pkg.sent = (s1.event e y c b).pkg.sent) : Event s t e y c b := by
  obtain ⟨m, n, hsent, hep, hty, hbody⟩ := s1.event_sent e y c b
  refine ⟨m, ?_, hep, hty, ?_⟩
  · rw [hafter, hsent, hbefore, List.drop_left]
    exact List.mem_singleton_self m
  · rw [hbody, List.drop_left' (leBytes_length 8 n)]

/-! ## Reset (R28) -/

/-- A machine that keeps nothing yet of units, dies, tiles, contexts, partitions and factors has the values of reset. -/
theorem afterReset_of_empty {t : State} (hunits : t.pkg.units = []) (hseq : t.pkg.mapSeq = 0) (hscales : t.pkg.scales = [])
    (hdies : t.dies = []) (htiles : t.tiles = []) (hctxs : t.ctxs = []) (hparts : t.parts = []) : AfterReset t := by
  simp [AfterReset, State.unit, State.die, State.tile, State.scaleOf, State.ctx, State.part, hunits, hseq, hscales, hdies, htiles,
    hctxs, hparts]

/-- Settles O17: reset and PACKAGE_RESET both leave a machine that keeps nothing yet. -/
theorem resetGivesTheStatedValues : Obligations.ResetGivesTheStatedValues :=
  ⟨afterReset_of_empty rfl rfl rfl rfl rfl rfl rfl, rfl,
    fun _ => ⟨_, rfl, afterReset_of_empty rfl rfl rfl rfl rfl rfl rfl, rfl, rfl⟩⟩

/-! ## Stops asked for (R386) -/

section askStop
variable (s : State) (c : Nat) (dest : CtxState) (cause : Nat)

@[simp] theorem State.askStop_pkg : (s.askStop c dest cause).pkg = s.pkg := by
  unfold State.askStop
  split <;> rfl

@[simp] theorem State.askStop_programs : (s.askStop c dest cause).programs = s.programs := by
  unfold State.askStop
  split <;> rfl

/-- A stop asked for changes no context's state before the sequence has run. -/
theorem State.askStop_state (e : Nat) : ((s.askStop c dest cause).ctx e).state = (s.ctx e).state := by
  unfold State.askStop
  split
  · rfl
  · by_cases h : e = c
    · subst h
      rw [State.ctx_modCtx_same]
      split
      · rfl
      · split <;> rfl
    · rw [State.ctx_modCtx_other _ _ h]

/-- A running context is to be stopped once it has been asked to. -/
theorem State.askStop_asks (h : (s.ctx c).state = .running) : ((s.askStop c dest cause).ctx c).stopTo.isSome = true := by
  have runs : ¬ (((s.ctx c).state != .running) = true) := by simp [h]
  rw [State.askStop, if_neg runs, State.ctx_modCtx_same]
  split
  · rfl
  · rename_i hto
    split
    · rfl
    · rw [hto]; rfl

/-- A stop already asked for stands. -/
theorem State.askStop_keeps {e : Nat} (h : (s.ctx e).stopTo.isSome = true) :
    ((s.askStop c dest cause).ctx e).stopTo.isSome = true := by
  by_cases hrun : (s.ctx c).state = .running
  · by_cases hc : e = c
    · subst hc
      exact s.askStop_asks _ _ _ hrun
    · rwa [State.askStop, if_neg (by simp [hrun]), State.ctx_modCtx_other _ _ hc]
  · rwa [State.askStop, if_pos (by simp [hrun])]

/-- Each running context among those asked in turn is to be stopped. -/
theorem State.foldl_askStop_asks {e : Nat} : ∀ (l : List Nat) (s : State), (s.ctx e).state = .running →
    e ∈ l ∨ (s.ctx e).stopTo.isSome = true →
    ((l.foldl (fun s c => s.askStop c dest cause) s).ctx e).stopTo.isSome = true
  | [], _, _, h => h.resolve_left List.not_mem_nil
  | c :: l, s, hrun, h => by
    refine State.foldl_askStop_asks l _ ((s.askStop_state c dest cause e).trans hrun) ?_
    rcases h with hmem | hstop
    · rcases List.mem_cons.mp hmem with rfl | hmem
      · exact .inr (s.askStop_asks _ _ _ hrun)
      · exact .inl hmem
    · exact .inr (s.askStop_keeps _ _ _ hstop)

end askStop

/-! ## A thermal trip (R26) -/

/-- One more die looked at for the hottest sensor. -/
def hotter (l : List Int) (b : Nat × Int) (i : Nat) : Nat × Int := if b.2 < l.getD i 0 then (i, l.getD i 0) else b

theorem hottestDie_eq (l : List Int) : hottestDie l = (List.range l.length).foldl (hotter l) (0, l.headD 0) := rfl

/-- The hottest of the first n dies: its reading, and no reading of theirs above it. -/
theorem foldl_hotter {l : List Int} (h : l ≠ []) : ∀ n, n ≤ l.length →
    l[((List.range n).foldl (hotter l) (0, l.headD 0)).1]? = some ((List.range n).foldl (hotter l) (0, l.headD 0)).2 ∧
    ∀ i, i < n → l.getD i 0 ≤ ((List.range n).foldl (hotter l) (0, l.headD 0)).2
  | 0, _ => by
    obtain ⟨x, r, rfl⟩ := List.exists_cons_of_ne_nil h
    exact ⟨rfl, fun i hi => absurd hi (Nat.not_lt_zero i)⟩
  | n + 1, hn => by
    obtain ⟨hread, hmax⟩ := foldl_hotter h n (by omega)
    have hget : l[n]? = some (l.getD n 0) := by simp [List.getD, List.getElem?_eq_getElem (show n < l.length by omega)]
    rw [List.range_succ, List.foldl_append, List.foldl_cons, List.foldl_nil, hotter]
    split
    · rename_i above
      refine ⟨hget, fun i hi => ?_⟩
      rcases Nat.lt_succ_iff_lt_or_eq.mp hi with hlt | rfl
      · exact (hmax i hlt).trans above.le
      · exact le_refl _
    · rename_i notAbove
      refine ⟨hread, fun i hi => ?_⟩
      rcases Nat.lt_succ_iff_lt_or_eq.mp hi with hlt | rfl
      · exact hmax i hlt
      · exact not_lt.mp notAbove

theorem hottestDie_read {l : List Int} (h : l ≠ []) : l[(hottestDie l).1]? = some (hottestDie l).2 :=
  (foldl_hotter h l.length le_rfl).1

theorem le_hottestDie {l : List Int} {y : Int} (hy : y ∈ l) : y ≤ (hottestDie l).2 := by
  obtain ⟨i, hi, rfl⟩ := List.getElem_of_mem hy
  simpa [hottestDie_eq, List.getD, hi] using (foldl_hotter (List.ne_nil_of_mem hy) l.length le_rfl).2 i hi

/-- The machine as a trip marks it and asks every context to stop, before the host is told. -/
def State.tripAsked (s : State) : State :=
  (s.ctxs.map (fun p => p.1)).foldl (fun s c => s.askStop c .ready 2) (s.modPkg (fun p => { p with tripped := true, tripClear := false }))

theorem State.trip_eq (s : State) (l : List Int) : s.trip l =
    s.tripAsked.event 0 0x4007 0 (leBytes 1 (hottestDie l).1 ++ leBytes 1 0 ++ leInt 2 (hottestDie l).2) := rfl

@[simp] theorem State.tripAsked_pkg (s : State) : s.tripAsked.pkg = { s.pkg with tripped := true, tripClear := false } := by
  unfold State.tripAsked
  rw [foldl_keeps State.pkg _ (fun s c => s.askStop_pkg c .ready 2), State.modPkg_pkg]

@[simp] theorem State.tripAsked_programs (s : State) : s.tripAsked.programs = s.programs := by
  unfold State.tripAsked
  rw [foldl_keeps State.programs _ (fun s c => s.askStop_programs c .ready 2), State.modPkg_programs]

theorem State.trip_programs (s : State) (l : List Int) : (s.trip l).programs = s.programs := by simp [State.trip_eq]

/-- Of the package a trip changes its own two marks, and what the message to the host changes. -/
theorem State.trip_unsent (s : State) (l : List Int) :
    (s.trip l).pkg.unsent = Package.unsent { s.pkg with tripped := true, tripClear := false } := by
  rw [State.trip_eq, State.event_unsent, State.tripAsked_pkg]

/-- R26: a trip pre-empts every running context. -/
theorem State.trip_stops (s : State) (l : List Int) {c : Nat} (h : (s.ctx c).state = .running) :
    ((s.trip l).ctx c).stopTo.isSome = true := by
  rw [State.trip_eq, State.ctx, State.event_ctxs]
  exact State.foldl_askStop_asks _ _ _ _ h (.inl (State.mem_ctxs_of_running h))

/-! ## A trip in force (R26) -/

/-- A trip in force changes its marks and the clock's stop, and nothing else. -/
theorem State.tripped_changes (s : State) : s.tripped = { s with pkg := { s.pkg with
    tripped := s.tripped.pkg.tripped, tripClear := s.tripped.pkg.tripClear, clockStopped := s.tripped.pkg.clockStopped } } := by
  unfold State.tripped
  repeat' split
  all_goals rfl

@[simp] theorem State.tripped_programs (s : State) : s.tripped.programs = s.programs := by rw [State.tripped_changes]; rfl
@[simp] theorem State.tripped_ctx (s : State) (c : Nat) : s.tripped.ctx c = s.ctx c := by rw [State.tripped_changes]; rfl
@[simp] theorem State.tripped_sent (s : State) : s.tripped.pkg.sent = s.pkg.sent := by rw [State.tripped_changes]

/-- A trip the host has not cleared stands. -/
theorem State.tripped_stands {s : State} (ht : s.pkg.tripped = true) (hc : s.pkg.tripClear = false) :
    s.tripped.pkg.tripped = true := by
  simp only [State.tripped, ht, hc, Bool.not_true, Bool.false_and, Bool.false_eq_true, if_false]
  split <;> exact ht

/-! ## Power checks (R26) -/

/-- The last ten power readings with a new one. -/
def Package.readings (p : Package) (mw : Nat) : List Nat := (p.power ++ [mw]).drop (p.power.length + 1 - 10)

/-- For how many checks the mean of the readings has been low enough to step up, at most ten. -/
def Package.coolFor (p : Package) (mw : Nat) : Nat :=
  if (p.readings mw).foldl (· + ·) 0 < 4370000 * (p.readings mw).length then min (p.coolMs + 1) 10 else 0

/-- The clock after a power check. -/
def Package.nextClock (p : Package) (mw : Nat) (hot : List Int) : Nat :=
  if ((p.readings mw).length = 10 ∧ 4600000 * (p.readings mw).length < (p.readings mw).foldl (· + ·) 0)
      ∨ (∃ x ∈ hot, 100 * 16 < x) then max 750 (p.clockMHz - 50)
  else if p.coolFor mw = 10 ∧ ∀ x ∈ hot, x ≤ 95 * 16 then min 1500 (p.clockMHz + 50) else p.clockMHz

/-- The machine once a power check has taken its readings and set the clock. -/
def State.checked (s : State) (mw : Nat) (hot : List Int) : State :=
  s.modPkg (fun p => { p with power := p.readings mw, coolMs := p.coolFor mw, hottest := hot, clockMHz := p.nextClock mw hot })

/-- A sensor at 115 C or above trips a package that is not tripped; then what a trip in force does. -/
def State.heatCheck (s : State) (hot : List Int) : State :=
  (if (∃ x ∈ hot, 115 * 16 ≤ x) ∧ s.pkg.tripped = false then s.trip hot else s).tripped

/-- A power check: the readings and the clock, then the check for a trip. -/
theorem exec_powerCheck (s : State) (mw : Nat) (hot : List Int) :
    exec (.powerCheck mw hot) s = .next ((s.checked mw hot).heatCheck hot) := by
  change execPowerCheck mw hot s = _
  simp only [execPowerCheck, engine, Bool.or_eq_true, Bool.and_eq_true, beq_iff_eq, List.any_eq_true, decide_eq_true_eq,
    Bool.not_eq_true', List.any_eq_false, not_lt]
  rfl

theorem State.heatCheck_of_hot {s : State} {hot : List Int} (h : ∃ x ∈ hot, 115 * 16 ≤ x) (ht : s.pkg.tripped = false) :
    s.heatCheck hot = (s.trip hot).tripped := by
  rw [State.heatCheck, if_pos ⟨h, ht⟩]

theorem State.heatCheck_of_tripped {s : State} {hot : List Int} (ht : s.pkg.tripped = true) : s.heatCheck hot = s.tripped := by
  simp [State.heatCheck, ht]

theorem State.heatCheck_programs (s : State) (hot : List Int) : (s.heatCheck hot).programs = s.programs := by
  rw [State.heatCheck, State.tripped_programs]
  split
  · exact s.trip_programs hot
  · rfl

/-- The check for a trip keeps the readings taken and the clock set before it. -/
theorem State.heatCheck_readings (s : State) (hot : List Int) : (s.heatCheck hot).pkg.power = s.pkg.power ∧
    (s.heatCheck hot).pkg.hottest = s.pkg.hottest ∧ (s.heatCheck hot).pkg.coolMs = s.pkg.coolMs ∧ (s.heatCheck hot).pkg.clockMHz = s.pkg.clockMHz := by
  rw [State.heatCheck, State.tripped_changes]
  split
  · have h := s.trip_unsent hot
    exact ⟨(congrArg Package.power h :), (congrArg Package.hottest h :), (congrArg Package.coolMs h :),
      (congrArg Package.clockMHz h :)⟩
  · exact ⟨rfl, rfl, rfl, rfl⟩

/-- R26: a sensor at 115 C trips the package: its mark, the stops, the event with the hottest die. -/
theorem State.heatCheck_trips {s : State} {hot : List Int} (h : ∃ x ∈ hot, 115 * 16 ≤ x) (ht : s.pkg.tripped = false) :
    (s.heatCheck hot).pkg.tripped = true ∧
    (∀ c, (s.ctx c).state = .running → ((s.heatCheck hot).ctx c).stopTo.isSome = true) ∧
    ∃ d x, hot[d]? = some x ∧ (∀ y ∈ hot, y ≤ x) ∧ Event s (s.heatCheck hot) 0 0x4007 0 (leBytes 1 d ++ leBytes 1 0 ++ leInt 2 x) := by
  rw [State.heatCheck_of_hot h ht]
  have hmarks := s.trip_unsent hot
  obtain ⟨x, hx, _⟩ := h
  refine ⟨State.tripped_stands (congrArg Package.tripped hmarks :) (congrArg Package.tripClear hmarks :), fun c hc => ?_,
    (hottestDie hot).1, (hottestDie hot).2, hottestDie_read (List.ne_nil_of_mem hx), fun _ => le_hottestDie, ?_⟩
  · rw [State.tripped_ctx]
    exact s.trip_stops hot hc
  · exact event_of_sent (congrArg Package.sent s.tripAsked_pkg :) (State.tripped_sent _)

/-- R26: a trip the host has cleared ends once every sensor reads below 95 C, and the clock starts. -/
theorem State.heatCheck_clears {s : State} {hot : List Int} (ht : s.pkg.tripped = true) (hc : s.pkg.tripClear = true)
    (hcool : ∀ x ∈ s.pkg.hottest, x < 95 * 16) :
    (s.heatCheck hot).pkg.tripped = false ∧ (s.heatCheck hot).pkg.clockStopped = false := by
  have below : s.pkg.hottest.all (fun x => decide (x < 95 * 16)) = true := by simpa using hcool
  simp only [State.heatCheck_of_tripped ht, State.tripped, ht, hc, below]
  exact ⟨rfl, rfl⟩

/-- R26: under a trip the host has not cleared the clock stops once no context runs. -/
theorem State.heatCheck_stops {s : State} {hot : List Int} (ht : s.pkg.tripped = true) (hc : s.pkg.tripClear = false)
    (hstill : ∀ p ∈ s.ctxs, p.2.state ≠ .running) : (s.heatCheck hot).pkg.clockStopped = true := by
  have still : s.ctxs.all (fun p => p.2.state != .running) = true := by simpa using hstill
  simp only [State.heatCheck_of_tripped ht, State.tripped, ht, hc, still]
  rfl

theorem powerChecksStepTheClockAndTrip : Rules.PowerChecksStepTheClockAndTrip := by
  intro s mw hot
  obtain ⟨hpower, hhot, hcool, hclock⟩ := (s.checked mw hot).heatCheck_readings hot
  exact ⟨_, exec_powerCheck s mw hot, programsKept_of_programs ((s.checked mw hot).heatCheck_programs hot), hpower, hhot, hcool,
    hclock, State.heatCheck_trips (s := s.checked mw hot), State.heatCheck_clears (s := s.checked mw hot),
    State.heatCheck_stops (s := s.checked mw hot)⟩

/-! ## Shared costs (R108) -/

/-- What shares of a cost leave as it was: the package, and what programs see. -/
def State.beyondDies (s : State) : Package × AMap Tile × List Host.Cell × List WriteRec := (s.pkg, s.programs)

@[simp] theorem State.arrive_beyondDies (s : State) (c : Nat) (a : Int) : (s.arrive c a).beyondDies = s.beyondDies := rfl

@[simp] theorem State.share_beyondDies (s : State) (c : Nat) (nj : Int) : (s.share c nj).beyondDies = s.beyondDies := by
  unfold State.share
  split
  · rfl
  · exact s.arrive_beyondDies _ _

@[simp] theorem State.split_beyondDies (s : State) (cost : Int) (w : List (Nat × Nat)) (total : Nat) :
    (s.split cost w total).beyondDies = s.beyondDies := by
  unfold State.split
  dsimp only
  rw [State.arrive_beyondDies]
  split
  · rfl
  · exact foldl_keeps State.beyondDies _ (fun s p => s.share_beyondDies _ _) w s

/-! ## A calibration window (R107) -/

@[simp] theorem State.record_beyondDies (s : State) (c : Nat) (r : Crumb) : (s.record c r).beyondDies = s.beyondDies := by
  simp [State.beyondDies]

/-- A change of the package, once only dies have changed. -/
theorem State.modPkg_beyondDies {s t : State} (h : t.beyondDies = s.beyondDies) (f : Package → Package) :
    (t.modPkg f).beyondDies = (f s.pkg, s.programs) := by
  obtain ⟨hpkg, hprograms⟩ := Prod.mk.inj h
  rw [State.beyondDies, State.modPkg_pkg, State.modPkg_programs, hpkg, hprograms]

/-- The factor and the two sums of a domain. -/
def Package.window (p : Package) (dom : Nat) : Nat × Nat × AMap Nat :=
  ((p.scales.get 0x4000 dom).toNat, p.windowScaled.get 0 dom, p.windowCharges.get [] dom)

/-- A domain's factor and sums after its window has closed with a measured energy. -/
def windowAfter (m : Nat) (w : Nat × Nat × AMap Nat) : Nat × Nat × AMap Nat := (nextScale w.1 (m * 2 ^ 14) w.2.1, 0, [])

/-- The package after a domain's window has closed. -/
def Package.windowClosed (p : Package) (dom m : Nat) : Package := { p with
  scales := p.scales.set dom (BitVec.ofNat 16 (windowAfter m (p.window dom)).1)
  windowCharges := p.windowCharges.erase dom
  windowScaled := p.windowScaled.erase dom }

/-- A factor stays within its 16 bits. -/
theorem nextScale_lt {f : Nat} (m c : Nat) (h : f < 2 ^ 16) : nextScale f m c < 2 ^ 16 := by
  unfold nextScale
  split
  · exact h
  · omega

theorem Package.window_windowClosed_same (p : Package) (dom m : Nat) :
    (p.windowClosed dom m).window dom = windowAfter m (p.window dom) := by
  have fits : (windowAfter m (p.window dom)).1 < 2 ^ 16 := nextScale_lt _ _ (BitVec.isLt _)
  simpa [Package.windowClosed, Package.window, windowAfter] using fits

theorem Package.window_windowClosed_other (p : Package) {d dom : Nat} (m : Nat) (h : d ≠ dom) :
    (p.windowClosed dom m).window d = p.window d := by
  simp [Package.windowClosed, Package.window, AMap.get_set_other _ _ _ h, AMap.get_erase_other _ _ h]

/-- A domain's window closes in the package, and programs see nothing of it. -/
theorem State.closeDomain_beyondDies (s : State) (dom m own : Nat) :
    (s.closeDomain dom m own).beyondDies = (s.pkg.windowClosed dom m, s.programs) := by
  have hown : (if own = 0 then s else s.arrive 0 (-((own * 2 ^ 14 : Nat) : Int))).beyondDies = s.beyondDies := by
    split
    · rfl
    · exact s.arrive_beyondDies _ _
  unfold State.closeDomain
  dsimp only
  split
  · exact State.modPkg_beyondDies ((State.split_beyondDies _ _ _ _).trans hown) _
  · exact (foldl_keeps State.beyondDies _ (fun s p => s.record_beyondDies _ _) _ _).trans
      (State.modPkg_beyondDies ((State.split_beyondDies _ _ _ _).trans hown) _)

/-- Where each step of a count changes what is read under its own number only, the count changes each number once. -/
theorem foldl_range_reads {σ γ : Type} {read : σ → Nat → γ} {f : σ → Nat → σ} {upd : Nat → γ → γ}
    (own : ∀ s d, read (f s d) d = upd d (read s d)) (other : ∀ s d e, d ≠ e → read (f s e) d = read s d) (d : Nat) (s : σ) :
    ∀ n, read ((List.range n).foldl f s) d = if d < n then upd d (read s d) else read s d
  | 0 => rfl
  | n + 1 => by
    rw [List.range_succ, List.foldl_append, List.foldl_cons, List.foldl_nil]
    by_cases h : d = n
    · subst h
      rw [own, foldl_range_reads own other d s d, if_neg (Nat.lt_irrefl d), if_pos (Nat.lt_succ_self d)]
    · rw [other _ _ _ h, foldl_range_reads own other d s n]
      simp only [show d < n + 1 ↔ d < n by omega]

/-- The windows of the 39 domains closed, one after another. -/
def State.closeDomains (s : State) (rail : List Nat) : State :=
  (List.range 39).foldl (fun s dom => s.closeDomain dom (rail.getD dom 0) (if dom = hostDomain then rail.getD 39 0 else 0)) s

theorem State.closeDomain_window_same (s : State) (dom m own : Nat) :
    (s.closeDomain dom m own).pkg.window dom = windowAfter m (s.pkg.window dom) := by
  rw [(Prod.mk.inj (s.closeDomain_beyondDies dom m own)).1, Package.window_windowClosed_same]

theorem State.closeDomain_window_other (s : State) {d dom : Nat} (m own : Nat) (h : d ≠ dom) :
    (s.closeDomain dom m own).pkg.window d = s.pkg.window d := by
  rw [(Prod.mk.inj (s.closeDomain_beyondDies dom m own)).1, Package.window_windowClosed_other _ _ h]

theorem State.closeDomains_window (s : State) (rail : List Nat) {dom : Nat} (h : dom < 39) :
    (s.closeDomains rail).pkg.window dom = windowAfter (rail.getD dom 0) (s.pkg.window dom) := by
  have reads := foldl_range_reads (read := fun s d => (State.pkg s).window d) (upd := fun d => windowAfter (rail.getD d 0))
    (fun s d => s.closeDomain_window_same d (rail.getD d 0) (if d = hostDomain then rail.getD 39 0 else 0))
    (fun s _ e hne => s.closeDomain_window_other (rail.getD e 0) (if e = hostDomain then rail.getD 39 0 else 0) hne) dom s 39
  rwa [if_pos h] at reads

theorem State.closeDomains_programs (s : State) (rail : List Nat) : (s.closeDomains rail).programs = s.programs :=
  foldl_keeps State.programs _ (fun s dom => (Prod.mk.inj (s.closeDomain_beyondDies dom _ _)).2) _ s

/-- R102: what no charge of an uncore block changes, the window's upkeep charges leave. -/
theorem State.chargeUpkeep_keeps {γ : Type} (g : State → γ) (h : ∀ s d e n m, g (State.uncore s d 0 e n m) = g s)
    (s : State) (scrubs flits : Nat → Nat) : g (s.chargeUpkeep scrubs flits) = g s := by
  unfold State.chargeUpkeep
  dsimp only
  rw [foldl_keeps g, foldl_keeps g]
  all_goals
    intro s k
    split
    · rfl
    · exact h _ _ _ _ _

/-- The machine with the upkeep of a window charged (R102). -/
def State.upkept (s : State) (rail : List Nat) : State := s.chargeUpkeep (fun k => rail.getD (40 + k) 0) (fun p => rail.getD (52 + p) 0)

theorem State.upkept_programs (s : State) (rail : List Nat) : (s.upkept rail).programs = s.programs :=
  State.chargeUpkeep_keeps State.programs (fun s d e n m => s.uncore_programs d 0 e n m) s _ _

theorem State.upkept_scaleOf (s : State) (rail : List Nat) (dom : Nat) : (s.upkept rail).scaleOf dom = s.scaleOf dom :=
  State.chargeUpkeep_keeps (fun s => s.scaleOf dom) (fun s d e n m => by simp only [State.scaleOf, State.uncore_scales]) s _ _

/-- What a calibration window does beyond the dies' account units: the upkeep charged, then the windows closed. -/
theorem exec_calibrationWindow (s : State) (rail : List Nat) :
    ∃ t, exec (.calibrationWindow rail) s = .next t ∧ t.beyondDies = ((s.upkept rail).closeDomains rail).beyondDies :=
  ⟨_, rfl, (foldl_keeps State.beyondDies _ (fun s _ => s.split_beyondDies _ _ _) _ _).trans
    (foldl_keeps State.beyondDies _ (fun s _ => s.split_beyondDies _ _ _) _ _)⟩

theorem calibrationWindowsSetTheFactors : Rules.CalibrationWindowsSetTheFactors := by
  intro s rail
  obtain ⟨t, ht, hbeyond⟩ := exec_calibrationWindow s rail
  obtain ⟨hpkg, hprograms⟩ := Prod.mk.inj hbeyond
  refine ⟨t, ht, programsKept_of_programs ?_, fun dom hdom => ?_⟩
  · rw [hprograms, State.closeDomains_programs, State.upkept_programs]
  · have hwindow := (s.upkept rail).closeDomains_window rail hdom
    rw [← hpkg] at hwindow
    obtain ⟨hscale, hsums⟩ := Prod.mk.inj hwindow
    obtain ⟨hscaled, hcharges⟩ := Prod.mk.inj hsums
    refine ⟨?_, hscaled, hcharges⟩
    rw [← s.upkept_scaleOf rail dom]
    exact hscale

/-- Settles O41: power checks and calibration windows, each by its rule. -/
theorem powerChecksAndCalibration : Obligations.PowerChecksAndCalibration :=
  ⟨powerChecksStepTheClockAndTrip, calibrationWindowsSetTheFactors⟩

end Sys2Proof.Machine
end

section
/-! SUPPORT. Readiness (R28 to R35): what a unit's change sends and refreshes, the health record unit by unit, and what a unit that fails
in service does to the contexts of its partitions. -/

namespace Sys2Proof.Machine

/-! ## What has been sent stands -/

/-- What had been sent stands, and what has been sent since comes after it. -/
def SentOn (s t : State) : Prop := s.pkg.sent <+: t.pkg.sent

theorem SentOn.of_eq {s t : State} (h : t.pkg.sent = s.pkg.sent) : SentOn s t := ⟨[], by rw [List.append_nil, h]⟩

theorem SentOn.trans {s t u : State} (h : SentOn s t) (g : SentOn t u) : SentOn s u := List.IsPrefix.trans h g

theorem State.send_sentOn (s : State) (e y r : Nat) (b : List Byte) : SentOn s (s.send e y r b) := by
  obtain ⟨m, hsent, _⟩ := s.send_sent e y r b
  exact ⟨[m], hsent.symm⟩

theorem State.event_sentOn (s : State) (e y c : Nat) (b : List Byte) : SentOn s (s.event e y c b) := by
  obtain ⟨m, _, hsent, _⟩ := s.event_sent e y c b
  exact ⟨[m], hsent.symm⟩

/-- A message sent within a part of a step is one of the step. -/
theorem SentOn.mem_drop {s s1 s2 t : State} {m : Msg} (hbefore : SentOn s s1) (hafter : SentOn s2 t)
    (h : m ∈ s2.pkg.sent.drop s1.pkg.sent.length) : m ∈ t.pkg.sent.drop s.pkg.sent.length :=
  (List.drop_sublist_drop_left _ hbefore.length_le).subset ((hafter.drop _).subset h)

/-- An event of a part of a step is one of the step. -/
theorem Event.within {s s1 s2 t : State} {e y c : Nat} {b : List Byte} (hbefore : SentOn s s1) (h : Event s1 s2 e y c b)
    (hafter : SentOn s2 t) : Event s t e y c b := by
  obtain ⟨m, hm, hrest⟩ := h
  exact ⟨m, hbefore.mem_drop hafter hm, hrest⟩

/-- An event sent between two states is an event of the step from the one to the other. -/
theorem event_of_sentOn {s s1 t : State} {e y c : Nat} {b : List Byte} (hbefore : SentOn s s1)
    (hafter : SentOn (s1.event e y c b) t) : Event s t e y c b :=
  Event.within hbefore (event_of_sent (s1 := s1) rfl rfl) hafter

/-! ## The health record (R32 to R34) -/

/-- The package but for the health record's entries and what a message changes. -/
def Package.unrecorded (p : Package) : Package := { p.unsent with health := [] }

/-- The machine as a refresh begins: counted, with the map's number and the clock and sensors of the moment. -/
def State.refreshing (s : State) : State :=
  s.modPkg (fun p => { p with
    refreshes := (s.pkg.refreshes + 1) % 2 ^ 32, healthSeq := p.mapSeq, healthClock := p.clockMHz, healthHot := p.hottest })

@[simp] theorem State.refreshing_health (s : State) : s.refreshing.pkg.health = s.pkg.health := rfl
@[simp] theorem State.refreshing_healthOf (s : State) : s.refreshing.healthOf = s.healthOf := rfl

theorem State.healthOf_unrecorded (s : State) : ({ pkg := s.pkg.unrecorded } : State).healthOf = s.healthOf := rfl

/-- A unit's fields come from the package, its entries and messages apart. -/
theorem State.healthOf_congr {s t : State} (h : t.pkg.unrecorded = s.pkg.unrecorded) : t.healthOf = s.healthOf := by
  rw [← t.healthOf_unrecorded, h, s.healthOf_unrecorded]

/-- The entry that refresh n leaves where the entry `old` stood. -/
def State.entryOf (s : State) (u n : Nat) (old : Health) : Health :=
  let h := s.healthOf u n old
  { h with noticed := if h.indicator != 0 then h.indicator != 0 && decide (h.low < 720) else old.noticed }

/-- The machine with unit u's entry refreshed, before a notice is sent. -/
def State.recorded (n : Nat) (s : State) (u : Nat) : State :=
  s.modPkg (fun p => { p with health := p.health.set u (s.entryOf u n (p.health.get {} u)) })

/-- R33, R34: one unit's part of refresh n. -/
def State.refreshUnit (n : Nat) (s : State) (u : Nat) : State :=
  let h := s.healthOf u n (s.pkg.health.get {} u)
  if h.indicator != 0 && decide (h.low < 720) && !(s.pkg.health.get {} u).noticed then
    (s.recorded n u).event 0 0x4006 0 (leBytes 2 u ++ leBytes 2 0 ++ leBytes 4 h.low)
  else s.recorded n u

theorem State.refreshHealth_eq (s : State) :
    s.refreshHealth = (List.range 222).foldl (State.refreshUnit ((s.pkg.refreshes + 1) % 2 ^ 32)) s.refreshing := rfl

/-- One unit's refresh changes the package as its entry does, and as the notice does that may follow. -/
theorem State.refreshUnit_unsent (n : Nat) (s : State) (u : Nat) :
    (s.refreshUnit n u).pkg.unsent = (s.recorded n u).pkg.unsent := by
  rw [State.refreshUnit]
  split
  · exact State.event_unsent _ _ _ _ _
  · rfl

theorem State.refreshUnit_sentOn (n : Nat) (s : State) (u : Nat) : SentOn s (s.refreshUnit n u) := by
  rw [State.refreshUnit]
  split
  · exact (SentOn.of_eq rfl).trans (State.event_sentOn (s.recorded n u) _ _ _ _)
  · exact SentOn.of_eq rfl

/-- What a refresh of the health record leaves alone: programs, contexts and partitions. -/
def State.beyondHealth (s : State) : (AMap Tile × List Host.Cell × List WriteRec) × AMap Context × AMap Partition :=
  (s.programs, s.ctxs, s.parts)

@[simp] theorem State.refreshUnit_beyondHealth (n : Nat) (s : State) (u : Nat) : (s.refreshUnit n u).beyondHealth = s.beyondHealth := by
  rw [State.refreshUnit]
  split
  · simp [State.beyondHealth, State.recorded]
  · rfl

@[simp] theorem State.refreshHealth_beyondHealth (s : State) : s.refreshHealth.beyondHealth = s.beyondHealth := by
  rw [State.refreshHealth_eq, foldl_keeps State.beyondHealth _ (fun s u => s.refreshUnit_beyondHealth _ u)]
  rfl

/-- What a refresh reads under a unit's number: the unit's entry, and the package that the entry is taken from. -/
def State.healthAt (s : State) (u : Nat) : Package × Health := (s.pkg.unrecorded, s.pkg.health.get {} u)

/-- The same once refresh n has come to the unit. -/
def refreshedAt (n u : Nat) (r : Package × Health) : Package × Health := (r.1, ({ pkg := r.1 } : State).entryOf u n r.2)

theorem State.refreshUnit_unrecorded (n : Nat) (s : State) (u : Nat) : (s.refreshUnit n u).pkg.unrecorded = s.pkg.unrecorded :=
  congrArg (fun p : Package => { p with health := [] }) (s.refreshUnit_unsent n u)

theorem State.refreshUnit_healthAt_same (n : Nat) (s : State) (u : Nat) :
    (s.refreshUnit n u).healthAt u = refreshedAt n u (s.healthAt u) := by
  have h := s.refreshUnit_unsent n u
  refine Prod.ext (s.refreshUnit_unrecorded n u) ?_
  have hentry := congrArg (fun p : Package => p.health.get {} u) h
  exact Eq.trans hentry (AMap.get_set_same {} s.pkg.health u _)

theorem State.refreshUnit_healthAt_other (n : Nat) (s : State) {u v : Nat} (hne : v ≠ u) :
    (s.refreshUnit n u).healthAt v = s.healthAt v := by
  have h := s.refreshUnit_unsent n u
  refine Prod.ext (s.refreshUnit_unrecorded n u) ?_
  have hentry := congrArg (fun p : Package => p.health.get {} v) h
  exact hentry.trans (AMap.get_set_other _ _ _ hne)

/-- Of the units below k, refresh n has come to each. -/
theorem State.foldl_refreshUnit_healthAt (n : Nat) (s : State) (u k : Nat) :
    ((List.range k).foldl (State.refreshUnit n) s).healthAt u =
      if u < k then refreshedAt n u (s.healthAt u) else s.healthAt u :=
  foldl_range_reads (read := State.healthAt) (fun s u => s.refreshUnit_healthAt_same n u)
    (fun s _ _ hne => s.refreshUnit_healthAt_other n hne) u s k

/-- A refresh leaves the package as it began it, but for the entries and the notices. -/
theorem State.refreshHealth_unrecorded (s : State) : s.refreshHealth.pkg.unrecorded = s.refreshing.pkg.unrecorded := by
  rw [State.refreshHealth_eq]
  exact foldl_keeps (fun s : State => s.pkg.unrecorded) _ (fun s u => s.refreshUnit_unrecorded _ u) _ _

theorem State.foldl_refreshUnit_entry (n : Nat) (s : State) {u k : Nat} (hu : u < k) :
    ((List.range k).foldl (State.refreshUnit n) s).pkg.health.get {} u = s.entryOf u n (s.pkg.health.get {} u) := by
  have h := congrArg Prod.snd (s.foldl_refreshUnit_healthAt n u k)
  rw [if_pos hu] at h
  exact h

theorem State.refreshHealth_entry (s : State) {u : Nat} (hu : u < 222) :
    s.refreshHealth.pkg.health.get {} u = s.entryOf u ((s.pkg.refreshes + 1) % 2 ^ 32) (s.pkg.health.get {} u) := by
  rw [State.refreshHealth_eq, State.foldl_refreshUnit_entry _ _ hu]
  rfl

/-- A count comes to each number below its bound, and goes on from there. -/
theorem foldl_range_at {α : Type} (f : α → Nat → α) (a : α) {k : Nat} : ∀ {n : Nat}, k < n →
    ∃ l, (List.range n).foldl f a = List.foldl f (f ((List.range k).foldl f a) k) l
  | n + 1, h => by
    rw [List.range_succ, List.foldl_append]
    rcases Nat.lt_succ_iff_lt_or_eq.mp h with hlt | rfl
    · obtain ⟨l, hl⟩ := foldl_range_at f a hlt
      exact ⟨l ++ [n], by rw [hl, List.foldl_append]⟩
    · exact ⟨[], rfl⟩

theorem State.foldl_refreshUnit_sentOn (n : Nat) (l : List Nat) (s : State) : SentOn s (l.foldl (State.refreshUnit n) s) :=
  List.foldlRecOn l _ (SentOn.of_eq rfl) (fun _ h u _ => h.trans (State.refreshUnit_sentOn n _ u))

theorem State.refreshHealth_sentOn (s : State) : SentOn s s.refreshHealth := by
  rw [State.refreshHealth_eq]
  exact (SentOn.of_eq (t := s.refreshing) rfl).trans (State.foldl_refreshUnit_sentOn _ _ _)

/-- R34: a unit whose estimate's low end falls below 720 hours is told of in the refresh that finds it so. -/
theorem State.refreshHealth_notice (s : State) {u : Nat} (hu : u < 222)
    (hind : (s.refreshHealth.pkg.health.get {} u).indicator ≠ 0) (hlow : (s.refreshHealth.pkg.health.get {} u).low < 720)
    (hold : (s.pkg.health.get {} u).noticed = false) :
    Event s s.refreshHealth 0 0x4006 0 (leBytes 2 u ++ leBytes 2 0 ++ leBytes 4 (s.refreshHealth.pkg.health.get {} u).low) := by
  obtain ⟨l, hl⟩ := foldl_range_at (State.refreshUnit ((s.pkg.refreshes + 1) % 2 ^ 32)) s.refreshing hu
  rw [s.refreshHealth_entry hu] at hind hlow ⊢
  have hat := s.refreshing.foldl_refreshUnit_healthAt ((s.pkg.refreshes + 1) % 2 ^ 32) u u
  have hsent := s.refreshing.foldl_refreshUnit_sentOn ((s.pkg.refreshes + 1) % 2 ^ 32) (List.range u)
  generalize (List.range u).foldl (State.refreshUnit ((s.pkg.refreshes + 1) % 2 ^ 32)) s.refreshing = s1 at hl hat hsent
  rw [if_neg (Nat.lt_irrefl u)] at hat
  obtain ⟨hpkg, hentry⟩ := Prod.mk.inj hat
  have hhealth : s1.healthOf u ((s.pkg.refreshes + 1) % 2 ^ 32) (s1.pkg.health.get {} u) =
      s.healthOf u ((s.pkg.refreshes + 1) % 2 ^ 32) (s.pkg.health.get {} u) := by
    rw [State.healthOf_congr hpkg, hentry, State.refreshing_healthOf, State.refreshing_health]
  have hold1 : (s1.pkg.health.get {} u).noticed = false := by rw [hentry, State.refreshing_health, hold]
  refine event_of_sentOn (s1 := s1.recorded ((s.pkg.refreshes + 1) % 2 ^ 32) u) ((SentOn.of_eq rfl).trans (hsent.trans (SentOn.of_eq rfl))) ?_
  have crossed : ((s1.healthOf u ((s.pkg.refreshes + 1) % 2 ^ 32) (s1.pkg.health.get {} u)).indicator != 0
      && decide ((s1.healthOf u ((s.pkg.refreshes + 1) % 2 ^ 32) (s1.pkg.health.get {} u)).low < 720)
      && !(s1.pkg.health.get {} u).noticed) = true := by
    rw [hhealth, hold1]
    simpa [State.entryOf] using And.intro hind hlow
  rw [State.refreshHealth_eq, hl, State.refreshUnit, if_pos crossed, hhealth]
  exact State.foldl_refreshUnit_sentOn _ _ _

/-! ## A unit's entry (R33 to R35) -/

/-- Of a list of predictions the smallest is one of them, and none is below it. -/
theorem smallestHealth_spec {l : List Health} (h : l ≠ []) :
    smallestHealth l ∈ l ∧ ∀ x ∈ l, (smallestHealth l).estimate ≤ x.estimate := by
  obtain ⟨a, r, rfl⟩ := List.exists_cons_of_ne_nil h
  induction r generalizing a with
  | nil => simp [smallestHealth]
  | cons x r ih =>
    by_cases hlt : x.estimate < a.estimate
    · have hnext : smallestHealth (a :: x :: r) = smallestHealth (x :: r) := by simp [smallestHealth, hlt]
      obtain ⟨hmem, hmin⟩ := ih x (List.cons_ne_nil _ _)
      rw [hnext]
      exact ⟨List.mem_cons_of_mem _ hmem, List.forall_mem_cons.mpr ⟨(hmin x List.mem_cons_self).trans hlt.le, hmin⟩⟩
    · have hnext : smallestHealth (a :: x :: r) = smallestHealth (a :: r) := by simp [smallestHealth, hlt]
      obtain ⟨hmem, hmin⟩ := ih a (List.cons_ne_nil _ _)
      obtain ⟨hfirst, hrest⟩ := List.forall_mem_cons.mp hmin
      rw [hnext]
      refine ⟨?_, List.forall_mem_cons.mpr ⟨hfirst, List.forall_mem_cons.mpr ⟨hfirst.trans (not_lt.mp hlt), hrest⟩⟩⟩
      rcases List.mem_cons.mp hmem with heq | hin
      · rw [heq]; exact List.mem_cons_self
      · exact List.mem_cons_of_mem _ (List.mem_cons_of_mem _ hin)

/-- R32: the unit that a unit's estimate comes from has indicators. -/
theorem unitIndicators_healthUnit {u : Nat} (h : u < 222) : unitIndicators (healthUnit u) ≠ [] := by
  unfold healthUnit
  split
  case isTrue hdie =>
    have hlt : unitDie u < 9 := by
      rcases hdie with ⟨hlo, hhi⟩ | rfl
      · rw [unitDie, if_neg (by omega), if_pos hhi]
        omega
      · decide
    simp [unitIndicators, hlt]
  case isFalse hown =>
    by_cases hd : u < 9
    · simp [unitIndicators, hd]
    · by_cases hs : u < 93
      · simp [unitIndicators, hd, hs, show ¬ u < 81 by omega]
      · simp [unitIndicators, hd, hs, show ¬ u < 81 by omega, show u < 221 by omega]

/-- The three fields of an entry and the indicator they name. -/
def Health.reported (h : Health) : (Nat × Nat × Nat) × Nat := ((h.estimate, h.low, h.high), h.indicator)

theorem State.entryOf_reported (s : State) (u n : Nat) (old : Health) : (s.entryOf u n old).reported =
    if s.unit u = .failed then ((0, 0, 0), 0) else (s.ownHealth (healthUnit u) n).reported := by
  by_cases h : s.unit u = .failed
  · simp [State.entryOf, State.healthOf, Health.reported, h]
  · simp [State.entryOf, State.healthOf, Health.reported, h]

/-- R33: what one of a unit's indicators predicts are its wear fields. -/
theorem State.wearOf_reported (s : State) (d n i : Nat) : (s.wearOf d n i).reported = (wearFields s d n i, i) := rfl

/-- R33: a unit in service past its first 168 hours has the fields of one of its indicators, of which none predicts less. -/
theorem State.ownHealth_inService (s : State) {d n : Nat} (hfail : s.unit d ≠ .failed) (hin : Config.inService d n = true)
    (hind : unitIndicators d ≠ []) : (s.ownHealth d n).indicator ∈ unitIndicators d ∧
    (s.ownHealth d n).reported.1 = wearFields s d n (s.ownHealth d n).indicator ∧
    ∀ i ∈ unitIndicators d, (s.ownHealth d n).estimate ≤ (wearFields s d n i).1 := by
  have hown : s.ownHealth d n = smallestHealth ((unitIndicators d).map (s.wearOf d n)) := by
    simp [State.ownHealth, hfail, hin]
  obtain ⟨hmem, hmin⟩ := smallestHealth_spec (l := (unitIndicators d).map (s.wearOf d n)) (by simpa using hind)
  rw [← hown] at hmem hmin
  obtain ⟨i, hi, heq⟩ := List.mem_map.mp hmem
  rw [← heq] at hmin ⊢
  exact ⟨hi, rfl, fun j hj => hmin _ (List.mem_map_of_mem hj)⟩

/-- R33 to R35: the entry a refresh leaves has the fields that are due. -/
theorem State.entryOf_fields (s : State) {u : Nat} (hu : u < 222) (n : Nat) (old : Health) :
    HealthFields s u n (s.entryOf u n old) := by
  have hrep := s.entryOf_reported u n old
  refine ⟨fun hfail => ?_, fun hu' hd hout => ?_, fun hu' hd hin => ?_⟩
  · refine Prod.mk.inj (hrep.trans ?_)
    split
    · rfl
    · rename_i hu'
      have hd : s.unit (healthUnit u) = .failed := hfail.resolve_left hu'
      simp [State.ownHealth, hd, Health.reported]
  · refine Prod.mk.inj (hrep.trans ?_)
    rw [if_neg hu']
    simp [State.ownHealth, hd, hout, Health.reported]
  · rw [if_neg hu'] at hrep
    obtain ⟨hfields, hindicator⟩ := Prod.mk.inj hrep
    obtain ⟨hmem, hwear, hmin⟩ := s.ownHealth_inService hd hin (unitIndicators_healthUnit hu)
    refine ⟨hindicator ▸ hmem, ?_, fun i hi => ?_⟩
    · rw [hindicator]
      exact hfields.trans hwear
    · exact (congrArg Prod.fst hfields).trans_le (hmin i hi)

/-- What a unit's change and a refresh set in the package: the units' states, the map's number, and the record's two counts. -/
def Package.readiness (p : Package) : AMap UnitState × Nat × Nat × Nat := (p.units, p.mapSeq, p.refreshes, p.healthSeq)

theorem Package.readiness_congr {p q : Package} (h : p.unrecorded = q.unrecorded) : p.readiness = q.readiness :=
  (congrArg Package.readiness h :)

theorem State.refreshHealth_readiness (s : State) : s.refreshHealth.pkg.readiness =
    (s.pkg.units, s.pkg.mapSeq, (s.pkg.refreshes + 1) % 2 ^ 32, s.pkg.mapSeq) :=
  (Package.readiness_congr s.refreshHealth_unrecorded).trans rfl

/-- The package with a wear sample of one of a unit's indicators (R32). -/
def Package.worn (p : Package) (u ind : Nat) (v : WearReading) : Package := { p with
  wear := p.wear.set (8 * u + ind) ((v.values :: p.wear.get [] (8 * u + ind)).take (samplesKept ind))
  duty := if ind = 4 then p.duty else p.duty.set u ((v.duty :: p.duty.get [] u).take (samplesKept ind)) }

theorem exec_wearSample (s : State) (u ind : Nat) (v : WearReading) :
    exec (.wearSample u ind v) s = .next (if ind ∈ unitIndicators u then s.modPkg (fun p => p.worn u ind v) else s) := by
  change execWearSample u ind v s = _
  simp only [execWearSample, engine, List.contains_iff_mem]
  rfl

/-- R32 to R34: a refresh of the health record, and a wear sample. -/
theorem healthRecordIsRefreshed : Rules.HealthRecordIsRefreshed := by
  refine ⟨fun s => ?_, fun s u ind v hind => ?_, fun s u ind v hind => ?_⟩
  · obtain ⟨hunits, hreadiness⟩ := Prod.mk.inj s.refreshHealth_readiness
    obtain ⟨hseq, hcounts⟩ := Prod.mk.inj hreadiness
    obtain ⟨hrefreshes, hhealth⟩ := Prod.mk.inj hcounts
    obtain ⟨hprograms, -⟩ := Prod.mk.inj s.refreshHealth_beyondHealth
    refine ⟨s.refreshHealth, rfl, hrefreshes, hhealth, fun u => by rw [State.unit, hunits, State.unit], hseq,
      programsKept_of_programs hprograms, fun u hu => ⟨?_, s.refreshHealth_notice hu⟩⟩
    rw [hrefreshes, s.refreshHealth_entry hu]
    exact s.entryOf_fields hu _ _
  · refine ⟨_, (exec_wearSample s u ind v).trans (by rw [if_pos hind]), rfl, AMap.get_set_same _ _ _ _,
      fun k hk => AMap.get_set_other _ _ _ hk, ?_, fun k hk => ?_⟩
    all_goals simp only [State.modPkg_pkg, Package.worn]
    · by_cases h4 : ind = 4
      · rw [if_pos h4, if_pos h4]
      · rw [if_neg h4, if_neg h4, AMap.get_set_same, samplesKept, if_neg h4]
    · split
      · rfl
      · exact AMap.get_set_other _ _ _ hk
  · exact (exec_wearSample s u ind v).trans (by rw [if_neg hind])

/-! ## A unit's change (R29, R30) -/

/-- The machine with a unit's state changed and the map's number risen, before the host is told. -/
def State.mapped (s : State) (u : Nat) (x : UnitState) : State :=
  s.modPkg (fun p => { p with units := p.units.set u x, mapSeq := (p.mapSeq + 1) % 2 ^ 32 })

/-- The readiness event of that change sent. -/
def State.mapTold (s : State) (u : Nat) (x : UnitState) : State := (s.mapped u x).event 0 0x4005 0 (s.mapped u x).mapBytes

theorem State.setUnit_eq (s : State) (u : Nat) (x : UnitState) : s.setUnit u x = (s.mapTold u x).refreshHealth := rfl

theorem Package.readiness_of_unsent {p q : Package} (h : p.unsent = q.unsent) : p.readiness = q.readiness :=
  (congrArg Package.readiness h :)

/-- The map gives the units' states and the map's number. -/
theorem State.mapBytes_congr {s t : State} (hunits : t.pkg.units = s.pkg.units) (hseq : t.pkg.mapSeq = s.pkg.mapSeq) :
    t.mapBytes = s.mapBytes := by
  simp only [State.mapBytes, State.mapBits, State.unit, hunits, hseq]

theorem State.setUnit_readiness (s : State) (u : Nat) (x : UnitState) : (s.setUnit u x).pkg.readiness =
    (s.pkg.units.set u x, (s.pkg.mapSeq + 1) % 2 ^ 32, (s.pkg.refreshes + 1) % 2 ^ 32, (s.pkg.mapSeq + 1) % 2 ^ 32) := by
  have h := Package.readiness_of_unsent ((s.mapped u x).event_unsent 0 0x4005 0 (s.mapped u x).mapBytes)
  obtain ⟨hunits, hrest⟩ := Prod.mk.inj h
  obtain ⟨hseq, hcounts⟩ := Prod.mk.inj hrest
  obtain ⟨hrefreshes, -⟩ := Prod.mk.inj hcounts
  rw [State.setUnit_eq, State.refreshHealth_readiness, State.mapTold, hunits, hseq, hrefreshes]
  rfl

@[simp] theorem State.setUnit_beyondHealth (s : State) (u : Nat) (x : UnitState) : (s.setUnit u x).beyondHealth = s.beyondHealth := by
  rw [State.setUnit_eq, State.refreshHealth_beyondHealth]
  simp [State.beyondHealth, State.mapTold, State.mapped]

theorem State.setUnit_programs (s : State) (u : Nat) (x : UnitState) : (s.setUnit u x).programs = s.programs :=
  (Prod.mk.inj (s.setUnit_beyondHealth u x)).1

theorem State.setUnit_sentOn (s : State) (u : Nat) (x : UnitState) : SentOn s (s.setUnit u x) := by
  rw [State.setUnit_eq]
  exact (SentOn.of_eq (t := s.mapped u x) rfl).trans ((State.event_sentOn _ _ _ _ _).trans (State.refreshHealth_sentOn _))

/-- R30: a unit's change tells the host the map as it then stands. -/
theorem State.setUnit_event (s : State) (u : Nat) (x : UnitState) : Event s (s.setUnit u x) 0 0x4005 0 (s.setUnit u x).mapBytes := by
  obtain ⟨hunits, hrest⟩ := Prod.mk.inj (s.setUnit_readiness u x)
  obtain ⟨hseq, -⟩ := Prod.mk.inj hrest
  rw [State.mapBytes_congr (s := s.mapped u x) hunits hseq]
  exact event_of_sentOn (s1 := s.mapped u x) (SentOn.of_eq rfl) (State.refreshHealth_sentOn (s.mapTold u x))

/-- A unit has changed where the package is as its change leaves it, whatever has been sent before and since. -/
theorem unitChanged_of_setUnit {s s1 t : State} {u : Nat} {x : UnitState} (hbefore : SentOn s s1)
    (hs1 : s1.pkg.readiness = s.pkg.readiness) (ht : t.pkg.readiness = (s1.setUnit u x).pkg.readiness)
    (hafter : SentOn (s1.setUnit u x) t) : UnitChanged s t u x := by
  rw [State.setUnit_readiness] at ht
  obtain ⟨hunits, hrest⟩ := Prod.mk.inj ht
  obtain ⟨hseq, hcounts⟩ := Prod.mk.inj hrest
  obtain ⟨hrefreshes, hhealth⟩ := Prod.mk.inj hcounts
  obtain ⟨hunits1, hrest1⟩ := Prod.mk.inj hs1
  obtain ⟨hseq1, hcounts1⟩ := Prod.mk.inj hrest1
  obtain ⟨hrefreshes1, -⟩ := Prod.mk.inj hcounts1
  have hmap : t.mapBytes = (s1.setUnit u x).mapBytes := by
    obtain ⟨hu, hr⟩ := Prod.mk.inj (s1.setUnit_readiness u x)
    exact State.mapBytes_congr (hunits.trans hu.symm) (hseq.trans (Prod.mk.inj hr).1.symm)
  refine ⟨?_, fun v hv => ?_, by rw [hseq, hseq1], ?_, by rw [hrefreshes, hrefreshes1], hhealth.trans hseq.symm⟩
  · rw [State.unit, hunits, AMap.get_set_same]
  · rw [State.unit, hunits, AMap.get_set_other _ _ _ hv, hunits1, State.unit]
  · rw [hmap]
    exact (s1.setUnit_event u x).within hbefore hafter

theorem State.setUnit_changed (s : State) (u : Nat) (x : UnitState) : UnitChanged s (s.setUnit u x) u x :=
  unitChanged_of_setUnit (SentOn.of_eq rfl) rfl rfl (SentOn.of_eq rfl)

/-! ## What a refusal and a fatal cause leave -/

/-- Numbered data with a value kept: every entry stands but the one that was read under the number. -/
theorem AMap.mem_set_of_mem {α : Type} (d : α) (k : Nat) (v : α) : ∀ {m : AMap α} {p : Nat × α}, p ∈ m →
    p ∈ AMap.set m k v ∨ (p = (k, AMap.get d m k) ∧ (k, v) ∈ AMap.set m k v)
  | (j, w) :: r, p, h => by
    rw [AMap.set, AMap.get]
    by_cases hkj : k = j
    · rw [if_pos hkj, if_pos hkj]
      rcases List.mem_cons.mp h with rfl | hr
      · exact .inr ⟨by rw [hkj], List.mem_cons_self⟩
      · exact .inl (List.mem_cons_of_mem _ hr)
    · rw [if_neg hkj, if_neg hkj]
      by_cases hlt : k < j
      · rw [if_pos hlt]
        exact .inl (List.mem_cons_of_mem _ h)
      · rw [if_neg hlt]
        rcases List.mem_cons.mp h with rfl | hr
        · exact .inl List.mem_cons_self
        · rcases AMap.mem_set_of_mem d k v hr with hin | ⟨heq, hin⟩
          · exact .inl (List.mem_cons_of_mem _ hin)
          · exact .inr ⟨heq, List.mem_cons_of_mem _ hin⟩

theorem State.mem_residents {s : State} {pt c : Nat} :
    c ∈ s.residents pt ↔ c ≠ 0 ∧ ∃ x, (c, x) ∈ s.ctxs ∧ x.live = true ∧ x.part = pt := by
  constructor
  · intro h
    obtain ⟨⟨k, x⟩, hmem, rfl⟩ := List.mem_map.mp h
    obtain ⟨hin, hres⟩ := List.mem_filter.mp hmem
    simp only [Bool.and_eq_true, bne_iff_ne, beq_iff_eq] at hres
    obtain ⟨⟨hne, hlive⟩, hpart⟩ := hres
    exact ⟨hne, x, hin, hlive, hpart⟩
  · rintro ⟨hne, x, hin, hlive, hpart⟩
    exact List.mem_map.mpr ⟨(c, x), List.mem_filter.mpr ⟨hin, by simp [hne, hlive, hpart]⟩, rfl⟩

/-- A context that stays live in its partition stays resident there, and so do the others. -/
theorem State.residents_modCtx {s : State} {e : Nat} {f : Context → Context} (hlive : (f (s.ctx e)).live = (s.ctx e).live)
    (hpart : (f (s.ctx e)).part = (s.ctx e).part) {pt c : Nat} (h : c ∈ s.residents pt) : c ∈ (s.modCtx e f).residents pt := by
  obtain ⟨hne, x, hin, hl, hp⟩ := State.mem_residents.mp h
  refine State.mem_residents.mpr ⟨hne, ?_⟩
  rcases AMap.mem_set_of_mem {} e (f (s.ctx e)) hin with hset | ⟨heq, hset⟩
  · exact ⟨x, hset, hl, hp⟩
  · obtain ⟨rfl, rfl⟩ := Prod.mk.inj heq
    exact ⟨_, hset, hlive.trans hl, hpart.trans hp⟩

/-- Between two states the readiness of units stands, messages are sent at most, and partitions and residents stand. -/
structure Aside (s t : State) : Prop where
  readiness : t.pkg.readiness = s.pkg.readiness
  sent : SentOn s t
  parts : t.parts = s.parts
  residents : ∀ pt c, c ∈ s.residents pt → c ∈ t.residents pt

theorem Aside.trans {s t u : State} (h : Aside s t) (g : Aside t u) : Aside s u :=
  ⟨g.readiness.trans h.readiness, h.sent.trans g.sent, g.parts.trans h.parts, fun pt c hc => g.residents pt c (h.residents pt c hc)⟩

/-- A step that changes no context and no partition. -/
theorem Aside.of_ctxs {s t : State} (hready : t.pkg.readiness = s.pkg.readiness) (hsent : SentOn s t) (hparts : t.parts = s.parts)
    (hctxs : t.ctxs = s.ctxs) : Aside s t :=
  ⟨hready, hsent, hparts, fun pt c h => by rwa [State.residents, hctxs]⟩

theorem Aside.modCtx (s : State) (e : Nat) {f : Context → Context} (hlive : (f (s.ctx e)).live = (s.ctx e).live)
    (hpart : (f (s.ctx e)).part = (s.ctx e).part) : Aside s (s.modCtx e f) :=
  ⟨rfl, SentOn.of_eq rfl, rfl, fun _ _ h => State.residents_modCtx hlive hpart h⟩

theorem Aside.event (s : State) (e y c : Nat) (b : List Byte) : Aside s (s.event e y c b) :=
  .of_ctxs (Package.readiness_of_unsent (s.event_unsent e y c b)) (s.event_sentOn e y c b) (by simp) (by simp)

/-! ## Stores refused at a failed unit (R346) -/

/-- What a fatal cause changes of a context, and a refused store does not: its state, its fault and the stop it is to make. -/
def Context.standing (x : Context) : CtxState × Option FaultRec × Option CtxState := (x.state, x.fault, x.stopTo)

/-- A refusal: aside of readiness, with every context standing as it did. -/
def Refusing (s t : State) : Prop := Aside s t ∧ ∀ c, (t.ctx c).standing = (s.ctx c).standing

theorem Refusing.trans {s t u : State} (h : Refusing s t) (g : Refusing t u) : Refusing s u :=
  ⟨h.1.trans g.1, fun c => (g.2 c).trans (h.2 c)⟩

theorem Refusing.of_ctxs {s t : State} (hready : t.pkg.readiness = s.pkg.readiness) (hsent : SentOn s t) (hparts : t.parts = s.parts)
    (hctxs : t.ctxs = s.ctxs) : Refusing s t :=
  ⟨.of_ctxs hready hsent hparts hctxs, fun c => by rw [State.ctx, hctxs, State.ctx]⟩

/-- A step that changes neither package nor contexts nor partitions. -/
theorem Refusing.of_pkg {s t : State} (hpkg : t.pkg = s.pkg) (hparts : t.parts = s.parts) (hctxs : t.ctxs = s.ctxs) : Refusing s t :=
  .of_ctxs (by rw [hpkg]) (.of_eq (by rw [hpkg])) hparts hctxs

/-- A step that changes the package alone, beside readiness and what has been sent. -/
theorem Refusing.modPkg (s : State) {f : Package → Package} (hready : (f s.pkg).readiness = s.pkg.readiness)
    (hsent : (f s.pkg).sent = s.pkg.sent) : Refusing s (s.modPkg f) := .of_ctxs hready (.of_eq hsent) rfl rfl

theorem Refusing.modCtx (s : State) (e : Nat) {f : Context → Context} (hlive : (f (s.ctx e)).live = (s.ctx e).live)
    (hpart : (f (s.ctx e)).part = (s.ctx e).part) (hstand : (f (s.ctx e)).standing = (s.ctx e).standing) : Refusing s (s.modCtx e f) := by
  refine ⟨.modCtx s e hlive hpart, fun c => ?_⟩
  by_cases h : c = e
  · subst h; rw [State.ctx_modCtx_same, hstand]
  · rw [State.ctx_modCtx_other _ _ h]

theorem Refusing.event (s : State) (e y c : Nat) (b : List Byte) : Refusing s (s.event e y c b) :=
  .of_ctxs (Aside.event s e y c b).readiness (s.event_sentOn e y c b) (by simp) (by simp)

theorem Refusing.storeFailEvent (s : State) (c : Nat) (g : Option (Nat × Nat)) (f : FailRec) : Refusing s (s.storeFailEvent c g f) :=
  (Refusing.event _ _ _ _ _).trans (.event _ _ _ _ _)

theorem Refusing.failStore (s : State) (c t n part : Nat) (g : Option (Nat × Nat)) (k : FailKind) (a : Nat) :
    Refusing s (s.failStore c t n part g k a) := by
  unfold State.failStore
  dsimp only
  split
  · split
    · exact .modCtx s c rfl rfl rfl
    · exact .storeFailEvent s _ _ _
  · split
    · exact .of_pkg rfl rfl rfl
    · exact .storeFailEvent s _ _ _

theorem Refusing.dropWrite (s : State) (i : Nat) : Refusing s (s.dropWrite i) := .of_pkg (by simp) (by simp) (by simp)

theorem Refusing.modPort (s : State) (p : Nat) (f : LinkPort → LinkPort) : Refusing s (s.modPort p f) := .modPkg s rfl rfl

theorem Refusing.sendReply (s : State) (p : Nat) (f : Flit) (w : List Nat) : Refusing s (s.sendReply p f w) := .modPort s _ _

theorem Refusing.qpError (s : State) (vf qp : Nat) : Refusing s (s.qpError vf qp) :=
  .of_ctxs rfl (.of_eq rfl) rfl rfl

theorem Refusing.refl (s : State) : Refusing s s := .of_pkg rfl rfl rfl

theorem Refusing.refuseJobs (s : State) (i : Nat) : Refusing s (s.refuseJobs i) := by
  unfold State.refuseJobs
  refine List.foldlRecOn _ _ (.refl s) (fun t h q _ => h.trans ?_)
  split
  · split
    · exact .qpError t _ _
    · exact .refl t
  · split
    · exact .qpError t _ _
    · exact .refl t
  · exact .refl t

theorem Refusing.answer (s : State) (r : MemReq) (n data : Nat) (past : List Nat) (rmw : Bool) : Refusing s (s.answer r n data past rmw) := by
  unfold State.answer
  split
  · dsimp only
    split
    · exact (Refusing.sendReply s _ _ _).trans (.modPort _ _ _)
    · exact .sendReply s _ _ _
  · unfold State.hostGot
    split
    · exact .modPkg s rfl rfl
    · exact .refl s
  · exact .of_pkg rfl rfl rfl

theorem Refusing.refuseReq (s : State) (r : MemReq) : Refusing s (s.refuseReq r) := by
  have hfail (t n : Nat) := (Refusing.failStore s r.ctx t n r.part r.stage .refused r.va).trans (.dropWrite _ r.id)
  unfold State.refuseReq
  dsimp only
  split
  · exact hfail _ _
  · exact ((hfail _ _).trans (.answer _ _ _ _ _ _)).trans (.of_pkg rfl rfl rfl)
  · split
    · exact ((hfail _ _).trans (.answer _ _ _ _ _ _)).trans (.of_pkg rfl rfl rfl)
    · exact hfail _ _
  · exact ((Refusing.dropWrite s _).trans (.modPkg _ rfl rfl)).trans (.refuseJobs _ _)
  · exact ((Refusing.dropWrite s _).trans (.modPkg _ rfl rfl)).trans (.refuseJobs _ _)
  · exact (Refusing.dropWrite s _).trans (.sendReply _ _ _ _)

theorem Refusing.refuseAt (s : State) (u : Nat) : Refusing s (s.refuseAt u) := by
  unfold State.refuseAt
  dsimp only
  exact List.foldlRecOn _ _ (.of_pkg rfl rfl rfl) (fun t h r _ => h.trans (.refuseReq t r))

/-! ## UNITFAIL (R29, R378, R386) -/

/-- A fatal cause as it reaches a context: a running one is to be stopped, one that stands still is faulted at once. -/
def Context.struck (x : Context) (r : FaultRec) : Context :=
  match x.state with
  | .running => { x with
      fault := some (x.fault.getD r), stopTo := some .faulted,
      stopCause := if x.stopTo = some .faulted then x.stopCause else (x.fault.getD r).cause }
  | .faulted => x
  | .ready | .guttered => { x with fault := some (x.fault.getD r), state := .faulted, recordDue := true }

theorem State.modCtx_congr (s : State) (c : Nat) {f g : Context → Context} (h : f (s.ctx c) = g (s.ctx c)) :
    s.modCtx c f = s.modCtx c g := by
  rw [State.modCtx, h, State.modCtx]

/-- R378, R386: all a fatal cause can do to a context but context 0. -/
theorem State.fatal_cases (s : State) {c : Nat} (r : FaultRec) (hc : c ≠ 0) :
    (s.fatal c r = s ∧ (s.ctx c).struck r = s.ctx c) ∨ s.fatal c r = s.modCtx c (fun x => x.struck r) ∨
    s.fatal c r = (s.modCtx c (fun x => x.struck r)).sendFault c ((s.ctx c).fault.getD r) := by
  unfold State.fatal
  dsimp only
  cases hstate : (s.ctx c).state with
  | running => exact .inr (.inl (s.modCtx_congr c (by simp only [Context.struck, hstate])))
  | faulted => exact .inl ⟨rfl, by simp only [Context.struck, hstate]⟩
  | ready =>
    simp only [if_neg hc]
    exact .inr (.inr (congrArg (fun t : State => t.sendFault c _) (s.modCtx_congr c (by simp only [Context.struck, hstate]))))
  | guttered =>
    simp only [if_neg hc]
    exact .inr (.inr (congrArg (fun t : State => t.sendFault c _) (s.modCtx_congr c (by simp only [Context.struck, hstate]))))

theorem State.fatal_ctx_same (s : State) {c : Nat} (r : FaultRec) (hc : c ≠ 0) : (s.fatal c r).ctx c = (s.ctx c).struck r := by
  rcases s.fatal_cases r hc with ⟨h, hstruck⟩ | h | h
  · rw [h, hstruck]
  · rw [h, State.ctx_modCtx_same]
  · rw [h, State.ctx, State.sendFault_ctxs]
    exact s.ctx_modCtx_same c _

theorem State.fatal_ctx_other (s : State) {c e : Nat} (r : FaultRec) (hc : c ≠ 0) (hne : e ≠ c) : (s.fatal c r).ctx e = s.ctx e := by
  rcases s.fatal_cases r hc with ⟨h, -⟩ | h | h
  · rw [h]
  · rw [h, State.ctx_modCtx_other _ _ hne]
  · rw [h, State.ctx, State.sendFault_ctxs]
    exact s.ctx_modCtx_other _ hne

theorem Context.struck_live (x : Context) (r : FaultRec) : (x.struck r).live = x.live := by
  unfold Context.struck
  split <;> rfl

theorem Context.struck_part (x : Context) (r : FaultRec) : (x.struck r).part = x.part := by
  unfold Context.struck
  split <;> rfl

theorem Aside.fatal (s : State) {c : Nat} (r : FaultRec) (hc : c ≠ 0) : Aside s (s.fatal c r) := by
  have hmod : Aside s (s.modCtx c (fun x => x.struck r)) := .modCtx s c (Context.struck_live _ r) (Context.struck_part _ r)
  rcases s.fatal_cases r hc with ⟨h, -⟩ | h | h
  · rw [h]
    exact (Refusing.refl s).1
  · rwa [h]
  · rw [h]
    exact hmod.trans ((Aside.event _ _ _ _ _).trans (.event _ _ _ _ _))

/-- R29, R378: what a unit's failure leaves of a context that stood as x0: its fault is UNITFAIL where it had none, and it is faulted, or
running and to be stopped so. -/
def UnitFailed (x0 x : Context) : Prop :=
  (x0.state ≠ .faulted → x0.fault = none → ∃ r, x.fault = some r ∧ r.cause = 0x47) ∧
  (x0.state = .running → x.state = .running ∧ x.stopTo = some .faulted) ∧
  (x0.state = .ready ∨ x0.state = .guttered → x.state = .faulted)

/-- The failure depends on how the context stood and stands, and on nothing else of it. -/
theorem UnitFailed.congr {x0 y0 x y : Context} (h : UnitFailed x0 x) (h0 : y0.standing = x0.standing) (h1 : y.standing = x.standing) :
    UnitFailed y0 y := by
  simp only [Context.standing, Prod.mk.injEq] at h0 h1
  obtain ⟨hs0, hf0, ht0⟩ := h0
  obtain ⟨hs1, hf1, ht1⟩ := h1
  unfold UnitFailed at h ⊢
  rwa [hs0, hf0, hs1, hf1, ht1]

theorem unitFailed_struck (x : Context) {r : FaultRec} (hr : r.cause = 0x47) : UnitFailed x (x.struck r) := by
  unfold UnitFailed Context.struck
  cases hstate : x.state <;> simp +contextual [hstate, hr]

/-- A context that has failed so fails no further. -/
theorem UnitFailed.struck {x0 x : Context} (h : UnitFailed x0 x) (r : FaultRec) : UnitFailed x0 (x.struck r) := by
  obtain ⟨hfault, hrun, hstill⟩ := h
  have hx (hne : x0.state ≠ .faulted) : x.state = .running ∨ x.state = .faulted := by
    cases h0 : x0.state with
    | running => exact .inl (hrun h0).1
    | faulted => exact absurd h0 hne
    | ready => exact .inr (hstill (.inl h0))
    | guttered => exact .inr (hstill (.inr h0))
  refine ⟨fun hne hnone => ?_, fun h0 => ?_, fun h0 => ?_⟩
  · obtain ⟨q, hq, hcause⟩ := hfault hne hnone
    rcases hx hne with hstate | hstate
    · exact ⟨q, by simp [Context.struck, hstate, hq], hcause⟩
    · exact ⟨q, by simp [Context.struck, hstate, hq], hcause⟩
  · obtain ⟨hstate, hstop⟩ := hrun h0
    simp [Context.struck, hstate]
  · have hstate := hstill h0
    simp [Context.struck, hstate]

/-- One context of a partition told of the failure of unit u. -/
def State.unitFaultAt (u : Nat) (s : State) (c : Nat) : State :=
  if (s.ctx c).state == .running && (s.ctx c).stopTo != some .faulted then
    (s.fatal c { cause := 0x47, trapv := w64 u }).modCtx c (fun x => { x with stopCause := 3 })
  else s.fatal c { cause := 0x47, trapv := w64 u }

theorem State.unitFault_eq (s : State) (pt u : Nat) : s.unitFault pt u = (s.residents pt).foldl (State.unitFaultAt u) s := rfl

theorem Aside.unitFaultAt (u : Nat) (s : State) {c : Nat} (hc : c ≠ 0) : Aside s (s.unitFaultAt u c) := by
  unfold State.unitFaultAt
  split
  · exact (Aside.fatal s _ hc).trans (.modCtx _ _ rfl rfl)
  · exact .fatal s _ hc

theorem State.unitFaultAt_standing_same (u : Nat) (s : State) {c : Nat} (hc : c ≠ 0) :
    ((s.unitFaultAt u c).ctx c).standing = ((s.ctx c).struck { cause := 0x47, trapv := w64 u }).standing := by
  unfold State.unitFaultAt
  split
  · rw [State.ctx_modCtx_same, s.fatal_ctx_same _ hc]
    rfl
  · rw [s.fatal_ctx_same _ hc]

theorem State.unitFaultAt_ctx_other (u : Nat) (s : State) {c e : Nat} (hc : c ≠ 0) (h : e ≠ c) :
    (s.unitFaultAt u c).ctx e = s.ctx e := by
  unfold State.unitFaultAt
  split
  · rw [State.ctx_modCtx_other _ _ h, s.fatal_ctx_other _ hc h]
  · rw [s.fatal_ctx_other _ hc h]

/-- A context that stands as it did, or has failed with the unit. -/
def StandsOrFailed (x0 x : Context) : Prop := x.standing = x0.standing ∨ UnitFailed x0 x

/-- A context told of a unit's failure has failed with it. -/
theorem StandsOrFailed.told {x0 : Context} {s : State} {c : Nat} (u : Nat) (hc : c ≠ 0) (h : StandsOrFailed x0 (s.ctx c)) :
    UnitFailed x0 ((s.unitFaultAt u c).ctx c) := by
  have hstand := s.unitFaultAt_standing_same u hc
  rcases h with hstood | hfailed
  · exact (unitFailed_struck (s.ctx c) rfl).congr hstood.symm hstand
  · exact (hfailed.struck _).congr rfl hstand

/-- Between two states a unit's failure goes on: what stood stands or has failed, and what has failed has. -/
structure Failing (s t : State) : Prop extends Aside s t where
  stands : ∀ e x0, StandsOrFailed x0 (s.ctx e) → StandsOrFailed x0 (t.ctx e)
  failed : ∀ e x0, UnitFailed x0 (s.ctx e) → UnitFailed x0 (t.ctx e)

theorem Failing.refl (s : State) : Failing s s := ⟨(Refusing.refl s).1, fun _ _ => id, fun _ _ => id⟩

theorem Failing.trans {s t u : State} (h : Failing s t) (g : Failing t u) : Failing s u :=
  ⟨h.toAside.trans g.toAside, fun e x0 hs => g.stands e x0 (h.stands e x0 hs), fun e x0 hf => g.failed e x0 (h.failed e x0 hf)⟩

theorem Failing.unitFaultAt (u : Nat) (s : State) {c : Nat} (hc : c ≠ 0) : Failing s (s.unitFaultAt u c) := by
  refine ⟨.unitFaultAt u s hc, fun e x0 h => ?_, fun e x0 h => ?_⟩
  · by_cases he : e = c
    · subst he
      exact .inr (h.told u hc)
    · rwa [s.unitFaultAt_ctx_other u hc he]
  · by_cases he : e = c
    · subst he
      exact StandsOrFailed.told u hc (.inr h)
    · rwa [s.unitFaultAt_ctx_other u hc he]

/-- A count over a list comes to each of its members, by steps that all keep a relation. -/
theorem foldl_at {α β : Type} {R : α → α → Prop} (refl : ∀ a, R a a) (trans : ∀ {a b c}, R a b → R b c → R a c) {f : α → β → α}
    {l : List β} (step : ∀ b ∈ l, ∀ a, R a (f a b)) {b : β} (hb : b ∈ l) (a : α) : ∃ a1, R a a1 ∧ R (f a1 b) (l.foldl f a) := by
  obtain ⟨before, after, rfl⟩ := List.append_of_mem hb
  refine ⟨before.foldl f a, ?_, ?_⟩
  · exact List.foldlRecOn _ _ (refl a) (fun x h c hc => trans h (step c (List.mem_append_left _ hc) x))
  · rw [List.foldl_append, List.foldl_cons]
    exact List.foldlRecOn _ _ (refl _) (fun x h c hc => trans h (step c (List.mem_append_right _ (List.mem_cons_of_mem _ hc)) x))

theorem ne_zero_of_mem_residents {s : State} {pt c : Nat} (h : c ∈ s.residents pt) : c ≠ 0 := (State.mem_residents.mp h).1

theorem Failing.unitFault (s : State) (pt u : Nat) : Failing s (s.unitFault pt u) := by
  rw [State.unitFault_eq]
  exact List.foldlRecOn _ _ (.refl s) (fun t h c hc => h.trans (.unitFaultAt u t (ne_zero_of_mem_residents hc)))

theorem State.unitFault_told (s : State) {pt c : Nat} (u : Nat) {x0 : Context} (hc : c ∈ s.residents pt)
    (h : StandsOrFailed x0 (s.ctx c)) : UnitFailed x0 ((s.unitFault pt u).ctx c) := by
  obtain ⟨s1, hbefore, hafter⟩ := foldl_at Failing.refl Failing.trans
    (fun e he t => Failing.unitFaultAt u t (ne_zero_of_mem_residents he)) hc s
  rw [State.unitFault_eq]
  exact hafter.failed c x0 ((hbefore.stands c x0 h).told u (ne_zero_of_mem_residents hc))

/-- The partition p told of unit u's failure where it holds the unit. -/
def State.partFault (u : Nat) (s : State) (p : Nat × Partition) : State := if p.2.units.contains u then s.unitFault p.1 u else s

theorem State.failUnit_eq (s : State) (u : Nat) : s.failUnit u =
    ((s.setUnit u .failed).refuseAt u).formedParts.foldl (State.partFault u) ((s.setUnit u .failed).refuseAt u) := rfl

theorem Failing.partFault (u : Nat) (s : State) (p : Nat × Partition) : Failing s (s.partFault u p) := by
  unfold State.partFault
  split
  · exact .unitFault s p.1 u
  · exact .refl s

/-- Partitions told one after another: the residents of those that hold the unit have failed. -/
theorem foldl_partFault_told {u c : Nat} {x0 : Context} {l : List (Nat × Partition)} {p : Nat × Partition} (hp : p ∈ l)
    (hu : u ∈ p.2.units) {s : State} (hc : c ∈ s.residents p.1) (h : StandsOrFailed x0 (s.ctx c)) :
    UnitFailed x0 ((l.foldl (State.partFault u) s).ctx c) := by
  obtain ⟨s1, hbefore, hafter⟩ := foldl_at Failing.refl Failing.trans (fun q _ t => Failing.partFault u t q) hp s
  have htold : s1.partFault u p = s1.unitFault p.1 u := if_pos (List.contains_iff_mem.mpr hu)
  rw [htold] at hafter
  exact hafter.failed c x0 (s1.unitFault_told u (hbefore.residents _ _ hc) (hbefore.stands c x0 h))

theorem State.failUnit_changed (s : State) (u : Nat) : UnitChanged s (s.failUnit u) u .failed := by
  have hrefuse := (Refusing.refuseAt (s.setUnit u .failed) u).1
  have htold : Aside ((s.setUnit u .failed).refuseAt u) (s.failUnit u) := by
    rw [State.failUnit_eq]
    exact (List.foldlRecOn _ _ (Failing.refl _) (fun t h p _ => h.trans (.partFault u t p))).toAside
  exact unitChanged_of_setUnit (SentOn.of_eq rfl) rfl (hrefuse.trans htold).readiness (hrefuse.trans htold).sent

/-- R29: every context of a partition that holds the unit fails with it. -/
theorem State.failUnit_failed (s : State) {u c : Nat} {p : Nat × Partition} (hp : p ∈ s.formedParts) (hu : u ∈ p.2.units)
    (hc : c ∈ s.residents p.1) : UnitFailed (s.ctx c) ((s.failUnit u).ctx c) := by
  obtain ⟨hctxs, hparts⟩ := Prod.mk.inj (Prod.mk.inj (s.setUnit_beyondHealth u .failed)).2
  obtain ⟨haside, hstand⟩ := Refusing.refuseAt (s.setUnit u .failed) u
  have hp' : p ∈ ((s.setUnit u .failed).refuseAt u).formedParts := by
    rwa [State.formedParts, haside.parts, hparts]
  have hc' : c ∈ ((s.setUnit u .failed).refuseAt u).residents p.1 := by
    refine haside.residents _ _ ?_
    rwa [State.residents, hctxs]
  rw [State.failUnit_eq]
  refine foldl_partFault_told hp' hu hc' (.inl ((hstand c).trans ?_))
  rw [State.ctx, hctxs, State.ctx]

/-- R28 to R30: the changes of R29, and that no other step changes a unit. -/
theorem unitsChangeStateAsListed : Rules.UnitsChangeStateAsListed := by
  refine ⟨fun s u hu htest hturn => ?_, fun s u pass htesting => ?_, fun s u hready => ?_, fun s u h => ?_, fun s u pass h => ?_,
    fun s u h => ?_⟩
  · exact ⟨s.setUnit u .testing, congrArg Host.Outcome.next (if_pos (by simp [hu, htest, hturn])), s.setUnit_changed u .testing,
      programsKept_of_programs (s.setUnit_programs u .testing)⟩
  · exact ⟨_, congrArg Host.Outcome.next (if_pos (by simp [htesting])), s.setUnit_changed u _,
      programsKept_of_programs (s.setUnit_programs u _)⟩
  · refine ⟨s.failUnit u, congrArg Host.Outcome.next (if_pos (by simp [State.unitReady, hready])), s.failUnit_changed u,
      fun p hp hu c hc => ?_⟩
    obtain ⟨hfault, hrun, hstill⟩ := s.failUnit_failed hp hu hc
    exact ⟨hfault, fun h => (hrun h).2, hstill⟩
  · exact congrArg Host.Outcome.next (if_neg (by simp [State.testable, h]))
  · exact congrArg Host.Outcome.next (if_neg (by simp [h]))
  · exact congrArg Host.Outcome.next (if_neg (by simp [State.unitReady, h]))

/-- Settles O40: units change as R29 lists, and the health record is refreshed. -/
theorem unitsAndHealthChangeAsListed : Obligations.UnitsAndHealthChangeAsListed :=
  ⟨unitsChangeStateAsListed, healthRecordIsRefreshed⟩

end Sys2Proof.Machine
end

section
/-! SUPPORT. The host's commands (R81 to R84): what taking a message and answering it leave, and what the commands of endpoint 0 do between
the two. -/

namespace Sys2Proof.Machine

/-! ## A command taken and answered -/

/-- R84: the machine after a command's outcome: answered, or to be answered later. -/
def Reply.answered (ty : Nat) (m : Lmsg) : Reply → State
  | .now s status body => s.answerCmd ty m status body
  | .later s => s

/-- R81: an endpoint admits a message whose tag verifies under its key and whose number is in the window and new. -/
theorem Endpoint.admits_iff (e : Endpoint) (m : Lmsg) : e.admits m = true ↔
    e.key.any (fun k => m.tag == lanternTag k m.ty m.ep m.seq m.rid false m.payload) = true ∧ (e.highest : Int) - 64 < m.seq ∧
      m.seq ∉ e.accepted := by
  unfold Endpoint.admits Endpoint.verifies
  cases e.key <;> simp [and_assoc]

theorem Admits.takeMsg_eq {s : State} {m : Lmsg} (h : Admits s m) : s.takeMsg m = (some ((s.modPkg (fun p => { p with
    endpoints := p.endpoints.set m.ep ((s.pkg.endpoints.get {} m.ep).accept m.seq) })).frame m.ep (48 + m.payload.length)), s) := by
  obtain ⟨hep, hlen, hadmits⟩ := h
  rw [State.takeMsg, if_neg (show ¬ (288 < m.ep ∨ 8896 < m.payload.length) by omega)]
  exact if_pos ((Endpoint.admits_iff _ m).mpr hadmits)

/-- R81: a message taken: its number noted at its endpoint, its bytes charged. -/
theorem Admits.taken_eq {s : State} {m : Lmsg} (h : Admits s m) : taken s m = (s.modPkg (fun p => { p with
    endpoints := p.endpoints.set m.ep ((s.pkg.endpoints.get {} m.ep).accept m.seq) })).frame m.ep (48 + m.payload.length) := by
  rw [taken, h.takeMsg_eq, Option.getD_some]

theorem Admits.takeMsg {s : State} {m : Lmsg} (h : Admits s m) : s.takeMsg m = (some (taken s m), s) := by
  rw [h.takeMsg_eq, h.taken_eq]

section taken
variable {s : State} {m : Lmsg} (h : Admits s m)
include h

theorem Admits.ctxs : (taken s m).ctxs = s.ctxs := by rw [h.taken_eq]; simp
theorem Admits.parts : (taken s m).parts = s.parts := by rw [h.taken_eq]; simp
theorem Admits.tiles : (taken s m).tiles = s.tiles := by rw [h.taken_eq]; simp
theorem Admits.programs : (taken s m).programs = s.programs := by rw [h.taken_eq]; simp [State.programs]
theorem Admits.ctx (c : Nat) : (taken s m).ctx c = s.ctx c := by rw [State.ctx, h.ctxs, State.ctx]
theorem Admits.part (p : Nat) : (taken s m).part p = s.part p := by rw [State.part, h.parts, State.part]
theorem Admits.tile (u : Nat) : (taken s m).tile u = s.tile u := by rw [State.tile, h.tiles, State.tile]
theorem Admits.formedParts : (taken s m).formedParts = s.formedParts := by rw [State.formedParts, h.parts, State.formedParts]
theorem Admits.residents (p : Nat) : (taken s m).residents p = s.residents p := by rw [State.residents, h.ctxs, State.residents]
theorem Admits.homeDie (c : Nat) : (taken s m).homeDie c = s.homeDie c := by rw [State.homeDie, h.ctx, h.part, State.homeDie]
theorem Admits.outstanding (e : Nat) : (taken s m).outstanding e = s.outstanding e := by
  rw [State.outstanding, h.ctxs, h.ctx, State.outstanding]

/-- Of the package a message taken changes its endpoint and the windows' sums. -/
theorem Admits.pkg : ∃ w z, (taken s m).pkg = { s.pkg with
    endpoints := s.pkg.endpoints.set m.ep ((s.pkg.endpoints.get {} m.ep).accept m.seq), windowCharges := w, windowScaled := z } := by
  rw [h.taken_eq]
  exact State.uncore_pkg _ 4 m.ep .hostFrame _ hostDomain

theorem Admits.sentOn : SentOn s (taken s m) := by
  obtain ⟨w, z, hpkg⟩ := h.pkg
  exact .of_eq (by rw [hpkg])

theorem Admits.unsent : (taken s m).pkg.unsent = s.pkg.unsent := by
  obtain ⟨w, z, hpkg⟩ := h.pkg
  rw [hpkg]
  rfl

end taken

section answerCmd
variable (s : State) (ty : Nat) (m : Lmsg) (status : Nat) (body : List Byte)

@[simp] theorem State.answerCmd_ctxs : (s.answerCmd ty m status body).ctxs = s.ctxs := by simp [State.answerCmd]
@[simp] theorem State.answerCmd_parts : (s.answerCmd ty m status body).parts = s.parts := by simp [State.answerCmd]
@[simp] theorem State.answerCmd_programs : (s.answerCmd ty m status body).programs = s.programs := by
  simp [State.answerCmd, State.programs]
@[simp] theorem State.ctx_answerCmd (c : Nat) : (s.answerCmd ty m status body).ctx c = s.ctx c := by simp [State.ctx]
@[simp] theorem State.part_answerCmd (p : Nat) : (s.answerCmd ty m status body).part p = s.part p := by simp [State.part]

theorem State.answerCmd_unsent : (s.answerCmd ty m status body).pkg.unsent = s.pkg.unsent := s.send_unsent _ _ _ _

theorem State.answerCmd_sentOn : SentOn s (s.answerCmd ty m status body) := s.send_sentOn _ _ _ _

end answerCmd

/-- A message is sent with the next number of its endpoint, under its key. -/
theorem State.send_spec (s : State) (e y r : Nat) (b : List Byte) :
    let k := s.pkg.endpoints.get {} e
    (s.send e y r b).pkg.sent = s.pkg.sent ++ [{ ep := e, ty := y, rid := r, seq := k.sentSeq + 1, body := b, key := k.key.getD [] }] ∧
    (s.send e y r b).pkg.endpoints = s.pkg.endpoints.set e { k with sentSeq := k.sentSeq + 1 } := by
  unfold State.send State.frame
  obtain ⟨w, z, h⟩ := s.uncore_pkg 4 e .hostFrame ((Config.frameBytes (48 + b.length) + 63) / 64) hostDomain
  simp only [State.modPkg_pkg, h, and_self]

/-- R84: a message of a command's type, number and endpoint with its status is its reply. -/
theorem replies_of_send {s s1 : State} {ty : Nat} {m : Lmsg} (status : Nat) (body : List Byte) (h : SentOn s s1) :
    Replies s (s1.send m.ep (ty + 0x8000) m.rid (leBytes 4 status ++ leBytes 4 0 ++ body)) ty m status body := by
  obtain ⟨hsent, -⟩ := s1.send_spec m.ep (ty + 0x8000) m.rid (leBytes 4 status ++ leBytes 4 0 ++ body)
  have hm := h.mem_drop (.of_eq (t := s1.send m.ep (ty + 0x8000) m.rid (leBytes 4 status ++ leBytes 4 0 ++ body)) rfl)
    (by rw [hsent, List.drop_left]; exact List.mem_singleton_self _)
  exact ⟨_, hm, rfl, rfl, rfl, rfl⟩

/-- R82, R84: a management command accepted is carried out on the message taken. -/
theorem Accepted.management {s : State} {m : Lmsg} (h : Accepted s m) (hep : m.ep = 0) (ty : Nat) (f : State → Reply) :
    hostCommand ty true m f s = .next ((f (taken s m)).answered ty m) := by
  have hroom : ¬ 256 ≤ (taken s m).outstanding m.ep := by
    rw [h.1.outstanding]
    exact Nat.not_le.mpr h.2
  have hown : (m.ep != 0) = false := by simpa using hep
  simp only [hostCommand, engine, h.1.takeMsg, if_neg hroom, hown, Bool.and_false, Bool.false_eq_true, if_false, Bool.not_true,
    Bool.false_and]
  cases f (taken s m) <;> rfl

/-- R82, R84: a virtual function's command accepted is carried out on the message taken. -/
theorem Accepted.ofFunction {s : State} {m : Lmsg} (h : Accepted s m) (hep : m.ep ≠ 0) (ty : Nat) (f : State → Reply) :
    hostCommand ty false m f s = .next ((f (taken s m)).answered ty m) := by
  have hroom : ¬ 256 ≤ (taken s m).outstanding m.ep := by
    rw [h.1.outstanding]
    exact Nat.not_le.mpr h.2
  have hown : (m.ep == 0) = false := by simpa using hep
  simp only [hostCommand, engine, h.1.takeMsg, if_neg hroom, hown, Bool.and_false, Bool.false_eq_true, if_false, Bool.not_false,
    Bool.false_and]
  cases f (taken s m) <;> rfl

/-- A command whose outcome on the message taken is OK is answered so. -/
theorem answeredOk_of {s t : State} {i : Instr} {m : Lmsg} {ty : Nat} {b : Bool} {body : List Byte} {p : State → Prop} {f : State → Reply}
    (hm : Admits s m) (hrun : hostCommand ty b m f s = .next ((f (taken s m)).answered ty m)) (hexec : exec i s = hostCommand ty b m f s)
    (hcmd : commandOf i = some (ty, b, m)) (hf : f (taken s m) = .now t 0 body) (hsent : SentOn (taken s m) t)
    (hp : p (t.answerCmd ty m 0 body)) : AnsweredOk s i m body p :=
  ⟨t.answerCmd ty m 0 body, by rw [hexec, hrun, hf]; rfl, ⟨ty, b, hcmd, replies_of_send 0 body (hm.sentOn.trans hsent)⟩, hp⟩

/-- The same of a management command. -/
theorem Accepted.answeredOk {s t : State} {i : Instr} {m : Lmsg} (h : Accepted s m) (hep : m.ep = 0) {ty : Nat} {body : List Byte}
    {p : State → Prop} {f : State → Reply} (hexec : exec i s = hostCommand ty true m f s) (hcmd : commandOf i = some (ty, true, m))
    (hf : f (taken s m) = .now t 0 body) (hsent : SentOn (taken s m) t) (hp : p (t.answerCmd ty m 0 body)) : AnsweredOk s i m body p :=
  answeredOk_of h.1 (h.management hep ty f) hexec hcmd hf hsent hp

/-- What an answer to a command keeps of what programs see. -/
theorem programsKept_answerCmd {s t : State} {ty : Nat} {m : Lmsg} {status : Nat} {body : List Byte} (h : t.programs = s.programs) :
    ProgramsKept s (t.answerCmd ty m status body) := programsKept_of_programs (by rw [State.answerCmd_programs, h])

/-- R84, R400: a live context that is not being destroyed may be named by a command. -/
theorem State.withCtx_live {s : State} {c : Nat} (f : Context → Reply) (hlive : (s.ctx c).live = true)
    (hdest : (s.ctx c).destroying = none) : s.withCtx c f = f (s.ctx c) := by
  simp [State.withCtx, hlive, hdest]

/-- The same for a message taken. -/
theorem Live.withCtx {s : State} {m : Lmsg} {c : Nat} (h : Live s c) (hm : Admits s m) (f : Context → Reply) :
    (taken s m).withCtx c f = f (s.ctx c) := by
  obtain ⟨-, -, hlive, hdest⟩ := h
  rw [State.withCtx_live f (by rw [hm.ctx, hlive]) (by rw [hm.ctx, hdest]), hm.ctx]

/-! ## Partitions -/

theorem Admits.unitReady {s : State} {m : Lmsg} (h : Admits s m) (u : Nat) : (taken s m).unitReady u = s.unitReady u :=
  (congrArg (fun p : Package => AMap.get .untested p.units u == .ready) h.unsent :)

theorem Admits.findBase {s : State} {m : Lmsg} (h : Admits s m) : (taken s m).findBase = s.findBase := by
  have hordering : (taken s m).pkg.ordering = s.pkg.ordering := (congrArg Package.ordering h.unsent :)
  funext dies n
  simp only [State.findBase, State.rangeFree, h.formedParts, hordering]

/-- R31: the octets, memory dies and ports that a PARTFORM names. -/
def formOctets (m : Lmsg) : List Nat := maskBits 72 (m.at 4 9)
def formDies (m : Lmsg) : List Nat := maskBits 9 (m.at 2 2)
def formPorts (m : Lmsg) : List Nat := maskBits 128 (m.at 16 16)

/-- R31, R135: the partition that a PARTFORM forms, with its range. -/
def formedPart (m : Lmsg) (o len : Nat) : Partition :=
  { formed := true, octets := formOctets m, dies := formDies m, ports := formPorts m, lead := (formOctets m).headD 0 / 8, base := o,
    length := len }

/-- R31, R89, R135: the checks of PARTFORM pass: fields in range, nothing of it in use, its units ready, and its range found. -/
structure Formable (s : State) (m : Lmsg) (o len : Nat) : Prop where
  fields : m.payload.length = 32 ∧ m.at 0 1 ≤ 71 ∧ m.at 1 1 = 0 ∧ m.at 2 2 < 512 ∧ m.at 13 3 = 0 ∧ formOctets m ≠ []
  free : (s.part (m.at 0 1)).formed = false
  apart : ∀ q ∈ s.formedParts, (∀ k ∈ formOctets m, k ∉ q.2.octets) ∧ ∀ k ∈ formPorts m, k ∉ q.2.ports
  ready : ∀ u ∈ (formedPart m o len).units, s.unit u = .ready
  length : len = if (formDies m).isEmpty then 0
    else (formOctets m).length * Config.octetShare s.pkg.ordering / (formDies m).length / 2097152 * 2097152
  base : (if (formDies m).isEmpty then some 0 else s.findBase (formDies m) len) = some o

/-- The checks find after the message is taken what they found before. -/
theorem Formable.taken {s : State} {m : Lmsg} {o len : Nat} (h : Formable s m o len) (hm : Admits s m) :
    Formable (taken s m) m o len where
  fields := h.fields
  free := by rw [hm.part, h.free]
  apart := by rw [hm.formedParts]; exact h.apart
  ready := fun u hu => (congrArg (fun p : Package => AMap.get .untested p.units u) hm.unsent :).trans (h.ready u hu)
  length := by
    have hordering : (Machine.taken s m).pkg.ordering = s.pkg.ordering := (congrArg Package.ordering hm.unsent :)
    rw [hordering]; exact h.length
  base := by rw [hm.findBase]; exact h.base

theorem Formable.partForm {s : State} {m : Lmsg} {o len : Nat} (h : Formable s m o len) :
    s.partForm m = .now (s.modPart (m.at 0 1) (fun _ => formedPart m o len)) 0 (s.formBody 0xFFFF) := by
  obtain ⟨hlen, hn, hz1, hmask, hz13, hne⟩ := h.fields
  have hfields : ¬ ((!m.len 32 || decide (71 < m.at 0 1) || !m.zero 1 1 || decide (512 ≤ m.at 2 2) || !m.zero 13 15
      || (formOctets m).isEmpty) = true) := by
    simp [Lmsg.len, Lmsg.zero, hlen, hz1, hz13, hne]
    omega
  have hunused : ¬ (((s.part (m.at 0 1)).formed || s.formedParts.any (fun (q : Nat × Partition) =>
      q.2.octets.any (formOctets m).contains || q.2.ports.any (formPorts m).contains)) = true) := by
    simp only [h.free, Bool.false_or, List.any_eq_true, Bool.or_eq_true, List.contains_iff_mem, not_exists, not_and, not_or]
    exact fun q hq => ⟨fun k hk hin => (h.apart q hq).1 k hin hk, fun k hk hin => (h.apart q hq).2 k hin hk⟩
  have hfind : (formedPart m o len).units.find? (fun u => !s.unitReady u) = none :=
    List.find?_eq_none.mpr fun u hu => by simpa [State.unitReady] using h.ready u hu
  have hbase := h.base
  obtain rfl := h.length
  refine (if_neg hfields).trans ((if_neg hunused).trans ?_)
  split
  next u heq => exact absurd (hfind.symm.trans heq) nofun
  next =>
    unfold formDies formOctets at hbase
    dsimp only
    rw [hbase]
    rfl

theorem partform_acts {s : State} {m : Lmsg} (h : Accepted s m) (hep : m.ep = 0) {o len : Nat} (hform : Formable s m o len) :
    AnsweredOk s (.partform m) m (leBytes 4 s.pkg.mapSeq ++ leBytes 2 0xFFFF) (fun t => ProgramsKept s t ∧
      t.part (m.at 0 1) = formedPart m o len) := by
  have hseq : (taken s m).pkg.mapSeq = s.pkg.mapSeq := (congrArg Package.mapSeq h.1.unsent :)
  rw [← hseq]
  refine h.answeredOk hep rfl rfl (hform.taken h.1).partForm (.of_eq rfl) ⟨programsKept_answerCmd h.1.programs, ?_⟩
  rw [State.part_answerCmd, State.part_modPart_same]

/-- R89: PARTFREE of a formed partition in which no context is resident. -/
theorem partfree_acts {s : State} {m : Lmsg} (h : Accepted s m) (hep : m.ep = 0) (hlen : m.payload.length = 1) (hn : m.at 0 1 ≤ 71)
    (hformed : (s.part (m.at 0 1)).formed = true) (hnone : s.residents (m.at 0 1) = []) :
    AnsweredOk s (.partfree m) m [] (fun t => ProgramsKept s t ∧ (t.part (m.at 0 1)).formed = false) := by
  refine h.answeredOk hep rfl rfl (t := (taken s m).modPart (m.at 0 1) (fun _ => {})) ?_ (.of_eq rfl) ⟨programsKept_answerCmd h.1.programs, by rw [State.part_answerCmd, State.part_modPart_same]⟩
  have hfields : ¬ ((!m.len 1 || decide (71 < m.at 0 1)) = true) := by
    simp [Lmsg.len, hlen, hn]
  dsimp only
  rw [if_neg hfields, if_neg (by rw [h.1.part, hformed]; decide), if_neg (by rw [h.1.residents, hnone]; decide)]
  rfl

/-! ## Settings of contexts, partitions and endpoints -/

/-- R93, R401: the context that a MODESET leaves, where its RPL changes and where it does not. -/
def Context.modesSet (m : Lmsg) (change : Bool) (x : Context) : Context :=
  let y := { x with modes := BitVec.ofNat 8 (m.at 2 1), logBase := m.at 8 8, logSize := m.at 16 8 }
  if change then { y with replayChecked := false, replayPos := 0, replayed := [], hostCrumbs := [] } else y

theorem Context.modesSet_reads (m : Lmsg) (change : Bool) (x : Context) : (x.modesSet m change).modes = BitVec.ofNat 8 (m.at 2 1) ∧
    (x.modesSet m change).logBase = m.at 8 8 ∧ (x.modesSet m change).logSize = m.at 16 8 ∧
    (x.modesSet m change).liveModes = x.liveModes := by
  unfold Context.modesSet
  cases change <;> exact ⟨rfl, rfl, rfl, rfl⟩

/-- R93, R401: MODESET of a context that is READY or GUTTERED and has no pipeline. -/
theorem modeset_acts {s : State} {m : Lmsg} (h : Accepted s m) (hep : m.ep = 0) (hlen : m.payload.length = 24) (hz : m.at 3 5 = 0)
    (hmodes : modesOk (m.at 2 1) = true) (hlog : logOk (m.at 2 1 / 4 % 4) (m.at 8 8) (m.at 16 8) = true) (hlive : Live s (m.at 0 2))
    (hstate : (s.ctx (m.at 0 2)).state = .ready ∨ (s.ctx (m.at 0 2)).state = .guttered) (hpipes : (s.ctx (m.at 0 2)).pipes = []) :
    AnsweredOk s (.modeset m) m [] (fun t => ProgramsKept s t ∧ (t.ctx (m.at 0 2)).modes = BitVec.ofNat 8 (m.at 2 1) ∧
      (t.ctx (m.at 0 2)).logBase = m.at 8 8 ∧ (t.ctx (m.at 0 2)).logSize = m.at 16 8 ∧
      (t.ctx (m.at 0 2)).liveModes = (s.ctx (m.at 0 2)).liveModes) := by
  refine h.answeredOk hep rfl rfl (t := (taken s m).modCtx (m.at 0 2) (Context.modesSet m
    (decide (m.at 2 1 / 4 % 4 ≠ ((s.ctx (m.at 0 2)).modes.extractLsb' 2 2).toNat)))) ?_ (.of_eq rfl) ⟨programsKept_answerCmd h.1.programs, ?_⟩
  · have hfields : ¬ ((!m.len 24 || decide (288 < m.at 0 2) || !m.zero 3 7 || !modesOk (m.at 2 1)
        || !logOk (m.at 2 1 / 4 % 4) (m.at 8 8) (m.at 16 8)) = true) := by
      simp [Lmsg.len, Lmsg.zero, hlen, hz, hmodes, hlog, hlive.2.1]
    refine (if_neg hfields).trans ((hlive.withCtx h.1 _).trans ?_)
    rcases hstate with hstate | hstate <;>
    · simp only [hstate, hpipes, List.any_nil, Bool.and_false]
      rfl
  · rw [State.ctx_answerCmd, State.ctx_modCtx_same, ← h.1.ctx]
    exact Context.modesSet_reads m _ _

/-- R118: PROOFSET of a formed partition: the interval that holds from its next dispatch. -/
theorem proofset_acts {s : State} {m : Lmsg} (h : Accepted s m) (hep : m.ep = 0) (hlen : m.payload.length = 8) (hn : m.at 0 1 ≤ 71)
    (hz : m.at 1 3 = 0) (hmod : m.at 4 4 % 4096 = 0) (hlo : 4096 ≤ m.at 4 4) (hhi : m.at 4 4 ≤ 1048576)
    (hformed : (s.part (m.at 0 1)).formed = true) :
    AnsweredOk s (.proofset m) m [] (fun t => ProgramsKept s t ∧ (t.part (m.at 0 1)).nextInterval = m.at 4 4 ∧
      (t.part (m.at 0 1)).interval = (s.part (m.at 0 1)).interval) := by
  refine h.answeredOk hep rfl rfl (t := (taken s m).modPart (m.at 0 1) (fun p => { p with nextInterval := m.at 4 4 })) ?_ (.of_eq rfl)
    ⟨programsKept_answerCmd h.1.programs, ?_⟩
  · have hfields : ¬ ((!m.len 8 || decide (71 < m.at 0 1) || !m.zero 1 3 || m.at 4 4 % 4096 != 0 || decide (m.at 4 4 < 4096)
        || decide (1048576 < m.at 4 4)) = true) := by
      simp [Lmsg.len, Lmsg.zero, hlen, hz, hmod, hn, hlo, hhi]
    exact (if_neg hfields).trans (if_neg (by rw [h.1.part, hformed]; decide))
  · rw [State.part_answerCmd, State.part_modPart_same, h.1.part]
    exact ⟨rfl, rfl⟩

/-- R371: the window that a WINSET sets. -/
def windowOf (m : Lmsg) : Window :=
  { out := (m.at 8 1).testBit 0, inn := (m.at 8 1).testBit 1, lane := m.at 9 1, rctx := m.at 10 2, rpkg := m.at 12 3, base := m.at 24 8,
    size := m.at 32 8 }

/-- R371: WINSET of a context that does not run. -/
theorem winset_acts {s : State} {m : Lmsg} (h : Accepted s m) (hep : m.ep = 0) (hlen : m.payload.length = 40) (hw : m.at 2 1 ≤ 63)
    (hz : m.at 3 5 = 0) (hok : windowOk m = true) (hlive : Live s (m.at 0 2)) (hstate : (s.ctx (m.at 0 2)).state ≠ .running) :
    AnsweredOk s (.winset m) m [] (fun t => ProgramsKept s t ∧ (t.ctx (m.at 0 2)).windows.get {} (m.at 2 1) = windowOf m) := by
  refine h.answeredOk hep rfl rfl (t := (taken s m).modCtx (m.at 0 2) (fun x => { x with windows := x.windows.set (m.at 2 1) (windowOf m) }))
    ?_ (.of_eq rfl) ⟨programsKept_answerCmd h.1.programs, ?_⟩
  · have hfields : ¬ ((!m.len 40 || decide (288 < m.at 0 2) || decide (63 < m.at 2 1) || !m.zero 3 7 || !(windowOk m)) = true) := by
      simp [Lmsg.len, Lmsg.zero, hlen, hz, hok, hw, hlive.2.1]
    exact (if_neg hfields).trans ((hlive.withCtx h.1 _).trans (if_neg (by simpa using hstate)))
  · rw [State.ctx_answerCmd, State.ctx_modCtx_same]
    exact AMap.get_set_same _ _ _ _

/-- An answer takes the next number of its endpoint. -/
theorem State.answerCmd_endpoint (s : State) (ty : Nat) (m : Lmsg) (status : Nat) (body : List Byte) (e : Nat) :
    (s.answerCmd ty m status body).pkg.endpoints.get {} e = if e = m.ep
      then { s.pkg.endpoints.get {} m.ep with sentSeq := (s.pkg.endpoints.get {} m.ep).sentSeq + 1 } else s.pkg.endpoints.get {} e := by
  rw [State.answerCmd, (s.send_spec _ _ _ _).2, AMap.get_set]

/-- An answer is sealed under its endpoint's key, with the endpoint's next number. -/
theorem State.answerCmd_sealed (s : State) (ty : Nat) (m : Lmsg) (status : Nat) (body : List Byte) :
    ∃ x ∈ (s.answerCmd ty m status body).pkg.sent.drop s.pkg.sent.length, x.ep = m.ep ∧
      x.seq = (s.pkg.endpoints.get {} m.ep).sentSeq + 1 ∧ x.key = (s.pkg.endpoints.get {} m.ep).key.getD [] := by
  rw [State.answerCmd, (s.send_spec _ _ _ _).1, List.drop_left]
  exact ⟨_, List.mem_singleton_self _, rfl, rfl, rfl⟩

/-- R82: an endpoint with the key of a KEYSET, its counts begun again. -/
def Endpoint.keyed (e : Endpoint) (m : Lmsg) : Endpoint := { e with key := some (m.payload.drop 8), highest := 0, accepted := [], sentSeq := 0 }

/-- R82: the machine with the key of a KEYSET set. -/
def State.keyed (s : State) (m : Lmsg) : State :=
  s.modPkg (fun p => { p with endpoints := p.endpoints.set (m.at 0 2) ((s.pkg.endpoints.get {} (m.at 0 2)).keyed m) })

theorem State.keyed_endpoint (s : State) (m : Lmsg) :
    (s.keyed m).pkg.endpoints.get {} (m.at 0 2) = (s.pkg.endpoints.get {} (m.at 0 2)).keyed m := AMap.get_set_same _ _ _ _

/-- R82: KEYSET; that of endpoint 0 is answered under the new key. -/
theorem keyset_acts {s : State} {m : Lmsg} (h : Accepted s m) (hep : m.ep = 0) (hlen : m.payload.length = 40) (he : m.at 0 2 ≤ 288)
    (hz : m.at 2 6 = 0) :
    AnsweredOk s (.keyset m) m [] (fun t => ProgramsKept s t ∧
      let e := t.pkg.endpoints.get {} (m.at 0 2)
      e.key = some (m.payload.drop 8) ∧ e.highest = 0 ∧ e.accepted = [] ∧
      (m.at 0 2 ≠ 0 → e.sentSeq = 0) ∧
      (m.at 0 2 = 0 → e.sentSeq = 1 ∧ ∃ x ∈ t.pkg.sent.drop s.pkg.sent.length, x.ep = 0 ∧ x.seq = 1 ∧ x.key = m.payload.drop 8)) := by
  have hfields : ¬ ((!m.len 40 || decide (288 < m.at 0 2) || !m.zero 2 7) = true) := by
    simp [Lmsg.len, Lmsg.zero, hlen, hz, he]
  refine h.answeredOk hep rfl rfl (t := (taken s m).keyed m) (if_neg hfields) (.of_eq rfl) ⟨programsKept_answerCmd h.1.programs, ?_⟩
  have hkeyed := (taken s m).keyed_endpoint m
  dsimp only
  rw [State.answerCmd_endpoint]
  by_cases h0 : m.at 0 2 = 0
  · have hown : m.at 0 2 = m.ep := h0.trans hep.symm
    obtain ⟨x, hx, hxep, hxseq, hxkey⟩ := ((taken s m).keyed m).answerCmd_sealed 0x0005 m 0 []
    rw [if_pos hown, ← hown, hkeyed]
    rw [← hown, hkeyed] at hxseq hxkey
    exact ⟨rfl, rfl, rfl, fun hne => absurd h0 hne,
      fun _ => ⟨rfl, x, h.1.sentOn.mem_drop (s1 := taken s m) (.of_eq rfl) hx, hxep.trans hep, hxseq, hxkey⟩⟩
  · rw [if_neg (fun hown => h0 (hown.trans hep)), hkeyed]
    exact ⟨rfl, rfl, rfl, fun _ => rfl, fun hz => absurd hz h0⟩

/-! ## Records -/

/-- A command without payload that answers with a record, and does nothing else. -/
theorem Accepted.reads {s : State} {i : Instr} {m : Lmsg} (h : Accepted s m) (hep : m.ep = 0) (hlen : m.payload = []) {ty : Nat}
    {body : State → List Byte} (hexec : exec i s = hostCommand ty true m (fun s => if m.len 0 then ok s (body s) else refuse s 4) s)
    (hcmd : commandOf i = some (ty, true, m)) (hbody : body (taken s m) = body s) : AnsweredOk s i m (body s) (ProgramsKept s) := by
  refine h.answeredOk hep hexec hcmd (t := taken s m) ?_ (.of_eq rfl) (programsKept_answerCmd h.1.programs)
  rw [← hbody]
  exact if_pos (by simp [Lmsg.len, hlen])

/-- A message taken leaves the health record: it changes no entry, no count of malformed messages and no count of dropped ones. -/
theorem Admits.healthBytes {s : State} {m : Lmsg} (h : Admits s m) : (taken s m).healthBytes = s.healthBytes := by
  obtain ⟨w, z, hpkg⟩ := h.pkg
  have hdrops (e : Nat) : ((s.pkg.endpoints.set m.ep ((s.pkg.endpoints.get {} m.ep).accept m.seq)).get {} e).drops =
      (s.pkg.endpoints.get {} e).drops := by
    rw [AMap.get_set]
    split
    · rename_i he
      rw [he]
      rfl
    · rfl
  have hentry : (taken s m).healthEntry = s.healthEntry := by
    funext u
    simp only [State.healthEntry, State.unit, hpkg]
  simp only [State.healthBytes, hentry, hpkg, hdrops]

theorem Admits.mapBytes {s : State} {m : Lmsg} (h : Admits s m) : (taken s m).mapBytes = s.mapBytes :=
  State.mapBytes_congr (congrArg Package.units h.unsent :) (congrArg Package.mapSeq h.unsent :)

theorem Admits.identityBytes {s : State} {m : Lmsg} (h : Admits s m) : (taken s m).identityBytes = s.identityBytes := by
  have hordering : (taken s m).pkg.ordering = s.pkg.ordering := (congrArg Package.ordering h.unsent :)
  have hconfigured : (taken s m).pkg.configured = s.pkg.configured := (congrArg Package.configured h.unsent :)
  simp only [State.identityBytes, hordering, hconfigured]

theorem mapread_answers {s : State} {m : Lmsg} (h : Accepted s m) (hep : m.ep = 0) (hlen : m.payload = []) :
    AnsweredOk s (.mapread m) m s.mapBytes (ProgramsKept s) := h.reads hep hlen (body := State.mapBytes) rfl rfl h.1.mapBytes

theorem healthread_answers {s : State} {m : Lmsg} (h : Accepted s m) (hep : m.ep = 0) (hlen : m.payload = []) :
    AnsweredOk s (.healthread m) m s.healthBytes (ProgramsKept s) := h.reads hep hlen (body := State.healthBytes) rfl rfl h.1.healthBytes

theorem idread_answers {s : State} {m : Lmsg} (h : Accepted s m) (hep : m.ep = 0) (hlen : m.payload = []) :
    AnsweredOk s (.idread m) m s.identityBytes (ProgramsKept s) := h.reads hep hlen (body := State.identityBytes) rfl rfl h.1.identityBytes

/-- R29: RETEST of a unit in no partition. -/
theorem retest_acts {s : State} {m : Lmsg} (h : Accepted s m) (hep : m.ep = 0) (hlen : m.payload.length = 2) (hu : m.at 0 2 ≤ 221)
    (hfree : ∀ p ∈ s.formedParts, m.at 0 2 ∉ p.2.units) (hstate : s.unit (m.at 0 2) ≠ .untested) :
    AnsweredOk s (.retest m) m [] (fun t => ProgramsKept s t ∧ UnitChanged s t (m.at 0 2) .untested) := by
  refine h.answeredOk hep rfl rfl (t := (taken s m).setUnit (m.at 0 2) .untested) ?_ ((taken s m).setUnit_sentOn _ _)
    ⟨programsKept_answerCmd (((taken s m).setUnit_programs _ _).trans h.1.programs), ?_⟩
  · have hfields : ¬ ((!m.len 2 || decide (221 < m.at 0 2)) = true) := by simp [Lmsg.len, hlen, hu]
    have hunused : ¬ ((taken s m).unitInUse (m.at 0 2) = true) := by
      rw [State.unitInUse, h.1.formedParts]
      simpa using hfree
    have htested : ¬ (((taken s m).unit (m.at 0 2) == .untested) = true) := by
      rw [show (taken s m).unit (m.at 0 2) = s.unit (m.at 0 2) from
        (congrArg (fun p : Package => AMap.get .untested p.units (m.at 0 2)) h.1.unsent :)]
      simpa using hstate
    refine (if_neg hfields).trans ((if_neg hunused).trans ?_)
    exact congrArg ok (if_neg htested)
  · exact unitChanged_of_setUnit h.1.sentOn (Package.readiness_of_unsent h.1.unsent)
      (Package.readiness_of_unsent (State.answerCmd_unsent _ _ _ _ _)) (State.answerCmd_sentOn _ _ _ _ _)

/-- R26: a trip with a sensor at 95 C or above stands, as cleared by the host as it was. -/
theorem State.tripped_hot {s : State} (ht : s.pkg.tripped = true) (hhot : ∃ x ∈ s.pkg.hottest, 95 * 16 ≤ x) :
    s.tripped.pkg.tripped = true ∧ s.tripped.pkg.tripClear = s.pkg.tripClear := by
  have above : s.pkg.hottest.all (fun x => decide (x < 95 * 16)) = false := by simpa using hhot
  simp only [State.tripped, ht, above, Bool.not_true, Bool.and_false, Bool.false_eq_true, if_false]
  split <;> exact ⟨ht, rfl⟩

/-- R26: the machine with a trip cleared by the host. -/
def State.tripCleared (s : State) : State := s.modPkg (fun p => { p with tripClear := p.tripped })

/-- R26: TRIPCLEAR. -/
theorem tripclear_acts {s : State} {m : Lmsg} (h : Accepted s m) (hep : m.ep = 0) (hlen : m.payload = []) :
    AnsweredOk s (.tripclear m) m [] (fun t => ProgramsKept s t ∧
      (s.pkg.tripped = true → (∀ x ∈ s.pkg.hottest, x < 95 * 16) → t.pkg.tripped = false ∧ t.pkg.clockStopped = false) ∧
      (s.pkg.tripped = true → (∃ x ∈ s.pkg.hottest, 95 * 16 ≤ x) → t.pkg.tripped = true ∧ t.pkg.tripClear = true)) := by
  have htripped : (taken s m).tripCleared.pkg.tripped = s.pkg.tripped := (congrArg Package.tripped h.1.unsent :)
  have hclear : (taken s m).tripCleared.pkg.tripClear = s.pkg.tripped := (congrArg Package.tripped h.1.unsent :)
  have hhottest : (taken s m).tripCleared.pkg.hottest = s.pkg.hottest := (congrArg Package.hottest h.1.unsent :)
  have hanswer := State.answerCmd_unsent (taken s m).tripCleared.tripped 0x000F m 0 []
  have htripped' := (congrArg Package.tripped hanswer :)
  have hclear' := (congrArg Package.tripClear hanswer :)
  have hstopped' := (congrArg Package.clockStopped hanswer :)
  refine h.answeredOk hep rfl rfl (t := (taken s m).tripCleared.tripped) (if_neg (by simp [Lmsg.len, hlen])) (.of_eq (State.tripped_sent _))
    ⟨programsKept_answerCmd ((State.tripped_programs _).trans h.1.programs), fun ht hcool => ?_, fun ht hhot => ?_⟩
  · have hends := State.heatCheck_clears (s := (taken s m).tripCleared) (hot := []) (by rw [htripped, ht]) (by rw [hclear, ht])
      (by rwa [hhottest])
    rw [State.heatCheck_of_tripped (by rw [htripped, ht])] at hends
    exact ⟨htripped'.trans hends.1, hstopped'.trans hends.2⟩
  · obtain ⟨hstands, hkept⟩ := State.tripped_hot (s := (taken s m).tripCleared) (by rw [htripped, ht]) (by rwa [hhottest])
    exact ⟨htripped'.trans hstands, (hclear'.trans hkept).trans (hclear.trans ht)⟩

/-- R84: STATREAD of a context without pipelines. -/
theorem statread_answers {s : State} {m : Lmsg} (h : Accepted s m) (hlive : Live s m.ep) (hlen : m.payload = [])
    (hpipes : (s.ctx m.ep).pipes = []) :
    AnsweredOk s (.statread m) m (leBytes 1 (s.ctx m.ep).state.code ++ leBytes 7 0 ++ leInt 8 ((s.ctx m.ep).balance / oneNJ) ++ leBytes 1 0
      ++ leBytes 7 0) (ProgramsKept s) := by
  have hep : m.ep ≠ 0 := Nat.one_le_iff_ne_zero.mp hlive.1
  refine answeredOk_of h.1 (h.ofFunction hep _ _) rfl rfl (t := taken s m) ?_ (.of_eq rfl) (programsKept_answerCmd h.1.programs)
  refine (if_neg (by simp [Lmsg.len, hlen])).trans ((hlive.withCtx h.1 _).trans ?_)
  simp only [hpipes]
  rfl

/-! ## TRAFFIC (R419) -/

/-- R419: the two counts of die d. -/
def State.requests (s : State) (d : Nat) : Nat × Nat := ((s.die d).localReqs, (s.die d).remoteReqs)

/-- A charge of an uncore block counts no request. -/
theorem State.uncore_requests (s : State) (d c : Nat) (e : Uncore) (n m : Nat) (k : Nat) : (s.uncore d c e n m).requests k = s.requests k := by
  unfold State.uncore State.toAccount
  dsimp only
  split
  all_goals
    by_cases h : k = d
    · subst h
      simp only [State.requests, State.die_windowAdd, State.die_modDie_same]
    · simp only [State.requests, State.die_windowAdd, State.die_modDie_other _ _ h]

theorem Admits.requests {s : State} {m : Lmsg} (h : Admits s m) (d : Nat) : (taken s m).requests d = s.requests d := by
  rw [h.taken_eq]
  exact State.uncore_requests _ _ _ _ _ _ d

theorem State.answerCmd_requests (s : State) (ty : Nat) (m : Lmsg) (status : Nat) (body : List Byte) (d : Nat) :
    (s.answerCmd ty m status body).requests d = s.requests d := State.uncore_requests s _ _ _ _ _ d

/-- R419: the machine with die d's counts cleared. -/
def State.requestsCleared (s : State) (d : Nat) : State := s.modDie d (fun x => { x with localReqs := 0, remoteReqs := 0 })

theorem State.foldl_requestsCleared (s : State) {d : Nat} (hd : d < 9) :
    ((List.range 9).foldl State.requestsCleared s).requests d = (0, 0) := by
  have h := foldl_range_reads (read := State.requests) (f := State.requestsCleared) (upd := fun _ _ => (0, 0))
    (fun s d => by simp only [State.requests, State.requestsCleared, State.die_modDie_same])
    (fun s d e hne => by simp only [State.requests, State.requestsCleared, State.die_modDie_other _ _ hne]) d s 9
  rwa [if_pos hd] at h

/-- R419: TRAFFIC. -/
theorem traffic_answers {s : State} {m : Lmsg} (h : Accepted s m) (hep : m.ep = 0) (hlen : m.payload = []) :
    AnsweredOk s (.traffic m) m ((List.range 9).flatMap (fun d => leBytes 8 (s.die d).localReqs ++ leBytes 8 (s.die d).remoteReqs))
      (fun t => ProgramsKept s t ∧ ∀ d, d < 9 → (t.die d).localReqs = 0 ∧ (t.die d).remoteReqs = 0) := by
  have hbody (d : Nat) : leBytes 8 (s.die d).localReqs ++ leBytes 8 (s.die d).remoteReqs =
      leBytes 8 ((taken s m).die d).localReqs ++ leBytes 8 ((taken s m).die d).remoteReqs := by
    obtain ⟨hlocal, hremote⟩ := Prod.mk.inj (h.1.requests d)
    rw [hlocal, hremote]
  simp only [hbody]
  have hpkg := foldl_keeps State.pkg State.requestsCleared (fun _ _ => rfl) (List.range 9) (taken s m)
  have hprograms := foldl_keeps State.programs State.requestsCleared (fun _ _ => rfl) (List.range 9) (taken s m)
  refine h.answeredOk hep rfl rfl (t := (List.range 9).foldl State.requestsCleared (taken s m)) (if_neg (by simp [Lmsg.len, hlen]))
    (.of_eq (by rw [hpkg])) ⟨programsKept_answerCmd (hprograms.trans h.1.programs), fun d hd => ?_⟩
  exact Prod.mk.inj ((State.answerCmd_requests _ _ _ _ _ d).trans ((taken s m).foldl_requestsCleared hd))

theorem recordCommandsAnswer : Rules.RecordCommandsAnswer :=
  ⟨fun _ _ hep h => ⟨fun hlen hu hfree hstate => retest_acts h hep hlen hu hfree hstate,
    fun hlen => ⟨mapread_answers h hep hlen, healthread_answers h hep hlen, idread_answers h hep hlen, traffic_answers h hep hlen,
      tripclear_acts h hep hlen⟩⟩,
    fun _ _ h hlive hlen hpipes => statread_answers h hlive hlen hpipes⟩

end Sys2Proof.Machine
end

section
/-! SUPPORT. Amounts applied at a home unit (R104, R110 to R112), and the commands that bring them: ALLOW and CTXCREATE. -/

namespace Sys2Proof.Machine

/-! ## What an amount leaves alone -/

/-- What a change of a context leaves of it, it leaves of every context. -/
theorem State.modCtx_reads {γ : Type} (g : Context → γ) (s : State) (c : Nat) {f : Context → Context}
    (h : g (f (s.ctx c)) = g (s.ctx c)) (e : Nat) : g ((s.modCtx c f).ctx e) = g (s.ctx e) := by
  by_cases he : e = c
  · subst he
    rw [State.ctx_modCtx_same, h]
  · rw [State.ctx_modCtx_other _ _ he]

@[simp] theorem State.ctx_event (s : State) (e y c : Nat) (b : List Byte) (k : Nat) : (s.event e y c b).ctx k = s.ctx k := by
  simp [State.ctx]

section gutter
variable {γ : Type} (g : Context → γ) (h : ∀ (x : Context) st dest n, g { x with state := st, stopTo := dest, stopCause := n } = g x)
include h

theorem State.askStop_reads (s : State) (c : Nat) (dest : CtxState) (cause e : Nat) : g ((s.askStop c dest cause).ctx e) = g (s.ctx e) := by
  unfold State.askStop
  split
  · rfl
  · refine s.modCtx_reads g c ?_ e
    split
    · exact h _ _ _ _
    · split
      · exact h _ _ _ _
      · rfl

theorem State.gutter_reads (s : State) (c e : Nat) : g ((s.gutter c).ctx e) = g (s.ctx e) := by
  unfold State.gutter
  split
  · rfl
  · split
    · exact State.askStop_reads g h s _ _ _ _
    · rw [State.ctx_event]
      exact s.modCtx_reads g c (h _ _ _ _) e
    · rfl
    · rfl

theorem State.ungutter_reads (s : State) (c e : Nat) : g ((s.ungutter c).ctx e) = g (s.ctx e) := by
  refine s.modCtx_reads g c ?_ e
  split
  · exact h _ _ _ _
  · split
    · exact h _ _ _ _
    · rfl

end gutter

/-- A context but for what its account unit changes: balance, arming, state and the stop it is to make. -/
def Context.unaccounted (x : Context) : Context := { x with balance := 0, armed := false, state := .ready, stopTo := none, stopCause := 0 }

/-- Between two states amounts are applied: programs and partitions stand, messages are sent at most, and contexts change in their
accounts at most. -/
structure Accounted (s t : State) : Prop where
  programs : t.programs = s.programs
  parts : t.parts = s.parts
  sent : SentOn s t
  ctx : ∀ e, (t.ctx e).unaccounted = (s.ctx e).unaccounted

theorem Accounted.refl (s : State) : Accounted s s := ⟨rfl, rfl, .of_eq rfl, fun _ => rfl⟩

theorem Accounted.trans {s t u : State} (h : Accounted s t) (k : Accounted t u) : Accounted s u :=
  ⟨k.programs.trans h.programs, k.parts.trans h.parts, h.sent.trans k.sent, fun e => (k.ctx e).trans (h.ctx e)⟩

theorem Accounted.modCtx (s : State) (c : Nat) {f : Context → Context} (h : (f (s.ctx c)).unaccounted = (s.ctx c).unaccounted) :
    Accounted s (s.modCtx c f) := ⟨rfl, rfl, .of_eq rfl, s.modCtx_reads Context.unaccounted c h⟩

theorem Accounted.event (s : State) (e y c : Nat) (b : List Byte) : Accounted s (s.event e y c b) :=
  ⟨by simp, by simp, s.event_sentOn e y c b, fun _ => by rw [State.ctx_event]⟩

theorem Accounted.askStop (s : State) (c : Nat) (dest : CtxState) (cause : Nat) : Accounted s (s.askStop c dest cause) := by
  refine ⟨s.askStop_programs c dest cause, ?_, .of_eq (by rw [State.askStop_pkg]),
    State.askStop_reads Context.unaccounted (fun _ _ _ _ => rfl) s c dest cause⟩
  unfold State.askStop
  split <;> rfl

theorem Accounted.gutter (s : State) (c : Nat) : Accounted s (s.gutter c) := by
  unfold State.gutter
  split
  · exact .refl s
  · split
    · exact .askStop s c _ _
    · exact (Accounted.modCtx s c rfl).trans (.event _ _ _ _ _)
    · exact .refl s
    · exact .refl s

theorem Accounted.ungutter (s : State) (c : Nat) : Accounted s (s.ungutter c) :=
  ⟨rfl, rfl, .of_eq rfl, State.ungutter_reads Context.unaccounted (fun _ _ _ _ => rfl) s c⟩

/-! ## An amount applied (R104) -/

/-- R104: a balance set. -/
def State.balanceSet (s : State) (c : Nat) (b : Int) : State := s.modCtx c (fun x => { x with balance := b })

/-- R110: the low-water check at a balance b. -/
def State.waterCheck (s : State) (c : Nat) (b low : Int) (allow : Bool) : State :=
  if b < low ∧ (s.ctx c).armed then (s.modCtx c (fun x => { x with armed := false })).event c 0x4002 c (balanceBody b)
  else if allow ∧ low ≤ b then s.modCtx c (fun x => { x with armed := true }) else s

/-- R111, R112: the gutter at a balance b, and its end. -/
def State.gutterCheck (s : State) (c : Nat) (b : Int) (allow : Bool) : State :=
  if b ≤ 0 then s.gutter c else if allow then s.ungutter c else s

/-- R104: an amount for a live context. -/
theorem State.applyDelta_live (s : State) {c : Nat} (amt : Int) (allow : Bool) (hc : c ≠ 0) (hlive : (s.ctx c).live = true) :
    s.applyDelta c amt allow =
      ((s.balanceSet c (clampBalance ((s.ctx c).balance + amt))).waterCheck c (clampBalance ((s.ctx c).balance + amt))
        ((s.ctx c).lowWater * njUnit) allow).gutterCheck c (clampBalance ((s.ctx c).balance + amt)) allow :=
  (if_neg hc).trans (if_neg (by simp [hlive]))

/-- R104: an amount for the house account, or for a context that is not live. -/
theorem State.applyDelta_house (s : State) {c : Nat} (amt : Int) (allow : Bool) (h : c = 0 ∨ (s.ctx c).live = false) :
    s.applyDelta c amt allow = s.modCtx 0 (fun x => { x with balance := clampBalance (x.balance + amt) }) := by
  by_cases hc : c = 0
  · exact if_pos hc
  · exact (if_neg hc).trans (if_pos (by simp [h.resolve_left hc]))

theorem Accounted.balanceSet (s : State) (c : Nat) (b : Int) : Accounted s (s.balanceSet c b) := .modCtx s c rfl

theorem Accounted.waterCheck (s : State) (c : Nat) (b low : Int) (allow : Bool) : Accounted s (s.waterCheck c b low allow) := by
  unfold State.waterCheck
  split
  · exact (Accounted.modCtx s c rfl).trans (.event _ _ _ _ _)
  · split
    · exact .modCtx s c rfl
    · exact .refl s

theorem Accounted.gutterCheck (s : State) (c : Nat) (b : Int) (allow : Bool) : Accounted s (s.gutterCheck c b allow) := by
  unfold State.gutterCheck
  split
  · exact .gutter s c
  · split
    · exact .ungutter s c
    · exact .refl s

theorem Accounted.applyDelta (s : State) (c : Nat) (amt : Int) (allow : Bool) : Accounted s (s.applyDelta c amt allow) := by
  by_cases h : c = 0 ∨ (s.ctx c).live = false
  · rw [s.applyDelta_house amt allow h]
    exact .modCtx s 0 rfl
  · rw [not_or, Bool.not_eq_false] at h
    rw [s.applyDelta_live amt allow h.1 h.2]
    exact (Accounted.balanceSet s c _).trans ((Accounted.waterCheck _ c _ _ allow).trans (.gutterCheck _ c _ allow))

theorem Accounted.applyArrivals (s : State) (d : Nat) : Accounted s (s.applyArrivals d) := by
  have hstart : Accounted s (s.modDie d (fun x => { x with arrivals := [] })) := ⟨rfl, rfl, .of_eq rfl, fun _ => rfl⟩
  exact List.foldlRecOn _ _ hstart (fun t h p _ => h.trans (.applyDelta t p.1 p.2 false))

/-! ## What an amount does to a live context (R104, R110, R112) -/

theorem State.waterCheck_balance (s : State) (c : Nat) (b low : Int) (allow : Bool) :
    ((s.waterCheck c b low allow).ctx c).balance = (s.ctx c).balance := by
  unfold State.waterCheck
  split
  · rw [State.ctx_event, State.ctx_modCtx_same]
  · split
    · rw [State.ctx_modCtx_same]
    · rfl

theorem State.waterCheck_state (s : State) (c : Nat) (b low : Int) (allow : Bool) :
    ((s.waterCheck c b low allow).ctx c).state = (s.ctx c).state := by
  unfold State.waterCheck
  split
  · rw [State.ctx_event, State.ctx_modCtx_same]
  · split
    · rw [State.ctx_modCtx_same]
    · rfl

/-- R110: an ALLOW that leaves the low-water mark reached arms it again. -/
theorem State.waterCheck_arms (s : State) (c : Nat) {b low : Int} (h : low ≤ b) : ((s.waterCheck c b low true).ctx c).armed = true := by
  rw [State.waterCheck, if_neg (fun hlow => absurd h (not_le.mpr hlow.1)), if_pos ⟨rfl, h⟩, State.ctx_modCtx_same]

theorem State.gutterCheck_reads {γ : Type} (g : Context → γ)
    (h : ∀ (x : Context) st dest n, g { x with state := st, stopTo := dest, stopCause := n } = g x) (s : State) (c : Nat) (b : Int)
    (allow : Bool) (e : Nat) : g ((s.gutterCheck c b allow).ctx e) = g (s.ctx e) := by
  unfold State.gutterCheck
  split
  · exact State.gutter_reads g h s c e
  · split
    · exact State.ungutter_reads g h s c e
    · rfl

/-- R112: an ALLOW that leaves the balance above zero ends GUTTERED. -/
theorem State.gutterCheck_ready (s : State) (c : Nat) {b : Int} (hb : 0 < b) (h : (s.ctx c).state = .guttered) :
    ((s.gutterCheck c b true).ctx c).state = .ready := by
  rw [State.gutterCheck, if_neg (not_le.mpr hb), if_pos rfl, State.ungutter, State.ctx_modCtx_same, if_pos h]

theorem State.applyDelta_balance (s : State) {c : Nat} (amt : Int) (allow : Bool) (hc : c ≠ 0) (hlive : (s.ctx c).live = true) :
    ((s.applyDelta c amt allow).ctx c).balance = clampBalance ((s.ctx c).balance + amt) := by
  rw [s.applyDelta_live amt allow hc hlive, State.gutterCheck_reads Context.balance (fun _ _ _ _ => rfl), State.waterCheck_balance,
    State.balanceSet, State.ctx_modCtx_same]

theorem State.applyDelta_arms (s : State) {c : Nat} (amt : Int) (hc : c ≠ 0) (hlive : (s.ctx c).live = true)
    (h : (s.ctx c).lowWater * njUnit ≤ clampBalance ((s.ctx c).balance + amt)) : ((s.applyDelta c amt true).ctx c).armed = true := by
  rw [s.applyDelta_live amt true hc hlive, State.gutterCheck_reads Context.armed (fun _ _ _ _ => rfl), State.waterCheck_arms _ _ h]

theorem State.applyDelta_ends_gutter (s : State) {c : Nat} (amt : Int) (hc : c ≠ 0) (hlive : (s.ctx c).live = true)
    (h : 0 < clampBalance ((s.ctx c).balance + amt)) (hstate : (s.ctx c).state = .guttered) :
    ((s.applyDelta c amt true).ctx c).state = .ready := by
  rw [s.applyDelta_live amt true hc hlive]
  refine State.gutterCheck_ready _ c h ?_
  rw [State.waterCheck_state, State.balanceSet, State.ctx_modCtx_same, hstate]

/-- R111: an amount that leaves the balance above zero gutters nothing. -/
theorem State.applyDelta_state (s : State) {c : Nat} (amt : Int) (hc : c ≠ 0) (hlive : (s.ctx c).live = true)
    (h : 0 < clampBalance ((s.ctx c).balance + amt)) : ((s.applyDelta c amt false).ctx c).state = (s.ctx c).state := by
  rw [s.applyDelta_live amt false hc hlive, State.gutterCheck, if_neg (not_le.mpr h), if_neg Bool.false_ne_true, State.waterCheck_state,
    State.balanceSet, State.ctx_modCtx_same]

/-! ## ALLOW and CTXCREATE -/

/-- R104, R110: ALLOW, behind what has reached the home unit. -/
theorem allow_acts {s : State} {m : Lmsg} (h : Accepted s m) (hep : m.ep = 0) (hlen : m.payload.length = 16) (hz : m.at 2 6 = 0)
    (hlive : Live s (m.at 0 2)) :
    let a := (taken s m).applyArrivals (s.homeDie (m.at 0 2))
    let b := balanceAfter (a.ctx (m.at 0 2)).balance (m.int 8 * oneNJ)
    AnsweredOk s (.allow m) m (leInt 8 (b / oneNJ)) (fun t => ProgramsKept s t ∧ (t.ctx (m.at 0 2)).balance = b ∧
      (0 < b → (a.ctx (m.at 0 2)).state = .guttered → (t.ctx (m.at 0 2)).state = .ready) ∧
      ((s.ctx (m.at 0 2)).lowWater * oneNJ ≤ b → (t.ctx (m.at 0 2)).armed = true)) := by
  intro a b
  have harrived : Accounted (taken s m) a := .applyArrivals _ _
  have hdelta : Accounted a (a.applyDelta (m.at 0 2) (m.int 8 * njUnit) true) := .applyDelta a _ _ _
  have hctx : (a.ctx (m.at 0 2)).unaccounted = (s.ctx (m.at 0 2)).unaccounted := by rw [harrived.ctx, h.1.ctx]
  have hc : m.at 0 2 ≠ 0 := Nat.one_le_iff_ne_zero.mp hlive.1
  have halive : (a.ctx (m.at 0 2)).live = true := (congrArg Context.live hctx :).trans hlive.2.2.1
  have hlow : (a.ctx (m.at 0 2)).lowWater = (s.ctx (m.at 0 2)).lowWater := (congrArg Context.lowWater hctx :)
  have hbalance := a.applyDelta_balance (m.int 8 * njUnit) true hc halive
  refine h.answeredOk hep rfl rfl (t := a.applyDelta (m.at 0 2) (m.int 8 * njUnit) true) ?_ (harrived.trans hdelta).sent
    ⟨programsKept_answerCmd ((harrived.trans hdelta).programs.trans h.1.programs), ?_, fun hb hstate => ?_, fun hb => ?_⟩
  · have hfields : ¬ ((!m.len 16 || decide (288 < m.at 0 2) || !m.zero 2 7) = true) := by
      simp [Lmsg.len, Lmsg.zero, hlen, hz, hlive.2.1]
    refine (if_neg hfields).trans ((hlive.withCtx h.1 _).trans ?_)
    dsimp only
    rw [h.1.homeDie, hbalance]
    rfl
  · rw [State.ctx_answerCmd, hbalance]
    rfl
  · rw [State.ctx_answerCmd]
    exact a.applyDelta_ends_gutter _ hc halive hb hstate
  · rw [State.ctx_answerCmd]
    exact a.applyDelta_arms _ hc halive (by rw [hlow]; exact hb)

/-- R90: the context that a CTXCREATE creates, as generation g. -/
def newContext (m : Lmsg) (g : Nat) : Context :=
  { live := true, generation := g, part := m.at 2 1, modes := BitVec.ofNat 8 (m.at 3 1),
    liveModes := BitVec.ofNat 8 (m.at 3 1) &&& 2#8, slice := m.at 4 4, root := m.at 8 8,
    ufkey := w64 (m.at 16 8), lowWater := m.int 32, armed := true, balance := m.int 24 * njUnit, handler := w64 (m.at 40 8),
    saveArea := m.at 48 8, logBase := m.at 56 8, logSize := m.at 64 8 }

/-- R90: a descriptor in range names a context other than 0, and a balance of a nanojoule or more. -/
theorem ctxOk_spec {m : Lmsg} (h : ctxOk m = true) : m.at 0 2 ≠ 0 ∧ 1 ≤ m.int 24 := by
  simp only [ctxOk, Bool.and_eq_true, decide_eq_true_eq] at h
  omega

/-- R104: a positive balance stays one. -/
theorem clampBalance_pos {n : Int} (h : 1 ≤ n) : 0 < clampBalance (n * njUnit + 0) := by
  simp only [clampBalance, njUnit]
  omega

/-- R90, R110: CTXCREATE with a descriptor in range. -/
theorem ctxcreate_acts {s : State} {m : Lmsg} (h : Accepted s m) (hep : m.ep = 0) (hok : ctxOk m = true)
    (hdead : (s.ctx (m.at 0 2)).live = false) (hformed : (s.part (m.at 2 1)).formed = true) (hroom : (s.residents (m.at 2 1)).length < 16) :
    let g := ((s.ctx (m.at 0 2)).generation + 1) % 2 ^ 32
    AnsweredOk s (.ctxcreate m) m (leBytes 4 g) (fun t => ProgramsKept s t ∧
      let x := t.ctx (m.at 0 2)
      x.live = true ∧ x.state = .ready ∧ x.generation = g ∧ x.part = m.at 2 1 ∧ x.modes = BitVec.ofNat 8 (m.at 3 1) ∧
      x.root = m.at 8 8 ∧ x.handler = w64 (m.at 40 8) ∧ x.balance = balanceAfter (m.int 24 * oneNJ) 0) := by
  intro g
  obtain ⟨hc, hbalance⟩ := ctxOk_spec hok
  generalize hs1 : (taken s m).modCtx (m.at 0 2) (fun _ => newContext m g) = s1
  have hnew : s1.ctx (m.at 0 2) = newContext m g := by rw [← hs1, State.ctx_modCtx_same]
  have hlive : (s1.ctx (m.at 0 2)).live = true := by rw [hnew]; rfl
  have hdelta : Accounted s1 (s1.applyDelta (m.at 0 2) 0 false) := .applyDelta s1 _ _ _
  have hsent : SentOn (taken s m) s1 := .of_eq (by rw [← hs1]; rfl)
  have hprograms : s1.programs = (taken s m).programs := by rw [← hs1]; rfl
  refine h.answeredOk hep rfl rfl (t := s1.applyDelta (m.at 0 2) 0 false) ?_ (hsent.trans hdelta.sent)
    ⟨programsKept_answerCmd ((hdelta.programs.trans hprograms).trans h.1.programs), ?_⟩
  · rw [← hs1]
    refine (if_neg (by simp [hok])).trans ((if_neg (by rw [h.1.ctx, hdead]; decide)).trans
      ((if_neg (by rw [h.1.part, hformed]; decide)).trans ((if_neg ?_).trans ?_)))
    · rw [h.1.residents]
      exact Nat.not_le.mpr hroom
    · dsimp only
      rw [h.1.ctx]
      rfl
  · have hctx : ((s1.applyDelta (m.at 0 2) 0 false).ctx (m.at 0 2)).unaccounted = (newContext m g).unaccounted := by
      rw [hdelta.ctx, hnew]
    have hstate := s1.applyDelta_state 0 hc hlive (by rw [hnew]; exact clampBalance_pos hbalance)
    have hbal := s1.applyDelta_balance 0 false hc hlive
    rw [hnew] at hstate hbal
    rw [State.ctx_answerCmd]
    exact ⟨(congrArg Context.live hctx :), hstate, (congrArg Context.generation hctx :), (congrArg Context.part hctx :),
      (congrArg Context.modes hctx :), (congrArg Context.root hctx :), (congrArg Context.handler hctx :), hbal⟩

end Sys2Proof.Machine
end

section
/-! SUPPORT. A context destroyed (R387, R400): what the stop of its tiles leaves of them, of its partition and of the contexts, and what the end of
its destruction does. -/

namespace Sys2Proof.Machine

/-! ## What a stop leaves alone -/

/-- What a tile's stop leaves of it: the context that it runs and the stage that it holds. -/
def Tile.seat (u : Tile) : Nat × Option (Nat × Nat) := (u.ctx, u.stage)

/-- What a stop leaves of a context: its life, state, generation, partition, count of crumbs, and which pipelines it has. -/
def Context.ending (x : Context) : Context :=
  { live := x.live, destroying := x.destroying, state := x.state, generation := x.generation, part := x.part, crumbCount := x.crumbCount,
    pipes := x.pipes.map (fun (p : Nat × Pipeline) => (p.1, {})) }

/-- Between two states partitions, the places of tiles and the generations of contexts stand, and messages are sent at most. -/
structure Placed (s t : State) : Prop where
  parts : t.parts = s.parts
  sent : SentOn s t
  seat : ∀ u, (t.tile u).seat = (s.tile u).seat
  generation : ∀ e, (t.ctx e).generation = (s.ctx e).generation

/-- The same where what a stop leaves of a context stands. -/
structure Stopping (s t : State) : Prop extends Placed s t where
  ending : ∀ e, (t.ctx e).ending = (s.ctx e).ending

theorem Placed.trans {s t u : State} (h : Placed s t) (k : Placed t u) : Placed s u :=
  ⟨k.parts.trans h.parts, h.sent.trans k.sent, fun e => (k.seat e).trans (h.seat e), fun e => (k.generation e).trans (h.generation e)⟩

theorem Stopping.trans {s t u : State} (h : Stopping s t) (k : Stopping t u) : Stopping s u :=
  ⟨h.toPlaced.trans k.toPlaced, fun e => (k.ending e).trans (h.ending e)⟩

/-- A step that keeps the contexts keeps what a stop leaves of them. -/
theorem Stopping.of_ctxs {s t : State} (hctxs : t.ctxs = s.ctxs) (hparts : t.parts = s.parts) (hsent : t.pkg.sent = s.pkg.sent)
    (hseat : ∀ u, (t.tile u).seat = (s.tile u).seat) : Stopping s t :=
  ⟨⟨hparts, .of_eq hsent, hseat, fun e => by simp only [State.ctx, hctxs]⟩, fun e => by simp only [State.ctx, hctxs]⟩

theorem Stopping.refl (s : State) : Stopping s s := .of_ctxs rfl rfl rfl fun _ => rfl

theorem State.seat_modTile (s : State) {t : Nat} {f : Tile → Tile} (h : (f (s.tile t)).seat = (s.tile t).seat) (u : Nat) :
    ((s.modTile t f).tile u).seat = (s.tile u).seat := by
  by_cases hu : u = t
  · subst hu
    rw [State.tile_modTile_same, h]
  · rw [State.tile_modTile_other _ _ hu]

theorem Stopping.modTile (s : State) (t : Nat) {f : Tile → Tile} (h : (f (s.tile t)).seat = (s.tile t).seat) :
    Stopping s (s.modTile t f) := .of_ctxs rfl rfl rfl (s.seat_modTile h)

theorem Stopping.modCtx (s : State) (c : Nat) {f : Context → Context} (h : (f (s.ctx c)).ending = (s.ctx c).ending) :
    Stopping s (s.modCtx c f) :=
  ⟨⟨rfl, .of_eq rfl, fun _ => rfl, s.modCtx_reads Context.generation c (congrArg Context.generation h :)⟩,
    s.modCtx_reads Context.ending c h⟩

theorem Stopping.foldl {α : Type} {f : State → α → State} (step : ∀ s a, Stopping s (f s a)) (l : List α) (s : State) :
    Stopping s (l.foldl f s) := List.foldlRecOn _ _ (.refl s) (fun _ h a _ => h.trans (step _ a))

theorem Stopping.modTileOf (s : State) (c t : Nat) {f : Tile → Tile} (h : ∀ u, (f u).seat = u.seat) : Stopping s (s.modTileOf c t f) := by
  unfold State.modTileOf
  split
  · exact .modCtx s c rfl
  · split
    · exact .modTile s t (h _)
    · exact .refl s

/-- A context named by its tiles has the tiles that it had. -/
theorem Stopping.tilesOf {s t : State} (h : Stopping s t) (c : Nat) : t.tilesOf c = s.tilesOf c := by
  have hpart : (t.ctx c).part = (s.ctx c).part := (congrArg Context.part (h.ending c) :)
  have hctx (u : Nat) : (t.tile u).ctx = (s.tile u).ctx := (congrArg Prod.fst (h.seat u) :)
  simp only [State.tilesOf, State.part, h.parts, hpart, hctx]

/-- A context without pipelines gets none. -/
theorem Stopping.pipes {s t : State} (h : Stopping s t) {c : Nat} (hp : (s.ctx c).pipes = []) : (t.ctx c).pipes = [] := by
  have hkeys := congrArg Context.pipes (h.ending c)
  simpa [Context.ending, hp] using hkeys

/-! ## The steps of the stop sequence (R387) -/

theorem Stopping.statusFlags (s : State) (t i : Nat) (f : BitVec 5) : Stopping s (s.statusFlags t i f) := by
  unfold State.statusFlags State.modStatus
  exact .modTile s t rfl

theorem Stopping.giveAnswer (s : State) (t i : Nat) (r : MemResp) : Stopping s (s.giveAnswer t i r) := by
  unfold State.giveAnswer
  split
  · exact .refl s
  · split
    · exact (Stopping.statusFlags s t i _).trans (.modTile _ t rfl)
    · exact .refl s

theorem Stopping.takeOwed (s : State) (l : List Nat) : Stopping s (s.takeOwed l) := by
  refine .foldl (fun s r => ?_) _ s
  split
  · exact .giveAnswer s _ _ _
  · exact .refl s

theorem Stopping.withdraw (s : State) (c : Nat) (l : List Nat) : Stopping s (s.withdraw c l) := by
  unfold State.withdraw
  refine (Stopping.takeOwed s l).trans (.trans ?_ (.modCtx _ c rfl))
  exact .of_ctxs rfl rfl rfl fun _ => rfl

theorem Stopping.withdrawAsks (s : State) (c : Nat) : Stopping s (s.withdrawAsks c) :=
  .modCtx s c (by simp [Context.ending, Function.comp_def])

theorem Stopping.record (s : State) (c : Nat) (r : Crumb) : Stopping s (s.record c r) := by
  unfold State.record
  split
  · exact .modCtx s c rfl
  · exact .refl s

theorem Stopping.recordStop (s : State) (c : Nat) : Stopping s (s.recordStop c) := by
  unfold State.recordStop
  split
  · exact .refl s
  · exact .foldl (fun s t => .record s c _) _ s

theorem Stopping.faultOut (s : State) (c t i : Nat) : Stopping s (s.faultOut c t i) := by
  unfold State.faultOut
  split
  · exact .refl s
  next k hk =>
    dsimp only
    generalize (if k.stopped then k else k.stop 8 false) = k1
    split
    · split
      · refine Stopping.trans ?_ (.modTileOf _ c t fun _ => rfl)
        exact .modTileOf s c t fun _ => rfl
      · exact .modTileOf s c t fun _ => rfl
    · refine Stopping.trans ?_ (.foldl (fun s m => .modTileOf s c m fun u => ?_) _ _)
      · exact .modTileOf s c t fun _ => rfl
      · split <;> rfl

theorem Stopping.faultOuts (s : State) (c : Nat) (l : List Nat) : Stopping s (s.faultOuts c l) := by
  unfold State.faultOuts
  exact .foldl (fun s t => .foldl (fun s (k : Nat × Cmd) => .faultOut s c t k.1) _ s) l s

theorem Stopping.meterHouse (s : State) (t n : Nat) : Stopping s (s.meterHouse t n) := by
  unfold State.meterHouse
  exact (Stopping.modTile s t rfl).trans (.of_ctxs rfl rfl rfl fun _ => rfl)

theorem Stopping.discardPreloads (s : State) (pick : Nat → Preload → Bool) : Stopping s (s.discardPreloads pick) := by
  refine .foldl (fun s q => ?_) _ s
  split
  · split
    · refine Stopping.trans ?_ (.meterHouse _ q.1 _)
      exact .modTile s q.1 rfl
    · exact .refl s
  · exact .refl s

theorem Stopping.dropPreloads (s : State) (c : Nat) : Stopping s (s.dropPreloads c) := by
  unfold State.dropPreloads
  exact .discardPreloads s _

/-- R387, step 1: the tiles of a list told to stop. -/
def State.tilesStopping (s : State) (l : List Nat) : State := l.foldl (fun s t => s.modTile t (fun u => { u with stopping := true })) s

theorem Stopping.tilesStopping (s : State) (l : List Nat) : Stopping s (s.tilesStopping l) := by
  unfold State.tilesStopping
  exact .foldl (fun s t => .modTile s t rfl) l s

/-- R387, steps 3 and 4: the context of stopped tiles stopped. -/
def State.stopEnd (s : State) (c : Nat) (l : List Nat) : State :=
  (((l.foldl (fun s t => s.modTile t Tile.checkpointed) (((s.withdraw c l).withdrawAsks c).recordStop c)).faultOuts c l).dropPreloads c).modCtx c
    (fun x => { x with stopped := true, saveAt := 0 })

/-- R387: the stop sequence waits at its first step, or goes to its end. -/
theorem State.stopSteps_cases (s : State) (c : Nat) : s.stopSteps c = s.tilesStopping (s.tilesOf c) ∨
    s.stopSteps c = (s.tilesStopping (s.tilesOf c)).stopEnd c (s.tilesOf c) := ite_eq_or_eq _ _ _

theorem Stopping.stopEnd (s : State) (c : Nat) (l : List Nat) : Stopping s (s.stopEnd c l) := by
  unfold State.stopEnd
  refine Stopping.trans ?_ (.modCtx _ c rfl)
  refine Stopping.trans ?_ (.dropPreloads _ c)
  refine Stopping.trans ?_ (.faultOuts _ c l)
  refine Stopping.trans ?_ (.foldl (fun s t => .modTile s t rfl) l _)
  exact ((Stopping.withdraw s c l).trans (.withdrawAsks _ c)).trans (.recordStop _ c)

theorem Stopping.stopSteps (s : State) (c : Nat) : Stopping s (s.stopSteps c) := by
  obtain h | h := s.stopSteps_cases c
  · rw [h]
    exact .tilesStopping s _
  · rw [h]
    exact (Stopping.tilesStopping s _).trans (.stopEnd _ c _)

/-- R387: a context that the stop sequence leaves unstopped has its tiles stopping. -/
theorem State.stopSteps_waits {s : State} {c : Nat} (h : ((s.stopSteps c).ctx c).stopped = false) :
    s.stopSteps c = s.tilesStopping (s.tilesOf c) := by
  refine (s.stopSteps_cases c).resolve_right fun hend => ?_
  rw [hend, State.stopEnd, State.ctx_modCtx_same] at h
  exact Bool.noConfusion h

/-- R387, step 1: each tile of the list stops. -/
theorem State.tilesStopping_stop (s : State) {l : List Nat} {u : Nat} (hu : u ∈ l) : ((s.tilesStopping l).tile u).stopping = true := by
  have hstay (t : Nat) (a : State) (h : (a.tile u).stopping = true) :
      ((a.modTile t (fun u => { u with stopping := true })).tile u).stopping = true := by
    rw [State.tile_modTile]
    split
    · rfl
    · exact h
  obtain ⟨a, -, hafter⟩ := foldl_at (R := fun a b : State => (a.tile u).stopping = true → (b.tile u).stopping = true)
    (fun _ => id) (fun h k => k ∘ h) (fun t _ a => hstay t a) hu s
  exact hafter (by rw [State.tile_modTile_same])

/-! ## The end of a destruction (R400) -/

theorem Stopping.dropWithdrawn (s : State) (c : Nat) : Stopping s (s.dropWithdrawn c) := by
  unfold State.dropWithdrawn
  refine Stopping.trans (.foldl (fun s r => ?_) _ s) (.modCtx _ c rfl)
  exact .of_ctxs (by simp) (by simp) (by simp) fun u => by simp [State.tile]

/-- A map of what an `AMap` holds, read. -/
theorem AMap.get_map_snd {α : Type} (d : α) (f : α → α) (hd : f d = d) :
    ∀ (m : AMap α) (k : Nat), AMap.get d (m.map (fun (p : Nat × α) => (p.1, f p.2))) k = f (AMap.get d m k)
  | [], _ => hd.symm
  | p :: m, k => by
    simp only [List.map_cons, AMap.get]
    split
    · rfl
    · exact AMap.get_map_snd d f hd m k

theorem Accounted.placed {s t : State} (h : Accounted s t) : Placed s t := by
  have htiles : t.tiles = s.tiles := congrArg Prod.fst h.programs
  exact ⟨h.parts, h.sent, fun u => by simp only [State.tile, htiles], fun e => (congrArg Context.generation (h.ctx e) :)⟩

/-- R143: a tile without the translations of context c. -/
def Tile.forgot (c : Nat) (u : Tile) : Tile :=
  { u with
    utlb := u.utlb.filter (fun e => e.ctx != c),
    windows := u.windows.map (fun (q : Nat × List TlbEntry) => (q.1, q.2.filter (fun e => e.ctx != c))) }

theorem State.tile_forget (s : State) (c u : Nat) : (s.forget c).tile u = (s.tile u).forgot c :=
  AMap.get_map_snd ({} : Tile) (Tile.forgot c) rfl s.tiles u

theorem State.ctx_forget (s : State) (c e : Nat) : (s.forget c).ctx e = s.ctx e := rfl

theorem Placed.forget (s : State) (c : Nat) : Placed s (s.forget c) :=
  ⟨rfl, .of_eq rfl, fun u => by rw [State.tile_forget]; rfl, fun _ => rfl⟩

/-- R103, R387: tile t left by its context. -/
def State.leaveTile (s : State) (t : Nat) : State := (s.leaveResidue t).modTile t (fun u => u.cleared 0)

/-- R387: the tiles left, then the context, then its partition. -/
theorem State.leaveTiles_eq (s : State) (c : Nat) : s.leaveTiles c false =
    (((s.tilesOf c).foldl State.leaveTile s).modCtx c (fun x => { x with saved := none })).modPart
      ((((s.tilesOf c).foldl State.leaveTile s).modCtx c (fun x => { x with saved := none })).ctx c).part
      (fun p => { p with running := none, pool := [] }) := rfl

theorem State.toAccount_ctxs (s : State) (d c : Nat) (a : Int) : (s.toAccount d c a).ctxs = s.ctxs := by
  unfold State.toAccount
  split <;> rfl

theorem State.toAccount_tiles (s : State) (d c : Nat) (a : Int) : (s.toAccount d c a).tiles = s.tiles := by
  unfold State.toAccount
  split <;> rfl

/-- A tile left changes no context and sends nothing. -/
theorem State.leaveTile_keeps (s : State) (t : Nat) : (s.leaveTile t).ctxs = s.ctxs ∧ (s.leaveTile t).pkg = s.pkg :=
  ⟨State.toAccount_ctxs _ _ _ _, State.toAccount_pkg _ _ _ _⟩

theorem State.leaveTile_seat_same (s : State) (t : Nat) : ((s.leaveTile t).tile t).seat = (0, none) := by
  rw [State.leaveTile, State.tile_modTile_same]
  rfl

theorem State.leaveTile_seat_other (s : State) {t u : Nat} (h : u ≠ t) : (s.leaveTile t).tile u = s.tile u := by
  rw [State.leaveTile, State.tile_modTile_other _ _ h, State.leaveResidue, State.tile, State.toAccount_tiles]
  exact s.tile_modTile_other _ h

/-- The tiles of the list left, each: contexts and messages stand. -/
theorem State.leaveAll_keeps (s : State) (l : List Nat) : (l.foldl State.leaveTile s).ctxs = s.ctxs ∧ (l.foldl State.leaveTile s).pkg = s.pkg :=
  List.foldlRecOn (motive := fun t => t.ctxs = s.ctxs ∧ t.pkg = s.pkg) l State.leaveTile ⟨rfl, rfl⟩ fun t h u _ =>
    ⟨(t.leaveTile_keeps u).1.trans h.1, (t.leaveTile_keeps u).2.trans h.2⟩

theorem State.leaveAll_seat (s : State) {l : List Nat} {u : Nat} (hu : u ∈ l) : ((l.foldl State.leaveTile s).tile u).seat = (0, none) := by
  have hstay (t : Nat) (a : State) (h : (a.tile u).seat = (0, none)) : ((a.leaveTile t).tile u).seat = (0, none) := by
    by_cases hu : u = t
    · rw [hu, State.leaveTile_seat_same]
    · rw [State.leaveTile_seat_other _ hu, h]
  obtain ⟨a, -, hafter⟩ := foldl_at (R := fun a b : State => (a.tile u).seat = (0, none) → (b.tile u).seat = (0, none))
    (fun _ => id) (fun h k => k ∘ h) (fun t _ a => hstay t a) hu s
  exact hafter (a.leaveTile_seat_same u)

/-- R387: a context that has left its tiles: they stand idle, its partition runs none, messages and generations stand. -/
structure OffTiles (s t : State) (c : Nat) : Prop where
  sent : SentOn s t
  generation : ∀ e, (t.ctx e).generation = (s.ctx e).generation
  running : (t.part (s.ctx c).part).running = none
  idle : ∀ u ∈ s.tilesOf c, (t.tile u).seat = (0, none)

theorem OffTiles.leaveTiles (s : State) (c : Nat) : OffTiles s (s.leaveTiles c false) c := by
  obtain ⟨hctxs, hpkg⟩ := s.leaveAll_keeps (s.tilesOf c)
  have hctx (e : Nat) : ((s.tilesOf c).foldl State.leaveTile s).ctx e = s.ctx e := by rw [State.ctx, hctxs, State.ctx]
  have hpart : ((((s.tilesOf c).foldl State.leaveTile s).modCtx c (fun x => { x with saved := none })).ctx c).part = (s.ctx c).part := by
    rw [State.ctx_modCtx_same]
    exact (congrArg Context.part (hctx c) :)
  rw [State.leaveTiles_eq, hpart]
  refine ⟨.of_eq (congrArg Package.sent hpkg), fun e => ?_, ?_, fun u hu => s.leaveAll_seat hu⟩
  · rw [State.ctx_modPart, State.modCtx_reads Context.generation _ c (f := fun x => { x with saved := none }) rfl, hctx]
  · rw [State.part_modPart_same]

theorem OffTiles.trans_placed {s t u : State} {c : Nat} (h : OffTiles s t c) (k : Placed t u) : OffTiles s u c where
  sent := h.sent.trans k.sent
  generation e := (k.generation e).trans (h.generation e)
  running := by
    rw [State.part, k.parts]
    exact h.running
  idle v hv := (k.seat v).trans (h.idle v hv)

/-- R104, R109, R143, R400: the charges that reached the home unit of a context off its tiles applied, its preloads and translations given up. -/
def State.settled (s : State) (c : Nat) : State :=
  ((s.applyArrivals (s.homeDie c)).discardPreloads (fun _ q => q.ctx == c)).forget c

/-- R400, step 6: the context's end. -/
def State.ended (s : State) (c : Nat) : State := (s.settled c).modCtx c (fun x => { generation := x.generation, part := x.part })

theorem Placed.ended (s : State) (c : Nat) : Placed s (s.ended c) := by
  have hsettled : Placed s (s.settled c) :=
    ((Accounted.applyArrivals s _).placed.trans (Stopping.discardPreloads _ _).toPlaced).trans (.forget _ c)
  exact hsettled.trans ⟨rfl, .of_eq rfl, fun _ => rfl, State.modCtx_reads Context.generation _ c rfl⟩

theorem State.ended_live (s : State) (c : Nat) : ((s.ended c).ctx c).live = false := by
  rw [State.ended, State.ctx_modCtx_same]

theorem State.discardPreloads_ctxs (s : State) (pick : Nat → Preload → Bool) : (s.discardPreloads pick).ctxs = s.ctxs := by
  refine List.foldlRecOn (motive := fun t : State => t.ctxs = s.ctxs) _ _ rfl fun t h q _ => ?_
  split
  · split <;> exact h
  · exact h

/-- The balance that the reply carries is the one with all arrivals. -/
theorem State.settled_ctx (s : State) (c e : Nat) : (s.settled c).ctx e = (s.applyArrivals (s.homeDie c)).ctx e := by
  rw [State.settled, State.ctx_forget, State.ctx, State.discardPreloads_ctxs, State.ctx]

/-- R400: the fields of the reply to a CTXDESTROY: balance and count of crumbs. -/
def endBody (s : State) (c crumbs : Nat) : List Byte :=
  leInt 8 (((s.applyArrivals (s.homeDie c)).ctx c).balance / oneNJ) ++ leBytes 8 crumbs

/-- R400: the end of a destruction, once the context is off its tiles. -/
theorem State.finishDestroy_eq (s : State) (c rid : Nat) :
    s.finishDestroy c rid = ((if (s.ctx c).state = .running then s.leaveTiles c false else s).ended c).send 0 0x8004 rid
      (leBytes 4 0 ++ leBytes 4 0 ++ endBody (if (s.ctx c).state = .running then s.leaveTiles c false else s) c (s.ctx c).crumbCount) := by
  generalize hf : (if (s.ctx c).state = .running then s.leaveTiles c false else s) = f
  have hbalance : balanceBody ((f.settled c).ctx c).balance = leInt 8 (((f.applyArrivals (f.homeDie c)).ctx c).balance / oneNJ) := by
    rw [State.settled_ctx]
    rfl
  have hbody : leBytes 8 0 ++ balanceBody ((f.settled c).ctx c).balance ++ leBytes 8 (s.ctx c).crumbCount =
      leBytes 4 0 ++ leBytes 4 0 ++ endBody f c (s.ctx c).crumbCount := by
    rw [hbalance, endBody, ← List.append_assoc]
    rfl
  rw [← hbody, ← hf]
  rfl

/-! ## A destruction goes on (R400) -/

/-- R400: step 2 of a destruction and what follows, the context's tiles stopped. -/
def State.destroyOn (s : State) (c rid : Nat) : State :=
  if !((s.dropWithdrawn c).ctxWrites c).all (s.dropWithdrawn c).seenEverywhere then s.dropWithdrawn c
  else
    let d := s.dropWithdrawn c
    let status := if (d.ctx c).state = .faulted then 1 else 3
    let k := ((d.ctx c).pipes.filter (fun (p : Nat × Pipeline) => p.2.active)).foldl (fun (s : State) (p : Nat × Pipeline) => s.killToken c p.1 status) d
    if (k.ctx c).pipes.any (fun (p : Nat × Pipeline) => p.2.active) then k else k.finishDestroy c rid

/-- Its writes not all performed, it waits. -/
theorem State.destroyOn_waits {s : State} {c : Nat} (rid : Nat)
    (h : ((s.dropWithdrawn c).ctxWrites c).all (s.dropWithdrawn c).seenEverywhere = false) : s.destroyOn c rid = s.dropWithdrawn c :=
  if_pos (by rw [h]; rfl)

/-- Its writes performed and no pipeline of its own left, it ends. -/
theorem State.destroyOn_ends {s : State} {c : Nat} (rid : Nat)
    (h : ((s.dropWithdrawn c).ctxWrites c).all (s.dropWithdrawn c).seenEverywhere = true) (hpipes : (s.ctx c).pipes = []) :
    s.destroyOn c rid = (s.dropWithdrawn c).finishDestroy c rid := by
  have hnone := (Stopping.dropWithdrawn s c).pipes hpipes
  refine (if_neg (by rw [h]; decide)).trans ?_
  simp only [hnone, List.filter_nil, List.foldl_nil, List.any_nil, Bool.false_eq_true, if_false]

/-- R400: does a context still stand on tiles that are to stop? -/
def State.runsOn (s : State) (c : Nat) : Bool := (s.ctx c).state == .running && !(s.ctx c).stopped

theorem State.goDestroy_eq (s : State) (c rid : Nat) : s.goDestroy c rid =
    if (if s.runsOn c then s.stopSteps c else s).runsOn c then if s.runsOn c then s.stopSteps c else s
    else (if s.runsOn c then s.stopSteps c else s).destroyOn c rid := rfl

/-- A context that does not run. -/
theorem State.goDestroy_of_still {s : State} {c : Nat} (rid : Nat) (h : (s.ctx c).state ≠ .running) : s.goDestroy c rid = s.destroyOn c rid := by
  have hstill : ¬ (s.runsOn c = true) := by simp [State.runsOn, h]
  rw [State.goDestroy_eq, if_neg hstill, if_neg hstill]

/-- A running context: its tiles stop first. -/
theorem State.goDestroy_of_running {s : State} {c : Nat} (rid : Nat) (h : (s.ctx c).state = .running) (hstop : (s.ctx c).stopped = false) :
    s.goDestroy c rid = if ((s.stopSteps c).ctx c).stopped = false then s.stopSteps c else (s.stopSteps c).destroyOn c rid := by
  have hafter : ((s.stopSteps c).ctx c).state = .running := (congrArg Context.state ((Stopping.stopSteps s c).ending c) :).trans h
  have hbefore : s.runsOn c = true := by simp [State.runsOn, h, hstop]
  have hgo : (s.stopSteps c).runsOn c = true ↔ ((s.stopSteps c).ctx c).stopped = false := by simp [State.runsOn, hafter]
  rw [State.goDestroy_eq, if_pos hbefore]
  simp only [hgo]

/-! ## CTXDESTROY -/

/-- What the command finds, kept in the state it is carried out on. -/
theorem Admits.ctx_toDestroy {s : State} {m : Lmsg} (h : Admits s m) (c : Nat) :
    (toDestroy s m c).ctx c = { s.ctx c with destroying := some m.rid, hostOps := [] } := by
  rw [toDestroy, State.ctx_modCtx_same, h.ctx]

theorem Admits.tilesOf_toDestroy {s : State} {m : Lmsg} (h : Admits s m) (c : Nat) : (toDestroy s m c).tilesOf c = s.tilesOf c := by
  have hpart (p : Nat) : (toDestroy s m c).part p = s.part p := h.part p
  have htile (u : Nat) : (toDestroy s m c).tile u = s.tile u := h.tile u
  simp only [State.tilesOf, h.ctx_toDestroy, hpart, htile]

theorem Admits.sentOn_toDestroy {s : State} {m : Lmsg} (h : Admits s m) (c : Nat) : SentOn s (toDestroy s m c) := h.sentOn

/-- The outcome of a management command on the message taken. -/
theorem Accepted.exec_eq {s : State} {i : Instr} {m : Lmsg} (h : Accepted s m) (hep : m.ep = 0) {ty : Nat} {f : State → Reply} {r : Reply}
    (hexec : exec i s = hostCommand ty true m f s) (hf : f (taken s m) = r) : exec i s = .next (r.answered ty m) := by
  rw [hexec, h.management hep, hf]

/-- R400: CTXDESTROY of a live context that no command waits on begins its destruction. -/
theorem Accepted.ctxdestroy_exec {s : State} {m : Lmsg} (h : Accepted s m) (hep : m.ep = 0) (hlen : m.payload.length = 2)
    (hlive : Live s (m.at 0 2)) (hops : (s.ctx (m.at 0 2)).hostOps = []) :
    exec (.ctxdestroy m) s = .next ((toDestroy s m (m.at 0 2)).goDestroy (m.at 0 2) m.rid) := by
  have hfields : ¬ ((!m.len 2 || decide (288 < m.at 0 2)) = true) := by
    simp [Lmsg.len, hlen, hlive.2.1]
  refine h.exec_eq hep (r := .later ((toDestroy s m (m.at 0 2)).goDestroy (m.at 0 2) m.rid)) rfl ?_
  refine (if_neg hfields).trans ((hlive.withCtx h.1 _).trans ?_)
  simp only [hops, List.filter_nil, List.foldl_nil]
  rfl

/-- A destruction that waits leaves its context to be destroyed. -/
theorem Stopping.destroying {s t : State} {m : Lmsg} {c : Nat} (h : Stopping (toDestroy s m c) t) (hm : Admits s m)
    (hlive : (s.ctx c).live = true) : Destroying t c m.rid := by
  have hctx := h.ending c
  rw [hm.ctx_toDestroy] at hctx
  exact ⟨(congrArg Context.live hctx :).trans hlive, (congrArg Context.destroying hctx :)⟩

/-- R400: the reply at the end of a destruction. -/
theorem answeredOk_ended {s f : State} {m : Lmsg} {c crumbs : Nat} {p : State → Prop} (hep : m.ep = 0)
    (hexec : exec (.ctxdestroy m) s = .next ((f.ended c).send 0 0x8004 m.rid (leBytes 4 0 ++ leBytes 4 0 ++ endBody f c crumbs)))
    (hsent : SentOn s f) (hp : ∀ t, t.ctxs = (f.ended c).ctxs → t.parts = (f.ended c).parts → t.tiles = (f.ended c).tiles → p t) :
    AnsweredOk s (.ctxdestroy m) m (endBody f c crumbs) p := by
  have hreply := replies_of_send (ty := 0x0004) (m := m) 0 (endBody f c crumbs) (hsent.trans (Placed.ended f c).sent)
  rw [hep] at hreply
  exact ⟨_, hexec, ⟨0x0004, true, rfl, hreply⟩, hp _ (State.send_ctxs _ _ _ _ _) (State.send_parts _ _ _ _ _) (State.send_tiles _ _ _ _ _)⟩

theorem ctxdestroy_of_still {s : State} {m : Lmsg} (h : Accepted s m) (hep : m.ep = 0) (hlen : m.payload.length = 2)
    (hlive : Live s (m.at 0 2)) (hops : (s.ctx (m.at 0 2)).hostOps = []) (hstate : (s.ctx (m.at 0 2)).state ≠ .running) {c : Nat} {d : State}
    (hc : m.at 0 2 = c) (hd : (toDestroy s m c).dropWithdrawn c = d) :
    ((d.ctxWrites c).all d.seenEverywhere = true → (s.ctx c).pipes = [] →
      AnsweredOk s (.ctxdestroy m) m (endBody d c (s.ctx c).crumbCount)
        (fun t => (t.ctx c).live = false ∧ (t.ctx c).generation = (s.ctx c).generation)) ∧
    ((d.ctxWrites c).all d.seenEverywhere = false → ∃ t, exec (.ctxdestroy m) s = .next t ∧ Destroying t c m.rid) := by
  have hexec := h.ctxdestroy_exec hep hlen hlive hops
  rw [hc] at hlive hstate hexec
  have hctx := h.1.ctx_toDestroy c
  have hdrop : Stopping (toDestroy s m c) d := hd ▸ .dropWithdrawn _ c
  rw [State.goDestroy_of_still _ (by rw [hctx]; exact hstate)] at hexec
  refine ⟨fun hseen hpipes => ?_, fun hseen => ?_⟩
  · have hend := hdrop.ending c
    rw [hctx] at hend
    have hidle : (d.ctx c).state ≠ .running := fun hrun => hstate ((congrArg Context.state hend :).symm.trans hrun)
    have hcrumbs : (d.ctx c).crumbCount = (s.ctx c).crumbCount := (congrArg Context.crumbCount hend :)
    rw [State.destroyOn_ends _ (by rw [hd]; exact hseen) (by rw [hctx]; exact hpipes), hd, State.finishDestroy_eq, if_neg hidle, hcrumbs] at hexec
    refine answeredOk_ended hep hexec ((h.1.sentOn_toDestroy c).trans hdrop.sent) fun t hctxs _ _ => ?_
    have hgeneration : ((d.ended c).ctx c).generation = (s.ctx c).generation :=
      ((Placed.ended d c).generation c).trans ((hdrop.generation c).trans (by rw [hctx]))
    rw [State.ctx, hctxs]
    exact ⟨d.ended_live c, hgeneration⟩
  · rw [State.destroyOn_waits _ (by rw [hd]; exact hseen), hd] at hexec
    exact ⟨d, hexec, hdrop.destroying h.1 hlive.2.2.1⟩

theorem ctxdestroy_of_running {s : State} {m : Lmsg} (h : Accepted s m) (hep : m.ep = 0) (hlen : m.payload.length = 2)
    (hlive : Live s (m.at 0 2)) (hops : (s.ctx (m.at 0 2)).hostOps = []) (hstate : (s.ctx (m.at 0 2)).state = .running)
    (hstop : (s.ctx (m.at 0 2)).stopped = false) {c : Nat} {e d f : State} (hc : m.at 0 2 = c) (he : (toDestroy s m c).stopSteps c = e)
    (hd : e.dropWithdrawn c = d) (hf : d.leaveTiles c false = f) :
    ((e.ctx c).stopped = false → ∃ t, exec (.ctxdestroy m) s = .next t ∧ Destroying t c m.rid ∧ (t.ctx c).state = .running ∧
      ∀ u ∈ s.tilesOf c, (t.tile u).stopping = true) ∧
    ((e.ctx c).stopped = true → (d.ctxWrites c).all d.seenEverywhere = false →
      ∃ t, exec (.ctxdestroy m) s = .next t ∧ Destroying t c m.rid) ∧
    ((e.ctx c).stopped = true → (d.ctxWrites c).all d.seenEverywhere = true → (s.ctx c).pipes = [] →
      AnsweredOk s (.ctxdestroy m) m (endBody f c (d.ctx c).crumbCount)
        (fun t => (t.ctx c).live = false ∧ (t.ctx c).generation = (s.ctx c).generation ∧ (t.part (partOf s c)).running = none ∧
          ∀ u ∈ s.tilesOf c, (t.tile u).ctx = 0 ∧ (t.tile u).stage = none)) := by
  have hexec := h.ctxdestroy_exec hep hlen hlive hops
  rw [hc] at hlive hstate hstop hexec
  have hctx := h.1.ctx_toDestroy c
  have htiles := h.1.tilesOf_toDestroy c
  have hsteps : Stopping (toDestroy s m c) e := he ▸ .stopSteps _ c
  have hdrop : Stopping (toDestroy s m c) d := hsteps.trans (hd ▸ .dropWithdrawn e c)
  have hleave : OffTiles d f c := hf ▸ .leaveTiles d c
  rw [State.goDestroy_of_running _ (by rw [hctx]; exact hstate) (by rw [hctx]; exact hstop), he] at hexec
  refine ⟨fun hwait => ?_, fun hdone hseen => ?_, fun hdone hseen hpipes => ?_⟩
  · rw [if_pos hwait] at hexec
    have hend := hsteps.ending c
    rw [hctx] at hend
    refine ⟨e, hexec, hsteps.destroying h.1 hlive.2.2.1, (congrArg Context.state hend :).trans hstate, fun u hu => ?_⟩
    have hwaits := State.stopSteps_waits (by rw [he]; exact hwait)
    rw [htiles, he] at hwaits
    rw [hwaits]
    exact State.tilesStopping_stop _ hu
  · rw [if_neg (by rw [hdone]; decide), State.destroyOn_waits _ (by rw [hd]; exact hseen), hd] at hexec
    exact ⟨d, hexec, hdrop.destroying h.1 hlive.2.2.1⟩
  · have hend := hdrop.ending c
    rw [hctx] at hend
    have hrun : (d.ctx c).state = .running := (congrArg Context.state hend :).trans hstate
    have hpart : (d.ctx c).part = partOf s c := (congrArg Context.part hend :)
    rw [if_neg (by rw [hdone]; decide), State.destroyOn_ends _ (by rw [hd]; exact hseen) (hsteps.pipes (by rw [hctx]; exact hpipes)), hd,
      State.finishDestroy_eq, if_pos hrun, hf] at hexec
    have hoff : OffTiles d (f.ended c) c := hleave.trans_placed (.ended f c)
    refine answeredOk_ended hep hexec ((h.1.sentOn_toDestroy c).trans (hdrop.sent.trans hleave.sent)) fun t hctxs hparts htile => ?_
    have hgeneration : ((f.ended c).ctx c).generation = (s.ctx c).generation :=
      (hoff.generation c).trans ((hdrop.generation c).trans (by rw [hctx]))
    have hrunning := hoff.running
    rw [hpart] at hrunning
    rw [State.ctx, hctxs, State.part, hparts]
    refine ⟨f.ended_live c, hgeneration, hrunning, fun u hu => ?_⟩
    have hseat := hoff.idle u (by rw [hdrop.tilesOf, htiles]; exact hu)
    rw [State.tile, htile]
    exact ⟨(congrArg Prod.fst hseat :), (congrArg Prod.snd hseat :)⟩

/-! ## The management commands together -/

theorem managementCommandsAct : Rules.ManagementCommandsAct := by
  intro s m hep h
  refine ⟨?_, fun hlen hn hformed hnone => partfree_acts h hep hlen hn hformed hnone,
    fun hok hdead hformed hroom => ctxcreate_acts h hep hok hdead hformed hroom, ?_, ?_,
    fun hlen he hz => keyset_acts h hep hlen he hz, fun hlen hz hlive => allow_acts h hep hlen hz hlive,
    fun hlen hz hmodes hlog hlive hstate hpipes => modeset_acts h hep hlen hz hmodes hlog hlive hstate hpipes,
    fun hlen hn hz hmod hlo hhi hformed => proofset_acts h hep hlen hn hz hmod hlo hhi hformed,
    fun hlen hw hz hok hlive hstate => winset_acts h hep hlen hw hz hok hlive hstate⟩
  · rintro octets dies ports o rfl rfl rfl hlen hn hz1 hmask hz13 hne hfree hapart hready len hbase
    have hform : Formable s m o len := ⟨⟨hlen, hn, hz1, hmask, hz13, hne⟩, hfree, hapart, hready,
      by simp only [List.isEmpty_iff]; rfl, by simp only [List.isEmpty_iff]; exact hbase⟩
    obtain ⟨t, hexec, hreply, hkept, hpart⟩ := partform_acts h hep hform
    refine ⟨t, hexec, hreply, hkept, ?_⟩
    dsimp only
    rw [hpart]
    exact ⟨rfl, rfl, rfl, rfl, rfl, rfl⟩
  · rintro c hlen rfl hlive hops hstate
    exact ctxdestroy_of_still h hep hlen hlive hops hstate rfl rfl
  · rintro c hlen rfl hlive hops hstate hstop
    exact ctxdestroy_of_running h hep hlen hlive hops hstate hstop rfl rfl rfl rfl

/-- Settles O60: a management command accepted acts on the message taken, and its answer changes nothing else; the record commands read the
machine that the message left; a context is destroyed through the stop of its tiles and its home unit's account. -/
theorem managementAndRecordCommands : Obligations.ManagementAndRecordCommands := ⟨managementCommandsAct, recordCommandsAnswer⟩

end Sys2Proof.Machine
end

section
/-! SUPPORT. What the device's own reads and writes of virtual memory leave as it was: the contexts, and what has been sent. -/

namespace Sys2Proof.Machine

/-! ## Contexts and messages -/

/-- The contexts, and what has been sent to the host. -/
def State.affairs (s : State) : AMap Context × List Msg := (s.ctxs, s.pkg.sent)

theorem State.affairs_mk {s t : State} (hctxs : t.ctxs = s.ctxs) (hsent : t.pkg.sent = s.pkg.sent) : t.affairs = s.affairs := by
  rw [State.affairs, hctxs, hsent, State.affairs]

theorem State.ctx_of_affairs {s t : State} (h : t.affairs = s.affairs) (c : Nat) : t.ctx c = s.ctx c := by
  have hctxs : t.ctxs = s.ctxs := congrArg Prod.fst h
  rw [State.ctx, hctxs, State.ctx]

theorem State.pipe_of_affairs {s t : State} (h : t.affairs = s.affairs) (c slot : Nat) : t.pipe c slot = s.pipe c slot := by
  rw [State.pipe, State.ctx_of_affairs h, State.pipe]

theorem sentOn_of_affairs {s t : State} (h : t.affairs = s.affairs) : SentOn s t := .of_eq (congrArg Prod.snd h : t.pkg.sent = s.pkg.sent)

/-! ## Charges on the way to a node -/

@[simp] theorem State.modTile_affairs (s : State) (t : Nat) (f : Tile → Tile) : (s.modTile t f).affairs = s.affairs := rfl
@[simp] theorem State.modStrand_affairs (s : State) (t n : Nat) (f : Strand → Strand) : (s.modStrand t n f).affairs = s.affairs := rfl
@[simp] theorem State.modDie_affairs (s : State) (d : Nat) (f : Die → Die) : (s.modDie d f).affairs = s.affairs := rfl
@[simp] theorem State.settle_affairs (s : State) : (State.settle s).affairs = s.affairs := State.affairs_mk (by simp) (by simp)

@[simp] theorem State.uncore_affairs (s : State) (d c : Nat) (e : Uncore) (n m : Nat) : (s.uncore d c e n m).affairs = s.affairs := by
  obtain ⟨w, z, hpkg⟩ := s.uncore_pkg d c e n m
  exact State.affairs_mk (by simp) (by rw [hpkg])

@[simp] theorem State.charge_affairs (s : State) (t k n : Nat) (o : Option Nat) : (s.charge t k n o).affairs = s.affairs := by
  obtain ⟨w, z, hpkg⟩ := s.charge_pkg t k n o
  exact State.affairs_mk (by simp) (by rw [hpkg])

@[simp] theorem State.chargePath_affairs (s : State) (c t u n : Nat) : (s.chargePath c t u n).affairs = s.affairs := by
  unfold State.chargePath State.chargeHops State.chargeBridges
  rw [foldl_keeps State.affairs _ (fun s p => s.uncore_affairs _ c _ _ _), foldl_keeps State.affairs _ (fun s x => s.uncore_affairs x c _ _ _)]

@[simp] theorem State.countReqs_affairs (s : State) (e d n : Nat) : (s.countReqs e d n).affairs = s.affairs := rfl

@[simp] theorem State.nodePath_affairs (s : State) (c t pa n : Nat) : (s.nodePath c t pa n).affairs = s.affairs := s.chargePath_affairs _ _ _ _

@[simp] theorem State.nodeCharge_affairs (s : State) (c pa : Nat) (w a : Bool) : (s.nodeCharge c pa w a).affairs = s.affairs := by
  unfold State.nodeCharge
  dsimp only
  split <;> exact s.uncore_affairs _ _ _ _ _

@[simp] theorem State.nodeEvent_affairs (s : State) (e c pa : Nat) (w a : Bool) : (s.nodeEvent e c pa w a).affairs = s.affairs := by
  unfold State.nodeEvent
  dsimp only
  split <;> simp

theorem State.chargeRun_affairs (s : State) (c t va n : Nat) (pas : List Nat) (w : Bool) : (s.chargeRun c t va n pas w).affairs = s.affairs :=
  foldl_keeps State.affairs _ (fun _ _ => by simp) _ s

/-! ## Translations -/

@[simp] theorem State.fillDie_affairs (s : State) (d : Nat) (e : TlbEntry) : (s.fillDie d e).affairs = s.affairs := rfl

@[simp] theorem State.fillAbove_affairs (s : State) (who : Requester) (e : TlbEntry) : (s.fillAbove who e).affairs = s.affairs := by
  unfold State.fillAbove fillWindow
  dsimp only
  split <;> split <;> rfl

theorem State.tlbLookup_affairs (s : State) (who : Requester) (c va : Nat) (a : Access) : (s.tlbLookup who c va a).1.affairs = s.affairs := by
  unfold State.tlbLookup
  split
  · rfl
  · split
    · simp
    · dsimp only
      split <;> (split <;> simp)

/-- The state that asking for a translation leaves. -/
def Xl.after : Xl → State
  | .ok s _ _ | .wait s | .fault s _ _ => s

theorem State.use_after (s : State) (c d v : Nat) (e : TlbEntry) (a : Access) (super atomic : Bool) : (s.use c d v e a super atomic).after = s := by
  unfold State.use
  split
  · rfl
  · split <;> rfl

theorem State.translate_affairs (s : State) (who : Requester) (c : Nat) (va : Word) (a : Access) (super atomic : Bool) :
    (s.translate who c va a super atomic).after.affairs = s.affairs := by
  have hlook := s.tlbLookup_affairs who c va.toNat a
  unfold State.translate
  split
  · rfl
  · dsimp only
    split
    · split
      · rfl
      · rfl
      · split
        · rw [State.use_after]; rfl
        · rfl
      · rfl
    · split
      next h => rw [h] at hlook; rw [State.use_after]; exact hlook
      next h =>
        rw [h] at hlook
        split
        · rfl
        · exact hlook

/-- The state that asking for the pages of a run leaves. -/
def PagesXl.after : PagesXl → State
  | .ok s _ _ | .wait s | .fault s _ _ _ => s

theorem State.xlPages_affairs (who : Requester) (c : Nat) (a : Access) (super : Bool) : ∀ (l : List Nat) (s : State),
    (s.xlPages who c a super l).after.affairs = s.affairs
  | [], _ => rfl
  | va :: rest, s => by
    have hfirst := s.translate_affairs who c (w64 va) a super false
    unfold State.xlPages
    split
    next s1 pa rep h =>
      rw [h] at hfirst
      have hrest := State.xlPages_affairs who c a super rest s1
      split
      next h1 => rw [h1] at hrest; exact hrest.trans hfirst
      · exact hrest.trans hfirst
    next h => rw [h] at hfirst; exact hfirst
    next h => rw [h] at hfirst; exact hfirst

/-! ## Lines written by the device -/

@[simp] theorem State.devWriteWord_affairs (s : State) (pa : Nat) (l : List Byte) : (s.devWriteWord pa l).affairs = s.affairs := by
  unfold State.devWriteWord
  dsimp only
  rw [State.settle_affairs]
  rfl

@[simp] theorem State.chargeLine_affairs (s : State) (c d e pa : Nat) : (s.chargeLine c d e pa).affairs = s.affairs := by
  simp [State.chargeLine]

theorem State.sendLine_affairs (s : State) (d c pa wid : Nat) (past : List Nat) : (s.sendLine d c pa wid past).affairs = s.affairs :=
  foldl_keeps State.affairs _ (fun s e => s.chargeLine_affairs c _ e pa) _ s

theorem State.applyLine_affairs (s : State) (l : LineMsg) : (s.applyLine l).affairs = s.affairs := by
  unfold State.applyLine
  dsimp only
  split <;> (rw [State.settle_affairs]; rfl)

/-- R341: a line written at one replica is taken to every other one. -/
def State.spreadLine (s : State) (d c pa w : Nat) : State :=
  (List.range 9).foldl (fun (s : State) e => s.followStamp e (s.die d).lamport)
    (((s.sendLine d c pa w []).lines.filter (fun l => l.wid == w)).foldl State.applyLine (s.sendLine d c pa w []))

theorem State.spreadLine_affairs (s : State) (d c pa w : Nat) : (s.spreadLine d c pa w).affairs = s.affairs := by
  unfold State.spreadLine
  have hstamps (s : State) (e : Nat) : (s.followStamp e (s.die d).lamport).affairs = s.affairs := rfl
  rw [foldl_keeps State.affairs _ hstamps, foldl_keeps State.affairs _ State.applyLine_affairs, State.sendLine_affairs]

/-- R341: the words of a line written in turn. -/
def State.devWords (s : State) (pa : Nat) (l : List Byte) : State :=
  (List.range ((pa % 8 + l.length + 7) / 8)).foldl (fun s k =>
    s.devWriteWord (pa + (8 * k - pa % 8)) ((l.drop (8 * k - pa % 8)).take (8 - (pa + (8 * k - pa % 8)) % 8))) s

theorem State.devLine_eq (s : State) (d c pa : Nat) (l : List Byte) (rep : Bool) : s.devLine d c pa l rep =
    if rep then (s.devWords pa l).spreadLine d c pa ((s.devWords pa l).nextId - 1) else s.devWords pa l := rfl

theorem State.devLine_affairs (s : State) (d c pa : Nat) (l : List Byte) (rep : Bool) : (s.devLine d c pa l rep).affairs = s.affairs := by
  have hwords : (s.devWords pa l).affairs = s.affairs := foldl_keeps State.affairs _ (fun s _ => s.devWriteWord_affairs _ _) _ s
  rw [State.devLine_eq]
  split
  · exact (State.spreadLine_affairs _ _ _ _ _).trans hwords
  · exact hwords

theorem State.putRun_affairs (s : State) (d c va : Nat) (pas reps : List Nat) (l : List Byte) : (s.putRun d c va pas reps l).affairs = s.affairs :=
  foldl_keeps State.affairs _ (fun s _ => s.devLine_affairs d c _ _ _) _ s

/-! ## Reads and writes -/

/-- A device read gives as many bytes as it asks for, and leaves contexts and messages. -/
theorem State.readVa_ok {s s1 : State} {who : Requester} {c t va n : Nat} {super : Bool} {l : List Byte}
    (h : s.readVa who c t va n super = .ok s1 l) : s1.affairs = s.affairs ∧ l.length = n := by
  have hpages := State.xlPages_affairs who c .read super (pagesOf va n) s
  unfold State.readVa at h
  split at h
  next hx =>
    split at h
    · cases h
    · cases h
      rw [hx] at hpages
      exact ⟨(State.chargeRun_affairs _ _ _ _ _ _ _).trans hpages, by simp⟩
  · cases h
  · cases h

/-- So does one that faults. -/
theorem State.readVa_fault {s s1 : State} {who : Requester} {c t va n code r a : Nat} {super : Bool}
    (h : s.readVa who c t va n super = .fault s1 code r a) : s1.affairs = s.affairs := by
  have hpages := State.xlPages_affairs who c .read super (pagesOf va n) s
  unfold State.readVa at h
  split at h
  · split at h <;> cases h
  · cases h
  next hx =>
    cases h
    rw [hx] at hpages
    exact hpages

/-- A device write leaves contexts and messages. -/
theorem State.writeVa_ok {s s1 : State} {who : Requester} {c t va : Nat} {l : List Byte} {super : Bool}
    (h : s.writeVa who c t va l super = .ok s1) : s1.affairs = s.affairs := by
  have hpages := State.xlPages_affairs who c .write super (pagesOf va l.length) s
  unfold State.writeVa at h
  split at h
  next hx =>
    split at h
    · cases h
    · cases h
      rw [hx] at hpages
      exact ((State.putRun_affairs _ _ _ _ _ _ _).trans (State.chargeRun_affairs _ _ _ _ _ _ _)).trans hpages
  · cases h
  · cases h

end Sys2Proof.Machine
end

section
/-! SUPPORT. A launch (R44, R45, R95, R116): what its start reads, how it is refused, and what a start keeps of its descriptors. -/

namespace Sys2Proof.Machine

/-! ## A pipeline changed -/

@[simp] theorem State.pipe_modPipe_same (s : State) (c slot : Nat) (f : Pipeline → Pipeline) : (s.modPipe c slot f).pipe c slot = f (s.pipe c slot) := by
  simp [State.modPipe, State.pipe, Context.pipe]

theorem State.pipe_modPipe_other (s : State) (c : Nat) {slot k : Nat} (f : Pipeline → Pipeline) (h : k ≠ slot) :
    (s.modPipe c slot f).pipe c k = s.pipe c k := by
  simp [State.modPipe, State.pipe, Context.pipe, AMap.get_set_other _ _ _ h]

/-- Of its context a change of a pipeline changes the pipelines alone. -/
theorem State.ctx_modPipe_same (s : State) (c slot : Nat) (f : Pipeline → Pipeline) :
    (s.modPipe c slot f).ctx c = { s.ctx c with pipes := (s.ctx c).pipes.set slot (f (s.pipe c slot)) } := by
  rw [State.modPipe, State.ctx_modCtx_same, State.pipe]

/-- Contexts with the same pipelines have the same pipeline in a slot. -/
theorem State.pipe_of_pipes {s t : State} {c : Nat} (h : (t.ctx c).pipes = (s.ctx c).pipes) (slot : Nat) : t.pipe c slot = s.pipe c slot := by
  rw [State.pipe, Context.pipe, h, State.pipe, Context.pipe]

/-- R45: a refusal's fields begin with its status. -/
theorem LaunchFail.body_take (f : LaunchFail) : f.body.take 4 = leBytes 4 f.status := by
  rw [LaunchFail.body, List.append_assoc, List.append_assoc]
  exact List.take_left' (leBytes_length 4 _)

/-- R97: an end decided where none was. -/
theorem State.decideEnd_pipe {s : State} {c slot : Nat} (status : Nat) (body : List Byte) (h : (s.pipe c slot).ending = none) :
    (s.decideEnd c slot status body).pipe c slot = { s.pipe c slot with ending := some (status, body) } := by
  rw [State.decideEnd, State.pipe_modPipe_same, h]
  rfl

/-! ## What granting tiles leaves -/

section grants
variable (s : State) (c : Nat)

theorem State.replayDiv_pipes (r : Crumb) (e : Nat) : ((s.replayDiv c r).ctx e).pipes = (s.ctx e).pipes := by
  unfold State.replayDiv
  rw [State.ctx_event]
  exact s.modCtx_reads Context.pipes c rfl e

theorem State.takeRecord_pipes {s1 : State} {mine : Crumb → Bool} {r : Crumb} (h : s.takeRecord c mine = some (r, s1)) (e : Nat) :
    (s1.ctx e).pipes = (s.ctx e).pipes := by
  unfold State.takeRecord at h
  split at h
  · cases h
  · cases h
    exact s.modCtx_reads Context.pipes c rfl e

theorem State.addMove_pipes (m : Move) (e : Nat) : ((s.modCtx c (fun x => { x with moves := x.moves ++ [m] })).ctx e).pipes = (s.ctx e).pipes :=
  s.modCtx_reads Context.pipes c rfl e

theorem State.moveFromPool_pipes (t slot g : Nat) (grant : Bool) (e : Nat) :
    ((s.moveFromPool c t slot g grant).ctx e).pipes = (s.ctx e).pipes := State.addMove_pipes (s.modPart _ _) c _ e

theorem State.moveFromStage_pipes (t : Nat) (k : Nat × Nat) (slot g : Nat) (grant : Bool) (e : Nat) :
    ((s.moveFromStage c t k slot g grant).ctx e).pipes = (s.ctx e).pipes := s.addMove_pipes c _ e

theorem State.loggedMove_pipes {s1 : State} {r : Crumb} (h : s.loggedMove c r = some s1) (e : Nat) : (s1.ctx e).pipes = (s.ctx e).pipes := by
  unfold State.loggedMove at h
  dsimp only at h
  split at h
  · cases h
  · split at h
    · split at h
      · cases h
        exact s.moveFromPool_pipes c _ _ _ _ e
      · cases h
    · split at h
      · cases h
        exact s.moveFromStage_pipes c _ _ _ _ _ e
      · cases h

theorem State.grantTile_pipes (slot g e : Nat) : ((s.grantTile c slot g).ctx e).pipes = (s.ctx e).pipes := by
  unfold State.grantTile
  dsimp only
  split
  · split
    · rfl
    next r s1 hr =>
      have htaken := s.takeRecord_pipes c hr e
      cases hm : s1.loggedMove c r with
      | none => exact (s1.replayDiv_pipes c r e).trans htaken
      | some s2 => exact (s1.loggedMove_pipes c hm e).trans htaken
  · split
    · exact s.moveFromPool_pipes c _ _ _ _ e
    · split
      · rfl
      · split
        · rfl
        · exact s.moveFromStage_pipes c _ _ _ _ _ e

/-- R116: tiles are granted by moves; every pipeline stands. -/
theorem State.grantMins_pipes (slot e : Nat) : ((s.grantMins c slot).ctx e).pipes = (s.ctx e).pipes := by
  unfold State.grantMins
  refine foldl_keeps (fun s : State => (s.ctx e).pipes) _ (fun s g => foldl_keeps (fun s : State => (s.ctx e).pipes) _ (fun s _ => ?_) _ s) _ s
  dsimp only
  split
  · exact s.grantTile_pipes c slot g e
  · rfl

end grants

/-! ## The copy of the descriptors (R44) -/

/-- R38: a stage count and a queue count are one byte each. -/
theorem imgNat_one (d : List Byte) (off : Nat) : imgNat d off 1 = (d.getD off 0).toNat := by
  simp [imgNat, leNat]

theorem need_eq_none {ok : Bool} {off : Nat} : need ok off = none ↔ ok = true := by cases ok <;> simp [need]

/-- R37: a pipeline has a stage. -/
theorem stages_of_pipeFail {d : List Byte} (h : pipeFail d = none) : 1 ≤ imgNat d 2 1 := by
  have hchecks := List.findSome?_eq_none_iff.mp h
  have hstages := need_eq_none.mp (hchecks _ (.tail _ (.head _)))
  simp only [Bool.and_eq_true, decide_eq_true_eq] at hstages
  exact hstages.1

/-- R44: the first descriptor read is the pipeline's own. -/
theorem nextDesc_nil (va : Nat) : nextDesc [] va = some (0, 0, va, 64) := rfl

/-- R37, R44: behind a pipeline's own descriptor comes one of a stage. -/
theorem nextDesc_of_pipeDesc {d : List Byte} (va : Nat) (hlen : d.length = 64) (h : pipeFail d = none) : (nextDesc d va).isSome = true := by
  have hstages := stages_of_pipeFail h
  have hmore : (d.length - 64) / 128 < imgNat d 2 1 := by omega
  simp only [nextDesc, if_neg (show ¬ d.length < 64 by omega), if_pos hmore, Option.isSome_some]

/-- R38, R44: the stages that a copy describes. -/
def copyStages (copy : List Byte) : List StageDesc :=
  (List.range (imgNat copy 2 1)).map (fun i => decodeStage (cut copy (64 + 128 * i) 128))

/-- R40, R44: the queues that a copy describes. -/
def copyQueues (copy : List Byte) : List QueueDesc :=
  (List.range (imgNat copy 3 1)).map (fun j => decodeQueue (cut copy (64 + 128 * imgNat copy 2 1 + 64 * j) 64))

/-! ## The start of a pipeline (R45) -/

section start
variable {s : State} {c slot : Nat}

theorem State.startPipe_of_copyFail {f : LaunchFail} (h : copyFail (s.pipe c slot).copy (s.part (s.ctx c).part).octets.length = some f) :
    s.startPipe c slot = s.decideEnd c slot 4 f.body := by
  simp only [State.startPipe, h]

theorem State.startPipe_of_wideFail {f : LaunchFail} (hcopy : copyFail (s.pipe c slot).copy (s.part (s.ctx c).part).octets.length = none)
    (h : s.wideFail c (copyStages (s.pipe c slot).copy) (copyQueues (s.pipe c slot).copy) = some f) :
    s.startPipe c slot = s.decideEnd c slot 4 f.body := by
  simp only [copyStages, copyQueues] at h
  simp only [State.startPipe, hcopy, h]

/-- R41: a queue as its pipeline starts, with its place in queue memory. -/
def startedQueue (spots : List (List Stretch)) (qs : List QueueDesc) (j : Nat) : Queue :=
  { desc := qs.getD j {}, places := (spots.getD j []).map (fun x => (x.1, x.2.1)) }

theorem map_startedQueue_desc (spots : List (List Stretch)) (qs : List QueueDesc) :
    ((List.range qs.length).map (startedQueue spots qs)).map (fun x => x.desc) = qs := by
  refine List.ext_getElem (by simp) fun j _ hj => ?_
  simp [startedQueue, List.getD, List.getElem?_eq_getElem hj]

/-- R45: a pipeline started with the stages and queues given. -/
def Pipeline.begun (gs : List StageDesc) (queues : List Queue) (p : Pipeline) : Pipeline :=
  { p with started := true, stages := gs.map (fun d => { desc := d }), queues, seqs := [] }

/-- R128: the push cursors of tiles for the queues of a slot start. -/
def State.startCursors (s : State) (slot : Nat) (l : List Nat) : State :=
  l.foldl (fun s t => s.modTile t (fun u => { u with cursors := u.cursors.filter (fun (q : Nat × Nat) => q.1 / queueKey 1 0 != slot) })) s

theorem State.startCursors_pipes (s : State) (slot : Nat) (l : List Nat) (e : Nat) : ((s.startCursors slot l).ctx e).pipes = (s.ctx e).pipes := by
  unfold State.startCursors
  exact foldl_keeps (fun s : State => (s.ctx e).pipes) _ (fun _ _ => by rw [State.ctx_modTile]) l s

/-- R45: the pipeline of a slot started with the stages and queues described, its queues placed as far as there is room. -/
def State.beginPipe (s : State) (c slot : Nat) (gs : List StageDesc) (qs : List QueueDesc) : State :=
  s.modPipe c slot (Pipeline.begun gs ((List.range qs.length).map (startedQueue (s.placed (s.part (s.ctx c).part) qs) qs)))

/-- R45: a pipeline that passes every check starts. -/
theorem State.startPipe_of_pass (hcopy : copyFail (s.pipe c slot).copy (s.part (s.ctx c).part).octets.length = none)
    {t : State} (hbegin : s.beginPipe c slot (copyStages (s.pipe c slot).copy) (copyQueues (s.pipe c slot).copy) = t)
    (hwide : s.wideFail c (copyStages (s.pipe c slot).copy) (copyQueues (s.pipe c slot).copy) = none) :
    s.startPipe c slot = (t.startCursors slot (t.part (t.ctx c).part).tiles).grantMins c slot := by
  simp only [copyStages, copyQueues] at hwide
  simp only [State.startPipe, hcopy, hwide]
  rw [← hbegin]
  rfl

/-- R45: it has the stages and queues described. -/
theorem State.startPipe_started (hcopy : copyFail (s.pipe c slot).copy (s.part (s.ctx c).part).octets.length = none)
    (hwide : s.wideFail c (copyStages (s.pipe c slot).copy) (copyQueues (s.pipe c slot).copy) = none) :
    ((s.startPipe c slot).pipe c slot).started = true ∧
      ((s.startPipe c slot).pipe c slot).stages.map (fun x => x.desc) = copyStages (s.pipe c slot).copy ∧
      ((s.startPipe c slot).pipe c slot).queues.map (fun x => x.desc) = copyQueues (s.pipe c slot).copy := by
  rw [State.startPipe_of_pass hcopy rfl hwide, State.pipe_of_pipes (State.grantMins_pipes _ c slot c),
    State.pipe_of_pipes (State.startCursors_pipes _ slot _ c), State.beginPipe, State.pipe_modPipe_same]
  exact ⟨rfl, by simp [Pipeline.begun, Function.comp_def], map_startedQueue_desc _ _⟩

end start

/-! ## LAUNCH_START -/

/-- R45: a launch ended as REFUSED. -/
def Refused (s : State) (c slot : Nat) (f : LaunchFail) : Prop :=
  (s.pipe c slot).ending = some (4, f.body) ∧ (s.pipe c slot).started = false

/-- R95: the start condition of a launch is met, and its scheduler may act. -/
structure Starts (s : State) (c slot : Nat) : Prop where
  active : (s.pipe c slot).active = true
  ready : (s.pipe c slot).ready = true
  started : (s.pipe c slot).started = false
  ending : (s.pipe c slot).ending = none
  schedules : s.schedules c = true

theorem exec_launchStart (s : State) (c slot : Nat) : exec (.launchStart c slot) s = execLaunchStart c slot s := rfl

/-- R44: the descriptor that a launch reads next, none once it has read what there is to check. -/
def Pipeline.toRead (p : Pipeline) : Option (Nat × Nat × Nat × Nat) :=
  if pipeFail (cut p.copy 0 64) = none ∨ p.copy.length < 64 then nextDesc p.copy p.descVa else none

theorem Pipeline.toRead_of_empty {p : Pipeline} (h : p.copy = []) : p.toRead = some (0, 0, p.descVa, 64) := by
  rw [Pipeline.toRead, h, if_pos (Or.inr (by decide)), nextDesc_nil]

theorem Pipeline.toRead_of_last {p : Pipeline} (h : nextDesc p.copy p.descVa = none) : p.toRead = none := by
  rw [Pipeline.toRead, h, ite_self]

section launch
variable {s : State} {c slot : Nat} (h : Starts s c slot)
include h

/-- R45: with its last descriptor read, the copy is checked. -/
theorem Starts.exec_of_last (hlast : (s.pipe c slot).toRead = none) : exec (.launchStart c slot) s = .next (s.startPipe c slot) := by
  rw [Pipeline.toRead] at hlast
  rw [exec_launchStart]
  simp only [execLaunchStart, engine, h.active, h.ready, h.started, h.ending, h.schedules, hlast, Bool.not_true, Bool.or_false,
    Option.isSome_none, Bool.false_eq_true, if_false]

/-- R45: a descriptor that cannot be read refuses the launch. -/
theorem Starts.exec_of_fault {kind num va n : Nat} (hnext : (s.pipe c slot).toRead = some (kind, num, va, n)) {s1 : State} {code r a : Nat}
    (hread : s.readVa (.scheduler c) c (s.leadTile c) va n false = .fault s1 code r a) :
    ∃ f : LaunchFail, f.status = 20 ∧ exec (.launchStart c slot) s = .next (s1.decideEnd c slot 4 f.body) := by
  refine ⟨{ status := 20, kind, num, off := (max a va - va) / 8 * 8 }, rfl, ?_⟩
  rw [Pipeline.toRead] at hnext
  rw [exec_launchStart]
  simp only [execLaunchStart, engine, h.active, h.ready, h.started, h.ending, h.schedules, hnext, hread, Bool.not_true, Bool.or_false,
    Option.isSome_none, Bool.false_eq_true, if_false]

/-- R44: a descriptor read, others to follow. -/
theorem Starts.exec_of_read {kind num va n : Nat} (hnext : (s.pipe c slot).toRead = some (kind, num, va, n)) {s1 t : State} {d : List Byte}
    (hread : s.readVa (.scheduler c) c (s.leadTile c) va n false = .ok s1 d)
    (hcopied : s1.modPipe c slot (fun p => { p with copy := p.copy ++ d }) = t)
    (hmore : (nextDesc (t.pipe c slot).copy (s.pipe c slot).descVa).isSome = true) (hd : pipeFail d = none) :
    exec (.launchStart c slot) s = .next t := by
  rw [Pipeline.toRead] at hnext
  rw [exec_launchStart]
  simp only [execLaunchStart, engine, h.active, h.ready, h.started, h.ending, h.schedules, hnext, hread, hcopied, hd, Bool.not_true,
    Bool.or_false, Option.isSome_none, Bool.false_eq_true, if_false, and_false, or_false, Option.isNone_iff_eq_none,
    Option.isSome_iff_ne_none.mp hmore]

/-- R44, R45: a launch whose pipeline descriptor cannot be read is refused. -/
theorem Starts.faults (hcopy : (s.pipe c slot).copy = []) {s1 : State} {code r a : Nat}
    (hread : s.readVa (.scheduler c) c (s.leadTile c) (s.pipe c slot).descVa 64 false = .fault s1 code r a) :
    ∃ t b, exec (.launchStart c slot) s = .next t ∧ (t.pipe c slot).ending = some (4, b) ∧ b.take 4 = leBytes 4 20 ∧
      (t.pipe c slot).started = false := by
  have hpipe := State.pipe_of_affairs (State.readVa_fault hread) c slot
  obtain ⟨f, hstatus, hexec⟩ := h.exec_of_fault (Pipeline.toRead_of_empty hcopy) hread
  refine ⟨_, f.body, hexec, ?_⟩
  rw [State.decideEnd_pipe _ _ (by rw [hpipe, h.ending]), hpipe, f.body_take, hstatus]
  exact ⟨rfl, rfl, h.started⟩

/-- R44: a launch keeps the pipeline descriptor that it has read. -/
theorem Starts.reads (hcopy : (s.pipe c slot).copy = []) {s1 : State} {d : List Byte} (hd : pipeFail d = none)
    (hread : s.readVa (.scheduler c) c (s.leadTile c) (s.pipe c slot).descVa 64 false = .ok s1 d) :
    ∃ t, exec (.launchStart c slot) s = .next t ∧ (t.pipe c slot).copy = d ∧ (t.pipe c slot).started = false ∧
      (t.pipe c slot).ending = none := by
  obtain ⟨haffairs, hlen⟩ := State.readVa_ok hread
  have hpipe : (s1.modPipe c slot (fun p => { p with copy := p.copy ++ d })).pipe c slot = { s.pipe c slot with copy := d } := by
    rw [State.pipe_modPipe_same, State.pipe_of_affairs haffairs, hcopy, List.nil_append]
  refine ⟨_, h.exec_of_read (Pipeline.toRead_of_empty hcopy) hread rfl (by rw [hpipe]; exact nextDesc_of_pipeDesc _ hlen hd) hd, ?_⟩
  rw [hpipe]
  exact ⟨rfl, h.started, h.ending⟩

/-- R45: the checks of a launch whose descriptors are all read refuse it, or it starts as described. -/
theorem Starts.checked (hlast : nextDesc (s.pipe c slot).copy (s.pipe c slot).descVa = none)
    {gs : List StageDesc} {qs : List QueueDesc} (hgs : copyStages (s.pipe c slot).copy = gs) (hqs : copyQueues (s.pipe c slot).copy = qs)
    {fail : Option LaunchFail} (hfail : copyFail (s.pipe c slot).copy (s.part (partOf s c)).octets.length = fail) :
    ∃ t, exec (.launchStart c slot) s = .next t ∧ (∀ f, fail = some f → Refused t c slot f) ∧
      (∀ f, fail = none → s.wideFail c gs qs = some f → Refused t c slot f) ∧
      (fail = none → s.wideFail c gs qs = none → (t.pipe c slot).started = true ∧
        (t.pipe c slot).stages.map (fun x => x.desc) = gs ∧ (t.pipe c slot).queues.map (fun x => x.desc) = qs) := by
  subst hgs hqs hfail
  refine ⟨_, h.exec_of_last (Pipeline.toRead_of_last hlast), fun f hcopy => ?_, fun f hcopy hwide => ?_, State.startPipe_started⟩
  · rw [State.startPipe_of_copyFail hcopy, Refused, State.decideEnd_pipe _ _ h.ending]
    exact ⟨rfl, h.started⟩
  · rw [State.startPipe_of_wideFail hcopy hwide, Refused, State.decideEnd_pipe _ _ h.ending]
    exact ⟨rfl, h.started⟩

end launch

end Sys2Proof.Machine
end

section
/-! SUPPORT. TRIG counts and ends of pipelines (R97, R99, R399): which launches they let start or end. -/

namespace Sys2Proof.Machine

/-! ## Pipelines changed together -/

/-- Every pipeline of a context passed through a change. -/
def Context.mapPipes (f : Pipeline → Pipeline) (x : Context) : Context := { x with pipes := x.pipes.map (fun (p : Nat × Pipeline) => (p.1, f p.2)) }

theorem Context.pipe_mapPipes {f : Pipeline → Pipeline} (hf : f {} = {}) (x : Context) (k : Nat) : (x.mapPipes f).pipe k = f (x.pipe k) := by
  rw [Context.pipe, Context.mapPipes]
  exact AMap.get_map_snd {} f hf x.pipes k

/-! ## TRIG_COUNT (R99) -/

/-- A TRIG counted for a pipeline. -/
def Pipeline.trigged (past : List Nat) (p : Pipeline) : Pipeline := { p with trigs := p.trigs + 1, trigPasts := p.trigPasts ++ [past] }

/-- R99: a TRIG taken from its queue, and counted for its pipeline. -/
def State.trigCounted (s : State) (c : Nat) (q : Trig) : State :=
  (s.modCtx c (fun x => { x with trigQueue := x.trigQueue.erase q })).modPipe c q.slot (Pipeline.trigged q.past)

theorem exec_trigCount {s : State} {c : Nat} {q : Trig} {t : State} (h : s.nextTrig c (s.ctx c).trigQueue [] = some q)
    (hcounted : s.trigCounted c q = t) : exec (.trigCount c) s =
      .next (t.modCtx c (Context.mapPipes (fun p => p.afterTrig (t.pipe c q.slot)))) := by
  change execTrigCount c s = _
  simp only [execTrigCount, engine, h]
  rw [← hcounted]
  rfl

theorem Pipeline.afterTrig_unused (up : Pipeline) : Pipeline.afterTrig {} up = {} := rfl

theorem Pipeline.afterTrig_trigs (p up : Pipeline) : (p.afterTrig up).trigs = p.trigs := by
  unfold Pipeline.afterTrig
  split <;> rfl

/-- R99: the counts that a launch waits for make it ready. -/
theorem Pipeline.afterTrig_ready {p up : Pipeline} (hactive : p.active = true) (hending : p.ending = none) (hhandle : p.trigHandle = up.handle)
    (hn : 1 ≤ p.trigN) (hcount : p.trigN ≤ up.trigs) : (p.afterTrig up).ready = true := by
  unfold Pipeline.afterTrig
  split
  · rfl
  next hnot => simpa [hactive, hending, hhandle, hn, hcount] using hnot

theorem State.trigCounted_pipe_same (s : State) (c : Nat) (q : Trig) : (s.trigCounted c q).pipe c q.slot = (s.pipe c q.slot).trigged q.past := by
  rw [State.trigCounted, State.pipe_modPipe_same, State.pipe_of_pipes (s.modCtx_reads Context.pipes c rfl c)]

theorem State.trigCounted_pipe_other (s : State) (c : Nat) (q : Trig) {k : Nat} (h : k ≠ q.slot) : (s.trigCounted c q).pipe c k = s.pipe c k := by
  rw [State.trigCounted, State.pipe_modPipe_other _ _ _ h, State.pipe_of_pipes (s.modCtx_reads Context.pipes c rfl c)]

theorem State.trigCounted_queue (s : State) (c : Nat) (q : Trig) : ((s.trigCounted c q).ctx c).trigQueue = (s.ctx c).trigQueue.erase q := by
  rw [State.trigCounted, State.ctx_modPipe_same, State.ctx_modCtx_same]

/-- R99: TRIG_COUNT counts a TRIG, and makes the launches that wait for as many ready. -/
theorem trig_counts {s : State} {c : Nat} {q : Trig} (h : s.nextTrig c (s.ctx c).trigQueue [] = some q) :
    ∃ t, exec (.trigCount c) s = .next t ∧ (t.pipe c q.slot).trigs = (s.pipe c q.slot).trigs + 1 ∧ ProgramsKept s t ∧
      (t.ctx c).trigQueue = (s.ctx c).trigQueue.erase q ∧
      ∀ k, k ≠ q.slot → (s.pipe c k).active = true → (s.pipe c k).ending = none → (s.pipe c k).trigHandle = (s.pipe c q.slot).handle →
        1 ≤ (s.pipe c k).trigN → (s.pipe c k).trigN ≤ (s.pipe c q.slot).trigs + 1 → (t.pipe c k).ready = true := by
  refine ⟨_, exec_trigCount h rfl, ?_⟩
  have hup := s.trigCounted_pipe_same c q
  have hpipe (k : Nat) : ((s.trigCounted c q).modCtx c (Context.mapPipes (fun p => p.afterTrig ((s.trigCounted c q).pipe c q.slot)))).pipe c k =
      ((s.trigCounted c q).pipe c k).afterTrig ((s.pipe c q.slot).trigged q.past) := by
    rw [State.pipe, State.ctx_modCtx_same, Context.pipe_mapPipes (f := fun p => p.afterTrig _) (Pipeline.afterTrig_unused _), hup]
    rfl
  refine ⟨?_, programsKept_of_programs rfl, ?_, fun k hk hactive hending hhandle hn hcount => ?_⟩
  · rw [hpipe, Pipeline.afterTrig_trigs, hup]
    rfl
  · rw [State.ctx_modCtx_same]
    exact s.trigCounted_queue c q
  · rw [hpipe, s.trigCounted_pipe_other c q hk]
    exact Pipeline.afterTrig_ready hactive hending hhandle hn hcount

/-! ## The end of a pipeline (R97, R99) -/

/-- Registers and PCs of every strand, memory and the log of writes. -/
def State.visible (s : State) : (Nat → Nat → Strand) × List Host.Cell × List WriteRec := (s.strand, s.mem, s.log)

theorem programsKept_of_visible {s t : State} (h : t.visible = s.visible) : ProgramsKept s t := by
  have hstrand : t.strand = s.strand := congrArg Prod.fst h
  have hmem : (t.mem, t.log) = (s.mem, s.log) := congrArg Prod.snd h
  exact ⟨fun u n => by simp [hstrand], congrArg Prod.fst hmem, congrArg Prod.snd hmem⟩

/-- A change of a tile but for its strands. -/
theorem State.modTile_visible (s : State) (t : Nat) {f : Tile → Tile} (h : ∀ u, (f u).strands = u.strands) : (s.modTile t f).visible = s.visible := by
  have hstrand : (s.modTile t f).strand = s.strand := by
    funext u n
    rw [State.strand, State.tile_modTile]
    split
    next hu => rw [Tile.strand, h, hu]; rfl
    · rfl
  rw [State.visible, hstrand]
  rfl

theorem State.windowAdd_visible (s : State) (d c n m : Nat) : (s.windowAdd d c n m).visible = s.visible := rfl

theorem State.meterHouse_visible (s : State) (t n : Nat) : (s.meterHouse t n).visible = s.visible := by
  unfold State.meterHouse
  exact (State.windowAdd_visible _ _ _ _ _).trans (s.modTile_visible t fun _ => rfl)

theorem State.discardPreloads_visible (s : State) (pick : Nat → Preload → Bool) : (s.discardPreloads pick).visible = s.visible := by
  refine foldl_keeps State.visible _ (fun s q => ?_) _ s
  split
  · split
    · exact (State.meterHouse_visible _ _ _).trans (s.modTile_visible _ fun _ => rfl)
    · rfl
  · rfl

/-- R99: a free slot stands at a pipeline's end. -/
theorem Pipeline.afterEnd_free (n handle status : Nat) : Pipeline.afterEnd { serial := n } handle status = { serial := n } := rfl

/-- R99: a launch that names the ended pipeline starts after OK, else ends as UPSTREAM. -/
theorem Pipeline.afterEnd_named {p : Pipeline} {handle : Nat} (status : Nat) (hactive : p.active = true) (hready : p.ready = false)
    (hstarted : p.started = false) (hending : p.ending = none) (hhandle : p.trigHandle = handle) :
    p.afterEnd handle status = if status = 0 then { p with ready := true } else { p with ending := some (2, []) } := by
  simp [Pipeline.afterEnd, hactive, hready, hstarted, hending, hhandle]

/-- R95 to R97: the outcome of a context's pipeline kept, its slot freed. -/
def Context.freed (x : Context) (slot status : Nat) : Context := { x with
  outcomes := (x.outcomes ++ [((x.pipe slot).handle, status == 0)]).drop (x.outcomes.length + 1 - 64),
  pipes := x.pipes.set slot { serial := (x.pipe slot).serial } }

theorem Context.freed_pipe_same (x : Context) (slot status : Nat) : (x.freed slot status).pipe slot = { serial := (x.pipe slot).serial } := by
  rw [Context.pipe, Context.freed, AMap.get_set_same]

theorem Context.freed_pipe_other (x : Context) {slot k : Nat} (status : Nat) (hk : k ≠ slot) : (x.freed slot status).pipe k = x.pipe k := by
  rw [Context.pipe, Context.freed, AMap.get_set_other _ _ _ hk, Context.pipe]

/-- R97: the outcome of the pipeline stands last among those kept. -/
theorem Context.freed_outcomes (x : Context) (slot status : Nat) :
    (x.freed slot status).outcomes.getLast? = some ((x.pipe slot).handle, status == 0) ∧
      (x.freed slot status).outcomes.length ≤ x.outcomes.length + 1 := by
  constructor
  · rw [Context.freed, List.getLast?_drop, if_neg (by simp), List.getLast?_concat]
  · simp [Context.freed]

/-- R95 to R99: what the end of a pipeline makes of its context. -/
def Context.afterPipe (x : Context) (slot status : Nat) : Context :=
  (x.freed slot status).mapPipes (fun p => p.afterEnd (x.pipe slot).handle status)

theorem Context.afterPipe_pipe_same (x : Context) (slot status : Nat) : (x.afterPipe slot status).pipe slot = { serial := (x.pipe slot).serial } := by
  rw [Context.afterPipe, Context.pipe_mapPipes (f := fun p => p.afterEnd _ status) (Pipeline.afterEnd_free 0 _ _), x.freed_pipe_same, Pipeline.afterEnd_free]

theorem Context.afterPipe_pipe_other (x : Context) {slot k : Nat} (status : Nat) (hk : k ≠ slot) :
    (x.afterPipe slot status).pipe k = (x.pipe k).afterEnd (x.pipe slot).handle status := by
  rw [Context.afterPipe, Context.pipe_mapPipes (f := fun p => p.afterEnd _ status) (Pipeline.afterEnd_free 0 _ _), x.freed_pipe_other status hk]

/-- R97: a pipeline's end in the machine, its event still to be sent. -/
def State.pipeFreed (s : State) (c slot status : Nat) : State :=
  (s.discardPreloads (fun _ q => q.ctx == c && q.slot == slot)).modCtx c (fun x => x.afterPipe slot status)

theorem State.pipeFreed_ctx (s : State) (c slot status : Nat) : (s.pipeFreed c slot status).ctx c = (s.ctx c).afterPipe slot status := by
  rw [State.pipeFreed, State.ctx_modCtx_same, State.ctx, State.discardPreloads_ctxs, State.ctx]

theorem State.pipeFreed_sentOn (s : State) (c slot status : Nat) : SentOn s (s.pipeFreed c slot status) :=
  (Stopping.discardPreloads s _).sent.trans (.of_eq rfl)

theorem State.endPipe_eq (s : State) (c slot status : Nat) (body : List Byte) : s.endPipe c slot status body =
    (s.pipeFreed c slot status).event c 0x4001 c (leBytes 8 ((s.pipe c slot).token status).toNat ++ body) := by
  have hpipe : (s.discardPreloads (fun _ q => q.ctx == c && q.slot == slot)).ctx c = s.ctx c := by
    rw [State.ctx, State.discardPreloads_ctxs, State.ctx]
  rw [State.pipeFreed, State.modCtx, State.endPipe, State.modCtx, hpipe]
  rfl

theorem State.event_visible (s : State) (e y c : Nat) (b : List Byte) : (s.event e y c b).visible = s.visible := by
  have hstrand : (s.event e y c b).strand = s.strand := by
    funext u n
    simp [State.strand, State.tile]
  simp [State.visible, hstrand]

/-- R97: a pipeline's end leaves what programs see. -/
theorem State.endPipe_visible (s : State) (c slot status : Nat) (body : List Byte) : (s.endPipe c slot status body).visible = s.visible := by
  rw [State.endPipe_eq, State.event_visible]
  exact s.discardPreloads_visible _

/-- R85, R95 to R99: what a pipeline's end does. -/
theorem State.endPipe_ended (s : State) (c slot status : Nat) (body : List Byte) :
    PipeEnded s (s.endPipe c slot status body) c slot status body := by
  have hctx : (s.endPipe c slot status body).ctx c = (s.ctx c).afterPipe slot status := by
    rw [State.endPipe_eq, State.ctx_event, State.pipeFreed_ctx]
  have hfree : (s.endPipe c slot status body).pipe c slot = { serial := (s.pipe c slot).serial } := by
    rw [State.pipe, hctx, Context.afterPipe_pipe_same, State.pipe]
  obtain ⟨hlast, hlength⟩ := (s.ctx c).freed_outcomes slot status
  refine ⟨by rw [hfree], by rw [hfree], by rw [hctx]; exact hlast, by rw [hctx]; exact hlength, ?_, ?_⟩
  · rw [State.endPipe_eq]
    exact event_of_sentOn (s.pipeFreed_sentOn c slot status) (.of_eq rfl)
  · intro k hk hactive hready hstarted hending hhandle
    have hnamed := Pipeline.afterEnd_named status hactive hready hstarted hending hhandle
    have hpipe : (s.endPipe c slot status body).pipe c k = (s.pipe c k).afterEnd (s.pipe c slot).handle status := by
      rw [State.pipe, hctx, (s.ctx c).afterPipe_pipe_other status hk]
      rfl
    rw [hpipe, hnamed]
    split
    · rfl
    · exact ⟨hready, rfl⟩

/-! ## PIPELINE_RETIRE (R97, R399) -/

/-- A pipeline but for whether its end is decided. -/
def Pipeline.undecided (p : Pipeline) : Pipeline := { p with ending := none }

/-- What a step before it leaves of the pipelines of a context, the decision of this one's end apart, stands before a pipeline's end. -/
theorem PipeEnded.after {s s1 t : State} {c slot status : Nat} {body : List Byte} (h : PipeEnded s1 t c slot status body) (hsent : SentOn s s1)
    (houtcomes : (s1.ctx c).outcomes = (s.ctx c).outcomes) (hslot : (s1.pipe c slot).undecided = (s.pipe c slot).undecided)
    (hother : ∀ k, k ≠ slot → s1.pipe c k = s.pipe c k) : PipeEnded s t c slot status body := by
  have hserial : (s1.pipe c slot).serial = (s.pipe c slot).serial := (congrArg Pipeline.serial hslot :)
  have hhandle : (s1.pipe c slot).handle = (s.pipe c slot).handle := (congrArg Pipeline.handle hslot :)
  have htag : (s1.pipe c slot).userTag = (s.pipe c slot).userTag := (congrArg Pipeline.userTag hslot :)
  obtain ⟨hfree, hkept, hlast, hlength, hevent, hnamed⟩ := h
  simp only [hserial, hhandle, htag, houtcomes] at hkept hlast hlength hevent hnamed
  refine ⟨hfree, hkept, hlast, hlength, hevent.within hsent (.of_eq rfl), fun k hk => ?_⟩
  have hk1 := hnamed k hk
  rw [hother k hk] at hk1
  exact hk1

/-- R399: the end of a pipeline that has one, decided. -/
def State.endDecided (s : State) (c slot : Nat) : State :=
  if (s.pipe c slot).ending.isNone && (s.pipe c slot).finished then s.decideEnd c slot 0 [] else s

theorem State.endDecided_pipe {s : State} {c slot : Nat} {e : Nat × List Byte} (h : endOf s c slot = some e) :
    (s.endDecided c slot).pipe c slot = { s.pipe c slot with ending := some e } := by
  unfold endOf at h
  unfold State.endDecided
  cases hending : (s.pipe c slot).ending with
  | some e1 =>
    rw [hending] at h
    cases h
    rw [if_neg (by simp), ← hending]
  | none =>
    rw [hending] at h
    cases hfinished : (s.pipe c slot).finished with
    | true =>
      rw [hfinished] at h
      cases h
      exact State.decideEnd_pipe 0 [] hending
    | false =>
      rw [hfinished] at h
      cases h

theorem State.endDecided_quiet (s : State) (c slot : Nat) : (s.endDecided c slot).pipeQuiet c slot = s.pipeQuiet c slot := by
  unfold State.endDecided
  split
  · have hwrites : ((s.decideEnd c slot 0 []).pipe c slot).writes = (s.pipe c slot).writes := by
      rw [State.decideEnd, State.pipe_modPipe_same]
      split <;> rfl
    have hqueue : ((s.decideEnd c slot 0 []).ctx c).trigQueue = (s.ctx c).trigQueue := by rw [State.decideEnd, State.ctx_modPipe_same]
    rw [State.pipeQuiet, hwrites, hqueue]
    rfl
  · rfl

theorem State.endDecided_visible (s : State) (c slot : Nat) : (s.endDecided c slot).visible = s.visible := by
  unfold State.endDecided
  split <;> rfl

theorem State.endDecided_sentOn (s : State) (c slot : Nat) : SentOn s (s.endDecided c slot) := by
  unfold State.endDecided
  split <;> exact .of_eq rfl

theorem State.endDecided_outcomes (s : State) (c slot : Nat) : ((s.endDecided c slot).ctx c).outcomes = (s.ctx c).outcomes := by
  unfold State.endDecided
  split
  · rw [State.decideEnd, State.ctx_modPipe_same]
  · rfl

theorem State.endDecided_pipe_other (s : State) (c : Nat) {slot k : Nat} (h : k ≠ slot) : (s.endDecided c slot).pipe c k = s.pipe c k := by
  unfold State.endDecided
  split
  · exact s.pipe_modPipe_other c _ h
  · rfl

/-- What a pipeline's end does once it is decided. -/
theorem pipeEnded_endDecided {s : State} {c slot status : Nat} {body : List Byte} (h : endOf s c slot = some (status, body)) :
    PipeEnded s ((s.endDecided c slot).endPipe c slot status body) c slot status body :=
  (State.endPipe_ended _ c slot status body).after (s.endDecided_sentOn c slot) (s.endDecided_outcomes c slot)
    (by rw [State.endDecided_pipe h]; rfl) fun _ hk => s.endDecided_pipe_other c hk

section retire
variable {s : State} {c slot status : Nat} {body : List Byte} (hactive : (s.pipe c slot).active = true) (hretire : s.mayRetire c = true)
  (hend : endOf s c slot = some (status, body)) (hquiet : s.pipeQuiet c slot = true)
include hactive hretire hend hquiet

/-- R97, R399: a pipeline that writes no token ends. -/
theorem exec_pipelineRetire_untold (htoken : (s.pipe c slot).tokenVa = 0) :
    exec (.pipelineRetire c slot) s = .next ((s.endDecided c slot).endPipe c slot status body) := by
  have hending := congrArg Pipeline.ending (State.endDecided_pipe hend)
  have hstill := (s.endDecided_quiet c slot).trans hquiet
  unfold State.endDecided at hending hstill ⊢
  change execPipelineRetire c slot s = _
  simp only [execPipelineRetire, engine, hactive, hretire, htoken, hending, hstill, Bool.not_true, Bool.or_false, Bool.false_eq_true, if_false,
    if_true]

omit hend in
/-- R97: a pipeline that writes a token ends with the write. -/
theorem exec_pipelineRetire_told {s1 : State} (htoken : (s.pipe c slot).tokenVa ≠ 0) (hending : (s.pipe c slot).ending = some (status, body))
    (hwrite : s.writeVa (.scheduler c) c (s.leadTile c) (s.pipe c slot).tokenVa (leBytes 8 ((s.pipe c slot).token status).toNat) false = .ok s1) :
    exec (.pipelineRetire c slot) s = .next (s1.endPipe c slot status body) := by
  change execPipelineRetire c slot s = _
  simp only [execPipelineRetire, engine, hactive, hretire, if_neg htoken, hending, hquiet, hwrite, Option.isNone_some, Bool.false_and,
    Bool.not_true, Bool.or_false, Bool.false_eq_true, if_false]

/-- R97, R99, R399: PIPELINE_RETIRE ends a pipeline whose end has come. -/
theorem pipeline_ends : ((s.pipe c slot).tokenVa = 0 →
      ∃ t, exec (.pipelineRetire c slot) s = .next t ∧ PipeEnded s t c slot status body ∧ ProgramsKept s t) ∧
    ∀ s1, (s.pipe c slot).tokenVa ≠ 0 → (s.pipe c slot).ending = some (status, body) →
      s.writeVa (.scheduler c) c (s.leadTile c) (s.pipe c slot).tokenVa (leBytes 8 ((s.pipe c slot).token status).toNat) false = .ok s1 →
      ∃ t, exec (.pipelineRetire c slot) s = .next t ∧ PipeEnded s t c slot status body ∧ t.mem = s1.mem ∧ t.log = s1.log := by
  refine ⟨fun htoken => ?_, fun s1 htoken hending hwrite => ?_⟩
  · exact ⟨_, exec_pipelineRetire_untold hactive hretire hend hquiet htoken, pipeEnded_endDecided hend,
      programsKept_of_visible ((State.endPipe_visible _ c slot status body).trans (s.endDecided_visible c slot))⟩
  · have haffairs := State.writeVa_ok hwrite
    have hpipe := State.pipe_of_affairs haffairs c
    have hended := (s1.endPipe_ended c slot status body).after (sentOn_of_affairs haffairs) (by rw [State.ctx_of_affairs haffairs])
      (by rw [hpipe]) fun k _ => hpipe k
    obtain ⟨-, hmem, hlog⟩ := programsKept_of_visible (s1.endPipe_visible c slot status body)
    exact ⟨_, exec_pipelineRetire_told hactive hretire hquiet htoken hending hwrite, hended, hmem, hlog⟩

end retire

end Sys2Proof.Machine
end

section
/-! SUPPORT. Retirement of a stage (R117, R125, R397, R398): the queues that it closes and the tiles that it sends home. -/

namespace Sys2Proof.Machine

/-! ## Stages and queues of a pipeline -/

theorem getElem?_modNth {α : Type} (f : α → α) : ∀ (l : List α) (n m : Nat), (modNth l n f)[m]? = if m = n then l[m]?.map f else l[m]?
  | [], _, _ => by simp [modNth]
  | _ :: _, 0, 0 => rfl
  | _ :: _, 0, _ + 1 => rfl
  | _ :: _, _ + 1, 0 => rfl
  | _ :: r, n + 1, m + 1 => by simpa [modNth] using getElem?_modNth f r n m

@[simp] theorem length_modNth {α : Type} (f : α → α) : ∀ (l : List α) (n : Nat), (modNth l n f).length = l.length
  | [], _ => rfl
  | _ :: _, 0 => rfl
  | _ :: r, n + 1 => congrArg (· + 1) (length_modNth f r n)

/-- R397: a pipeline with one more stage retired. -/
def Pipeline.retire (p : Pipeline) (g : Nat) : Pipeline := { p with stages := modNth p.stages g (fun x => { x with retired := true }) }

theorem Pipeline.retire_stage_same {p : Pipeline} {g : Nat} (h : g < p.stages.length) :
    (p.retire g).stage g = { p.stage g with retired := true } := by
  simp [Pipeline.retire, Pipeline.stage, getElem?_modNth, List.getElem?_eq_getElem h]

theorem Pipeline.retire_stage_other (p : Pipeline) {g h : Nat} (hh : h ≠ g) : (p.retire g).stage h = p.stage h := by
  simp [Pipeline.retire, Pipeline.stage, getElem?_modNth, hh]

/-- R398: a queue none of whose producers is left. -/
def Pipeline.orphaned (p : Pipeline) (q : Nat) : Bool := p.stages.all (fun x => x.retired || !x.desc.outputs.contains q)

/-- R398: one output looked at: closed where no producer is left. -/
def Pipeline.closeOutput (p : Pipeline) (q : Nat) : Pipeline :=
  if p.orphaned q then { p with queues := modNth p.queues q (fun y => { y with closed := true }) } else p

theorem Pipeline.closeOutputs_eq (p : Pipeline) (g : Nat) : p.closeOutputs g = (p.stage g).desc.outputs.foldl Pipeline.closeOutput p := rfl

/-- Between two pipelines queues are closed at most. -/
structure Closing (p r : Pipeline) : Prop where
  stages : r.stages = p.stages
  count : r.queues.length = p.queues.length
  closed : ∀ q, (p.queue q).closed = true → (r.queue q).closed = true

theorem Closing.refl (p : Pipeline) : Closing p p := ⟨rfl, rfl, fun _ => id⟩

theorem Closing.trans {p q r : Pipeline} (h : Closing p q) (k : Closing q r) : Closing p r :=
  ⟨k.stages.trans h.stages, k.count.trans h.count, fun n => k.closed n ∘ h.closed n⟩

theorem Closing.closeOutput (p : Pipeline) (q : Nat) : Closing p (p.closeOutput q) := by
  unfold Pipeline.closeOutput
  split
  · refine ⟨rfl, length_modNth _ _ _, fun n hn => ?_⟩
    rw [Pipeline.queue, getElem?_modNth]
    rw [Pipeline.queue] at hn
    split
    · cases hq : p.queues[n]? with
      | none => rw [hq] at hn; exact hn
      | some y => rfl
    · exact hn
  · exact .refl p

theorem Pipeline.closeOutput_closed {p : Pipeline} {q : Nat} (hq : q < p.queues.length) (h : p.orphaned q = true) :
    ((p.closeOutput q).queue q).closed = true := by
  rw [Pipeline.closeOutput, if_pos h, Pipeline.queue, getElem?_modNth, if_pos rfl, List.getElem?_eq_getElem hq]
  rfl

theorem Closing.closeOutputs (p : Pipeline) (g : Nat) : Closing p (p.closeOutputs g) := by
  rw [Pipeline.closeOutputs_eq]
  exact List.foldlRecOn _ _ (.refl p) fun r h q _ => h.trans (.closeOutput r q)

theorem Closing.orphaned {p r : Pipeline} (h : Closing p r) (q : Nat) : r.orphaned q = p.orphaned q := by
  rw [Pipeline.orphaned, h.stages, Pipeline.orphaned]

/-- R398: every output of a stage that no producer is left for is closed. -/
theorem Pipeline.closeOutputs_closed {p : Pipeline} {g q : Nat} (hout : q ∈ (p.stage g).desc.outputs) (hq : q < p.queues.length)
    (h : p.orphaned q = true) : ((p.closeOutputs g).queue q).closed = true := by
  rw [Pipeline.closeOutputs_eq]
  obtain ⟨r, hbefore, hafter⟩ := foldl_at Closing.refl Closing.trans (fun q _ p => Closing.closeOutput p q) hout p
  exact hafter.closed q (Pipeline.closeOutput_closed (by rw [hbefore.count]; exact hq) (by rw [hbefore.orphaned, h]))

/-- R398: with stage g retired, a queue has no producer left where none but g is. -/
theorem Pipeline.retire_orphaned {p : Pipeline} {g q : Nat}
    (h : ∀ k, k < p.stages.length → k ≠ g → (p.stage k).retired = true ∨ q ∉ (p.stage k).desc.outputs) : (p.retire g).orphaned q = true := by
  rw [Pipeline.orphaned, List.all_eq_true]
  intro x hx
  obtain ⟨k, hk, rfl⟩ := List.getElem_of_mem hx
  have hlen : k < p.stages.length := by simpa [Pipeline.retire] using hk
  have hstage : (p.retire g).stages[k] = (p.retire g).stage k := by simp [Pipeline.stage, List.getElem?_eq_getElem hk]
  rw [hstage]
  by_cases hkg : k = g
  · rw [hkg, Pipeline.retire_stage_same (hkg ▸ hlen)]
    rfl
  · rw [p.retire_stage_other hkg]
    rcases h k hlen hkg with hretired | hnot
    · rw [hretired, Bool.true_or]
    · simp [hnot]

/-! ## Tiles of a context (R117) -/

/-- A saved tile after a change of one of those saved. -/
theorem savedTile_map (m : AMap Tile) (t u : Nat) (f : Tile → Tile) :
    ((m.map (fun (p : Nat × Tile) => if p.1 = t then (t, f p.2) else p)).find? (fun p => p.1 == u)).map (fun p => p.2) =
      if u = t then ((m.find? (fun p => p.1 == u)).map (fun p => p.2)).map f else (m.find? (fun p => p.1 == u)).map (fun p => p.2) := by
  have hkey : (fun (p : Nat × Tile) => p.1 == u) ∘ (fun (p : Nat × Tile) => if p.1 = t then (t, f p.2) else p) = fun p => p.1 == u := by
    funext p
    by_cases h : p.1 = t <;> simp [h]
  rw [List.find?_map, hkey]
  cases hp : m.find? (fun p => p.1 == u) with
  | none => simp
  | some p =>
    have hu : p.1 = u := by simpa using List.find?_some hp
    subst hu
    by_cases h : p.1 = t <;> simp [h]

/-- A tile of a context after a change of one that leaves it to its context. -/
theorem State.tileOf_modTileOf (s : State) (c t : Nat) {f : Tile → Tile} (h : ∀ x, (f x).ctx = x.ctx) (u : Nat) :
    (s.modTileOf c t f).tileOf c u = if u = t then (s.tileOf c u).map f else s.tileOf c u := by
  cases hsaved : (s.ctx c).saved with
  | some m =>
    have hafter : ((s.modTileOf c t f).ctx c).saved = some (m.map (fun (p : Nat × Tile) => if p.1 = t then (t, f p.2) else p)) := by
      rw [State.modTileOf, hsaved]
      exact congrArg Context.saved (s.ctx_modCtx_same c _)
    rw [State.tileOf, hafter, State.tileOf, hsaved]
    exact savedTile_map m t u f
  | none =>
    by_cases ht : (s.tile t).ctx = c
    · have hmod : s.modTileOf c t f = s.modTile t f := by
        rw [State.modTileOf, hsaved]
        exact if_pos ht
      have hafter : ((s.modTile t f).ctx c).saved = none := hsaved
      rw [hmod, State.tileOf, hafter, State.tileOf, hsaved]
      by_cases hu : u = t
      · subst hu
        simp [h, ht]
      · simp [State.tile_modTile_other _ _ hu, hu]
    · have hmod : s.modTileOf c t f = s := by
        rw [State.modTileOf, hsaved]
        exact if_neg ht
      have hnone : s.tileOf c t = none := by
        rw [State.tileOf, hsaved]
        exact if_neg ht
      rw [hmod]
      by_cases hu : u = t
      · rw [hu, hnone]; simp
      · rw [if_neg hu]

/-- R117, R125: a tile of a context on its way to the pool. -/
def Homeward (s : State) (c u : Nat) : Prop := ∃ x, s.tileOf c u = some x ∧ x.takeUp = .leaving none

/-- R398: between two states of a stage's retirement the pipelines of its context stand, the tiles that its moves are of, and which tiles
it has; a tile on its way to the pool stays so. -/
structure Homing (s t : State) (c : Nat) : Prop where
  pipes : (t.ctx c).pipes = (s.ctx c).pipes
  movers : (t.ctx c).moves.map (fun m => m.tile) = (s.ctx c).moves.map (fun m => m.tile)
  stands : ∀ u, (t.tileOf c u).isSome = (s.tileOf c u).isSome
  homeward : ∀ u, Homeward s c u → Homeward t c u

theorem Homing.refl (s : State) (c : Nat) : Homing s s c := ⟨rfl, rfl, fun _ => rfl, fun _ => id⟩

theorem Homing.trans {s t u : State} {c : Nat} (h : Homing s t c) (k : Homing t u c) : Homing s u c :=
  ⟨k.pipes.trans h.pipes, k.movers.trans h.movers, fun v => (k.stands v).trans (h.stands v), fun v => k.homeward v ∘ h.homeward v⟩

theorem Homing.foldl {α : Type} {c : Nat} {f : State → α → State} (step : ∀ s a, Homing s (f s a) c) (l : List α) (s : State) :
    Homing s (l.foldl f s) c := List.foldlRecOn (motive := fun t => Homing s t c) l f (.refl s c) fun _ h a _ => h.trans (step _ a)

theorem State.tileOf_congr {s t : State} {c : Nat} (hsaved : (t.ctx c).saved = (s.ctx c).saved) (htiles : t.tiles = s.tiles) (u : Nat) :
    t.tileOf c u = s.tileOf c u := by
  rw [State.tileOf, hsaved, State.tile, htiles, State.tileOf]
  rfl

/-- A change beside tiles, pipelines and the tiles of moves. -/
theorem Homing.of_eq {s t : State} {c : Nat} (hpipes : (t.ctx c).pipes = (s.ctx c).pipes)
    (hmovers : (t.ctx c).moves.map (fun m => m.tile) = (s.ctx c).moves.map (fun m => m.tile)) (hsaved : (t.ctx c).saved = (s.ctx c).saved)
    (htiles : t.tiles = s.tiles) : Homing s t c := by
  have htile := State.tileOf_congr hsaved htiles
  exact ⟨hpipes, hmovers, fun u => by rw [htile], fun u => by rw [Homeward, Homeward, htile]; exact id⟩

theorem State.modTileOf_reads {γ : Type} (g : Context → γ) (h : ∀ (x : Context) l, g { x with saved := l } = g x) (s : State) (c t : Nat)
    (f : Tile → Tile) : g ((s.modTileOf c t f).ctx c) = g (s.ctx c) := by
  unfold State.modTileOf
  split
  · rw [State.ctx_modCtx_same, h]
  · split <;> rfl

/-- A change of a tile that keeps its take-up, or sends it to the pool. -/
theorem Homing.modTileOf (s : State) (c t : Nat) {f : Tile → Tile} (hctx : ∀ x, (f x).ctx = x.ctx)
    (hup : ∀ x, (f x).takeUp = x.takeUp ∨ (f x).takeUp = .leaving none) : Homing s (s.modTileOf c t f) c := by
  have htile := s.tileOf_modTileOf c t hctx
  refine ⟨s.modTileOf_reads Context.pipes (fun _ _ => rfl) c t f, s.modTileOf_reads (fun x => x.moves.map (fun m => m.tile)) (fun _ _ => rfl) c t f,
    fun u => ?_, ?_⟩
  · rw [htile]
    split
    · exact Option.isSome_map
    · rfl
  · rintro u ⟨x, hx, hleaves⟩
    rw [Homeward, htile, hx]
    split
    · refine ⟨f x, rfl, ?_⟩
      rcases hup x with hsame | hsent
      · rw [hsame, hleaves]
      · exact hsent
    · exact ⟨x, rfl, hleaves⟩

/-- A tile sent to the pool. -/
def Tile.sentHome (u : Tile) : Tile := { u with takeUp := .leaving none }

theorem Homing.sendHome (s : State) (c t : Nat) : Homing s (s.modTileOf c t Tile.sentHome) c := .modTileOf s c t (fun _ => rfl) fun _ => .inr rfl

theorem State.sentHome_homeward (s : State) {c t : Nat} (h : (s.tileOf c t).isSome = true) : Homeward (s.modTileOf c t Tile.sentHome) c t := by
  obtain ⟨x, hx⟩ := Option.isSome_iff_exists.mp h
  exact ⟨x.sentHome, by rw [State.tileOf_modTileOf s c t (f := Tile.sentHome) fun _ => rfl, if_pos rfl, hx]; rfl, rfl⟩

/-! ## What the retirement of a stage does with its tiles (R322, R361, R398) -/

/-- R322: the slots that a tile of a context holds, held no more. -/
def State.slotsFreed (s : State) (c t : Nat) : State :=
  { s with slots := s.slots.map (fun x => if x.ctx = c ∧ x.holder = some t then { x with holder := none } else x) }

/-- R322: a tile that holds no slot. -/
def Tile.holdless (u : Tile) : Tile := { u with holds := [] }

theorem State.dropHolds_eq (s : State) (c t : Nat) : s.dropHolds c t = (s.slotsFreed c t).modTileOf c t Tile.holdless := rfl

theorem Homing.dropHolds (s : State) (c t : Nat) : Homing s (s.dropHolds c t) c := by
  have hslots : Homing s (s.slotsFreed c t) c := .of_eq rfl rfl rfl rfl
  rw [State.dropHolds_eq]
  exact hslots.trans (.modTileOf _ c t (fun _ => rfl) fun _ => .inl rfl)

/-- R361: a tile that leaves every set changes its context's sets alone. -/
theorem Context.leaveAll_reads {γ : Type} (g : Context → γ) (h : ∀ (x : Context) l, g { x with sets := l } = g x) (x : Context) (t : Nat) :
    g (x.leaveAll t) = g x := by
  unfold Context.leaveAll
  refine foldl_keeps g _ (fun y p => ?_) _ x
  split
  · exact h y _
  · rfl

theorem Homing.leaveSets (s : State) (c t : Nat) : Homing s (s.modCtx c (fun x => x.leaveAll t)) c := by
  have hreads {γ : Type} (g : Context → γ) (h : ∀ (x : Context) l, g { x with sets := l } = g x) :
      g ((s.modCtx c (fun x => x.leaveAll t)).ctx c) = g (s.ctx c) := by
    rw [State.ctx_modCtx_same, Context.leaveAll_reads g h]
  exact .of_eq (hreads Context.pipes fun _ _ => rfl) (hreads (fun x => x.moves.map (fun m => m.tile)) fun _ _ => rfl)
    (hreads Context.saved fun _ _ => rfl) rfl

/-- R125: what the retirement of a stage makes of a move to it or from it. -/
def Move.diverted (slot g : Nat) (m : Move) : Move :=
  { m with home := m.home || (m.slot == slot && m.stage == g), left := m.left || (!m.fromPool && m.fromSlot == slot && m.fromStage == g) }

theorem State.divertMoves_eq (s : State) (c slot g : Nat) : s.divertMoves c slot g =
    (((s.ctx c).moves.filter (fun m => m.slot == slot && m.stage == g && !m.home)).foldl (fun s m => s.modTileOf c m.tile Tile.sentHome) s).modCtx c
      (fun x => { x with moves := x.moves.map (Move.diverted slot g) }) := rfl

theorem Homing.diverted (s : State) (c slot g : Nat) : Homing s (s.modCtx c (fun x => { x with moves := x.moves.map (Move.diverted slot g) })) c := by
  have hmovers : ((s.ctx c).moves.map (Move.diverted slot g)).map (fun m => m.tile) = (s.ctx c).moves.map (fun m => m.tile) := by
    rw [List.map_map]
    rfl
  refine .of_eq ?_ ?_ ?_ rfl <;> rw [State.ctx_modCtx_same]
  exact hmovers

theorem Homing.divertMoves (s : State) (c slot g : Nat) : Homing s (s.divertMoves c slot g) c := by
  rw [State.divertMoves_eq]
  exact (Homing.foldl (fun s (m : Move) => .sendHome s c m.tile) _ s).trans (.diverted _ c slot g)

/-- R398: one tile of a retired stage, sent home unless it is in a move. -/
def State.sendTile (c : Nat) (s : State) (t : Nat) : State :=
  if (s.ctx c).moves.any (fun m => m.tile == t) then s else s.modTileOf c t Tile.sentHome

theorem State.sendTilesHome_eq (s : State) (c slot g : Nat) :
    s.sendTilesHome c slot g = ((s.pipe c slot).stage g).tiles.foldl (State.sendTile c) s := rfl

theorem Homing.sendTile (s : State) (c t : Nat) : Homing s (s.sendTile c t) c := by
  unfold State.sendTile
  split
  · exact .refl s c
  · exact .sendHome s c t

/-- R398: every tile of a retired stage that is in no move goes home. -/
theorem State.sendTilesHome_homeward {s : State} {c slot g u : Nat} (hu : u ∈ ((s.pipe c slot).stage g).tiles)
    (hstill : u ∉ (s.ctx c).moves.map (fun m => m.tile)) (hsome : (s.tileOf c u).isSome = true) : Homeward (s.sendTilesHome c slot g) c u := by
  rw [State.sendTilesHome_eq]
  obtain ⟨a, hbefore, hafter⟩ := foldl_at (R := fun a b => Homing a b c) (fun a => .refl a c) Homing.trans (fun t _ a => .sendTile a c t) hu s
  refine hafter.homeward u ?_
  have hmoves : u ∉ (a.ctx c).moves.map (fun m => m.tile) := by rw [hbefore.movers]; exact hstill
  have hgoes : a.sendTile c u = a.modTileOf c u Tile.sentHome := if_neg (by simpa using hmoves)
  rw [hgoes]
  exact a.sentHome_homeward (by rw [hbefore.stands]; exact hsome)

/-! ## STAGE_RETIRE (R397, R398) -/

/-- R398: stage g retired, and the queues closed that have no producer left. -/
def State.retireStage (s : State) (c slot g : Nat) : State := s.modPipe c slot (fun p => (p.retire g).closeOutputs g)

/-- R322, R361: the holds and memberships of tiles of a context ended. -/
def State.releaseTiles (s : State) (c : Nat) (l : List Nat) : State := l.foldl (fun s t => (s.dropHolds c t).modCtx c (fun x => x.leaveAll t)) s

theorem Homing.releaseTiles (s : State) (c : Nat) (l : List Nat) : Homing s (s.releaseTiles c l) c :=
  .foldl (fun s t => (Homing.dropHolds s c t).trans (.leaveSets _ c t)) l s

/-- R397: a stage that may retire and whose work is done. -/
structure Retires (s : State) (c slot g : Nat) : Prop where
  may : s.mayRetire c = true
  active : (s.pipe c slot).active = true
  started : (s.pipe c slot).started = true
  ending : (s.pipe c slot).ending = none
  stage : g < (s.pipe c slot).stages.length
  done : s.stageDone c slot g = true

theorem State.modPipe_modPipe (s : State) (c slot : Nat) (f g : Pipeline → Pipeline) :
    (s.modPipe c slot f).modPipe c slot g = s.modPipe c slot (fun p => g (f p)) := by
  simp [State.modPipe, State.modCtx, State.ctx, Context.pipe]

theorem Retires.exec_eq {s : State} {c slot g : Nat} (h : Retires s c slot g) {t : State} (ht : s.retireStage c slot g = t) :
    exec (.stageRetire c slot g) s =
      .next (((t.releaseTiles c ((t.pipe c slot).stage g).tiles).divertMoves c slot g).sendTilesHome c slot g) := by
  change execStageRetire c slot g s = _
  have htwo : (s.modStage c slot g (fun x => { x with retired := true })).modPipe c slot (fun p => p.closeOutputs g) = t :=
    (s.modPipe_modPipe c slot _ _).trans ht
  simp only [execStageRetire, engine, h.may, h.active, h.started, h.ending, h.stage, h.done, htwo, decide_true, Option.isSome_none,
    Bool.not_true, Bool.or_false, Bool.false_eq_true, if_false]
  rfl

/-- R397, R398: what the retirement of a stage does to its pipeline, its queues and its tiles. -/
theorem stage_retires {s : State} {c slot g : Nat} (h : Retires s c slot g) :
    ∃ t, exec (.stageRetire c slot g) s = .next t ∧ ((t.pipe c slot).stage g).retired = true ∧
      (∀ h, h ≠ g → ((t.pipe c slot).stage h).retired = ((s.pipe c slot).stage h).retired) ∧
      (∀ q ∈ ((s.pipe c slot).stage g).desc.outputs, q < (s.pipe c slot).queues.length →
        (∀ h, h < (s.pipe c slot).stages.length → h ≠ g → ((s.pipe c slot).stage h).retired = true ∨ q ∉ ((s.pipe c slot).stage h).desc.outputs) →
        ((t.pipe c slot).queue q).closed = true) ∧
      ∀ u ∈ ((s.pipe c slot).stage g).tiles, (∀ m ∈ (s.ctx c).moves, m.tile ≠ u) → (s.tileOf c u).isSome = true → Homeward t c u := by
  have hpipe : (s.retireStage c slot g).pipe c slot = ((s.pipe c slot).retire g).closeOutputs g := s.pipe_modPipe_same c slot _
  have hmovers : ((s.retireStage c slot g).ctx c).moves = (s.ctx c).moves := by rw [State.retireStage, State.ctx_modPipe_same]
  have hsaved : ((s.retireStage c slot g).ctx c).saved = (s.ctx c).saved := by rw [State.retireStage, State.ctx_modPipe_same]
  have hclosing := Closing.closeOutputs ((s.pipe c slot).retire g) g
  have hstage (k : Nat) : ((s.retireStage c slot g).pipe c slot).stage k = ((s.pipe c slot).retire g).stage k := by
    rw [hpipe, Pipeline.stage, hclosing.stages, Pipeline.stage]
  have hg := Pipeline.retire_stage_same h.stage
  have htiles : (((s.retireStage c slot g).pipe c slot).stage g).tiles = ((s.pipe c slot).stage g).tiles := by rw [hstage, hg]
  have hdivert := (Homing.releaseTiles (s.retireStage c slot g) c ((s.pipe c slot).stage g).tiles).trans (.divertMoves _ c slot g)
  have hall := hdivert.trans (c := c) (u := State.sendTilesHome _ c slot g) (by
    rw [State.sendTilesHome_eq]
    exact .foldl (fun s t => .sendTile s c t) _ _)
  have hafter := State.pipe_of_pipes hall.pipes slot
  refine ⟨_, by rw [h.exec_eq rfl, htiles], ?_, fun k hk => ?_, fun q hout hq hnone => ?_, fun u hu hmoves hsome => ?_⟩
  · rw [hafter, hstage, hg]
  · rw [hafter, hstage, Pipeline.retire_stage_other _ hk]
  · rw [hafter, hpipe]
    exact Pipeline.closeOutputs_closed (by rw [hg]; exact hout) hq (Pipeline.retire_orphaned hnone)
  · refine State.sendTilesHome_homeward ?_ ?_ ?_
    · rw [State.pipe_of_pipes hdivert.pipes, htiles]
      exact hu
    · rw [hdivert.movers, hmovers]
      simpa using hmoves
    · rw [hdivert.stands, State.tileOf_congr hsaved rfl]
      exact hsome

end Sys2Proof.Machine
end

section
/-! SUPPORT. Pipelines from launch to end: the statement. -/

namespace Sys2Proof.Machine

/-- Settles O22: a launch is read and checked by its descriptors, TRIGs are counted, and stages and pipelines end, each by its rule. -/
theorem pipelinesStartAndEnd : Obligations.PipelinesStartAndEnd := by
  refine ⟨fun s c slot hactive hready hstarted hending hacts => ?_, fun s c q h => trig_counts h,
    fun s c slot g hmay hactive hstarted hending hg hdone => stage_retires ⟨hmay, hactive, hstarted, hending, hg, hdone⟩,
    fun s c slot status body hactive hmay hend hquiet => pipeline_ends hactive hmay hend hquiet⟩
  have hstarts : Starts s c slot := ⟨hactive, hready, hstarted, hending, hacts⟩
  refine ⟨fun s1 code r a hcopy => hstarts.faults hcopy, fun s1 d hcopy hd => hstarts.reads hcopy hd, ?_⟩
  intro _ _ hlast copy ns gs qs
  have hgs : copyStages copy = gs := by rw [copyStages, imgNat_one]; rfl
  have hqs : copyQueues copy = qs := by rw [copyQueues, imgNat_one, imgNat_one]; rfl
  obtain ⟨t, hexec, hcopied, hwide, hpass⟩ := hstarts.checked hlast hgs hqs rfl
  refine ⟨t, hexec, ?_⟩
  split
  next hcopy => exact hcopied _ hcopy
  next hcopy hfail => exact hwide _ hcopy hfail
  next hcopy hnone => exact hpass hcopy hnone

end Sys2Proof.Machine
end

section
/-! SUPPORT. Lantern messages dropped or refused (R81 to R84). -/

namespace Sys2Proof.Machine

/-- R83: every host command is received alike. -/
theorem exec_of_command {i : Instr} {ty : Nat} {mgmt : Bool} {m : Lmsg} (h : commandOf i = some (ty, mgmt, m)) :
    ∃ f, ∀ s, exec i s = hostCommand ty mgmt m f s := by
  unfold commandOf at h
  split at h <;> cases h <;> exact ⟨_, fun _ => rfl⟩

/-- R81: a message too long or for no endpoint is counted, and nothing more. -/
theorem takeMsg_malformed {s : State} {m : Lmsg} (h : 288 < m.ep ∨ 8896 < m.payload.length) :
    s.takeMsg m = (none, s.modPkg (fun p => { p with malformed := (p.malformed + 1) % 2 ^ 64 })) := if_pos h

/-- R81: an endpoint that has counted a message dropped. -/
def Endpoint.dropped (e : Endpoint) : Endpoint := { e with drops := e.drops + 1 }

/-- R81: a message that its endpoint does not let in is counted there, and nothing more. -/
theorem takeMsg_dropped {s : State} {m : Lmsg} (hep : m.ep ≤ 288) (hlen : m.payload.length ≤ 8896) (h : ¬ Admits s m) :
    s.takeMsg m = (none, s.modPkg (fun p => { p with endpoints := p.endpoints.set m.ep (s.pkg.endpoints.get {} m.ep).dropped })) := by
  have hrefused : ¬ ((s.pkg.endpoints.get {} m.ep).admits m = true) := fun hadmits =>
    h ⟨hep, hlen, (Endpoint.admits_iff _ m).mp hadmits⟩
  rw [State.takeMsg, if_neg (by omega)]
  exact if_neg hrefused

section hostCommand
variable {s t : State} {m : Lmsg} {ty : Nat} {mgmt : Bool} {f : State → Reply}

/-- R81: a message that is not taken reaches no command. -/
theorem hostCommand_untaken (h : s.takeMsg m = (none, t)) : hostCommand ty mgmt m f s = .next t := by
  simp only [hostCommand, engine, h]

/-- R82: a command beyond the 256 outstanding. -/
theorem Admits.hostCommand_busy (h : Admits s m) (hbusy : 256 ≤ s.outstanding m.ep) :
    hostCommand ty mgmt m f s = .next ((taken s m).answerCmd ty m 1 ((taken s m).refusedBody ty)) := by
  have htaken : 256 ≤ (taken s m).outstanding m.ep := by rwa [h.outstanding]
  simp only [hostCommand, engine, h.takeMsg, if_pos htaken]

/-- R84: a management command on another endpoint than 0. -/
theorem Accepted.hostCommand_notmgmt (h : Accepted s m) (hmgmt : mgmt = true) (hep : m.ep ≠ 0) :
    hostCommand ty mgmt m f s = .next ((taken s m).answerCmd ty m 2 ((taken s m).refusedBody ty)) := by
  have hroom : ¬ 256 ≤ (taken s m).outstanding m.ep := by rw [h.1.outstanding]; exact Nat.not_le.mpr h.2
  have hother : (mgmt && m.ep != 0) = true := by simp [hmgmt, hep]
  simp only [hostCommand, engine, h.1.takeMsg, if_neg hroom, if_pos hother]

/-- R84: a command of a virtual function on endpoint 0. -/
theorem Accepted.hostCommand_badcmd (h : Accepted s m) (hmgmt : mgmt = false) (hep : m.ep = 0) :
    hostCommand ty mgmt m f s = .next ((taken s m).answerCmd ty m 3 []) := by
  have hroom : ¬ 256 ≤ (taken s m).outstanding m.ep := by rw [h.1.outstanding]; exact Nat.not_le.mpr h.2
  have hown : (mgmt && m.ep != 0) = false := by simp [hmgmt]
  have hfunction : (!mgmt && m.ep == 0) = true := by simp [hmgmt, hep]
  simp only [hostCommand, engine, h.1.takeMsg, if_neg hroom, hown, Bool.false_eq_true, if_false, if_pos hfunction]

end hostCommand

/-- R82, R84: what a refused or dropped command keeps. -/
def Undisturbed (s t : State) : Prop := ProgramsKept s t ∧ t.ctxs = s.ctxs ∧ t.parts = s.parts ∧ t.pkg.units = s.pkg.units

/-- R81: counting a message changes the counts alone. -/
theorem Undisturbed.modPkg (s : State) {f : Package → Package} (h : (f s.pkg).units = s.pkg.units) : Undisturbed s (s.modPkg f) :=
  ⟨programsKept_of_programs rfl, rfl, rfl, h⟩

/-- R84: a message taken and answered changes nothing but its endpoint and the charge of its frames. -/
theorem Admits.answered {s : State} {m : Lmsg} (h : Admits s m) (ty status : Nat) (body : List Byte) :
    Undisturbed s ((taken s m).answerCmd ty m status body) ∧ Replies s ((taken s m).answerCmd ty m status body) ty m status body := by
  have hunits : ((taken s m).answerCmd ty m status body).pkg.units = s.pkg.units :=
    (congrArg Package.units ((State.answerCmd_unsent _ ty m status body).trans h.unsent) :)
  exact ⟨⟨programsKept_answerCmd h.programs, by rw [State.answerCmd_ctxs, h.ctxs], by rw [State.answerCmd_parts, h.parts], hunits⟩,
    replies_of_send status body h.sentOn⟩

/-- R31, R84: the fields that a refusal of PARTFORM carries are those of the map as it stood. -/
theorem Admits.refusedBody {s : State} {m : Lmsg} (h : Admits s m) (ty : Nat) : (taken s m).refusedBody ty =
    if ty = 1 then leBytes 4 s.pkg.mapSeq ++ leBytes 2 0xFFFF else [] := by
  have hseq : (taken s m).pkg.mapSeq = s.pkg.mapSeq := (congrArg Package.mapSeq h.unsent :)
  rw [State.refusedBody, State.formBody, hseq]

/-- Settles O31: a message not taken is counted alone; one taken and refused is answered alone. -/
theorem commandsAreAdmittedOrRefused : Obligations.CommandsAreAdmittedOrRefused := by
  intro s i ty mgmt m hcmd
  obtain ⟨f, hexec⟩ := exec_of_command hcmd
  have answered (h : Admits s m) (status : Nat) (body : List Byte)
      (hrun : hostCommand ty mgmt m f s = .next ((taken s m).answerCmd ty m status body)) :
      ∃ t, exec i s = .next t ∧ Undisturbed s t ∧ Replies s t ty m status body :=
    ⟨_, (hexec s).trans hrun, h.answered ty status body⟩
  refine ⟨fun hbad => ?_, fun hep hlen hno => ?_, fun h hbusy => ?_, fun h hmgmt hep => ?_, fun h hmgmt hep => ?_⟩
  · exact ⟨_, (hexec s).trans (hostCommand_untaken (takeMsg_malformed hbad)), Undisturbed.modPkg s rfl, rfl, rfl⟩
  · exact ⟨_, (hexec s).trans (hostCommand_untaken (takeMsg_dropped hep hlen hno)), Undisturbed.modPkg s rfl, rfl,
      congrArg Endpoint.drops (AMap.get_set_same {} s.pkg.endpoints m.ep _)⟩
  · exact answered h 1 _ (by rw [h.hostCommand_busy hbusy, h.refusedBody])
  · exact answered h.1 2 _ (by rw [h.hostCommand_notmgmt hmgmt hep, h.1.refusedBody])
  · exact answered h.1 3 [] (h.hostCommand_badcmd hmgmt hep)

end Sys2Proof.Machine
end

section
/-! SUPPORT. Slices and dispatch (R91, R92, R115, R388): what the partition's scheduler does to contexts, tiles and its partition. -/

namespace Sys2Proof.Machine

/-! ## The scheduler acts -/

theorem ActsFor.schedules {s : State} {pt c : Nat} (h : ActsFor s pt c) : s.schedules c = true := by
  obtain ⟨-, -, hstate, hstop, hsaved, hdest⟩ := h
  simp [State.schedules, hstate, hstop, hsaved, hdest]

theorem ActsFor.runs {s : State} {pt c : Nat} (h : ActsFor s pt c) : s.runs pt = some c := by
  have hsched := h.schedules
  obtain ⟨hrun, -⟩ := h
  simp [State.runs, hrun, hsched]

/-! ## SLICE_END (R92) -/

/-- R92: the end of a slice stops the running context, or lets it go on. -/
theorem ActsFor.exec_sliceEnd {s : State} {pt c : Nat} (h : ActsFor s pt c) (hrpl : (s.ctx c).rpl ≠ 2) : exec (.sliceEnd pt) s =
    .next (if (s.residents pt).any (fun d => d != c && s.runnable d) then s.askStop c .ready 0 else s) := by
  change execSliceEnd pt s = _
  simp only [execSliceEnd, engine, h.runs, hrpl, decide_false, Bool.false_or, Bool.not_eq_eq_eq_not]
  cases (s.residents pt).any (fun d => d != c && s.runnable d) <;> rfl

/-- R386: a first stop asked for is the one to be made. -/
theorem State.askStop_ctx {s : State} {c : Nat} (dest : CtxState) (cause : Nat) (hstate : (s.ctx c).state = .running)
    (hstop : (s.ctx c).stopTo = none) :
    (s.askStop c dest cause).ctx c = { s.ctx c with stopTo := some dest, stopCause := cause } := by
  have hrun : ¬ (((s.ctx c).state != .running) = true) := by simp [hstate]
  rw [State.askStop, if_neg hrun, State.ctx_modCtx_same, hstop]

theorem State.askStop_ctx_other (s : State) {c d : Nat} (dest : CtxState) (cause : Nat) (hd : d ≠ c) :
    (s.askStop c dest cause).ctx d = s.ctx d := by
  unfold State.askStop
  split
  · rfl
  · rw [State.ctx_modCtx_other _ _ hd]

/-- R92: SLICE_END by whether another context of the partition is runnable. -/
theorem sliceEnd_acts {s : State} {pt c : Nat} (h : ActsFor s pt c) (hrpl : (s.ctx c).rpl ≠ 2) :
    ((∃ d ∈ s.residents pt, d ≠ c ∧ s.runnable d = true) →
      ∃ t, exec (.sliceEnd pt) s = .next t ∧ (t.ctx c).stopTo = some .ready ∧ (t.ctx c).stopCause = 0 ∧ ProgramsKept s t ∧
        (∀ d, d ≠ c → t.ctx d = s.ctx d)) ∧
    ((∀ d ∈ s.residents pt, d ≠ c → s.runnable d = false) → exec (.sliceEnd pt) s = .next s) := by
  have hexec := h.exec_sliceEnd hrpl
  obtain ⟨-, -, hstate, hstop, -⟩ := h
  refine ⟨fun hother => ?_, fun hnone => ?_⟩
  · have hany : (s.residents pt).any (fun d => d != c && s.runnable d) = true := by simpa [List.any_eq_true] using hother
    rw [if_pos hany] at hexec
    refine ⟨_, hexec, ?_, ?_, programsKept_of_programs (State.askStop_programs s c _ _), fun d hd => State.askStop_ctx_other s _ _ hd⟩
    · rw [State.askStop_ctx _ _ hstate hstop]
    · rw [State.askStop_ctx _ _ hstate hstop]
  · have hany : ¬ ((s.residents pt).any (fun d => d != c && s.runnable d) = true) := by simpa [List.any_eq_true] using hnone
    rw [if_neg hany] at hexec
    exact hexec

/-! ## Tiles cleared for a context (R115) -/

/-- R115: the translations that a tile's clearing keeps. -/
def Tile.translations (u : Tile) : List TlbEntry × AMap (List TlbEntry) := (u.utlb, u.windows)

/-- A tile with more metered for the house account. -/
def Tile.housed (k : Nat) (u : Tile) : Tile := { u with houseResidue := u.houseResidue + k }

theorem State.meterHouse_tile (s : State) (t n u : Nat) :
    (s.meterHouse t n).tile u = if u = t then (s.tile t).housed (n * (s.tile t).scale.toNat) else s.tile u :=
  s.tile_modTile u t (Tile.housed (n * (s.tile t).scale.toNat))

theorem State.meterHouse_tile_other (s : State) {t u : Nat} (n : Nat) (h : u ≠ t) : (s.meterHouse t n).tile u = s.tile u := by
  rw [State.meterHouse_tile, if_neg h]

/-- R109: preloads are discarded on the tiles that are picked. -/
theorem State.discardPreloads_tile (s : State) {pick : Nat → Preload → Bool} {u : Nat} (h : ∀ p, pick u p = false) :
    (s.discardPreloads pick).tile u = s.tile u := by
  refine foldl_keeps (fun s : State => s.tile u) _ (fun s q => ?_) _ s
  split
  next p _ =>
    split
    next hpick =>
      have hu : u ≠ q.1 := fun hu => by rw [← hu, h p] at hpick; cases hpick
      exact (State.meterHouse_tile_other _ _ hu).trans (s.tile_modTile_other _ hu)
    · rfl
  · rfl

theorem State.modTile_translations (s : State) (t u : Nat) {f : Tile → Tile} (h : (f (s.tile t)).translations = (s.tile t).translations) :
    ((s.modTile t f).tile u).translations = (s.tile u).translations := by
  rw [State.tile_modTile]
  split
  next hu => rw [h, hu]
  · rfl

theorem State.meterHouse_translations (s : State) (t n u : Nat) : ((s.meterHouse t n).tile u).translations = (s.tile u).translations := by
  rw [State.meterHouse_tile]
  split
  next hu => rw [hu]; rfl
  · rfl

theorem State.discardPreloads_translations (s : State) (pick : Nat → Preload → Bool) (u : Nat) :
    ((s.discardPreloads pick).tile u).translations = (s.tile u).translations := by
  refine foldl_keeps (fun s : State => (s.tile u).translations) _ (fun s q => ?_) _ s
  split
  · split
    · exact (State.meterHouse_translations _ _ _ _).trans (s.modTile_translations _ _ rfl)
    · rfl
  · rfl

/-- R115: one tile cleared, charged to the house account. -/
def State.tileGiven (c : Nat) (s : State) (t : Nat) : State :=
  (s.modTile t (fun u => u.cleared c)).meterHouse t (tileCoef.getD 33 0 * Config.clearWrites)

theorem State.tileGiven_other (c : Nat) (s : State) {t u : Nat} (h : u ≠ t) : (State.tileGiven c s t).tile u = s.tile u :=
  (State.meterHouse_tile_other _ _ h).trans (s.tile_modTile_other _ h)

theorem State.tileGiven_same (c : Nat) (s : State) {t : Nat} {u : Tile} (h : (s.tile t).translations = u.translations) :
    ClearedFor u ((State.tileGiven c s t).tile t) c := by
  obtain ⟨hutlb, hwindows⟩ := Prod.mk.inj h
  rw [State.tileGiven, State.meterHouse_tile, if_pos rfl, State.tile_modTile_same]
  exact ⟨rfl, rfl, rfl, rfl, rfl, rfl, rfl, rfl, rfl, rfl, rfl, rfl, rfl, hutlb, hwindows⟩

theorem State.tileGiven_translations (c : Nat) (s : State) (t u : Nat) :
    ((State.tileGiven c s t).tile u).translations = (s.tile u).translations :=
  (State.meterHouse_translations _ _ _ _).trans (s.modTile_translations t u (f := fun u => u.cleared c) rfl)

/-- R115: every tile of the list cleared, whatever stood on it. -/
theorem State.tilesEachGiven_cleared (s : State) {c t : Nat} {l : List Nat} (ht : t ∈ l) {u : Tile} (h : (s.tile t).translations = u.translations) :
    ClearedFor u ((l.foldl (State.tileGiven c) s).tile t) c := by
  have hstep (v : Nat) (a : State) (h : ClearedFor u (a.tile t) c) : ClearedFor u ((State.tileGiven c a v).tile t) c := by
    by_cases hv : t = v
    · obtain ⟨-, -, -, -, -, -, -, -, -, -, -, -, -, hutlb, hwindows⟩ := h
      rw [← hv]
      exact State.tileGiven_same c a (Prod.ext hutlb hwindows)
    · rw [State.tileGiven_other c a hv]
      exact h
  obtain ⟨a, hbefore, hafter⟩ := foldl_at
    (R := fun a b : State => ((b.tile t).translations = (a.tile t).translations) ∧
      (ClearedFor u (a.tile t) c → ClearedFor u (b.tile t) c))
    (fun _ => ⟨rfl, id⟩) (fun h k => ⟨k.1.trans h.1, k.2 ∘ h.2⟩) (fun v _ a => ⟨State.tileGiven_translations c a v t, hstep v a⟩) ht s
  exact hafter.2 (State.tileGiven_same c a (hbefore.1.trans h))

theorem State.tilesEachGiven_other (s : State) {c u : Nat} {l : List Nat} (hu : u ∉ l) : (l.foldl (State.tileGiven c) s).tile u = s.tile u :=
  List.foldlRecOn (motive := fun t : State => t.tile u = s.tile u) l _ rfl fun t h v hv =>
    (State.tileGiven_other c t fun huv => hu (by rwa [huv])).trans h

/-! ## Modes taken up at a dispatch (R93, R118, R401) -/

/-- What neither modes nor factors taken up change: memory and the log of writes. -/
def State.stored (s : State) : List Host.Cell × List WriteRec := (s.mem, s.log)

/-- R93: a context under the modes and the log range set for it. -/
def Context.modesLive (x : Context) : Context :=
  { x with liveModes := x.modes, liveLog := (x.logBase, x.logSize), calib := if rplOf x.modes = 2 then x.calib else [] }

/-- R119: a context whose stages' pressures start again. -/
def Context.unpressed (x : Context) : Context := { x with pipes := x.pipes.map (fun (p : Nat × Pipeline) =>
  (p.1, { p.2 with stages := p.2.stages.map (fun g => { g with pressure := 0, samples := 0 }) })) }

/-- R118: a partition at the start of an interval. -/
def Partition.opens (lcyc : Nat) (p : Partition) : Partition := { p with interval := p.nextInterval, sample := 0, opened := lcyc }

/-- R93, R118: what a dispatch always makes effective. -/
def State.modesTaken (s : State) (pt c : Nat) : State :=
  ((s.modCtx c Context.modesLive).modPart pt (fun p => p.opens (s.tile p.firstTile).lcyc)).modCtx c Context.unpressed

/-- R401: a context as its log or its replay begins. -/
def Context.logBegun (new : Nat) (x : Context) : Context :=
  let x := if new = 1 then { x with
      crumbs := x.hostCrumbs, hostCrumbs := [], crumbCount := 0, trunc := false, logStarted := false, recFixt := x.fixed }
    else x
  { x with saved := x.saved.map (fun m => m.map (fun (p : Nat × Tile) => (p.1, { p.2 with steps := 0 }))) }

/-- R401, R406: a log or a replay begun. -/
def State.logBegun (s : State) (pt c new : Nat) : State :=
  if new = 1 then (s.modCtx c (Context.logBegun new)).logScales pt c else s.modCtx c (Context.logBegun new)

/-- R93, R401: a dispatch takes up modes, and begins a log or a replay where they say so. -/
theorem State.takeModes_eq (s : State) (pt c : Nat) : s.takeModes pt c =
    let new := ((s.modCtx c Context.modesLive).ctx c).rpl
    if new = (s.ctx c).rpl ∨ (new ≠ 1 ∧ new ≠ 2) then s.modesTaken pt c else (s.modesTaken pt c).logBegun pt c new := rfl

/-- Of tiles a dispatch that takes up modes changes the factors, of its partition's tiles. -/
structure Rescaled (s t : State) (l : List Nat) : Prop where
  tile : ∀ u, { t.tile u with scale := 0 } = { s.tile u with scale := 0 }
  other : ∀ u, u ∉ l → t.tile u = s.tile u

theorem Rescaled.of_tiles {s t : State} (l : List Nat) (h : t.tiles = s.tiles) : Rescaled s t l := by
  have htile (u : Nat) : t.tile u = s.tile u := by simp only [State.tile, h]
  exact ⟨fun u => by rw [htile], fun u _ => htile u⟩

theorem Rescaled.trans {s t u : State} {l : List Nat} (h : Rescaled s t l) (k : Rescaled t u l) : Rescaled s u l :=
  ⟨fun v => (k.tile v).trans (h.tile v), fun v hv => (k.other v hv).trans (h.other v hv)⟩

theorem Rescaled.modTile (s : State) {t : Nat} {l : List Nat} (ht : t ∈ l) (n : BitVec 16) :
    Rescaled s (s.modTile t (fun u => { u with scale := n })) l := by
  refine ⟨fun u => ?_, fun u hu => s.tile_modTile_other _ fun h => hu (h ▸ ht)⟩
  rw [State.tile_modTile]
  split
  next h => rw [h]
  · rfl

/-- A tile cleared stays so whatever its factor. -/
theorem Rescaled.clearedFor {s t : State} {l : List Nat} (h : Rescaled s t l) {u : Tile} {v c : Nat} (hc : ClearedFor u (s.tile v) c) :
    ClearedFor u (t.tile v) c := by
  have hv : ClearedFor u { s.tile v with scale := 0 } c := hc
  rw [← h.tile v] at hv
  exact hv

/-- R406: the factors of the tiles written down as a log begins. -/
theorem Rescaled.logScales (s : State) (pt c : Nat) : Rescaled s (s.logScales pt c) (s.part pt).tiles := by
  unfold State.logScales
  refine Rescaled.trans ?_ (.of_tiles _ (foldl_keeps State.tiles _ (fun t dom => ?_) _ _))
  · exact List.foldlRecOn (motive := fun t => Rescaled s t (s.part pt).tiles) _ _ (.of_tiles _ rfl) fun t h u hu => h.trans (.modTile t hu _)
  · split
    · rfl
    · exact State.record_tiles _ _ _

section logScales
variable (s : State) (pt c : Nat)

theorem State.logScales_parts : (s.logScales pt c).parts = s.parts := by
  unfold State.logScales
  refine (foldl_keeps State.parts _ (fun t dom => ?_) _ _).trans (foldl_keeps State.parts _ (fun _ _ => by rw [State.modTile_parts]) _ s)
  split
  · rfl
  · exact State.record_parts _ _ _

theorem State.logScales_stored : (s.logScales pt c).stored = s.stored := by
  unfold State.logScales
  refine (foldl_keeps State.stored _ (fun t dom => ?_) _ _).trans (foldl_keeps State.stored _ (fun _ _ => by simp [State.stored]) _ s)
  split
  · rfl
  · simp [State.stored]

/-- A record changes nothing of a context but its records. -/
theorem State.record_reads {γ : Type} (g : Context → γ) (h : ∀ (x : Context) l, g { x with crumbs := l } = g x) (r : Crumb) (e : Nat) :
    g ((s.record c r).ctx e) = g (s.ctx e) := by
  unfold State.record
  split
  · exact s.modCtx_reads g c (h _ _) e
  · rfl

theorem State.logScales_reads {γ : Type} (g : Context → γ) (h : ∀ (x : Context) l, g { x with crumbs := l } = g x) (e : Nat) :
    g ((s.logScales pt c).ctx e) = g (s.ctx e) := by
  unfold State.logScales
  refine (foldl_keeps (fun t : State => g (t.ctx e)) _ (fun t dom => ?_) _ _).trans
    (foldl_keeps (fun t : State => g (t.ctx e)) _ (fun _ _ => by rw [State.ctx_modTile]) _ s)
  split
  · rfl
  · exact State.record_reads _ _ g h _ _

theorem State.modesTaken_ctx : (s.modesTaken pt c).ctx c = (s.ctx c).modesLive.unpressed := by
  rw [State.modesTaken, State.ctx_modCtx_same, State.ctx_modPart, State.ctx_modCtx_same]

theorem State.modesTaken_part : (s.modesTaken pt c).part pt = (s.part pt).opens (s.tile (s.part pt).firstTile).lcyc := by
  rw [State.modesTaken, State.part_modCtx, State.part_modPart_same, State.part_modCtx]

theorem Context.logBegun_reads (new : Nat) (x : Context) :
    (x.logBegun new).liveModes = x.liveModes ∧ (x.logBegun new).balance = x.balance := by
  unfold Context.logBegun
  dsimp only
  split <;> exact ⟨rfl, rfl⟩

end logScales

/-- R93, R118: what a dispatch makes effective, and what it leaves. -/
structure ModesTaken (s t : State) (pt c : Nat) : Prop where
  part : t.part pt = (s.part pt).opens (s.tile (s.part pt).firstTile).lcyc
  modes : (t.ctx c).liveModes = (s.ctx c).modes
  balance : (t.ctx c).balance = (s.ctx c).balance
  tiles : Rescaled s t (s.part pt).tiles
  stored : t.stored = s.stored

theorem ModesTaken.modesTaken (s : State) (pt c : Nat) : ModesTaken s (s.modesTaken pt c) pt c :=
  ⟨s.modesTaken_part pt c, by rw [State.modesTaken_ctx]; rfl, by rw [State.modesTaken_ctx]; rfl, .of_tiles _ rfl, rfl⟩

theorem ModesTaken.begun {s t : State} {pt c : Nat} (h : ModesTaken s t pt c) (new : Nat) :
    ModesTaken s (t.modCtx c (Context.logBegun new)) pt c := by
  obtain ⟨hmodes, hbalance⟩ := Context.logBegun_reads new (t.ctx c)
  refine ⟨h.part, ?_, ?_, h.tiles.trans (.of_tiles _ rfl), h.stored⟩
  · rw [State.ctx_modCtx_same, hmodes, h.modes]
  · rw [State.ctx_modCtx_same, hbalance, h.balance]

theorem ModesTaken.logScales {s t : State} {pt c : Nat} (h : ModesTaken s t pt c) : ModesTaken s (t.logScales pt c) pt c := by
  have htiles : (t.part pt).tiles = (s.part pt).tiles := by rw [h.part]; rfl
  refine ⟨by rw [State.part, State.logScales_parts]; exact h.part, ?_, ?_, h.tiles.trans (htiles ▸ .logScales t pt c),
    (t.logScales_stored pt c).trans h.stored⟩
  · rw [t.logScales_reads pt c Context.liveModes fun _ _ => rfl, h.modes]
  · rw [t.logScales_reads pt c Context.balance fun _ _ => rfl, h.balance]

theorem ModesTaken.logBegun {s t : State} {pt c : Nat} (h : ModesTaken s t pt c) (new : Nat) : ModesTaken s (t.logBegun pt c new) pt c := by
  unfold State.logBegun
  split
  · exact (h.begun new).logScales
  · exact h.begun new

theorem ModesTaken.takeModes (s : State) (pt c : Nat) : ModesTaken s (s.takeModes pt c) pt c := by
  have htaken := ModesTaken.modesTaken s pt c
  rw [State.takeModes_eq]
  dsimp only
  split
  · exact htaken
  · exact htaken.logBegun _

/-! ## CONTEXT_DISPATCH of an idle partition (R92, R115) -/

/-- R109, R115: the tiles of a partition given to context c. -/
def State.tilesGiven (s : State) (pt c : Nat) : State :=
  (s.part pt).tiles.foldl (State.tileGiven c) (s.discardPreloads (fun t q => (s.part pt).tiles.contains t && q.ctx != c))

theorem State.dispatch_eq (s : State) (pt c : Nat) : s.dispatch pt c =
    ((((s.tilesGiven pt c).takeModes pt c).modPart pt (fun p => { p with running := some c, last := c, pool := (s.part pt).tiles })).modCtx c
      (fun x => { x with state := .running, saveAt := 0, saveComplete := false })) := rfl

section tilesGiven
variable (s : State) (pt c : Nat)

theorem State.tilesGiven_ctxs : (s.tilesGiven pt c).ctxs = s.ctxs :=
  (foldl_keeps State.ctxs (State.tileGiven c) (fun _ _ => rfl) _ _).trans (s.discardPreloads_ctxs _)

theorem State.tilesGiven_parts : (s.tilesGiven pt c).parts = s.parts :=
  (foldl_keeps State.parts (State.tileGiven c) (fun _ _ => rfl) _ _).trans (Stopping.discardPreloads s _).parts

theorem State.tilesGiven_stored : (s.tilesGiven pt c).stored = s.stored :=
  (foldl_keeps State.stored (State.tileGiven c) (fun _ _ => rfl) _ _).trans (congrArg Prod.snd (s.discardPreloads_visible _) :)

variable {pt}

theorem State.tilesGiven_cleared {u : Nat} (hu : u ∈ (s.part pt).tiles) : ClearedFor (s.tile u) ((s.tilesGiven pt c).tile u) c :=
  State.tilesEachGiven_cleared _ hu (s.discardPreloads_translations _ u)

theorem State.tilesGiven_other {u : Nat} (hu : u ∉ (s.part pt).tiles) : (s.tilesGiven pt c).tile u = s.tile u :=
  (State.tilesEachGiven_other _ hu).trans (s.discardPreloads_tile fun p => by simp [hu])

end tilesGiven

theorem exec_contextDispatch_idle {s : State} {pt c : Nat} (hidle : (s.part pt).running = none) (hformed : (s.part pt).formed = true)
    (hnext : s.nextRunnable pt = some c) : exec (.contextDispatch pt) s = .next (s.dispatch pt c) := by
  change execContextDispatch pt s = _
  simp only [execContextDispatch, engine, hidle, hformed, hnext, Bool.not_true, Bool.false_eq_true, if_false]

/-- R92, R115: what a dispatch makes of the partition, the context and the tiles. -/
theorem dispatch_acts {s : State} {pt c : Nat} (hidle : (s.part pt).running = none) (hformed : (s.part pt).formed = true)
    (hnext : s.nextRunnable pt = some c) :
    ∃ t, exec (.contextDispatch pt) s = .next t ∧ (t.part pt).running = some c ∧ (t.part pt).last = c ∧
      (t.part pt).pool = (s.part pt).tiles ∧ (t.part pt).interval = (s.part pt).nextInterval ∧ (t.part pt).sample = 0 ∧
      (t.ctx c).state = .running ∧ (t.ctx c).liveModes = (s.ctx c).modes ∧ (t.ctx c).balance = (s.ctx c).balance ∧
      (∀ u ∈ (s.part pt).tiles, ClearedFor (s.tile u) (t.tile u) c) ∧ (∀ u, u ∉ (s.part pt).tiles → t.tile u = s.tile u) ∧
      t.mem = s.mem ∧ t.log = s.log := by
  have hpartGiven : (s.tilesGiven pt c).part pt = s.part pt := by rw [State.part, State.tilesGiven_parts]; rfl
  have hctxGiven : (s.tilesGiven pt c).ctx c = s.ctx c := by rw [State.ctx, State.tilesGiven_ctxs]; rfl
  obtain ⟨hpart, hmodes, hbalance, htiles, hstored⟩ := ModesTaken.takeModes (s.tilesGiven pt c) pt c
  rw [hpartGiven] at hpart htiles
  rw [hctxGiven] at hmodes hbalance
  obtain ⟨hmem, hlog⟩ := Prod.mk.inj (hstored.trans (s.tilesGiven_stored pt c))
  have hafter : (s.dispatch pt c).part pt = { (s.part pt).opens ((s.tilesGiven pt c).tile (s.part pt).firstTile).lcyc with
      running := some c, last := c, pool := (s.part pt).tiles } := by
    rw [State.dispatch_eq, State.part_modCtx, State.part_modPart_same, hpart]
  have hctx : (s.dispatch pt c).ctx c = { ((s.tilesGiven pt c).takeModes pt c).ctx c with
      state := .running, saveAt := 0, saveComplete := false } := by
    rw [State.dispatch_eq, State.ctx_modCtx_same, State.ctx_modPart]
  refine ⟨_, exec_contextDispatch_idle hidle hformed hnext, ?_⟩
  rw [hafter, hctx]
  refine ⟨rfl, rfl, rfl, rfl, rfl, rfl, hmodes, hbalance, fun u hu => ?_, fun u hu => ?_, hmem, hlog⟩
  · exact htiles.clearedFor (s.tilesGiven_cleared c hu)
  · exact (htiles.other u hu).trans (s.tilesGiven_other c hu)

/-! ## The end of a restore (R388) -/

/-- R388: a tile put back from what was saved. -/
def State.putTile (s : State) (p : Nat × Tile) : State :=
  if p.2.stage.isSome then s.modTile p.1 (fun u => p.2.restored u)
  else s.modTile p.1 (fun u => { u with
    cursors := p.2.cursors, steps := p.2.steps, holds := p.2.holds,
    strands := p.2.strands.map (fun (q : Nat × Strand) => (q.1, { mailbox := q.2.mailbox, fail := q.2.fail, sent := q.2.sent, past := q.2.past, stores := q.2.stores })) })

/-- R388: what a tile that held a stage is to hold again. -/
def PutBack (saved u : Tile) : Prop :=
  u.strands = saved.strands ∧ u.sram = saved.sram ∧ u.arcs = saved.checkpoint ∧ u.cmds = saved.cmds ∧ u.stopping = false

theorem State.putTile_same (s : State) {p : Nat × Tile} (h : p.2.stage.isSome = true) : PutBack p.2 ((s.putTile p).tile p.1) := by
  rw [State.putTile, if_pos h, State.tile_modTile_same]
  exact ⟨rfl, rfl, rfl, rfl, rfl⟩

theorem State.putTile_other (s : State) {p : Nat × Tile} {u : Nat} (h : u ≠ p.1) : (s.putTile p).tile u = s.tile u := by
  unfold State.putTile
  split <;> exact s.tile_modTile_other _ h

theorem State.putTile_ctxs (s : State) (p : Nat × Tile) : (s.putTile p).ctxs = s.ctxs := by
  unfold State.putTile
  split <;> rfl

/-- R388: each tile of a save holds what was saved, once all are put back. -/
theorem State.putTiles_putBack (s : State) {l : AMap Tile} (hnodup : (l.map (fun p => p.1)).Nodup) {p : Nat × Tile} (hp : p ∈ l)
    (hstage : p.2.stage.isSome = true) : PutBack p.2 ((l.foldl State.putTile s).tile p.1) := by
  have hstep (q : Nat × Tile) (hq : q ∈ l) (a : State) (h : PutBack p.2 (a.tile p.1)) : PutBack p.2 ((a.putTile q).tile p.1) := by
    by_cases hpq : p.1 = q.1
    · obtain rfl := List.inj_on_of_nodup_map hnodup hp hq hpq
      exact a.putTile_same hstage
    · rw [State.putTile_other a hpq]
      exact h
  obtain ⟨a, -, hafter⟩ := foldl_at (R := fun a b : State => PutBack p.2 (a.tile p.1) → PutBack p.2 (b.tile p.1))
    (fun _ => id) (fun h k => k ∘ h) hstep hp s
  exact hafter (a.putTile_same hstage)

/-- R388: a context as its tiles are put back. -/
def Context.resumed (x : Context) : Context := { x with saved := none, rested := false, saveAt := 0 }

/-- R388: the tiles put back, then the pool, then the context. -/
theorem State.putBack_eq (s : State) (c : Nat) : s.putBack c =
    ((((((s.ctx c).saved.getD []).foldl State.putTile s).modPart (s.ctx c).part (fun p => { p with
      pool := (((s.ctx c).saved.getD []).filter (fun (q : Nat × Tile) => q.2.stage.isNone)).map (fun (q : Nat × Tile) => q.1) })).modCtx c
      Context.resumed).walkAgain c) := rfl

theorem State.putBack_ctx (s : State) (c : Nat) : (s.putBack c).ctx c = (s.ctx c).resumed := by
  have hctxs : (((s.ctx c).saved.getD []).foldl State.putTile s).ctx c = s.ctx c := by
    rw [State.ctx, foldl_keeps State.ctxs _ State.putTile_ctxs, State.ctx]
  have hafter (t : State) : (t.walkAgain c).ctx c = t.ctx c := rfl
  rw [State.putBack_eq, hafter, State.ctx_modCtx_same, State.ctx_modPart, hctxs]

theorem State.putBack_tile (s : State) (c u : Nat) : (s.putBack c).tile u = (((s.ctx c).saved.getD []).foldl State.putTile s).tile u := rfl

/-- R388: with every page read back, the context resumes. -/
theorem exec_contextDispatch_restored {s : State} {pt c : Nat} {l : AMap Tile} (hrun : (s.part pt).running = some c)
    (hsaved : (s.ctx c).saved = some l) (hstop : (s.ctx c).stopTo = none) (hdest : (s.ctx c).destroying = none)
    (hread : (savePages l).length ≤ (s.ctx c).saveAt) : exec (.contextDispatch pt) s = .next (s.putBack c) := by
  have hlast : (if (s.ctx c).rested then none else (savePages ((s.ctx c).saved.getD []))[(s.ctx c).saveAt]?) = none := by
    rw [hsaved, Option.getD_some, List.getElem?_eq_none hread, ite_self]
  have hstep : s.restoreStep c = s.putBack c := by
    simp only [State.restoreStep, hlast]
  change execContextDispatch pt s = _
  simp only [execContextDispatch, engine, hrun, hsaved, hstop, hdest, Option.isSome_some, Option.isNone_none, Bool.and_self, if_true, hstep]

theorem restore_acts {s : State} {pt c : Nat} {l : AMap Tile} (hrun : (s.part pt).running = some c)
    (hsaved : (s.ctx c).saved = some l) (hstop : (s.ctx c).stopTo = none) (hdest : (s.ctx c).destroying = none)
    (hread : (savePages l).length ≤ (s.ctx c).saveAt) (hnodup : (l.map (fun p => p.1)).Nodup) :
    ∃ t, exec (.contextDispatch pt) s = .next t ∧ (t.ctx c).saved = none ∧ (t.ctx c).withdrawn = (s.ctx c).withdrawn ∧
      ∀ p ∈ l, p.2.stage.isSome = true → (t.tile p.1).strands = p.2.strands ∧ (t.tile p.1).sram = p.2.sram ∧
        (t.tile p.1).arcs = p.2.checkpoint ∧ (t.tile p.1).cmds = p.2.cmds ∧ (t.tile p.1).stopping = false := by
  refine ⟨_, exec_contextDispatch_restored hrun hsaved hstop hdest hread, by rw [State.putBack_ctx]; rfl, by rw [State.putBack_ctx]; rfl,
    fun p hp hstage => ?_⟩
  rw [State.putBack_tile, hsaved, Option.getD_some]
  exact s.putTiles_putBack hnodup hp hstage

/-! ## A context without work rests (R91) -/

theorem ActsFor.exec_rests {s : State} {pt c : Nat} (h : ActsFor s pt c) (hwork : (s.ctx c).hasWork = false) (hmoves : (s.ctx c).moves = [])
    (hpool : ∀ u ∈ (s.part pt).tiles, u ∈ (s.part pt).pool) (hquiet : s.nodesQuiet (s.part pt).tiles = true) :
    exec (.contextDispatch pt) s = .next ((s.leaveTiles c true).modCtx c (fun x => { x with state := .ready, rested := true })) := by
  have hsched := h.schedules
  obtain ⟨hrun, -, -, -, hsaved, -⟩ := h
  have hall : (s.part pt).tiles.all (fun t => (s.part pt).pool.contains t) = true := by simpa using hpool
  change execContextDispatch pt s = _
  simp only [execContextDispatch, engine, hrun, hsaved, Option.isSome_none, Bool.false_and, Bool.false_eq_true, if_false,
    State.restIfIdle, hsched, hwork, hmoves, hall, hquiet, List.isEmpty_nil, Bool.not_false, Bool.and_self, if_true]

/-- R387: a context leaves its tiles, and what they held is saved. -/
theorem State.leaveTiles_saved_eq (s : State) (c : Nat) : s.leaveTiles c true =
    (((s.tilesOf c).foldl State.leaveTile s).modCtx c (fun x => { x with
      saved := some (x.saved.getD ((s.tilesOf c).map (fun t => (t, s.tile t)))) })).modPart
      ((((s.tilesOf c).foldl State.leaveTile s).modCtx c (fun x => { x with
        saved := some (x.saved.getD ((s.tilesOf c).map (fun t => (t, s.tile t)))) })).ctx c).part
      (fun p => { p with running := none, pool := [] }) := rfl

theorem State.leaveTiles_saved_ctx {s : State} {c : Nat} (h : (s.ctx c).saved = none) :
    (s.leaveTiles c true).ctx c = { s.ctx c with saved := some ((s.tilesOf c).map (fun t => (t, s.tile t))) } := by
  have hctx : ((s.tilesOf c).foldl State.leaveTile s).ctx c = s.ctx c := by
    rw [State.ctx, (s.leaveAll_keeps (s.tilesOf c)).1, State.ctx]
  rw [State.leaveTiles_saved_eq, State.ctx_modPart, State.ctx_modCtx_same, hctx, h, Option.getD_none]

theorem State.leaveTiles_saved_running (s : State) (c : Nat) : ((s.leaveTiles c true).part (s.ctx c).part).running = none := by
  have hctx : ((s.tilesOf c).foldl State.leaveTile s).ctx c = s.ctx c := by
    rw [State.ctx, (s.leaveAll_keeps (s.tilesOf c)).1, State.ctx]
  rw [State.leaveTiles_saved_eq, State.ctx_modCtx_same, hctx, State.part_modPart_same]

theorem rest_acts {s : State} {pt c : Nat} (h : ActsFor s pt c) (hwork : (s.ctx c).hasWork = false) (hmoves : (s.ctx c).moves = [])
    (hpool : ∀ u ∈ (s.part pt).tiles, u ∈ (s.part pt).pool) (hquiet : s.nodesQuiet (s.part pt).tiles = true) :
    ∃ t, exec (.contextDispatch pt) s = .next t ∧ (t.ctx c).state = .ready ∧ (t.part pt).running = none ∧
      (t.ctx c).saved = some ((s.tilesOf c).map (fun u => (u, s.tile u))) ∧ (t.ctx c).balance = (s.ctx c).balance := by
  have hexec := h.exec_rests hwork hmoves hpool hquiet
  obtain ⟨-, hpt, -, -, hsaved, -⟩ := h
  have hrunning := s.leaveTiles_saved_running c
  rw [hpt] at hrunning
  refine ⟨_, hexec, ?_⟩
  rw [State.ctx_modCtx_same, State.leaveTiles_saved_ctx hsaved]
  exact ⟨rfl, hrunning, rfl, rfl⟩

/-- Settles O18: the scheduler stops, dispatches, resumes and rests a context, each as one step. -/
theorem slicesAndDispatch : Obligations.SlicesAndDispatch :=
  ⟨fun _ _ _ h hrpl => sliceEnd_acts h hrpl, fun _ _ _ hidle hformed hnext => dispatch_acts hidle hformed hnext,
    fun _ _ _ _ hrun hsaved hstop hdest hread hnodup => restore_acts hrun hsaved hstop hdest hread hnodup,
    fun _ _ _ h hwork hmoves hpool hquiet => rest_acts h hwork hmoves hpool hquiet⟩

end Sys2Proof.Machine
end

section
/-! SUPPORT. Messages of a virtual function that are tried as they come (R95, R98, R405): what trying one leaves, and LAUNCH. -/

namespace Sys2Proof.Machine

/-! ## A message taken and tried -/

/-- R405: a context's waiting messages taken up, to be tried. -/
def State.opsTaken (s : State) (c : Nat) : State := s.modCtx c (fun x => { x with hostOps := [] })

/-- R405: the messages tried; none is left waiting. -/
def State.opsDone (s : State) (c : Nat) : State := s.modCtx c (fun x => { x with hostOps := [] ++ x.hostOps })

theorem State.ctx_opsDone (s : State) (c e : Nat) : (s.opsDone c).ctx e = s.ctx e := s.modCtx_reads id c rfl e

theorem State.pipe_opsDone (s : State) (c e k : Nat) : (s.opsDone c).pipe e k = s.pipe e k := by
  rw [State.pipe, State.ctx_opsDone, State.pipe]

/-- A message of a context in which none waits is tried at once. -/
theorem State.queueOp_done {s t : State} {c kind : Nat} {m : Lmsg} (hops : (s.ctx c).hostOps = [])
    (h : (s.opsTaken c).tryOp c { kind, msg := m } = .done t) : s.queueOp c kind m = t.opsDone c := by
  have hone : ((s.modCtx c (fun x => { x with hostOps := x.hostOps ++ [{ kind, msg := m }] })).ctx c).hostOps = [{ kind, msg := m }] := by
    rw [State.ctx_modCtx_same, hops, List.nil_append]
  have htaken : (s.modCtx c (fun x => { x with hostOps := x.hostOps ++ [{ kind, msg := m }] })).modCtx c (fun x => { x with hostOps := [] }) =
      s.opsTaken c := by simp [State.opsTaken, State.modCtx, State.ctx]
  have htried : (s.opsTaken c).tryOps c [{ kind, msg := m }] [] = (t, []) := by
    simp [State.tryOps, h]
  simp only [State.queueOp, State.runOps, hone, htaken, htried, List.isEmpty_cons, Bool.false_eq_true, if_false]
  rfl

/-- What an accepted message of a function finds as it is tried. -/
def trying (s : State) (m : Lmsg) : State := (taken s m).opsTaken m.ep

/-- R82, R84: an accepted command of a function that waits for nothing. -/
theorem Accepted.exec_op {s t : State} {i : Instr} {m : Lmsg} (h : Accepted s m) (hlive : Live s m.ep) (hops : (s.ctx m.ep).hostOps = [])
    {ty kind : Nat} {f : State → Reply} (hexec : exec i s = hostCommand ty false m f s)
    (hf : f (taken s m) = .later ((taken s m).queueOp m.ep kind m)) (htry : (trying s m).tryOp m.ep { kind, msg := m } = .done t) :
    exec i s = .next (t.opsDone m.ep) := by
  have hep : m.ep ≠ 0 := Nat.one_le_iff_ne_zero.mp hlive.1
  rw [hexec, h.ofFunction hep, hf, State.queueOp_done (by rw [h.1.ctx, hops]) htry]
  rfl

section trying
variable {s : State} {m : Lmsg} (h : Admits s m) (hops : (s.ctx m.ep).hostOps = [])

include h in
theorem Admits.programs_trying : (trying s m).programs = s.programs := h.programs

include h in
theorem Admits.sentOn_trying : SentOn s (trying s m) := h.sentOn

include h hops in
theorem Admits.ctx_trying (e : Nat) : (trying s m).ctx e = s.ctx e := by
  have hsame : { (taken s m).ctx m.ep with hostOps := [] } = (taken s m).ctx m.ep := by
    rw [← h.ctx] at hops
    rw [← hops]
  exact (State.modCtx_reads id (taken s m) m.ep (f := fun x => { x with hostOps := [] }) hsame e).trans (h.ctx e)

include h hops in
theorem Admits.pipe_trying (e k : Nat) : (trying s m).pipe e k = s.pipe e k := by
  rw [State.pipe, h.ctx_trying hops, State.pipe]

end trying

/-- R84: a message tried and answered. -/
theorem Replies.of_tried {s t : State} {m : Lmsg} (h : Admits s m) (hsent : SentOn (trying s m) t) (ty status : Nat) (body : List Byte) :
    Replies s ((t.answerCmd ty m status body).opsDone m.ep) ty m status body := replies_of_send status body (h.sentOn_trying.trans hsent)

/-- What programs see stands where trying the message kept it. -/
theorem programsKept_tried {s t : State} {m : Lmsg} (h : Admits s m) (hkept : t.programs = (trying s m).programs) (ty status : Nat)
    (body : List Byte) : ProgramsKept s ((t.answerCmd ty m status body).opsDone m.ep) :=
  programsKept_of_programs ((State.answerCmd_programs t ty m status body).trans (hkept.trans h.programs_trying))

/-! ## Records of host messages (R403) -/

section recordHost
variable (s : State) (c : Nat) (r : Crumb)

theorem State.recordHost_keeps : (s.recordHost c r).programs = s.programs ∧ (s.recordHost c r).pkg = s.pkg := by
  unfold State.recordHost
  dsimp only
  split
  · exact ⟨State.record_programs _ _ _, State.record_pkg _ _ _⟩
  · split <;> exact ⟨rfl, rfl⟩

theorem State.recordHost_pipes (e : Nat) : ((s.recordHost c r).ctx e).pipes = (s.ctx e).pipes := by
  unfold State.recordHost
  dsimp only
  split
  · exact s.record_reads c Context.pipes (fun _ _ => rfl) r e
  · split
    · exact s.modCtx_reads Context.pipes c rfl e
    · rfl

end recordHost

/-! ## LAUNCH (R95, R96) -/

/-- R95: no log is replayed for a context's messages. -/
theorem Context.msgRpl_ne_two {x : Context} (hrpl : x.rpl ≠ 2) (hmodes : x.modes.toNat / 4 % 4 ≠ 2) : x.msgRpl ≠ 2 := by
  have hnext : rplOf x.modes = x.modes.toNat / 4 % 4 := by
    simp [rplOf, BitVec.extractLsb'_toNat, Nat.shiftRight_eq_div_pow]
  unfold Context.msgRpl
  split
  · exact hrpl
  · rw [hnext]; exact hmodes

theorem Context.freeSlot_eq {x : Context} {slot : Nat} (hslot : slot < 8) (hfree : (x.pipe slot).active = false)
    (hbelow : ∀ k, k < slot → (x.pipe k).active = true) : x.freeSlot = some slot := by
  rw [Context.freeSlot, List.find?_range_eq_some]
  exact ⟨by simp [hfree], List.mem_range.mpr hslot, fun k hk => by simp [hbelow k hk]⟩

theorem Context.freeSlot_none {x : Context} (h : ∀ k, k < 8 → (x.pipe k).active = true) : x.freeSlot = none := by
  rw [Context.freeSlot, List.find?_eq_none]
  exact fun k hk => by simp [h k (List.mem_range.mp hk)]

/-- R95, R96: the pipeline of a launch without a trigger, in its slot. -/
def launched (m : Lmsg) (slot serial : Nat) : Pipeline :=
  { active := true, handle := slot * 8192 + serial, serial := (serial + 1) % 0x1FFF, descVa := m.at 0 8, tokenVa := m.at 8 8,
    trigHandle := m.at 16 2, trigN := m.at 20 4, userTag := m.at 24 4, ready := true }

/-- R96, R403: the launch put into its slot, and recorded. -/
def State.launchedIn (s : State) (c slot : Nat) (m : Lmsg) : State :=
  (s.modPipe c slot (fun _ => launched m slot (s.pipe c slot).serial)).recordHost c
    { kind := 5, sub := 3, a := (s.ctx c).interval, b := slot * 8192 + (s.pipe c slot).serial }

theorem Context.triggered_none {x : Context} {p : Pipeline} (h : p.trigHandle = 0xFFFF) : x.triggered p = some { p with ready := true } :=
  if_pos h

/-- R95, R96: a launch without a trigger takes the free slot. -/
theorem State.tryOp_launch {s : State} {c slot : Nat} {m : Lmsg} (htrig : m.at 16 2 = 0xFFFF) (hstate : (s.ctx c).state ≠ .faulted)
    (hrpl : (s.ctx c).msgRpl ≠ 2) (hfree : (s.ctx c).freeSlot = some slot) : s.tryOp c { kind := 3, msg := m } =
      .done ((s.launchedIn c slot m).answerCmd 0x0101 m 0 (leBytes 2 (slot * 8192 + (s.pipe c slot).serial))) := by
  have hsound : ((s.ctx c).state == .faulted) = false := by simpa using hstate
  have hcheck : s.checkReplay c = .same s := if_pos (.inl hrpl)
  have hpoint : s.launchPoint c { kind := 3, msg := m } = s.doLaunch c { kind := 3, msg := m } := if_pos hrpl
  change s.tryLaunch c { kind := 3, msg := m } = _
  simp only [State.tryLaunch, hsound, Bool.false_eq_true, if_false, hcheck, hpoint, State.doLaunch, hfree]
  rw [Context.triggered_none (by exact htrig)]
  rfl

theorem State.launchedIn_pipe (s : State) (c slot : Nat) (m : Lmsg) :
    (s.launchedIn c slot m).pipe c slot = launched m slot (s.pipe c slot).serial := by
  rw [State.launchedIn, State.pipe_of_pipes (State.recordHost_pipes _ c _ c), State.pipe_modPipe_same]

/-- R95: the checks of LAUNCH pass for a record in range with a slot free. -/
theorem launch_acts {s : State} {m : Lmsg} {slot : Nat} (h : Accepted s m) (hlive : Live s m.ep) (hops : (s.ctx m.ep).hostOps = [])
    (hok : launchOk m = true) (htrig : m.at 16 2 = 0xFFFF) (hstate : (s.ctx m.ep).state ≠ .faulted) (hrpl : (s.ctx m.ep).rpl ≠ 2)
    (hmodes : (s.ctx m.ep).modes.toNat / 4 % 4 ≠ 2) (hslot : slot < 8) (hfree : (s.pipe m.ep slot).active = false)
    (hbelow : ∀ k, k < slot → (s.pipe m.ep k).active = true) :
    let h := slot * 8192 + (s.pipe m.ep slot).serial
    AnsweredOk s (.launch m) m (leBytes 2 h) (fun t => ProgramsKept s t ∧
      let p := t.pipe m.ep slot
      p.active = true ∧ p.handle = h ∧ p.ready = true ∧ p.started = false ∧ p.descVa = m.at 0 8 ∧ p.tokenVa = m.at 8 8 ∧
        p.userTag = m.at 24 4 ∧ p.serial = ((s.pipe m.ep slot).serial + 1) % 0x1FFF) := by
  have hctx := h.1.ctx_trying hops m.ep
  have hpipe := h.1.pipe_trying hops m.ep slot
  have hfreeSlot : (s.ctx m.ep).freeSlot = some slot := Context.freeSlot_eq hslot hfree hbelow
  have htried := State.tryOp_launch (s := trying s m) (c := m.ep) htrig (by rw [hctx]; exact hstate)
    (by rw [hctx]; exact Context.msgRpl_ne_two hrpl hmodes) (by rw [hctx]; exact hfreeSlot)
  obtain ⟨hprograms, hpkg⟩ := State.recordHost_keeps ((trying s m).modPipe m.ep slot (fun _ => launched m slot ((trying s m).pipe m.ep slot).serial))
    m.ep { kind := 5, sub := 3, a := ((trying s m).ctx m.ep).interval, b := slot * 8192 + ((trying s m).pipe m.ep slot).serial }
  have hsent : SentOn (trying s m) ((trying s m).launchedIn m.ep slot m) := .of_eq (congrArg Package.sent hpkg)
  have hexec := h.exec_op hlive hops (i := .launch m) (ty := 0x0101) rfl ?_ htried
  · rw [hpipe] at hexec
    refine ⟨_, hexec, ⟨0x0101, false, rfl, Replies.of_tried h.1 hsent _ _ _⟩, programsKept_tried h.1 hprograms _ _ _, ?_⟩
    dsimp only
    rw [State.pipe_opsDone, State.pipe, State.ctx_answerCmd, ← State.pipe, State.launchedIn_pipe, hpipe]
    exact ⟨rfl, rfl, rfl, rfl, rfl, rfl, rfl, rfl⟩
  · refine (if_neg (by simp [hok])).trans ((hlive.withCtx h.1 _).trans ((if_neg (by simpa using hstate)).trans
      ((if_neg (by simp [hfreeSlot])).trans (if_neg ?_))))
    rw [Context.triggered_none htrig]
    exact Bool.false_ne_true

/-- R95: LAUNCH with every slot taken. -/
theorem launch_refused {s : State} {m : Lmsg} (h : Accepted s m) (hlive : Live s m.ep) (hok : launchOk m = true)
    (hstate : (s.ctx m.ep).state ≠ .faulted) (hfull : ∀ k, k < 8 → (s.pipe m.ep k).active = true) :
    ∃ t, exec (.launch m) s = .next t ∧ Replies s t 0x0101 m 11 [] ∧ ProgramsKept s t := by
  have hep : m.ep ≠ 0 := Nat.one_le_iff_ne_zero.mp hlive.1
  have hnone : (s.ctx m.ep).freeSlot = none := Context.freeSlot_none hfull
  have hexec : exec (.launch m) s = .next ((taken s m).answerCmd 0x0101 m 11 []) := by
    refine (h.ofFunction hep _ _).trans (congrArg (fun r : Reply => Host.Outcome.next (r.answered 0x0101 m)) (?_ : _ = Reply.now (taken s m) 11 []))
    exact (if_neg (by simp [hok])).trans ((hlive.withCtx h.1 _).trans ((if_neg (by simpa using hstate)).trans (if_pos (by simp [hnone]))))
  exact ⟨_, hexec, replies_of_send 11 [] h.1.sentOn, programsKept_answerCmd h.1.programs⟩

end Sys2Proof.Machine
end

section
/-! SUPPORT. QFEED, QTAKE and QEND on a queue of a started pipeline (R98, R353, R398). -/

namespace Sys2Proof.Machine

/-! ## Dies behind a charge -/

section dieReads
variable {γ : Type} (g : Die → γ) (s : State)

/-- What a change of a die keeps stands at every die. -/
theorem State.modDie_reads (d : Nat) {f : Die → Die} (h : g (f (s.die d)) = g (s.die d)) (e : Nat) : g ((s.modDie d f).die e) = g (s.die e) := by
  by_cases he : e = d
  · subst he
    rw [State.die_modDie_same, h]
  · rw [State.die_modDie_other _ _ he]

/-- A charge reaches a die's accounts alone (R103, R104). -/
theorem State.uncore_dies (harrive : ∀ (x : Die) l, g { x with arrivals := l } = g x) (haccount : ∀ (x : Die) a, g { x with accounts := a } = g x)
    (d c : Nat) (ev : Uncore) (n m e : Nat) : g ((s.uncore d c ev n m).die e) = g (s.die e) := by
  unfold State.uncore State.windowAdd State.toAccount
  rw [State.die_modPkg]
  split
  · exact s.modDie_reads g d (harrive _ _) e
  · exact s.modDie_reads g d (haccount _ _) e

end dieReads

theorem State.uncore_misses (s : State) (d c : Nat) (ev : Uncore) (n m e : Nat) : ((s.uncore d c ev n m).die e).misses = (s.die e).misses :=
  s.uncore_dies Die.misses (fun _ _ => rfl) (fun _ _ => rfl) d c ev n m e

/-- R81: a message taken leaves what waits on translations. -/
theorem Admits.misses {s : State} {m : Lmsg} (h : Admits s m) (e : Nat) : ((taken s m).die e).misses = (s.die e).misses := by
  rw [h.taken_eq]
  exact State.uncore_misses _ _ _ _ _ _ _

/-! ## Queues of a pipeline -/

theorem Pipeline.queue_modNth (p : Pipeline) {q : Nat} (f : Queue → Queue) (hq : q < p.queues.length) :
    ({ p with queues := modNth p.queues q f } : Pipeline).queue q = f (p.queue q) := by
  simp [Pipeline.queue, getElem?_modNth, List.getElem?_eq_getElem hq]

theorem State.queue_modQueue {s : State} {c slot q : Nat} (f : Queue → Queue) (hq : q < (s.pipe c slot).queues.length) :
    ((s.modQueue c slot q f).pipe c slot).queue q = f ((s.pipe c slot).queue q) := by
  rw [State.modQueue, State.pipe_modPipe_same, Pipeline.queue_modNth _ _ hq]

theorem State.queues_modQueue (s : State) (c slot q : Nat) (f : Queue → Queue) :
    ((s.modQueue c slot q f).pipe c slot).queues.length = (s.pipe c slot).queues.length := by
  rw [State.modQueue, State.pipe_modPipe_same, length_modNth]

@[simp] theorem State.queueEvent_affairs (s : State) (c slot q j : Nat) (src : Option Nat) (w : Bool) :
    (s.queueEvent c slot q j src w).affairs = s.affairs := by
  simp [State.queueEvent]

@[simp] theorem State.queueEvent_programs (s : State) (c slot q j : Nat) (src : Option Nat) (w : Bool) :
    (s.queueEvent c slot q j src w).programs = s.programs := by
  simp [State.queueEvent, State.programs]

theorem State.pipe_queueEvent (s : State) (c slot q j : Nat) (src : Option Nat) (w : Bool) :
    (s.queueEvent c slot q j src w).pipe c slot = s.pipe c slot := State.pipe_of_affairs (s.queueEvent_affairs c slot q j src w) c slot

/-! ## A message on a queue, tried -/

/-- R98, R353, R405: a queue that a message which names it reaches at once. -/
structure Reached (s : State) (c slot q : Nat) (m : Lmsg) : Prop where
  slotOf : (s.ctx c).slotOf (m.at 0 2) = some slot
  names : m.at 2 1 = q
  started : (s.pipe c slot).started = true
  queues : q < (s.pipe c slot).queues.length
  ext : ((s.pipe c slot).queue q).desc.ext = true
  live : (s.ctx c).rpl ≠ 2
  unlogged : (s.ctx c).msgRpl ≠ 2
  unblocked : s.spillBlocked c slot q = false

theorem Admits.spillBlocked_trying {s : State} {m : Lmsg} (h : Admits s m) (hops : (s.ctx m.ep).hostOps = []) (c slot q : Nat) :
    (trying s m).spillBlocked c slot q = s.spillBlocked c slot q := by
  have hdie : (trying s m).reqDie (.spill c slot q) = s.reqDie (.spill c slot q) := by
    rw [State.reqDie, h.ctx_trying hops, show (trying s m).part _ = s.part _ from h.part _, State.reqDie]
  rw [State.spillBlocked, hdie, show ((trying s m).die _).misses = (s.die _).misses from h.misses _, State.spillBlocked]

/-- The queue that a message names stands as it did when the message is tried. -/
theorem OnQueue.reached {s : State} {m : Lmsg} {slot q : Nat} (h : OnQueue s m slot q) : Reached (trying s m) m.ep slot q m := by
  obtain ⟨haccepted, -, hops, hslot, hq, -, -, hstarted, hlen, hext, hrpl, hmodes, hblocked⟩ := h
  have hctx := haccepted.1.ctx_trying hops m.ep
  have hpipe := haccepted.1.pipe_trying hops m.ep slot
  exact ⟨by rw [hctx, hslot], hq, by rw [hpipe, hstarted], by rw [hpipe]; exact hlen, by rw [hpipe, hext], by rw [hctx]; exact hrpl,
    by rw [hctx]; exact Context.msgRpl_ne_two hrpl hmodes, by rw [haccepted.1.spillBlocked_trying hops, hblocked]⟩

/-- R405: a log that allows a message what it asks leaves it as it is. -/
theorem allowed_eq (m : Lmsg) (h : m.at 3 1 ≤ 16) : ({ m with payload := m.payload.set 3 (byte (min 16 (m.at 3 1))) } : Lmsg) = m := by
  have hbyte : m.payload.set 3 (byte (min 16 (m.at 3 1))) = m.payload := by
    rw [Nat.min_eq_right h]
    unfold Lmsg.at field
    rcases hdrop : m.payload.drop 3 with _ | ⟨b, r⟩
    · exact List.set_eq_of_length_le (List.drop_eq_nil_iff.mp hdrop)
    · have hget : m.payload[3]? = some b := by rw [← List.head?_drop, hdrop, List.head?_cons]
      obtain ⟨hlen, hget⟩ := List.getElem?_eq_some_iff.mp hget
      have hval : byte (leNat ((b :: r).take 1)) = m.payload[3] := by simp [leNat, hget]
      rw [hval, List.set_getElem_self]
  rw [hbyte]

theorem allowed_one {m : Lmsg} (h : m.at 3 1 = 1) : ({ m with payload := m.payload.set 3 (byte 1) } : Lmsg) = m := by
  have hall := allowed_eq m (by omega)
  rwa [h] at hall

/-- R403: what is recorded of a message on a queue that has passed n items. -/
def queueNote (x : Queue) (slot q kind n : Nat) : Crumb := { kind := 5, sub := kind, a := n, b := queueKey slot q, c := x.pops, d := x.pushes }

/-- R128, R403: the record of a push that another sub-queue than the cursor's takes. -/
def State.pushNoted (s : State) (c slot q j : Nat) : State :=
  let x := (s.pipe c slot).queue q
  if j = x.hostCursor % x.desc.k % x.desc.k then s
  else s.record c { kind := 9, tile := 0xFFFF, a := j, b := queueKey slot q, c := x.pushes }

/-- R98, R128: an item of the host port put behind those of sub-queue j. -/
def State.putItem (s : State) (c slot q j : Nat) (it : Item) : State :=
  ((s.pushNoted c slot q j).modQueue c slot q (fun x => x.modSub j (fun y => { y with items := y.items ++ [it] }))).queueEvent c slot q j none true

/-- R98, R128: the item put, its push counted, and the cursor behind it. -/
def State.fed (s : State) (c slot q j : Nat) (it : Item) : State :=
  let x := (s.pipe c slot).queue q
  ((s.putItem c slot q j it).modQueue c slot q (fun x => { x with pushes := (x.pushes + 1) % 2 ^ 64 })).modQueue c slot q
    (fun y => { y with hostCursor := (x.hostCursor + 1) % x.desc.k })

/-- R128: the first item of the one sub-queue popped. -/
def State.popped (s : State) (c slot q : Nat) (rest : List Item) : State :=
  let x := (s.pipe c slot).queue q
  (s.modQueue c slot q (fun _ => { x.modSub 0 (fun y => { y with items := rest }) with pops := (x.pops + 1) % 2 ^ 64 })).queueEvent c slot q 0 none false

section reached
variable {s : State} {c slot q : Nat} {m : Lmsg} (h : Reached s c slot q m)
include h

/-- R353: a feed that finds its queue closed or poisoned. -/
theorem Reached.tryOp_closed (hend : ((s.pipe c slot).queue q).closed = true ∨ ((s.pipe c slot).queue q).poisoned = true) :
    s.tryOp c { kind := 0, msg := m } = .done (s.answerCmd 0x0102 m 14 []) := by
  have hlong : ¬ (s.pipe c slot).queues.length ≤ q := Nat.not_le.mpr h.queues
  change s.tryQueueOp c { kind := 0, msg := m } = _
  simp [State.tryQueueOp, h.slotOf, h.names, h.started, h.ext, hlong, hend, HostOp.finish, HostOp.ty]

/-- R398: a queue closed. -/
theorem Reached.tryOp_close (h16 : m.at 3 1 ≤ 16) : s.tryOp c { kind := 2, msg := m } =
    .done (((s.recordHost c (queueNote ((s.pipe c slot).queue q) slot q 2 0)).modQueue c slot q (fun y => { y with closed := true })).answerCmd
      0x0104 m 0 []) := by
  have hlong : ¬ (s.pipe c slot).queues.length ≤ q := Nat.not_le.mpr h.queues
  have hpoint (o : HostOp) : s.queuePoint c slot q o = .go s none := if_pos h.unlogged
  have hmsg := allowed_eq m h16
  change s.tryQueueOp c { kind := 2, msg := m } = _
  simp [State.tryQueueOp, h.slotOf, h.names, h.started, h.ext, hlong, hpoint, hmsg, HostOp.finish, HostOp.ty, queueNote]

/-- R128, R350: a push from the host port at a queue with a free slot, with none spilled where it goes. -/
theorem Reached.deliver {j : Nat} {it : Item} (hj : ((s.pipe c slot).queue q).pushSub (((s.pipe c slot).queue q).hostCursor % ((s.pipe c slot).queue q).desc.k) = some j)
    (hbehind : (((s.pipe c slot).queue q).sub j).spilled = []) :
    s.deliver c slot q (((s.pipe c slot).queue q).hostCursor % ((s.pipe c slot).queue q).desc.k) none it false =
      .done ((s.putItem c slot q j it).modQueue c slot q (fun x => { x with pushes := (x.pushes + 1) % 2 ^ 64 })) := by
  have hunread : s.replayUnread c = false := by simp [State.replayUnread, h.live]
  have hlive : ¬ (((s.pipe c slot).queue q).desc.relaxed = true ∧ (s.ctx c).rpl = 2) := fun hr => h.live hr.2
  simp only [State.deliver, hunread, h.unblocked, hlive, hj, hbehind, Bool.false_and, Bool.or_self, Bool.false_eq_true, if_false, List.isEmpty_nil,
    Bool.not_true]
  rfl

/-- R98: what a feed of one item leaves. -/
theorem Reached.feed {j : Nat} {o : HostOp} (hcount : o.count = 0) (hopen : ((s.pipe c slot).queue q).closed = false)
    (hsound : ((s.pipe c slot).queue q).poisoned = false) (hfree : 0 < (s.pipe c slot).free q)
    (hj : ((s.pipe c slot).queue q).pushSub (((s.pipe c slot).queue q).hostCursor % ((s.pipe c slot).queue q).desc.k) = some j)
    (hbehind : (((s.pipe c slot).queue q).sub j).spilled = []) :
    s.feed c slot q o 1 = (s.fed c slot q j (feedItem o.msg ((s.pipe c slot).queue q).desc.relaxed 0 (s.livePast s.pkg.hostPast)),
      { o with count := 1 }, true) := by
  have hroom : ¬ (s.pipe c slot).free q = 0 := by omega
  have hnone : ((s.pipe c slot).free q == 0) = false := by simpa using hroom
  simp only [State.feed, hcount, hopen, hsound, hroom, hnone, h.deliver hj hbehind, Bool.false_eq_true, or_self, false_and, if_false]
  rfl

/-- R98: a feed of one item, tried. -/
theorem Reached.tryOp_feed {j : Nat} (hone : m.at 3 1 = 1) (hopen : ((s.pipe c slot).queue q).closed = false)
    (hsound : ((s.pipe c slot).queue q).poisoned = false) (hfree : 0 < (s.pipe c slot).free q)
    (hj : ((s.pipe c slot).queue q).pushSub (((s.pipe c slot).queue q).hostCursor % ((s.pipe c slot).queue q).desc.k) = some j)
    (hbehind : (((s.pipe c slot).queue q).sub j).spilled = []) : s.tryOp c { kind := 0, msg := m } =
      .done (((s.fed c slot q j (feedItem m ((s.pipe c slot).queue q).desc.relaxed 0 (s.livePast s.pkg.hostPast))).recordHost c
        (queueNote ((s.pipe c slot).queue q) slot q 0 1)).answerCmd 0x0102 m 0 (leBytes 1 1)) := by
  have hlong : ¬ (s.pipe c slot).queues.length ≤ q := Nat.not_le.mpr h.queues
  have hpoint (o : HostOp) : s.queuePoint c slot q o = .go s none := if_pos h.unlogged
  have hmsg := allowed_one hone
  have hfeed := h.feed (o := { kind := 0, msg := m, begun := true }) rfl hopen hsound hfree hj hbehind
  change s.tryQueueOp c { kind := 0, msg := m } = _
  simp [State.tryQueueOp, h.slotOf, h.names, h.started, h.ext, hlong, hopen, hsound, hpoint, hmsg, hone, hfeed, HostOp.finish, HostOp.ty, queueNote]

/-- R98, R128: a pop of a queue that is not relaxed. -/
theorem Reached.popItem {it : Item} {rest : List Item} (hplain : ((s.pipe c slot).queue q).desc.relaxed = false)
    (hitems : (((s.pipe c slot).queue q).sub 0).items = it :: rest) :
    s.popItem c slot q none = some (it, s.popped c slot q rest, false) := by
  have hholds : ((s.pipe c slot).queue q).holds 0 = true := by simp [Queue.holds, hitems]
  have hchoose : ((s.pipe c slot).queue q).choose q = some (0, (s.pipe c slot).queue q, false) := by
    simp [Queue.choose, hplain, hholds]
  simp only [State.popItem, h.unblocked, hplain, hchoose, hitems, Bool.false_eq_true, false_and, if_false]
  rfl

/-- R98: a take of one item, tried. -/
theorem Reached.tryOp_take {it : Item} {rest : List Item} (hone : m.at 3 1 = 1) (hplain : ((s.pipe c slot).queue q).desc.relaxed = false)
    (hitems : (((s.pipe c slot).queue q).sub 0).items = it :: rest) : s.tryOp c { kind := 1, msg := m } =
      .done ((((s.popped c slot q rest).hostSaw it.past).recordHost c (queueNote ((s.pipe c slot).queue q) slot q 1 1)).answerCmd 0x0103 m 0
        (takeBody false [it])) := by
  have hlong : ¬ (s.pipe c slot).queues.length ≤ q := Nat.not_le.mpr h.queues
  have hpoint (o : HostOp) : s.queuePoint c slot q o = .go s none := if_pos h.unlogged
  have hmsg := allowed_one hone
  change s.tryQueueOp c { kind := 1, msg := m } = _
  simp [State.tryQueueOp, h.slotOf, h.names, h.started, h.ext, hlong, hpoint, hmsg, hone, State.drainTake, h.popItem hplain hitems, hplain,
    HostOp.finish, HostOp.ty, queueNote]

end reached

end Sys2Proof.Machine
end

section
/-! SUPPORT. What QFEED, QTAKE and QEND answer and leave (R98, R353, R398). -/

namespace Sys2Proof.Machine

/-! ## What trying them keeps -/

/-- What programs see, and what has been sent. -/
def State.told (s : State) : (AMap Tile × List Host.Cell × List WriteRec) × List Msg := (s.programs, s.pkg.sent)

theorem State.told_mk {s t : State} (hprograms : t.programs = s.programs) (hsent : t.pkg.sent = s.pkg.sent) : t.told = s.told := by
  rw [State.told, hprograms, hsent, State.told]

@[simp] theorem State.modQueue_told (s : State) (c slot q : Nat) (f : Queue → Queue) : (s.modQueue c slot q f).told = s.told := rfl
@[simp] theorem State.hostSaw_told (s : State) (l : List Nat) : (s.hostSaw l).told = s.told := rfl
@[simp] theorem State.queueEvent_told (s : State) (c slot q j : Nat) (src : Option Nat) (w : Bool) :
    (s.queueEvent c slot q j src w).told = s.told :=
  State.told_mk (by simp) (congrArg Prod.snd (s.queueEvent_affairs c slot q j src w))
@[simp] theorem State.record_told (s : State) (c : Nat) (r : Crumb) : (s.record c r).told = s.told :=
  State.told_mk (by simp) (by simp)
@[simp] theorem State.recordHost_told (s : State) (c : Nat) (r : Crumb) : (s.recordHost c r).told = s.told :=
  State.told_mk (s.recordHost_keeps c r).1 (congrArg Package.sent (s.recordHost_keeps c r).2)
@[simp] theorem State.pushNoted_told (s : State) (c slot q j : Nat) : (s.pushNoted c slot q j).told = s.told := by
  unfold State.pushNoted
  dsimp only
  split
  · rfl
  · simp
@[simp] theorem State.fed_told (s : State) (c slot q j : Nat) (it : Item) : (s.fed c slot q j it).told = s.told := by
  simp [State.fed, State.putItem]
@[simp] theorem State.popped_told (s : State) (c slot q : Nat) (rest : List Item) : (s.popped c slot q rest).told = s.told := by
  simp [State.popped]

/-- R84: a message of a function that is tried and answered, programs and messages standing. -/
theorem Accepted.exec_tried {s t : State} {i : Instr} {m : Lmsg} {ty kind status : Nat} {body : List Byte} {f : State → Reply}
    (h : Accepted s m) (hlive : Live s m.ep) (hops : (s.ctx m.ep).hostOps = []) (hexec : exec i s = hostCommand ty false m f s)
    (hf : f (taken s m) = .later ((taken s m).queueOp m.ep kind m))
    (htry : (trying s m).tryOp m.ep { kind, msg := m } = .done (t.answerCmd ty m status body)) (htold : t.told = (trying s m).told) :
    ∃ e, exec i s = .next e ∧ Replies s e ty m status body ∧ ProgramsKept s e ∧ ∀ k, e.pipe m.ep k = t.pipe m.ep k := by
  refine ⟨_, h.exec_op hlive hops hexec hf htry, Replies.of_tried h.1 (.of_eq (congrArg Prod.snd htold :)) _ _ _,
    programsKept_tried h.1 (congrArg Prod.fst htold :) _ _ _, fun k => ?_⟩
  rw [State.pipe_opsDone, State.pipe, State.ctx_answerCmd, State.pipe]

/-! ## The queues they leave -/

section queues
variable {s : State} {c slot q : Nat}

theorem State.queue_recordHost (s : State) (c slot q : Nat) (r : Crumb) : ((s.recordHost c r).pipe c slot).queue q = (s.pipe c slot).queue q := by
  rw [State.pipe_of_pipes (s.recordHost_pipes c r c)]

theorem State.pipe_pushNoted (s : State) (c slot q j : Nat) : (s.pushNoted c slot q j).pipe c slot = s.pipe c slot := by
  unfold State.pushNoted
  dsimp only
  split
  · rfl
  · exact State.pipe_of_pipes (s.record_reads c Context.pipes (fun _ _ => rfl) _ c) slot

/-- R98, R128: the queue after the feed. -/
theorem State.queue_fed (j : Nat) (it : Item) (hq : q < (s.pipe c slot).queues.length) : ((s.fed c slot q j it).pipe c slot).queue q =
    let x := (s.pipe c slot).queue q
    { x.modSub j (fun y => { y with items := y.items ++ [it] }) with
      pushes := (x.pushes + 1) % 2 ^ 64, hostCursor := (x.hostCursor + 1) % x.desc.k } := by
  have hnoted : q < ((s.pushNoted c slot q j).pipe c slot).queues.length := by rw [State.pipe_pushNoted]; exact hq
  have hput : ((s.putItem c slot q j it).pipe c slot).queue q =
      ((s.pipe c slot).queue q).modSub j (fun y => { y with items := y.items ++ [it] }) := by
    rw [State.putItem, State.pipe_queueEvent, State.queue_modQueue _ hnoted, State.pipe_pushNoted]
  have hlen : q < ((s.putItem c slot q j it).pipe c slot).queues.length := by
    rw [State.putItem, State.pipe_queueEvent, State.queues_modQueue]; exact hnoted
  unfold State.fed
  dsimp only
  rw [State.queue_modQueue _ (by rw [State.queues_modQueue]; exact hlen), State.queue_modQueue _ hlen, hput]
  rfl

/-- R128: the queue after the pop. -/
theorem State.queue_popped (rest : List Item) (hq : q < (s.pipe c slot).queues.length) : ((s.popped c slot q rest).pipe c slot).queue q =
    { ((s.pipe c slot).queue q).modSub 0 (fun y => { y with items := rest }) with pops := (((s.pipe c slot).queue q).pops + 1) % 2 ^ 64 } := by
  unfold State.popped
  dsimp only
  rw [State.pipe_queueEvent, State.queue_modQueue _ hq]

end queues

/-! ## The commands -/

section onQueue
variable {s : State} {m : Lmsg} {slot q : Nat} (h : OnQueue s m slot q)
include h

theorem OnQueue.pipe : (trying s m).pipe m.ep slot = s.pipe m.ep slot := by
  obtain ⟨haccepted, -, hops, -⟩ := h
  exact haccepted.1.pipe_trying hops m.ep slot

/-- R98: QFEED's checks pass. -/
theorem OnQueue.feed_checked (hone : m.at 3 1 = 1) (hlen : m.payload.length = 80) (hzero : m.at 4 4 = 0) :
    (if m.at 3 1 = 0 ∨ 16 < m.at 3 1 ∨ !m.len (8 + 72 * m.at 3 1) ∨ !handleOk (m.at 0 2) ∨ 127 < m.at 2 1 ∨ !m.zero 4 7 then refuse (taken s m) 4
      else (taken s m).withCtx m.ep (fun _ => .later ((taken s m).queueOp m.ep 0 m))) = .later ((taken s m).queueOp m.ep 0 m) := by
  obtain ⟨haccepted, hlive, -, -, hq, hq', hok, -⟩ := h
  have hzeros : m.zero 4 7 = true := by simp [Lmsg.zero, hzero]
  rw [if_neg (by simp [hone, Lmsg.len, hlen, hok, hzeros]; omega), hlive.withCtx haccepted.1]

/-- R98, R128: QFEED of one item. -/
theorem qfeed_acts {j : Nat} (hone : m.at 3 1 = 1) (hlen : m.payload.length = 80) (hzero : m.at 4 4 = 0)
    (hopen : ((s.pipe m.ep slot).queue q).closed = false) (hsound : ((s.pipe m.ep slot).queue q).poisoned = false)
    (hfree : 0 < (s.pipe m.ep slot).free q)
    (hj : ((s.pipe m.ep slot).queue q).pushSub (((s.pipe m.ep slot).queue q).hostCursor % ((s.pipe m.ep slot).queue q).desc.k) = some j)
    (hbehind : (((s.pipe m.ep slot).queue q).sub j).spilled = []) :
    let x := (s.pipe m.ep slot).queue q
    AnsweredOk s (.qfeed m) m (leBytes 1 1) (fun t => ProgramsKept s t ∧ ∃ it : Item,
      (((t.pipe m.ep slot).queue q).sub j).items = (x.sub j).items ++ [it] ∧ it.poison = false ∧
      it.payload = (List.range 8).map (fun k => w64 (m.at (8 + 8 * k) 8)) ∧ it.tag = BitVec.ofNat 32 (m.at 72 4) ∧
      ((t.pipe m.ep slot).queue q).hostCursor = (x.hostCursor % x.desc.k + 1) % x.desc.k) := by
  have hreached := h.reached
  have hchecked := h.feed_checked hone hlen hzero
  have hpipe := h.pipe
  obtain ⟨haccepted, hlive, hops, -⟩ := h
  rw [← hpipe] at hopen hsound hfree hj hbehind ⊢
  obtain ⟨e, hexec, hreply, hkept, hpipes⟩ := haccepted.exec_tried hlive hops (i := .qfeed m) rfl hchecked
    (hreached.tryOp_feed hone hopen hsound hfree hj hbehind) (by simp)
  refine ⟨e, hexec, ⟨0x0102, false, rfl, hreply⟩, hkept,
    feedItem m (((trying s m).pipe m.ep slot).queue q).desc.relaxed 0 ((trying s m).livePast (trying s m).pkg.hostPast), ?_, rfl, rfl, rfl, ?_⟩
  · rw [hpipes, State.queue_recordHost, State.queue_fed _ _ hreached.queues]
    simp [Queue.sub, Queue.modSub]
  · rw [hpipes, State.queue_recordHost, State.queue_fed _ _ hreached.queues, Nat.mod_add_mod]

/-- R98, R353: QFEED at a closed or poisoned queue. -/
theorem qfeed_refused (hone : m.at 3 1 = 1) (hlen : m.payload.length = 80) (hzero : m.at 4 4 = 0)
    (hend : ((s.pipe m.ep slot).queue q).closed = true ∨ ((s.pipe m.ep slot).queue q).poisoned = true) :
    ∃ t, exec (.qfeed m) s = .next t ∧ Replies s t 0x0102 m 14 [] ∧ ProgramsKept s t := by
  have hreached := h.reached
  have hchecked := h.feed_checked hone hlen hzero
  have hpipe := h.pipe
  obtain ⟨haccepted, hlive, hops, -⟩ := h
  rw [← hpipe] at hend
  obtain ⟨e, hexec, hreply, hkept, -⟩ := haccepted.exec_tried hlive hops (i := .qfeed m) rfl hchecked (hreached.tryOp_closed hend) rfl
  exact ⟨e, hexec, hreply, hkept⟩

/-- R98, R128: QTAKE of one item. -/
theorem qtake_acts {it : Item} {rest : List Item} (hone : m.at 3 1 = 1) (hlen : m.payload.length = 4)
    (hplain : ((s.pipe m.ep slot).queue q).desc.relaxed = false) (hitems : (((s.pipe m.ep slot).queue q).sub 0).items = it :: rest) :
    AnsweredOk s (.qtake m) m (leBytes 1 1 ++ leBytes 7 0 ++ (it.payload.flatMap (fun w => leBytes 8 w.toNat) ++ leBytes 4 it.tag.toNat ++ leBytes 4 0))
      (fun t => ProgramsKept s t ∧ (((t.pipe m.ep slot).queue q).sub 0).items = rest) := by
  have hreached := h.reached
  have hpipe := h.pipe
  obtain ⟨haccepted, hlive, hops, -, hq, hq', hok, -⟩ := h
  rw [← hpipe] at hplain hitems
  have hbody : takeBody false [it] =
      leBytes 1 1 ++ leBytes 7 0 ++ (it.payload.flatMap (fun w => leBytes 8 w.toNat) ++ leBytes 4 it.tag.toNat ++ leBytes 4 0) := by
    simp only [takeBody, List.flatMap_cons, List.flatMap_nil, List.append_nil]
    rfl
  obtain ⟨e, hexec, hreply, hkept, hpipes⟩ := haccepted.exec_tried hlive hops (i := .qtake m) rfl
    ((if_neg (by simp [hone, Lmsg.len, hlen, hok]; omega)).trans (hlive.withCtx haccepted.1 _))
    (hreached.tryOp_take hone hplain hitems) (by simp)
  rw [← hbody]
  refine ⟨e, hexec, ⟨0x0103, false, rfl, hreply⟩, hkept, ?_⟩
  rw [hpipes, State.queue_recordHost]
  change ((((trying s m).popped m.ep slot q rest).pipe m.ep slot).queue q |>.sub 0).items = rest
  rw [State.queue_popped _ hreached.queues]
  simp [Queue.sub, Queue.modSub]

/-- R398: QEND. -/
theorem qend_acts (hlen : m.payload.length = 3) :
    AnsweredOk s (.qend m) m [] (fun t => ProgramsKept s t ∧ ((t.pipe m.ep slot).queue q).closed = true) := by
  have hreached := h.reached
  obtain ⟨haccepted, hlive, hops, -, hq, hq', hok, -⟩ := h
  have hnone : m.at 3 1 = 0 := by
    rw [Lmsg.at, field, List.drop_eq_nil_of_le (by omega)]
    rfl
  obtain ⟨e, hexec, hreply, hkept, hpipes⟩ := haccepted.exec_tried hlive hops (i := .qend m) rfl
    ((if_neg (by simp [Lmsg.len, hlen, hok]; omega)).trans (hlive.withCtx haccepted.1 _))
    (hreached.tryOp_close (by omega)) (by simp)
  refine ⟨e, hexec, ⟨0x0104, false, rfl, hreply⟩, hkept, ?_⟩
  rw [hpipes, State.queue_modQueue]
  rw [State.pipe_of_pipes (State.recordHost_pipes _ _ _ _)]
  exact hreached.queues

end onQueue

end Sys2Proof.Machine
end

section
/-! SUPPORT. Page replies (R149 to R151): the accesses that walk again, the stale ones; and O33 from its parts. -/

namespace Sys2Proof.Machine

/-! ## A page reply that brings a page -/

/-- R150, R403: the record of a page reply that misses wait on. -/
def State.replyNoted (s : State) (c rid : Nat) : State :=
  match s.pageMisses c rid with
  | [] => s
  | m :: _ =>
    s.record c { kind := 6, sub := m.who.crumb.2, tile := if m.who.crumb.1 = 0xFFFF then m.who.crumb.1 else s.ordinal c m.who.crumb.1, a := rid,
                 b := ((s.tileOf c m.who.crumb.1).map (fun (u : Tile) => u.steps)).getD 0 }

/-- R150: the page request answered. -/
def State.replied (s : State) (c rid : Nat) : State :=
  (s.replyNoted c rid).modCtx c (fun x => { x with pageReqs := x.pageReqs.filter (fun r => r.rid != rid) })

/-- R150, R151: a miss whose page came. -/
def State.missCame (c : Nat) (s : State) (m : Miss) : State := s.setMiss m (some (s.pageCame c m))

theorem State.applyPage_eq (s : State) (c rid : Nat) : s.applyPage c rid true =
    ((s.pageMisses c rid).foldl (State.missCame c) (s.replied c rid)).grantPages c := rfl

theorem State.grantPages_none {s : State} {c : Nat} (h : (s.ctx c).pageWaits = []) : s.grantPages c = s := by
  rw [State.grantPages, h]
  rfl

section missCame
variable (c : Nat)

theorem State.missCame_told (s : State) (m : Miss) : (State.missCame c s m).told = s.told := rfl
theorem State.missCame_ctx (s : State) (m : Miss) (e : Nat) : (State.missCame c s m).ctx e = s.ctx e := rfl

theorem State.missCame_misses (s : State) (m : Miss) (d : Nat) : ((State.missCame c s m).die d).misses =
    (s.die d).misses.map (fun n => if n = m then { n with stand := s.pageCame c m } else n) := by
  unfold State.missCame State.setMiss
  rw [State.die]
  dsimp only
  rw [AMap.get_map_snd {} (fun x : Die => { x with misses := x.misses.filterMap (fun n =>
    if n == m then (some (s.pageCame c m)).map (fun x => { n with stand := x }) else some n) }) rfl]
  rw [← List.filterMap_eq_map]
  refine List.filterMap_congr fun n _ => ?_
  by_cases h : n = m <;> simp [h]

end missCame

/-- R150: a page that came leaves none waiting on a page request. -/
theorem State.pageCame_ne_page (s : State) (c rid : Nat) (m : Miss) : s.pageCame c m ≠ .page rid := by
  have hold (b : Bool) : (if b then XWait.held else XWait.walk) ≠ .page rid := by cases b <;> simp
  exact hold _

/-- R150: what a page makes of a miss follows from how its context stands and from who asks. -/
theorem State.pageCame_congr {s t : State} {c : Nat} (hstate : (t.ctx c).state = (s.ctx c).state) (hstopped : (t.ctx c).stopped = (s.ctx c).stopped)
    (hsaved : (t.ctx c).saved = (s.ctx c).saved) : t.pageCame c = s.pageCame c := by
  funext m
  rw [State.pageCame, hstate, hstopped, hsaved, State.pageCame]

/-- R150, R151: each miss of a list that waits on the page's request walks again, or is held. -/
theorem State.foldl_missCame_misses {c rid : Nat} (d : Nat) : ∀ (l : List Miss) (s : State), (∀ m ∈ l, m.stand = .page rid) →
    ((l.foldl (State.missCame c) s).die d).misses = (s.die d).misses.map (fun n => if n ∈ l then { n with stand := s.pageCame c n } else n)
  | [], s, _ => by simp
  | m :: l, s, h => by
    have hrest := fun n hn => h n (List.mem_cons_of_mem m hn)
    rw [List.foldl_cons, State.foldl_missCame_misses d l _ hrest, State.missCame_misses, List.map_map]
    refine List.map_congr_left fun n _ => ?_
    have hcame : (State.missCame c s m).pageCame c = s.pageCame c := State.pageCame_congr rfl rfl rfl
    rw [hcame]
    by_cases hn : n = m
    · subst hn
      have hout : ({ n with stand := s.pageCame c n } : Miss) ∉ l := fun hmem => s.pageCame_ne_page c rid n (hrest _ hmem)
      simp [hout]
    · simp [hn]

/-- A miss of a die is among those of its context that wait on the request, where it waits on it. -/
theorem State.mem_pageMisses {s : State} {c rid d : Nat} {m : Miss} (h : m ∈ (s.die d).misses) :
    m ∈ s.pageMisses c rid ↔ m.ctx = c ∧ m.stand = .page rid := by
  have hdie : ∃ x, (x, s.die d) ∈ s.dies := by
    by_contra hnone
    have hdefault : s.die d = {} := AMap.get_of_all (P := fun x => (∃ k, (k, x) ∈ s.dies) ∨ x = {}) (.inr rfl) s.dies d
      (fun p hp => .inl ⟨p.1, hp⟩) |>.resolve_left hnone
    rw [hdefault] at h
    cases h
  obtain ⟨x, hx⟩ := hdie
  simp only [State.pageMisses, List.mem_flatMap, List.mem_filter, Bool.and_eq_true, beq_iff_eq]
  exact ⟨fun ⟨_, _, _, hm⟩ => hm, fun hm => ⟨_, hx, h, hm⟩⟩

theorem State.replyNoted_told (s : State) (c rid : Nat) : (s.replyNoted c rid).told = s.told := by
  unfold State.replyNoted
  split
  · rfl
  · simp

theorem State.replyNoted_dies (s : State) (c rid : Nat) : (s.replyNoted c rid).dies = s.dies := by
  unfold State.replyNoted
  split
  · rfl
  · simp

theorem State.replyNoted_reads {γ : Type} (g : Context → γ) (h : ∀ (x : Context) l, g { x with crumbs := l } = g x) (s : State) (c rid e : Nat) :
    g ((s.replyNoted c rid).ctx e) = g (s.ctx e) := by
  unfold State.replyNoted
  split
  · rfl
  · exact s.record_reads c g h _ e

/-- Of its context, an answered request changes the requests, and the log's records. -/
theorem State.replied_reads {γ : Type} (g : Context → γ) (h : ∀ (x : Context) l, g { x with crumbs := l } = g x)
    (hreqs : ∀ (x : Context) l, g { x with pageReqs := l } = g x) (s : State) (c rid e : Nat) : g ((s.replied c rid).ctx e) = g (s.ctx e) :=
  ((s.replyNoted c rid).modCtx_reads g c (hreqs _ _) e).trans (s.replyNoted_reads g h c rid e)

/-- R150, R151: a page reply applied where none waits for a free request. -/
theorem State.applyPage_acts {s : State} {c : Nat} (rid : Nat) (hwaits : (s.ctx c).pageWaits = []) :
    let t := s.applyPage c rid true
    t.told = s.told ∧ (∀ r ∈ (t.ctx c).pageReqs, r.rid ≠ rid) ∧ ∀ d, (t.die d).misses =
      (s.die d).misses.map (fun n => if n.ctx = c ∧ n.stand = .page rid then { n with stand := s.pageCame c n } else n) := by
  have hctx (e : Nat) := foldl_keeps (fun x : State => x.ctx e) (State.missCame c) (fun x m => x.missCame_ctx c m e) (s.pageMisses c rid) (s.replied c rid)
  have hstands : ∀ m ∈ s.pageMisses c rid, m.stand = .page rid := by
    intro m hm
    simp only [State.pageMisses, List.mem_flatMap, List.mem_filter, Bool.and_eq_true, beq_iff_eq] at hm
    obtain ⟨_, _, _, _, hstand⟩ := hm
    exact hstand
  have hnone : (((s.pageMisses c rid).foldl (State.missCame c) (s.replied c rid)).ctx c).pageWaits = [] := by
    rw [hctx, s.replied_reads Context.pageWaits (fun _ _ => rfl) (fun _ _ => rfl), hwaits]
  have hcame : (s.replied c rid).pageCame c = s.pageCame c := State.pageCame_congr
    (s.replied_reads Context.state (fun _ _ => rfl) (fun _ _ => rfl) c rid c) (s.replied_reads Context.stopped (fun _ _ => rfl) (fun _ _ => rfl) c rid c)
    (s.replied_reads Context.saved (fun _ _ => rfl) (fun _ _ => rfl) c rid c)
  dsimp only
  rw [State.applyPage_eq, State.grantPages_none hnone]
  refine ⟨?_, fun r hr => ?_, fun d => ?_⟩
  · exact (foldl_keeps State.told _ (fun x m => x.missCame_told c m) _ _).trans (s.replyNoted_told c rid)
  · rw [hctx, State.replied, State.ctx_modCtx_same] at hr
    exact bne_iff_ne.mp (List.mem_filter.mp hr).2
  · have hdie : ((s.replied c rid).die d).misses = (s.die d).misses := by
      rw [State.replied, State.die_modCtx, State.die, s.replyNoted_dies, State.die]
    rw [State.foldl_missCame_misses d _ _ hstands, hdie, hcame]
    refine List.map_congr_left fun n hn => ?_
    simp only [State.mem_pageMisses hn]

/-! ## PAGEREPLY -/

/-- R150: an endpoint that has counted a stale reply. -/
def Endpoint.staled (e : Endpoint) : Endpoint := { e with stale := e.stale + 1 }

section pagereply
variable {s : State} {m : Lmsg} (h : Admits s m)
include h

/-- R150: the stale replies of an endpoint counted. -/
theorem pagereply_stale (hgen : m.at 4 4 ≠ (s.ctx m.ep).generation) : ∃ t, exec (.pagereply m) s = .next t ∧ ProgramsKept s t ∧
    t.ctxs = s.ctxs ∧ (t.pkg.endpoints.get {} m.ep).stale = (s.pkg.endpoints.get {} m.ep).stale + 1 := by
  obtain ⟨w, z, hpkg⟩ := h.pkg
  have hstale : m.at 4 4 ≠ ((taken s m).ctx m.ep).generation := by rwa [h.ctx]
  have hexec : exec (.pagereply m) s = .next ((taken s m).modPkg (fun p => { p with endpoints := p.endpoints.set m.ep (p.endpoints.get {} m.ep).staled })) := by
    change execPagereply m s = _
    simp [execPagereply, engine, h.takeMsg, hstale, Endpoint.staled]
  refine ⟨_, hexec, programsKept_of_programs h.programs, h.ctxs, ?_⟩
  rw [State.modPkg_pkg, hpkg]
  simp [Endpoint.accept, Endpoint.staled]

/-- R150, R151: a reply that a request of its context's generation waits for. -/
theorem pagereply_acts (hep : 1 ≤ m.ep) (hlive : (s.ctx m.ep).live = true) (hops : (s.ctx m.ep).hostOps = []) (hrpl : (s.ctx m.ep).rpl ≠ 2)
    (hlen : m.payload.length = 9) (hwaits : (s.ctx m.ep).pageWaits = []) (hok : m.at 8 1 = 0) (hgen : m.at 4 4 = (s.ctx m.ep).generation)
    (hreq : ∃ r ∈ (s.ctx m.ep).pageReqs, r.rid = m.at 0 4) :
    ∃ t, exec (.pagereply m) s = .next t ∧ ProgramsKept s t ∧ (∀ r ∈ (t.ctx m.ep).pageReqs, r.rid ≠ m.at 0 4) ∧
      ∀ d, (t.die d).misses = (s.die d).misses.map (fun x => if x.ctx = m.ep ∧ x.stand = .page (m.at 0 4) then { x with stand := s.pageCame m.ep x } else x) := by
  have hctx := h.ctx_trying hops m.ep
  have htry : (trying s m).tryOp m.ep { kind := 4, msg := m } = .done ((trying s m).applyPage m.ep (m.at 0 4) true) := by
    have hlog : ((trying s m).ctx m.ep).rpl ≠ 2 := by rwa [hctx]
    refine (if_pos hlog).trans ?_
    rw [hok]
    rfl
  have hexec : exec (.pagereply m) s = .next (((trying s m).applyPage m.ep (m.at 0 4) true).opsDone m.ep) := by
    have hop := State.queueOp_done (s := taken s m) (by rw [h.ctx, hops]) htry
    have hposts : (s.ctx m.ep).pageReqs.any (fun r => r.rid == m.at 0 4) = true := by simpa using hreq
    change execPagereply m s = _
    simp [execPagereply, engine, h.takeMsg, h.ctx, hop, hposts, Nat.one_le_iff_ne_zero.mp hep, Lmsg.len, hlen, hok, hlive, hgen, hops]
  obtain ⟨htold, hreqs, hmisses⟩ := State.applyPage_acts (s := trying s m) (c := m.ep) (m.at 0 4) (by rw [hctx, hwaits])
  have hcame : (trying s m).pageCame m.ep = s.pageCame m.ep := State.pageCame_congr (by rw [hctx]) (by rw [hctx]) (by rw [hctx])
  refine ⟨_, hexec, programsKept_of_programs ((congrArg Prod.fst htold :).trans h.programs_trying), ?_, fun d => ?_⟩
  · rw [State.ctx_opsDone]
    exact hreqs
  · refine (hmisses d).trans ?_
    rw [hcame, show ((trying s m).die d).misses = (s.die d).misses from h.misses d]

end pagereply

/-! ## The statement -/

/-- Settles O33: a message of a function whose context has none waiting is tried as it comes; a launch takes the free slot, a queue's message
reaches its queue, and a page's reply its misses. -/
theorem virtualFunctionCommandsAct : Obligations.VirtualFunctionCommandsAct := by
  refine ⟨fun s m slot h hlive hops hok htrig hstate hrpl hmodes hslot hfree hbelow =>
      launch_acts h hlive hops hok htrig hstate hrpl hmodes hslot hfree hbelow,
    fun s m h hlive hok hstate hfull => launch_refused h hlive hok hstate hfull, fun s m slot q h => ⟨?_, ?_, ?_, ?_⟩,
    fun s m h hep hlive hops hrpl hlen hwaits => ⟨?_, fun hgen => pagereply_stale h hgen⟩⟩
  · exact fun j hone hlen hzero hopen hsound hfree hj hbehind => qfeed_acts h hone hlen hzero hopen hsound hfree hj hbehind
  · exact fun it rest hone hlen hplain hitems => qtake_acts h hone hlen hplain hitems
  · exact fun hone hlen hzero hend => qfeed_refused h hone hlen hzero hend
  · exact fun hlen => qend_acts h hlen
  · exact fun hok hgen hreq => pagereply_acts h hep hlive hops hrpl hlen hwaits hok hgen hreq

end Sys2Proof.Machine
end

section
/-! SUPPORT. Datagrams of no command, and RDMA requests that are refused, stalled or sent (R81 to R83, R87, R88). -/

namespace Sys2Proof.Machine

/-! ## Datagrams -/

/-- R83: a malformed datagram is counted, and nothing more. -/
theorem datagram_malformed {s : State} {d : Datagram} (h : d.wellFormed = false) : ∃ t, exec (.lanternMessageDrop d) s = .next t ∧
    ProgramsKept s t ∧ t.pkg.sent = s.pkg.sent ∧ t.pkg.malformed = (s.pkg.malformed + 1) % 2 ^ 64 := by
  have hexec : exec (.lanternMessageDrop d) s = .next (s.modPkg (fun p => { p with malformed := (p.malformed + 1) % 2 ^ 64 })) := by
    change execLanternMessageDrop d s = _
    simp [execLanternMessageDrop, engine, h]
  exact ⟨_, hexec, programsKept_of_programs rfl, rfl, rfl⟩

/-- R84: a message of a type that is not assigned. -/
theorem datagram_badcmd {s : State} {d : Datagram} (h : d.wellFormed = true) (hm : Admits s d.msg) :
    ∃ t, exec (.lanternMessageDrop d) s = .next t ∧ ProgramsKept s t ∧ Replies s t (field d.header 2 2) d.msg 3 [] := by
  have hexec : exec (.lanternMessageDrop d) s = .next ((taken s d.msg).answerCmd (field d.header 2 2) d.msg 3 []) := by
    change execLanternMessageDrop d s = _
    simp [execLanternMessageDrop, engine, h, hm.takeMsg]
  exact ⟨_, hexec, programsKept_answerCmd hm.programs, replies_of_send 3 [] hm.sentOn⟩

/-! ## Charges -/

/-- A machine without what charges change: the dies, and the windows' sums. -/
def State.uncharged (s : State) : State := { s with pkg := { s.pkg with windowCharges := [], windowScaled := [] }, dies := [] }

/-- R102: a machine whose accounts alone have changed, with the requests that are counted. -/
structure OnlyCharged (s t : State) : Prop where
  rest : t.uncharged = s.uncharged
  nodes : ∀ e, (t.die e).nodes = (s.die e).nodes
  batch : ∀ e, (t.die e).openBatch = (s.die e).openBatch

theorem OnlyCharged.refl (s : State) : OnlyCharged s s := ⟨rfl, fun _ => rfl, fun _ => rfl⟩

theorem OnlyCharged.trans {s t u : State} (h : OnlyCharged s t) (k : OnlyCharged t u) : OnlyCharged s u :=
  ⟨k.rest.trans h.rest, fun e => (k.nodes e).trans (h.nodes e), fun e => (k.batch e).trans (h.batch e)⟩

theorem OnlyCharged.fold {α : Type} {f : State → α → State} (h : ∀ s a, OnlyCharged s (f s a)) : ∀ (l : List α) (s : State), OnlyCharged s (l.foldl f s)
  | [], s => .refl s
  | a :: l, s => (h s a).trans (OnlyCharged.fold h l (f s a))

theorem OnlyCharged.uncore (s : State) (d c : Nat) (ev : Uncore) (n m : Nat) : OnlyCharged s (s.uncore d c ev n m) := by
  refine ⟨?_, s.uncore_dies Die.nodes (fun _ _ => rfl) (fun _ _ => rfl) d c ev n m, s.uncore_dies Die.openBatch (fun _ _ => rfl) (fun _ _ => rfl) d c ev n m⟩
  unfold State.uncore State.windowAdd State.toAccount
  split <;> rfl

theorem OnlyCharged.chargePath (s : State) (c t u n : Nat) : OnlyCharged s (s.chargePath c t u n) :=
  (OnlyCharged.fold (fun s _ => .uncore s _ c _ _ _) _ s).trans (OnlyCharged.fold (fun s _ => .uncore s _ c _ _ _) _ _)

theorem OnlyCharged.nodePath (s : State) (c t pa n : Nat) : OnlyCharged s (s.nodePath c t pa n) := .chargePath s _ _ _ _

theorem OnlyCharged.nodeCharge (s : State) (c pa : Nat) (w a : Bool) : OnlyCharged s (s.nodeCharge c pa w a) := by
  unfold State.nodeCharge
  dsimp only
  split <;> exact .uncore s _ _ _ _ _

theorem OnlyCharged.countReqs (s : State) (e d n : Nat) : OnlyCharged s (s.countReqs e d n) :=
  ⟨rfl, s.modDie_reads Die.nodes e (by split <;> rfl), s.modDie_reads Die.openBatch e (by split <;> rfl)⟩

theorem OnlyCharged.nodeEvent (s : State) (e c pa : Nat) (w a : Bool) : OnlyCharged s (s.nodeEvent e c pa w a) := by
  unfold State.nodeEvent
  dsimp only
  split
  · exact .nodeCharge s c pa w a
  · exact (OnlyCharged.nodeCharge s c pa w a).trans (.countReqs _ _ _ _)

section charged
variable {s t : State} (h : OnlyCharged s t)
include h

theorem OnlyCharged.programs : t.programs = s.programs := (congrArg State.programs h.rest :)
theorem OnlyCharged.ctxs : t.ctxs = s.ctxs := (congrArg State.ctxs h.rest :)
theorem OnlyCharged.ctx (c : Nat) : t.ctx c = s.ctx c := by rw [State.ctx, h.ctxs, State.ctx]
theorem OnlyCharged.rdma : t.pkg.rdma = s.pkg.rdma := (congrArg (fun x : State => x.pkg.rdma) h.rest :)
theorem OnlyCharged.qps : t.pkg.qps = s.pkg.qps := (congrArg (fun x : State => x.pkg.qps) h.rest :)

end charged

/-! ## Requests of queue pairs -/

@[simp] theorem State.setQp_same (s : State) (vf qp : Nat) (x : QpState) : (s.setQp vf qp x).pkg.qps.get .normal (qpKey vf qp) = x :=
  AMap.get_set_same _ _ _ _

theorem State.qpError_programs (s : State) (vf qp : Nat) : (s.qpError vf qp).programs = s.programs := rfl

/-- R88: a request that cannot be made: its answer, and its queue pair. -/
theorem State.qpError_refused (s : State) (vf qp : Nat) : (s.qpError vf qp).pkg.rdma = s.pkg.rdma ++ [(vf, qp, .accessError)] ∧
    (s.qpError vf qp).pkg.qps.get .normal (16 * vf + qp) = .error := ⟨rfl, s.setQp_same vf qp .error⟩

section request
variable {s : State} {vf qp : Nat} (hvf : 1 ≤ vf) (hvf' : vf ≤ 288) (hqp : qp < 16)
include hvf hvf' hqp

theorem qpOk_of : qpOk vf qp = true := by simp [qpOk, hvf, hvf', hqp]

/-- R88: a request for a context that is not live. -/
theorem rdmaRequest_dead (hdead : (s.ctx vf).live = false) (f : State → State) :
    rdmaRequest vf qp f s = .next (s.rdmaAnswer vf qp .accessError) := by
  simp [rdmaRequest, engine, qpOk_of hvf hvf' hqp, hdead]

/-- R88: a request that the engine takes. -/
theorem rdmaRequest_ready (hlive : (s.ctx vf).live = true) (hstop : (s.ctx vf).stopTo = none) (hdest : (s.ctx vf).destroying = none)
    (hidle : s.pkg.qps.get .normal (16 * vf + qp) = .normal) (f : State → State) : rdmaRequest vf qp f s = .next (f s) := by
  have hready : s.rdmaReady vf qp = true := by simp [State.rdmaReady, qpKey, hlive, hstop, hdest, hidle]
  simp [rdmaRequest, engine, qpOk_of hvf hvf' hqp, hlive, hready]

end request

section execs
variable {s : State} {vf qp : Nat} {a : RdmaAt} {data : List Byte} {len : Nat}

theorem exec_rdmaWrite_eq : exec (.rdmaWrite vf qp a data) s = rdmaRequest vf qp (fun s =>
    if keyAdmits a data.length then (s.frame vf data.length).rdmaDo vf qp a.va true data.length data
    else (s.frame vf data.length).qpError vf qp) s := rfl

theorem exec_rdmaRead_eq : exec (.rdmaRead vf qp a len) s = rdmaRequest vf qp (fun s =>
    if keyAdmits a len then s.rdmaDo vf qp a.va false len [] else s.qpError vf qp) s := rfl

theorem exec_rdmaSend_eq : exec (.rdmaSend vf qp data) s = rdmaRequest vf qp (fun s => (s.frame vf data.length).rdmaAnswer vf qp .ack) s := rfl

end execs

/-- R88: requests for a context that is not live. -/
theorem rdma_dead {s : State} {vf qp : Nat} (hvf : 1 ≤ vf) (hvf' : vf ≤ 288) (hqp : qp < 16) (hdead : (s.ctx vf).live = false) (a : RdmaAt)
    (data : List Byte) (len : Nat) : ∀ i ∈ [Instr.rdmaWrite vf qp a data, .rdmaRead vf qp a len, .rdmaSend vf qp data],
      ∃ t, exec i s = .next t ∧ ProgramsKept s t ∧ t.pkg.rdma = s.pkg.rdma ++ [(vf, qp, .accessError)] := by
  intro i hi
  have hexec : exec i s = .next (s.rdmaAnswer vf qp .accessError) := by
    simp only [List.mem_cons, List.not_mem_nil, or_false] at hi
    rcases hi with rfl | rfl | rfl
    · exact exec_rdmaWrite_eq.trans (rdmaRequest_dead hvf hvf' hqp hdead _)
    · exact exec_rdmaRead_eq.trans (rdmaRequest_dead hvf hvf' hqp hdead _)
    · exact exec_rdmaSend_eq.trans (rdmaRequest_dead hvf hvf' hqp hdead _)
  exact ⟨_, hexec, programsKept_of_programs rfl, rfl⟩

theorem keyAdmits_iff (keyLo keyLen va n : Nat) : keyAdmits ⟨keyLo, keyLen, va⟩ n = true ↔ keyLo ≤ va ∧ va + n ≤ keyLo + keyLen := by
  simp [keyAdmits]

/-- A queue pair that takes a request: its context is live and neither stops nor ends, and it has none under way. -/
structure Takes (s : State) (vf qp : Nat) : Prop where
  low : 1 ≤ vf
  high : vf ≤ 288
  pair : qp < 16
  live : (s.ctx vf).live = true
  stays : (s.ctx vf).stopTo = none
  kept : (s.ctx vf).destroying = none
  idle : s.pkg.qps.get .normal (16 * vf + qp) = .normal

/-- The pages of a run of n bytes asked for, by the host port. -/
def State.hostPages (s : State) (vf qp : Nat) (write : Bool) (va n : Nat) : PagesXl :=
  s.xlPages (.hostPort vf qp) vf (if write then .write else .read) false (pagesOf va n)

section takes
variable {s : State} {vf qp keyLo keyLen va : Nat} (h : Takes s vf qp)
include h

theorem Takes.request (f : State → State) : rdmaRequest vf qp f s = .next (f s) :=
  rdmaRequest_ready h.low h.high h.pair h.live h.stays h.kept h.idle f

theorem Takes.exec_write {data : List Byte} (hin : keyLo ≤ va ∧ va + data.length ≤ keyLo + keyLen) :
    exec (.rdmaWrite vf qp ⟨keyLo, keyLen, va⟩ data) s = .next ((s.frame vf data.length).rdmaDo vf qp va true data.length data) :=
  exec_rdmaWrite_eq.trans ((h.request _).trans (congrArg Host.Outcome.next (if_pos ((keyAdmits_iff ..).mpr hin))))

theorem Takes.exec_read {len : Nat} (hin : keyLo ≤ va ∧ va + len ≤ keyLo + keyLen) :
    exec (.rdmaRead vf qp ⟨keyLo, keyLen, va⟩ len) s = .next (s.rdmaDo vf qp va false len []) :=
  exec_rdmaRead_eq.trans ((h.request _).trans (congrArg Host.Outcome.next (if_pos ((keyAdmits_iff ..).mpr hin))))

theorem rdmaSend_acts (data : List Byte) :
    ∃ t, exec (.rdmaSend vf qp data) s = .next t ∧ ProgramsKept s t ∧ t.pkg.rdma = s.pkg.rdma ++ [(vf, qp, .ack)] := by
  have hframe : OnlyCharged s (s.frame vf data.length) := .uncore s _ _ _ _ _
  exact ⟨_, exec_rdmaSend_eq.trans (h.request _), programsKept_of_programs hframe.programs, congrArg (· ++ [(vf, qp, RdmaReply.ack)]) hframe.rdma⟩

theorem rdmaWrite_outside {data : List Byte} (hout : ¬ (keyLo ≤ va ∧ va + data.length ≤ keyLo + keyLen)) :
    ∃ t, exec (.rdmaWrite vf qp ⟨keyLo, keyLen, va⟩ data) s = .next t ∧ ProgramsKept s t ∧
      t.pkg.rdma = s.pkg.rdma ++ [(vf, qp, .accessError)] ∧ t.pkg.qps.get .normal (16 * vf + qp) = .error := by
  have hframe : OnlyCharged s (s.frame vf data.length) := .uncore s _ _ _ _ _
  have hexec : exec (.rdmaWrite vf qp ⟨keyLo, keyLen, va⟩ data) s = .next ((s.frame vf data.length).qpError vf qp) :=
    exec_rdmaWrite_eq.trans ((h.request _).trans (congrArg Host.Outcome.next (if_neg (fun hkey => hout ((keyAdmits_iff ..).mp hkey)))))
  obtain ⟨hrdma, hqp⟩ := (s.frame vf data.length).qpError_refused vf qp
  exact ⟨_, hexec, programsKept_of_programs ((State.qpError_programs _ vf qp).trans hframe.programs),
    hrdma.trans (congrArg (· ++ [(vf, qp, RdmaReply.accessError)]) hframe.rdma), hqp⟩

theorem rdmaRead_outside {len : Nat} (hout : ¬ (keyLo ≤ va ∧ va + len ≤ keyLo + keyLen)) :
    ∃ t, exec (.rdmaRead vf qp ⟨keyLo, keyLen, va⟩ len) s = .next t ∧ ProgramsKept s t ∧
      t.pkg.rdma = s.pkg.rdma ++ [(vf, qp, .accessError)] ∧ t.pkg.qps.get .normal (16 * vf + qp) = .error := by
  have hexec : exec (.rdmaRead vf qp ⟨keyLo, keyLen, va⟩ len) s = .next (s.qpError vf qp) :=
    exec_rdmaRead_eq.trans ((h.request _).trans (congrArg Host.Outcome.next (if_neg (fun hkey => hout ((keyAdmits_iff ..).mp hkey)))))
  exact ⟨_, hexec, programsKept_of_programs rfl, s.qpError_refused vf qp⟩

end takes

/-! ## Pages that wait or are refused -/

section pages
variable {s s1 : State} {vf qp va len : Nat} {write : Bool} {data : List Byte}

/-- R87: the bytes of a run: a write's are those it brings. -/
theorem runLen_eq (h : write = true → data.length = len) : (if write then data.length else len) = len := by
  cases write with
  | false => rfl
  | true => exact h rfl

/-- R88: a request on a page that waits. -/
theorem State.rdmaDo_wait (hlen : write = true → data.length = len) (h : s.hostPages vf qp write va len = .wait s1) :
    s.rdmaDo vf qp va write len data = s1.setQp vf qp (.stalled va write len data) := by
  simp only [State.rdmaDo, runLen_eq hlen]
  rw [State.hostPages] at h
  rw [h]

/-- R88: a request with no right to its page. -/
theorem State.rdmaDo_fault {c r a : Nat} (hlen : write = true → data.length = len) (h : s.hostPages vf qp write va len = .fault s1 c r a) :
    s.rdmaDo vf qp va write len data = s1.qpError vf qp := by
  simp only [State.rdmaDo, runLen_eq hlen]
  rw [State.hostPages] at h
  rw [h]

end pages

end Sys2Proof.Machine
end

section
/-! SUPPORT. The parts of a queue pair's request that go to memory nodes of this package (R87, R88, R331, R335, R339). -/

namespace Sys2Proof.Machine

/-! ## Parts of a run -/

/-- R331: the offset at which part i of a run begins: each part lies in one word. -/
def partOff (va i : Nat) : Nat := 8 * i - va % 8

/-- R331: the words a run of n bytes lies in. -/
def partCount (va n : Nat) : Nat := (va % 8 + n + 7) / 8

/-- The length of the part of a run of n bytes that begins at an offset. -/
def partLen (va n off : Nat) : Nat := min (n - off) (8 - (va + off) % 8)

theorem partOff_lt {va n i : Nat} (hn : 0 < n) (hi : i < partCount va n) : partOff va i < n := by
  unfold partCount at hi
  unfold partOff
  omega

theorem partOff_end (va n : Nat) : n ≤ partOff va (partCount va n) := by
  unfold partOff partCount
  omega

theorem partOff_succ {va n i : Nat} (hn : 0 < n) (hi : i < partCount va n) :
    partOff va i + partLen va n (partOff va i) = min n (partOff va (i + 1)) := by
  unfold partCount at hi
  unfold partLen partOff
  omega

/-- R88: a request of which i parts have been sent, the first under a name. -/
def HostJob.sentParts (j : HostJob) (first i : Nat) : HostJob := { j with
  next := min j.len (partOff j.va i), open' := if j.write then 0 else i,
  waits := if j.write then ((List.range i).map (first + ·)).reverse else [] }

theorem HostJob.sentParts_next {j : HostJob} {i : Nat} (first : Nat) (hlen : 0 < j.len) (hi : i < partCount j.va j.len) :
    (j.sentParts first i).next = partOff j.va i := Nat.min_eq_right (Nat.le_of_lt (partOff_lt hlen hi))

theorem HostJob.sentParts_end (j : HostJob) (first : Nat) : (j.sentParts first (partCount j.va j.len)).next = j.len :=
  Nat.min_eq_left (partOff_end j.va j.len)

/-- R331, R335: the request of part i for its node. -/
def partReq (vf qp : Nat) (j : HostJob) (first i : Nat) (past : List Nat) : MemReq :=
  let off := partOff j.va i
  { id := first + i, ctx := vf, die := 4, src := if j.write then .device else .host vf qp j.job off, pa := runAddr j.va j.pas off, va := j.va + off,
    op := if j.write then .store ((j.data.drop off).take (partLen j.va j.len off)) else .load (partLen j.va j.len off), past,
    rep := runRep j.va j.pas j.reps off }

/-! ## One part -/

/-- R102: the charge of a part. -/
def State.partCharged (s : State) (vf : Nat) (j : HostJob) (pa : Nat) : State :=
  if j.next = 0 ∨ (j.va + j.next) % 64 = 0 then (s.nodePath vf hostStop pa 64).nodeEvent 4 vf pa j.write false else s

/-- A part's name taken; a write's is in flight, in the open batch of die 4. -/
def State.partNamed (s : State) (write : Bool) : State := if write then (s.issueWrite 4).1 else s.bump

theorem State.partCharged_only (s : State) (vf : Nat) (j : HostJob) (pa : Nat) : OnlyCharged s (s.partCharged vf j pa) := by
  unfold State.partCharged
  split
  · exact (OnlyCharged.nodePath s vf hostStop pa 64).trans (.nodeEvent _ 4 vf pa j.write false)
  · exact .refl s

/-- R331, R335: the request of the next part, for its node. -/
def State.nextReq (s : State) (vf qp : Nat) (j : HostJob) (pa : Nat) : MemReq :=
  { id := s.nextId, ctx := vf, die := 4, src := if j.write then .device else .host vf qp j.job j.next, pa, va := j.va + j.next,
    op := if j.write then .store ((j.data.drop j.next).take (partLen j.va j.len j.next)) else .load (partLen j.va j.len j.next),
    past := s.livePast s.pkg.hostPast, rep := runRep j.va j.pas j.reps j.next }

/-- R88: a request with its next part sent under a name. -/
def HostJob.partSent (j : HostJob) (id : Nat) : HostJob := { j with
  next := j.next + partLen j.va j.len j.next, open' := if j.write then j.open' else j.open' + 1, waits := if j.write then id :: j.waits else j.waits }

theorem State.partHere_eq (s : State) (vf qp : Nat) (j : HostJob) (pa : Nat) : s.partHere vf qp j pa =
    let c := s.partCharged vf j pa
    ((c.partNamed j.write).toNode pa (c.nextReq vf qp j pa)).setQp vf qp (.busy (j.partSent c.nextId)) := rfl

theorem HostJob.sentParts_partSent {j : HostJob} {i : Nat} (first : Nat) (hlen : 0 < j.len) (hi : i < partCount j.va j.len) :
    (j.sentParts first i).partSent (first + i) = j.sentParts first (i + 1) := by
  have hnext : (j.sentParts first i).next + partLen j.va j.len (j.sentParts first i).next = min j.len (partOff j.va (i + 1)) := by
    rw [HostJob.sentParts_next first hlen hi, partOff_succ hlen hi]
  cases hw : j.write
  · simpa [HostJob.partSent, HostJob.sentParts, hw] using hnext
  · simpa [HostJob.partSent, HostJob.sentParts, hw, List.range_succ] using hnext

theorem State.nextReq_sentParts {s : State} {j : HostJob} {first i : Nat} (vf qp : Nat) (hlen : 0 < j.len) (hi : i < partCount j.va j.len)
    (hid : s.nextId = first + i) : s.nextReq vf qp (j.sentParts first i) (runAddr j.va j.pas (partOff j.va i)) =
      partReq vf qp j first i (s.livePast s.pkg.hostPast) := by
  rw [State.nextReq, HostJob.sentParts_next first hlen hi, hid]
  rfl

/-- The machine but for what the parts of a request change: charges, names and flights, nodes and batches, and the queue pairs. -/
def State.apart (s : State) : State := { s with
  pkg := { s.pkg with windowCharges := [], windowScaled := [], qps := [] }, dies := [], nextId := 0, flying := [] }

theorem OnlyCharged.apart {s t : State} (h : OnlyCharged s t) : t.apart = s.apart := (congrArg State.apart h.rest :)
theorem OnlyCharged.nextId {s t : State} (h : OnlyCharged s t) : t.nextId = s.nextId := (congrArg State.nextId h.rest :)
theorem OnlyCharged.flying {s t : State} (h : OnlyCharged s t) : t.flying = s.flying := (congrArg State.flying h.rest :)

section partNamed
variable (s : State) (w : Bool)

theorem State.partNamed_apart : (s.partNamed w).apart = s.apart := by cases w <;> rfl
theorem State.partNamed_nextId : (s.partNamed w).nextId = s.nextId + 1 := by cases w <;> rfl
theorem State.partNamed_flying : (s.partNamed w).flying = if w then s.nextId :: s.flying else s.flying := by cases w <;> rfl
theorem State.partNamed_nodes (e : Nat) : ((s.partNamed w).die e).nodes = (s.die e).nodes := by
  cases w
  · rfl
  · exact State.modDie_reads Die.nodes s.issueHeld.1 4 (f := fun x => { x with openBatch := x.openBatch ++ [s.nextId] }) rfl e
theorem State.partNamed_batch : ((s.partNamed w).die 4).openBatch = (s.die 4).openBatch ++ if w then [s.nextId] else [] := by
  cases w
  · exact (List.append_nil _).symm
  · exact congrArg Die.openBatch (s.issueHeld.1.die_modDie_same 4 (fun x => { x with openBatch := x.openBatch ++ [s.nextId] }))

end partNamed

section toNode
variable (s : State) (pa : Nat) (r : MemReq)

/-- R288: a request stands behind what came to its node before, and at no other node. -/
theorem State.toNode_nodes (d n : Nat) : ((s.toNode pa r).die d).nodes.get [] n =
    (s.die d).nodes.get [] n ++ if nodeOf s.pkg.ordering pa = (d, n) then [r] else [] := by
  unfold State.toNode
  obtain ⟨e, k⟩ := nodeOf s.pkg.ordering pa
  dsimp only
  by_cases hd : d = e
  · subst hd
    rw [State.die_modDie_same, AMap.get_set]
    by_cases hn : n = k
    · subst hn; simp
    · simp [hn, Ne.symm hn]
  · rw [State.die_modDie_other _ _ hd]
    simp [Ne.symm hd]

theorem State.toNode_batch (e : Nat) : ((s.toNode pa r).die e).openBatch = (s.die e).openBatch :=
  State.modDie_reads Die.openBatch s _ rfl e

end toNode

/-- R337: what of a causal past is still of account follows from the writes in flight, the lines on their way and the log. -/
theorem State.livePast_congr {s t : State} (hflying : t.flying = s.flying) (hlines : t.lines = s.lines) (hlog : t.log = s.log) :
    t.livePast = s.livePast := by
  funext l
  simp only [State.livePast, State.seenEverywhere, State.seenAt, hflying, hlines, hlog]

/-! ## The parts sent so far -/

/-- R88: of a request that a machine begins, i parts have been sent to their nodes. -/
structure PartsSent (s : State) (vf qp : Nat) (j : HostJob) (i : Nat) (t : State) : Prop where
  apart : t.apart = s.apart
  nextId : t.nextId = s.nextId + i
  busy : t.pkg.qps.get .normal (qpKey vf qp) = .busy (j.sentParts s.nextId i)
  flying : t.flying = if j.write then ((List.range i).map (s.nextId + ·)).reverse ++ s.flying else s.flying
  batch : j.write = true → ∀ k, k < i → s.nextId + k ∈ (t.die 4).openBatch
  nodes : ∀ d n, ∃ l, (t.die d).nodes.get [] n = (s.die d).nodes.get [] n ++ l ∧
    ∀ k, k < i → nodeOf s.pkg.ordering (runAddr j.va j.pas (partOff j.va k)) = (d, n) →
      ∃ past, (j.write = false → past = s.livePast s.pkg.hostPast) ∧ partReq vf qp j s.nextId k past ∈ l

/-- R88: a request begun, with none of its parts sent. -/
theorem PartsSent.zero {s : State} {vf qp : Nat} {j : HostJob} (hbusy : s.pkg.qps.get .normal (qpKey vf qp) = .busy j)
    (hnext : j.next = 0) (hopen : j.open' = 0) (hwaits : j.waits = []) : PartsSent s vf qp j 0 s := by
  have hnone : j.sentParts s.nextId 0 = j := by
    cases j
    subst hnext hopen hwaits
    simp [HostJob.sentParts, partOff]
  exact ⟨rfl, rfl, by rw [hnone, hbusy], by simp, fun _ k hk => absurd hk (Nat.not_lt_zero k),
    fun d n => ⟨[], (List.append_nil _).symm, fun k hk => absurd hk (Nat.not_lt_zero k)⟩⟩

section partsSent
variable {s t : State} {vf qp i : Nat} {j : HostJob} (h : PartsSent s vf qp j i t)
include h

theorem PartsSent.ordering : t.pkg.ordering = s.pkg.ordering := (congrArg (fun x : State => x.pkg.ordering) h.apart :)
theorem PartsSent.hostPast : t.pkg.hostPast = s.pkg.hostPast := (congrArg (fun x : State => x.pkg.hostPast) h.apart :)
theorem PartsSent.rdma : t.pkg.rdma = s.pkg.rdma := (congrArg (fun x : State => x.pkg.rdma) h.apart :)
theorem PartsSent.programs : t.programs = s.programs := (congrArg State.programs h.apart :)
theorem PartsSent.ctx (c : Nat) : t.ctx c = s.ctx c := (congrArg (fun x : State => x.ctx c) h.apart :)

/-- R331: the next part sent. -/
theorem PartsSent.succ (hlen : 0 < j.len) (hi : i < partCount j.va j.len) :
    PartsSent s vf qp j (i + 1) (t.partHere vf qp (j.sentParts s.nextId i) (runAddr j.va j.pas (partOff j.va i))) := by
  have hcharged := t.partCharged_only vf (j.sentParts s.nextId i) (runAddr j.va j.pas (partOff j.va i))
  have hmade := t.partHere_eq vf qp (j.sentParts s.nextId i) (runAddr j.va j.pas (partOff j.va i))
  generalize t.partCharged vf (j.sentParts s.nextId i) (runAddr j.va j.pas (partOff j.va i)) = c at hcharged hmade
  have hid : c.nextId = s.nextId + i := hcharged.nextId.trans h.nextId
  dsimp only at hmade
  rw [State.nextReq_sentParts vf qp hlen hi hid, hid, HostJob.sentParts_partSent _ hlen hi] at hmade
  change _ = ((c.partNamed j.write).toNode _ _).setQp _ _ _ at hmade
  have hpast (hread : j.write = false) : c.livePast c.pkg.hostPast = s.livePast s.pkg.hostPast := by
    have hflying := hcharged.flying.trans h.flying
    have hapart := hcharged.apart.trans h.apart
    rw [hread] at hflying
    rw [State.livePast_congr hflying (congrArg State.lines hapart :) (congrArg State.log hapart :)]
    exact congrArg s.livePast (congrArg (fun x : State => x.pkg.hostPast) hapart :)
  generalize hpa : runAddr j.va j.pas (partOff j.va i) = pa at hmade
  have hordering : (c.partNamed j.write).pkg.ordering = s.pkg.ordering :=
    (congrArg (fun x : State => x.pkg.ordering) ((c.partNamed_apart j.write).trans (hcharged.apart.trans h.apart)) :)
  rw [hmade]
  refine ⟨?_, ?_, State.setQp_same _ _ _ _, ?_, fun hw k hk => ?_, fun d n => ?_⟩
  · exact (c.partNamed_apart j.write).trans (hcharged.apart.trans h.apart)
  · change (c.partNamed j.write).nextId = _
    rw [State.partNamed_nextId, hid, Nat.add_assoc]
  · change (c.partNamed j.write).flying = _
    rw [State.partNamed_flying, hcharged.flying, h.flying, hid]
    cases j.write
    · rfl
    · simp [List.range_succ]
  · change s.nextId + k ∈ (((c.partNamed j.write).toNode pa _).die 4).openBatch
    rw [State.toNode_batch, State.partNamed_batch, hcharged.batch, hid, hw]
    rcases Nat.lt_succ_iff_lt_or_eq.mp hk with hk | rfl
    · exact List.mem_append_left _ (h.batch hw k hk)
    · simp
  · obtain ⟨l, hl, hmem⟩ := h.nodes d n
    refine ⟨l ++ if nodeOf s.pkg.ordering pa = (d, n) then [partReq vf qp j s.nextId i (c.livePast c.pkg.hostPast)] else [], ?_, fun k hk hnode => ?_⟩
    · change (((c.partNamed j.write).toNode pa _).die d).nodes.get [] n = _
      rw [State.toNode_nodes, State.partNamed_nodes, hcharged.nodes, hl, hordering, List.append_assoc]
    · rcases Nat.lt_succ_iff_lt_or_eq.mp hk with hk | rfl
      · obtain ⟨past, hpast, hin⟩ := hmem k hk hnode
        exact ⟨past, hpast, List.mem_append_left _ hin⟩
      · rw [hpa] at hnode
        exact ⟨c.livePast c.pkg.hostPast, hpast, List.mem_append_right _ (by simp [hnode])⟩

/-- R88: with no part left, none is sent. -/
theorem PartsSent.sendParts_end (hi : i = partCount j.va j.len) (fuel : Nat) : t.sendParts vf qp fuel = t := by
  subst hi
  cases fuel with
  | zero => rfl
  | succ fuel => rw [State.sendParts, h.busy]; exact if_pos (.inl (HostJob.sentParts_end j s.nextId).ge)

end partsSent

/-- R88: the parts left are sent in turn, none of them in a remote window. -/
theorem PartsSent.sendParts {s : State} {vf qp : Nat} {j : HostJob} (hlen : 0 < j.len) (hstop : (s.ctx vf).stopTo = none)
    (hlocal : ∀ k, k < j.len → runAddr j.va j.pas k / 2 ^ 48 % 16 < 8) : ∀ (fuel i : Nat) (t : State), PartsSent s vf qp j i t →
      i ≤ partCount j.va j.len → partCount j.va j.len ≤ i + fuel → PartsSent s vf qp j (partCount j.va j.len) (t.sendParts vf qp fuel)
  | fuel, i, t, h, hi, hfuel => by
    by_cases hend : i = partCount j.va j.len
    · rw [h.sendParts_end hend, ← hend]
      exact h
    · have hmore : i < partCount j.va j.len := by omega
      obtain _ | fuel := fuel
      · omega
      · have hnext := HostJob.sentParts_next s.nextId hlen hmore
        have hopen : ¬ ((j.sentParts s.nextId i).len ≤ (j.sentParts s.nextId i).next ∨ (t.ctx vf).stopTo.isSome = true) := by
          rw [hnext, h.ctx, hstop]
          have hoff : ¬ j.len ≤ partOff j.va i := Nat.not_le.mpr (partOff_lt hlen hmore)
          simpa [HostJob.sentParts] using hoff
        have hhere : ¬ 8 ≤ runAddr j.va j.pas (partOff j.va i) / 2 ^ 48 % 16 := Nat.not_le.mpr (hlocal _ (partOff_lt hlen hmore))
        have hsend : t.sendParts vf qp (fuel + 1) =
            (t.partHere vf qp (j.sentParts s.nextId i) (runAddr j.va j.pas (partOff j.va i))).sendParts vf qp fuel := by
          rw [State.sendParts, h.busy]
          refine (if_neg hopen).trans ?_
          rw [hnext]
          exact if_neg hhere
        rw [hsend]
        exact PartsSent.sendParts hlen hstop hlocal fuel (i + 1) _ (h.succ hlen hmore) hmore (by omega)

end Sys2Proof.Machine
end

section
/-! SUPPORT. RDMA writes and reads whose pages lie in this package: sent to their nodes, then owed or awaited (R87, R88). -/

namespace Sys2Proof.Machine

/-! ## The pages of a request -/

theorem State.tlbLookup_hostPort_ordering (s : State) (vf qp c va : Nat) (a : Access) :
    (s.tlbLookup (.hostPort vf qp) c va a).1.pkg.ordering = s.pkg.ordering := by
  have hcharged : (s.uncore 4 c .tlb 1 (uncoreDomain 4)).pkg.ordering = s.pkg.ordering :=
    (congrArg (fun x : State => x.pkg.ordering) (OnlyCharged.uncore s 4 c .tlb 1 (uncoreDomain 4)).rest :)
  simp only [State.tlbLookup, State.reqPort, Requester.served, Requester.tile, State.reqDie]
  split
  · exact hcharged
  · exact hcharged

/-- R140: a translation that the host port is given leaves the ordering code. -/
theorem State.translate_ok_ordering {s s1 : State} {vf qp c pa : Nat} {va : Word} {a : Access} {super atomic rep : Bool}
    (h : s.translate (.hostPort vf qp) c va a super atomic = .ok s1 pa rep) : s1.pkg.ordering = s.pkg.ordering := by
  have hlook := s.tlbLookup_hostPort_ordering vf qp c va.toNat a
  have hused {x : State} {d v : Nat} {e : TlbEntry} (hx : x.use c d v e a super atomic = .ok s1 pa rep) : s1 = x :=
    (congrArg Xl.after hx).symm.trans (x.use_after c d v e a super atomic)
  unfold State.translate at h
  split at h
  · cases h
  · dsimp only at h
    split at h
    · split at h
      · cases h
      · cases h
      · split at h
        · rw [hused h]; rfl
        · cases h
      · cases h
    · split at h
      next hl => rw [hl] at hlook; rw [hused h]; exact hlook
      next => split at h <;> cases h

theorem State.xlPages_ok_ordering {vf qp c : Nat} {a : Access} {super : Bool} : ∀ (l : List Nat) {s s1 : State} {pas reps : List Nat},
    s.xlPages (.hostPort vf qp) c a super l = .ok s1 pas reps → s1.pkg.ordering = s.pkg.ordering
  | [], _, _, _, _, h => by cases h; rfl
  | va :: rest, s, s1, pas, reps, h => by
    unfold State.xlPages at h
    split at h
    next hfirst =>
      split at h
      next hrest => cases h; exact (State.xlPages_ok_ordering rest hrest).trans (State.translate_ok_ordering hfirst)
      next hother => exact absurd h (hother _ _ _)
    · cases h
    · cases h

/-! ## A request begun -/

/-- R88: a request begun, once its pages are known. -/
def State.newJob (s : State) (va : Nat) (write : Bool) (len : Nat) (data : List Byte) (pas reps : List Nat) : HostJob :=
  { job := s.nextId, va, write, len, data, pas, reps }

/-- R88: the request under way at its queue pair. -/
def State.jobBegun (s : State) (vf qp : Nat) (j : HostJob) : State := s.bump.setQp vf qp (.busy j)

/-- R88: what a queue pair that takes a request finds, its pages known. -/
structure Begins (s s1 : State) (vf qp : Nat) : Prop where
  takes : Takes s vf qp
  ctx : ∀ c, s1.ctx c = s.ctx c
  ordering : s1.pkg.ordering = s.pkg.ordering

/-- R88: asking for the pages of a request, with what it brings charged. -/
theorem Takes.begins {s s0 s1 : State} {vf qp va n : Nat} {write : Bool} {pas reps : List Nat} (h : Takes s vf qp) (hcharged : OnlyCharged s s0)
    (hpages : s0.hostPages vf qp write va n = .ok s1 pas reps) : Begins s s1 vf qp := by
  have haffairs := s0.xlPages_affairs (.hostPort vf qp) vf (if write then .write else .read) false (pagesOf va n)
  rw [State.hostPages] at hpages
  rw [hpages] at haffairs
  exact ⟨h, fun c => (State.ctx_of_affairs haffairs c).trans (hcharged.ctx c),
    (State.xlPages_ok_ordering _ hpages).trans (congrArg (fun x : State => x.pkg.ordering) hcharged.rest :)⟩

theorem State.rdmaDo_ok {s s1 : State} {vf qp va len : Nat} {write : Bool} {data : List Byte} {pas reps : List Nat}
    (hlen : write = true → data.length = len) (h : s.hostPages vf qp write va len = .ok s1 pas reps) :
    s.rdmaDo vf qp va write len data = (s1.jobBegun vf qp (s1.newJob va write len data pas reps)).advanceQp vf qp := by
  simp only [State.rdmaDo, runLen_eq hlen]
  rw [State.hostPages] at h
  rw [h]
  rfl

section advance
variable {s : State} {vf qp : Nat} {j : HostJob}

/-- R88: a request goes on. -/
theorem State.advanceQp_busy {j' : HostJob} (hbusy : s.pkg.qps.get .normal (qpKey vf qp) = .busy j) (hlive : (s.ctx vf).live = true)
    (hdest : (s.ctx vf).destroying = none)
    (hsent : (s.sendParts vf qp (j.len + 1)).pkg.qps.get .normal (qpKey vf qp) = .busy j') : s.advanceQp vf qp =
      if j'.len ≤ j'.next ∧ j'.open' = 0 then (s.sendParts vf qp (j.len + 1)).finishJob vf qp j' else s.sendParts vf qp (j.len + 1) := by
  have hon : ¬ ((!(s.ctx vf).live || (s.ctx vf).destroying.isSome) = true) := by simp [hlive, hdest]
  rw [State.advanceQp, hbusy]
  refine (if_neg hon).trans ?_
  dsimp only
  rw [hsent]

end advance


/-! ## Its parts -/

/-- R88: a request begun, with the parts sent that can be. -/
def State.jobSent (s : State) (vf qp : Nat) (j : HostJob) : State := (s.jobBegun vf qp j).sendParts vf qp (j.len + 1)

theorem State.jobBegun_busy (s : State) (vf qp : Nat) (j : HostJob) : (s.jobBegun vf qp j).pkg.qps.get .normal (qpKey vf qp) = .busy j :=
  State.setQp_same _ _ _ _

theorem State.jobBegun_ctx (s : State) (vf qp : Nat) (j : HostJob) (c : Nat) : (s.jobBegun vf qp j).ctx c = s.ctx c := rfl

section begins
variable {s s1 : State} {vf qp : Nat} {j : HostJob} (h : Begins s s1 vf qp)
include h

/-- R87, R88: the parts of a request that lies in this package, all sent. -/
theorem Begins.partsSent (hlen : 0 < j.len) (hnext : j.next = 0) (hopen : j.open' = 0) (hwaits : j.waits = [])
    (hlocal : ∀ i, i < j.len → runAddr j.va j.pas i / 2 ^ 48 % 16 < 8) :
    PartsSent (s1.jobBegun vf qp j) vf qp j (partCount j.va j.len) (s1.jobSent vf qp j) := by
  have hcount : partCount j.va j.len ≤ 0 + (j.len + 1) := by unfold partCount; omega
  exact PartsSent.sendParts hlen (by rw [State.jobBegun_ctx, h.ctx]; exact h.takes.stays) hlocal (j.len + 1) 0 _
    (.zero (s1.jobBegun_busy vf qp j) hnext hopen hwaits) (Nat.zero_le _) hcount

theorem Begins.advanceQp {j' : HostJob} (hbusy : (s1.jobSent vf qp j).pkg.qps.get .normal (qpKey vf qp) = .busy j') :
    (s1.jobBegun vf qp j).advanceQp vf qp = if j'.len ≤ j'.next ∧ j'.open' = 0 then (s1.jobSent vf qp j).finishJob vf qp j' else s1.jobSent vf qp j :=
  State.advanceQp_busy (s1.jobBegun_busy vf qp j) (by rw [State.jobBegun_ctx, h.ctx]; exact h.takes.live)
    (by rw [State.jobBegun_ctx, h.ctx]; exact h.takes.kept) hbusy

end begins

/-- R288: the request of a part stands behind what was at its node before. -/
theorem PartsSent.part_stands {s t : State} {vf qp i n d k : Nat} {j : HostJob} (h : PartsSent s vf qp j n t) (hi : i < n)
    (hnode : nodeOf s.pkg.ordering (runAddr j.va j.pas (partOff j.va i)) = (d, k)) :
    ∃ past, (j.write = false → past = s.livePast s.pkg.hostPast) ∧
      partReq vf qp j s.nextId i past ∈ ((t.die d).nodes.get [] k).drop ((s.die d).nodes.get [] k).length := by
  obtain ⟨l, hl, hmem⟩ := h.nodes d k
  obtain ⟨past, hpast, hin⟩ := hmem i hi hnode
  exact ⟨past, hpast, by rw [hl, List.drop_left]; exact hin⟩

/-- R337: a write in flight is not performed at package scope. -/
theorem State.seenEverywhere_flying {s : State} {i : Nat} (h : i ∈ s.flying) : s.seenEverywhere i = false := by
  simp only [State.seenEverywhere, State.seenAt, List.contains_iff_mem.mpr h]
  rfl

/-- R88: an answer owed for a write in flight. -/
theorem State.owe_flying {s : State} {vf qp i : Nat} {w : List Nat} {r : RdmaReply} (hi : i ∈ w) (hfly : i ∈ s.flying) :
    s.owe vf qp w r = s.setQp vf qp (.owed w r) := by
  refine if_neg fun hall => ?_
  have hseen := List.all_eq_true.mp hall i hi
  rw [State.seenEverywhere_flying hfly] at hseen
  cases hseen

theorem State.finishJob_write {s : State} {vf qp : Nat} {j : HostJob} (h : j.write = true) :
    s.finishJob vf qp j = (s.hostSaw j.waits).owe vf qp j.waits .ack := if_pos h

theorem take_partLen (va off : Nat) (data : List Byte) :
    (data.drop off).take (partLen va data.length off) = (data.drop off).take (8 - (va + off) % 8) := by
  rw [List.take_eq_take_iff, List.length_drop, partLen]
  omega

section takes
variable {s s1 : State} {vf qp keyLo keyLen va : Nat} {pas reps : List Nat} (h : Takes s vf qp)
include h

/-- R87, R88, R331: RDMA_WRITE to pages of this package. -/
theorem rdmaWrite_local {data : List Byte} (hin : keyLo ≤ va ∧ va + data.length ≤ keyLo + keyLen) (hdata : data ≠ [])
    (hpages : (s.frame vf data.length).hostPages vf qp true va data.length = .ok s1 pas reps)
    (hlocal : ∀ i, i < data.length → runAddr va pas i / 2 ^ 48 % 16 < 8) :
    ∃ t, exec (.rdmaWrite vf qp ⟨keyLo, keyLen, va⟩ data) s = .next t ∧ ProgramsKept s1 t ∧ t.pkg.rdma = s1.pkg.rdma ∧
      (∃ w, t.pkg.qps.get .normal (16 * vf + qp) = .owed w .ack ∧ ∀ x, x ∈ w ↔ ∃ i, i < partCount va data.length ∧ x = s1.nextId + 1 + i) ∧
      ∀ i d k, i < partCount va data.length → nodeOf s.pkg.ordering (runAddr va pas (partOff va i)) = (d, k) →
        s1.nextId + 1 + i ∈ t.flying ∧ s1.nextId + 1 + i ∈ (t.die 4).openBatch ∧
        ∃ q ∈ ((t.die d).nodes.get [] k).drop ((s1.die d).nodes.get [] k).length, q.id = s1.nextId + 1 + i ∧ q.pa = runAddr va pas (partOff va i) ∧
          q.va = va + partOff va i ∧ q.die = 4 ∧ q.ctx = vf ∧ q.op = .store ((data.drop (partOff va i)).take (8 - (va + partOff va i) % 8)) := by
  have hlen : 0 < data.length := List.length_pos_iff.mpr hdata
  have hbegins := h.begins (.uncore s _ _ _ _ _) hpages
  have hparts := hbegins.partsSent (j := s1.newJob va true data.length data pas reps) hlen rfl rfl rfl hlocal
  have hadvance := hbegins.advanceQp hparts.busy
  generalize s1.jobSent vf qp (s1.newJob va true data.length data pas reps) = T at hparts hadvance
  generalize hw : ((List.range (partCount va data.length)).map (s1.nextId + 1 + ·)).reverse = w
  have hflying : T.flying = w ++ s1.flying := hw ▸ hparts.flying
  have hmem (x : Nat) : x ∈ w ↔ ∃ i, i < partCount va data.length ∧ x = s1.nextId + 1 + i := by
    subst hw
    simp [eq_comm]
  have hfirst : s1.nextId + 1 ∈ w := (hmem _).mpr ⟨0, by unfold partCount; omega, rfl⟩
  have hexec : exec (.rdmaWrite vf qp ⟨keyLo, keyLen, va⟩ data) s = .next ((T.hostSaw w).setQp vf qp (.owed w .ack)) := by
    rw [h.exec_write hin, State.rdmaDo_ok (fun _ => rfl) hpages, hadvance, if_pos ⟨(HostJob.sentParts_end ..).ge, rfl⟩]
    refine congrArg Host.Outcome.next ((State.finishJob_write rfl).trans ?_)
    subst hw
    exact State.owe_flying hfirst (hflying ▸ List.mem_append_left _ hfirst)
  refine ⟨_, hexec, programsKept_of_programs hparts.programs, hparts.rdma, ⟨w, State.setQp_same _ _ _ _, hmem⟩, fun i d k hi hnode => ⟨?_, ?_, ?_⟩⟩
  · change _ ∈ T.flying
    rw [hflying]
    exact List.mem_append_left _ ((hmem _).mpr ⟨i, hi, rfl⟩)
  · exact hparts.batch rfl i hi
  · rw [← hbegins.ordering] at hnode
    obtain ⟨past, -, hin⟩ := hparts.part_stands hi hnode
    exact ⟨_, hin, rfl, rfl, rfl, rfl, rfl, congrArg MemOp.store (take_partLen va (partOff va i) data)⟩

/-- R87, R88, R335, R339: RDMA_READ of pages of this package. -/
theorem rdmaRead_local {len : Nat} (hin : keyLo ≤ va ∧ va + len ≤ keyLo + keyLen) (hlen : 0 < len)
    (hpages : s.hostPages vf qp false va len = .ok s1 pas reps) (hlocal : ∀ i, i < len → runAddr va pas i / 2 ^ 48 % 16 < 8) :
    ∃ t j, exec (.rdmaRead vf qp ⟨keyLo, keyLen, va⟩ len) s = .next t ∧ ProgramsKept s1 t ∧ t.pkg.rdma = s1.pkg.rdma ∧
      t.pkg.qps.get .normal (16 * vf + qp) = .busy j ∧ j.write = false ∧ j.len = len ∧ j.next = len ∧ j.open' = partCount va len ∧ j.got = [] ∧
      ∀ i d k, i < partCount va len → nodeOf s.pkg.ordering (runAddr va pas (partOff va i)) = (d, k) →
        ∃ q ∈ ((t.die d).nodes.get [] k).drop ((s1.die d).nodes.get [] k).length, q.pa = runAddr va pas (partOff va i) ∧ q.va = va + partOff va i ∧
          q.die = 4 ∧ q.ctx = vf ∧ q.src = .host vf qp j.job (partOff va i) ∧
          q.op = .load (min (len - partOff va i) (8 - (va + partOff va i) % 8)) ∧ q.past = s1.livePast s1.pkg.hostPast := by
  have hbegins := h.begins (.refl s) hpages
  have hparts := hbegins.partsSent (j := s1.newJob va false len [] pas reps) hlen rfl rfl rfl hlocal
  have hadvance := hbegins.advanceQp hparts.busy
  generalize s1.jobSent vf qp (s1.newJob va false len [] pas reps) = T at hparts hadvance
  have hmore : 0 < partCount va len := by unfold partCount; omega
  have hexec : exec (.rdmaRead vf qp ⟨keyLo, keyLen, va⟩ len) s = .next T := by
    rw [h.exec_read hin, State.rdmaDo_ok (fun hw => absurd hw Bool.false_ne_true) hpages, hadvance, if_neg fun hend => Nat.ne_of_gt hmore hend.2]
  refine ⟨T, _, hexec, programsKept_of_programs hparts.programs, hparts.rdma, hparts.busy, rfl, rfl, HostJob.sentParts_end .., rfl, rfl,
    fun i d k hi hnode => ?_⟩
  rw [← hbegins.ordering] at hnode
  obtain ⟨past, hpast, hin⟩ := hparts.part_stands hi hnode
  exact ⟨_, hin, rfl, rfl, rfl, rfl, rfl, rfl, hpast rfl⟩

end takes

end Sys2Proof.Machine
end

section
/-! SUPPORT. RDMA reads whose page names a remote window, and requests on pages that wait or that have no right (R88, R370, R372). -/

namespace Sys2Proof.Machine

/-! ## Pages that wait or are refused -/

section takes
variable {s s1 : State} {vf qp keyLo keyLen va : Nat} (h : Takes s vf qp)
include h

theorem rdmaWrite_stalls {data : List Byte} (hin : keyLo ≤ va ∧ va + data.length ≤ keyLo + keyLen)
    (hpages : (s.frame vf data.length).hostPages vf qp true va data.length = .wait s1) :
    ∃ t, exec (.rdmaWrite vf qp ⟨keyLo, keyLen, va⟩ data) s = .next t ∧ ProgramsKept s1 t ∧ t.pkg.rdma = s1.pkg.rdma ∧
      t.pkg.qps.get .normal (16 * vf + qp) = .stalled va true data.length data :=
  ⟨_, (h.exec_write hin).trans (congrArg Host.Outcome.next (State.rdmaDo_wait (fun _ => rfl) hpages)), programsKept_of_programs rfl, rfl,
    State.setQp_same ..⟩

theorem rdmaRead_stalls {len : Nat} (hin : keyLo ≤ va ∧ va + len ≤ keyLo + keyLen) (hpages : s.hostPages vf qp false va len = .wait s1) :
    ∃ t, exec (.rdmaRead vf qp ⟨keyLo, keyLen, va⟩ len) s = .next t ∧ ProgramsKept s1 t ∧ t.pkg.rdma = s1.pkg.rdma ∧
      t.pkg.qps.get .normal (16 * vf + qp) = .stalled va false len [] :=
  ⟨_, (h.exec_read hin).trans (congrArg Host.Outcome.next (State.rdmaDo_wait (fun hw => absurd hw Bool.false_ne_true) hpages)),
    programsKept_of_programs rfl, rfl, State.setQp_same ..⟩

theorem rdmaWrite_fault {data : List Byte} {c r a : Nat} (hin : keyLo ≤ va ∧ va + data.length ≤ keyLo + keyLen)
    (hpages : (s.frame vf data.length).hostPages vf qp true va data.length = .fault s1 c r a) :
    ∃ t, exec (.rdmaWrite vf qp ⟨keyLo, keyLen, va⟩ data) s = .next t ∧ ProgramsKept s1 t ∧
      t.pkg.rdma = s1.pkg.rdma ++ [(vf, qp, .accessError)] ∧ t.pkg.qps.get .normal (16 * vf + qp) = .error :=
  ⟨_, (h.exec_write hin).trans (congrArg Host.Outcome.next (State.rdmaDo_fault (fun _ => rfl) hpages)), programsKept_of_programs rfl,
    s1.qpError_refused vf qp⟩

theorem rdmaRead_fault {len c r a : Nat} (hin : keyLo ≤ va ∧ va + len ≤ keyLo + keyLen) (hpages : s.hostPages vf qp false va len = .fault s1 c r a) :
    ∃ t, exec (.rdmaRead vf qp ⟨keyLo, keyLen, va⟩ len) s = .next t ∧ ProgramsKept s1 t ∧
      t.pkg.rdma = s1.pkg.rdma ++ [(vf, qp, .accessError)] ∧ t.pkg.qps.get .normal (16 * vf + qp) = .error :=
  ⟨_, (h.exec_read hin).trans (congrArg Host.Outcome.next (State.rdmaDo_fault (fun hw => absurd hw Bool.false_ne_true) hpages)),
    programsKept_of_programs rfl, s1.qpError_refused vf qp⟩

end takes

/-! ## A remote window -/

/-- R371: the window of a context that an address names. -/
def State.windowAt (s : State) (vf pa : Nat) : Window := (s.ctx vf).windows.get {} (pa / 2 ^ 45 % 64)

/-- R371: where in its target an address of a window lies. -/
def State.targetAt (s : State) (vf pa : Nat) : Nat := ((s.windowAt vf pa).base + pa % 2 ^ 45) % 2 ^ 64

/-- R370, R373: the flit that asks a window's package for a whole read. -/
def State.readFlit (s : State) (vf pa len : Nat) : Flit :=
  let win := s.windowAt vf pa
  { ctx := some vf, lane := win.lane, dst := win.rpkg,
    packet := .request { srcPkg := Config.pkgid.toNat, srcCtx := vf, srcTile := 576, srcStrand := 0, dstPkg := win.rpkg, dstCtx := win.rctx,
                         lane := win.lane, addr := s.targetAt vf pa, kind := .read len, tag := s.nextId } }

/-- R374: its flight. -/
def State.readFlight (s : State) (vf qp job pa p : Nat) : RemoteFlight :=
  { tag := s.nextId, tile := 576, id := 64 + qp, n := 0, ctx := vf, window := pa / 2 ^ 45 % 64, port := p, addr := job, isWrite := false,
    wid := s.nextId }

/-- R370, R373: a flit that joins its lane, after the path to its port. -/
def State.flitOut (s : State) (vf p : Nat) (f : Flit) : State := (s.bump.chargePath vf hostStop (portTile p) 64).toLane p f.lane f

/-- R370: a whole read sent toward its window's package. -/
def State.readAway (s : State) (vf qp : Nat) (j : HostJob) (pa p : Nat) : State :=
  ((s.flitOut vf p (s.readFlit vf pa j.len)).modPkg (fun x => { x with flights := x.flights ++ [s.readFlight vf qp j.job pa p] })).setQp vf qp
    (.busy { j with next := j.len, open' := 1 })

section partAway
variable {s : State} {vf qp pa : Nat} {j : HostJob}

/-- R372: a window that does not let an access through. -/
theorem State.partAway_refused (h : (s.windowAt vf pa).out = false ∨ (s.windowAt vf pa).size ≤ pa % 2 ^ 45) :
    s.partAway vf qp j pa = some (s.qpError vf qp) := by
  have hcond : (!(s.windowAt vf pa).out || decide ((s.windowAt vf pa).size ≤ pa % 2 ^ 45)) = true := by
    rw [Bool.or_eq_true, decide_eq_true_eq]
    exact h.imp (fun hout => by rw [hout]; rfl) id
  exact if_pos hcond

/-- R370 to R374: a read that one request covers goes to its window's package. -/
theorem State.partAway_read {p : Nat} (hread : j.write = false) (hnext : j.next = 0) (hopen : j.open' = 0)
    (hout : (s.windowAt vf pa).out = true) (hsize : pa % 2 ^ 45 < (s.windowAt vf pa).size)
    (hport : s.routePort 576 0 (s.windowAt vf pa).rpkg = some p) (hroom : s.pkg.inWindow vf (pa / 2 ^ 45 % 64) < 16)
    (hblock : j.len ≤ 64 - s.targetAt vf pa % 64) (hpage : j.va % 4096 + j.len ≤ 4096) :
    s.partAway vf qp j pa = some (s.readAway vf qp j pa p) := by
  have hadmits : ¬ ((!(s.windowAt vf pa).out || decide ((s.windowAt vf pa).size ≤ pa % 2 ^ 45)) = true) := by
    rw [Bool.or_eq_true, decide_eq_true_eq, hout]
    exact fun hor => hor.elim (fun hnot => nomatch hnot) (Nat.not_le.mpr hsize)
  have hlen : min (min (j.len - j.next) (4096 - (j.va + j.next) % 4096)) (64 - s.targetAt vf pa % 64) = j.len := by
    rw [hnext, Nat.add_zero]
    omega
  refine (if_neg hadmits).trans ?_
  rw [State.windowAt] at hport
  rw [hport]
  refine (if_neg (Nat.not_le.mpr hroom)).trans ?_
  unfold State.targetAt State.windowAt at hlen
  dsimp only
  rw [hlen]
  obtain ⟨⟩ := j
  subst hread hnext hopen
  simp only [Nat.zero_add]
  rfl

end partAway

section readAway
variable (s : State) (vf qp : Nat) (j : HostJob) (pa p : Nat)

theorem State.flitOut_charged : OnlyCharged s.bump (s.bump.chargePath vf hostStop (portTile p) 64) := .chargePath _ _ _ _ _

theorem State.readAway_programs : (s.readAway vf qp j pa p).programs = s.programs := by
  simp only [State.readAway, State.flitOut, State.toLane, State.setQp, State.modPkg_programs]
  exact (State.flitOut_charged s vf p).programs
theorem State.readAway_rdma : (s.readAway vf qp j pa p).pkg.rdma = s.pkg.rdma := by
  simp only [State.readAway, State.flitOut, State.toLane, State.setQp, State.modPkg_pkg]
  exact (State.flitOut_charged s vf p).rdma
theorem State.readAway_flights : (s.readAway vf qp j pa p).pkg.flights = s.pkg.flights ++ [s.readFlight vf qp j.job pa p] :=
  congrArg (· ++ [s.readFlight vf qp j.job pa p]) (congrArg (fun x : State => x.pkg.flights) (State.flitOut_charged s vf p).rest :)

theorem State.readAway_lane : ((s.readAway vf qp j pa p).linkPort p).lanes.get [] (s.windowAt vf pa).lane =
    (s.linkPort p).lanes.get [] (s.windowAt vf pa).lane ++ [s.readFlit vf pa j.len] := by
  have hport : (s.bump.chargePath vf hostStop (portTile p) 64).pkg.ports = s.pkg.ports :=
    (congrArg (fun x : State => x.pkg.ports) (State.flitOut_charged s vf p).rest :)
  change (((s.flitOut vf p (s.readFlit vf pa j.len)).pkg.ports.get {} p).lanes.get [] (s.readFlit vf pa j.len).lane) = _
  rw [State.flitOut, State.toLane, State.modPkg_pkg]
  dsimp only
  rw [AMap.get_set_same, AMap.get_set_same, hport]
  rfl

end readAway

/-! ## A read whose page is remote -/

/-- R88: parts of a queue pair in error. -/
theorem State.sendParts_error {s : State} {vf qp : Nat} (h : s.pkg.qps.get .normal (qpKey vf qp) = .error) (n : Nat) :
    s.sendParts vf qp n = s := by
  cases n with
  | zero => rfl
  | succ n => rw [State.sendParts, h]

/-- R88: parts of a request of which all are sent. -/
theorem State.sendParts_whole {s : State} {vf qp : Nat} {j : HostJob} (h : s.pkg.qps.get .normal (qpKey vf qp) = .busy j) (hend : j.len ≤ j.next) (n : Nat) :
    s.sendParts vf qp n = s := by
  cases n with
  | zero => rfl
  | succ n => rw [State.sendParts, h]; exact if_pos (.inl hend)

/-- R88: the first part of a request whose page is remote. -/
theorem Begins.jobSent_away {s s1 t : State} {vf qp : Nat} {j : HostJob} (h : Begins s s1 vf qp) (hlen : 0 < j.len) (hnext : j.next = 0)
    (haway : 8 ≤ runAddr j.va j.pas 0 / 2 ^ 48 % 16)
    (hpart : (s1.jobBegun vf qp j).partAway vf qp j (runAddr j.va j.pas 0) = some t) : s1.jobSent vf qp j = t.sendParts vf qp j.len := by
  have hopen : ¬ (j.len ≤ j.next ∨ ((s1.jobBegun vf qp j).ctx vf).stopTo.isSome = true) := by
    rw [State.jobBegun_ctx, h.ctx, h.takes.stays, hnext]
    simp [Nat.ne_of_gt hlen]
  rw [State.jobSent, State.sendParts, s1.jobBegun_busy]
  refine (if_neg hopen).trans ?_
  rw [hnext]
  refine (if_pos haway).trans ?_
  rw [hpart]

/-- R88: a request that ends in error as its parts are sent. -/
theorem Begins.advanceQp_error {s s1 : State} {vf qp : Nat} {j : HostJob} (h : Begins s s1 vf qp)
    (herror : (s1.jobSent vf qp j).pkg.qps.get .normal (qpKey vf qp) = .error) : (s1.jobBegun vf qp j).advanceQp vf qp = s1.jobSent vf qp j := by
  have hon : ¬ ((!((s1.jobBegun vf qp j).ctx vf).live || ((s1.jobBegun vf qp j).ctx vf).destroying.isSome) = true) := by
    rw [State.jobBegun_ctx, h.ctx, h.takes.live, h.takes.kept]
    simp
  rw [State.advanceQp, s1.jobBegun_busy]
  refine (if_neg hon).trans ?_
  change (match (s1.jobSent vf qp j).pkg.qps.get .normal (qpKey vf qp) with
    | .busy j' => if j'.len ≤ j'.next ∧ j'.open' = 0 then (s1.jobSent vf qp j).finishJob vf qp j' else s1.jobSent vf qp j
    | _ => s1.jobSent vf qp j) = _
  rw [herror]

section takes
variable {s s1 : State} {vf qp keyLo keyLen va len : Nat} {pas reps : List Nat} (h : Takes s vf qp)
  (hin : keyLo ≤ va ∧ va + len ≤ keyLo + keyLen) (hlen : 0 < len) (hpages : s.hostPages vf qp false va len = .ok s1 pas reps)
  (haway : 8 ≤ runAddr va pas 0 / 2 ^ 48 % 16)
include h hin hlen hpages haway

/-- R88, R372: RDMA_READ of a page of a window that does not let it through. -/
theorem rdmaRead_unadmitted (hrefused : (s1.windowAt vf (runAddr va pas 0)).out = false ∨ (s1.windowAt vf (runAddr va pas 0)).size ≤ runAddr va pas 0 % 2 ^ 45) :
    ∃ t, exec (.rdmaRead vf qp ⟨keyLo, keyLen, va⟩ len) s = .next t ∧ ProgramsKept s1 t ∧
      t.pkg.rdma = s1.pkg.rdma ++ [(vf, qp, .accessError)] ∧ t.pkg.qps.get .normal (16 * vf + qp) = .error := by
  have hbegins := h.begins (.refl s) hpages
  have hsent := (hbegins.jobSent_away (j := s1.newJob va false len [] pas reps) hlen rfl haway (State.partAway_refused hrefused)).trans
    (State.sendParts_error (State.qpError_refused _ vf qp).2 _)
  have hexec : exec (.rdmaRead vf qp ⟨keyLo, keyLen, va⟩ len) s =
      .next ((s1.jobBegun vf qp (s1.newJob va false len [] pas reps)).qpError vf qp) := by
    rw [h.exec_read hin, State.rdmaDo_ok (fun hw => absurd hw Bool.false_ne_true) hpages,
      hbegins.advanceQp_error (by rw [hsent]; exact (State.qpError_refused _ vf qp).2), hsent]
  exact ⟨_, hexec, programsKept_of_programs rfl, State.qpError_refused _ vf qp⟩

/-- R370 to R374: RDMA_READ of a page of a window, that one request covers. -/
theorem rdmaRead_away {p : Nat} (hout : (s1.windowAt vf (runAddr va pas 0)).out = true)
    (hsize : runAddr va pas 0 % 2 ^ 45 < (s1.windowAt vf (runAddr va pas 0)).size)
    (hport : s1.routePort 576 0 (s1.windowAt vf (runAddr va pas 0)).rpkg = some p)
    (hroom : s1.pkg.inWindow vf (runAddr va pas 0 / 2 ^ 45 % 64) < 16)
    (hblock : len ≤ 64 - s1.targetAt vf (runAddr va pas 0) % 64) (hpage : va % 4096 + len ≤ 4096) :
    ∃ t, exec (.rdmaRead vf qp ⟨keyLo, keyLen, va⟩ len) s = .next t ∧ ProgramsKept s1 t ∧ t.pkg.rdma = s1.pkg.rdma ∧
      t.pkg.flights = s1.pkg.flights ++ [s1.bump.readFlight vf qp s1.nextId (runAddr va pas 0) p] ∧
      (t.linkPort p).lanes.get [] (s1.windowAt vf (runAddr va pas 0)).lane =
        (s1.linkPort p).lanes.get [] (s1.windowAt vf (runAddr va pas 0)).lane ++ [s1.bump.readFlit vf (runAddr va pas 0) len] := by
  have hbegins := h.begins (.refl s) hpages
  have hsent := (hbegins.jobSent_away (j := s1.newJob va false len [] pas reps) hlen rfl haway
    (State.partAway_read rfl rfl rfl hout hsize hport hroom hblock hpage)).trans (State.sendParts_whole (State.setQp_same _ _ _ _) (Nat.le_refl len) _)
  have hexec : exec (.rdmaRead vf qp ⟨keyLo, keyLen, va⟩ len) s =
      .next ((s1.jobBegun vf qp (s1.newJob va false len [] pas reps)).readAway vf qp (s1.newJob va false len [] pas reps) (runAddr va pas 0) p) := by
    rw [h.exec_read hin, State.rdmaDo_ok (fun hw => absurd hw Bool.false_ne_true) hpages,
      hbegins.advanceQp (j' := { s1.newJob va false len [] pas reps with next := len, open' := 1 }) (by rw [hsent]; exact State.setQp_same _ _ _ _), hsent]
    exact congrArg Host.Outcome.next (if_neg (fun hend => Nat.one_ne_zero hend.2))
  exact ⟨_, hexec, programsKept_of_programs (State.readAway_programs ..), State.readAway_rdma .., State.readAway_flights .., State.readAway_lane ..⟩

end takes

end Sys2Proof.Machine
end

section
/-! SUPPORT. The last part of an RDMA read, applied at its memory node (R88, R288, R335, R341); and O34 from its parts. -/

namespace Sys2Proof.Machine

/-! ## Bytes read -/

/-- R335, R341: the bytes a load reads, with the writes they come from. -/
def State.reqBytes (s : State) (r : MemReq) (n : Nat) : List Byte × List Nat := if r.rep then s.heldBytes r.pa n else s.readBytes r.die r.pa n r.past

theorem State.heldBytes_length (s : State) : ∀ (n a : Nat), (s.heldBytes a n).1.length = n
  | 0, _ => rfl
  | n + 1, a => congrArg (· + 1) (State.heldBytes_length s n (a + 1))

theorem State.readBytes_length (s : State) (e : Nat) (past : List Nat) : ∀ (n a : Nat), (s.readBytes e a n past).1.length = n
  | 0, _ => rfl
  | n + 1, a => congrArg (· + 1) (State.readBytes_length s e past n (a + 1))

theorem State.reqBytes_length (s : State) (r : MemReq) (n : Nat) : (s.reqBytes r n).1.length = n := by
  unfold State.reqBytes
  split
  · exact s.heldBytes_length n r.pa
  · exact s.readBytes_length r.die r.past n r.pa

theorem State.heldBytes_modDie (s : State) (d : Nat) (f : Die → Die) : ∀ (n a : Nat), (s.modDie d f).heldBytes a n = s.heldBytes a n
  | 0, _ => rfl
  | n + 1, a => by rw [State.heldBytes, State.heldBytes_modDie s d f n, State.heldBytes]; rfl

theorem State.readBytes_modDie (s : State) (d : Nat) (f : Die → Die) (e : Nat) (past : List Nat) :
    ∀ (n a : Nat), (s.modDie d f).readBytes e a n past = s.readBytes e a n past
  | 0, _ => rfl
  | n + 1, a => by rw [State.readBytes, State.readBytes_modDie s d f e past n, State.readBytes]; rfl

theorem State.reqBytes_modDie (s : State) (d : Nat) (f : Die → Die) (r : MemReq) (n : Nat) : (s.modDie d f).reqBytes r n = s.reqBytes r n := by
  rw [State.reqBytes, State.heldBytes_modDie, State.readBytes_modDie, State.reqBytes]

/-- R385: a load whose words pass their checks. -/
theorem State.memRead_checked {s : State} {r : MemReq} {n : Nat} (h : CheckedOk s r.pa n) : s.memRead r n = (s, s.reqBytes r n) := by
  have hbad : s.memBad.filter (fun w => decide (r.pa / 8 ≤ w) && decide (w ≤ (r.pa + n - 1) / 8)) = [] := by
    rw [List.filter_eq_nil_iff]
    intro w hw
    have := h w hw
    simp only [Bool.and_eq_true, decide_eq_true_eq]
    omega
  have hall : (List.range n).map (fun i => (s.reqBytes r n).1.getD i 0) = (s.reqBytes r n).1 := by
    refine List.ext_getElem (by simp [State.reqBytes_length]) fun i hi hi' => ?_
    simp [List.getElem?_eq_getElem hi']
  unfold State.memRead
  rw [hbad]
  simp only [List.contains_nil, Bool.false_eq_true, if_false, List.foldl_nil]
  exact congrArg (fun b => (s, b, (s.reqBytes r n).2)) hall

/-! ## Pieces kept by their offsets -/

/-- What comes behind all that is kept is put last. -/
theorem AMap.set_last {α : Type} (k : Nat) (v : α) : ∀ (m : AMap α), (∀ p ∈ m, p.1 < k) → m.set k v = m ++ [(k, v)]
  | [], _ => rfl
  | (j, w) :: m, h => by
    obtain ⟨hj, hm⟩ := List.forall_mem_cons.mp h
    have hjk : j < k := hj
    rw [AMap.set, if_neg (Nat.ne_of_gt hjk), if_neg (Nat.not_lt.mpr (Nat.le_of_lt hjk)), AMap.set_last k v m hm, List.cons_append]

/-! ## The part applied -/

/-- R288: a node without the request that is applied. -/
def State.nodeTook (s : State) (d k : Nat) (r : MemReq) : State :=
  s.modDie d (fun x => { x with nodes := x.nodes.set k ((x.nodes.get [] k).filter (fun q => q.id != r.id)) })

section applied
variable {s : State} {vf qp d k n lo : Nat} {j : HostJob} {r : MemReq}

/-- R88: a request under way with what a part brings. -/
def HostJob.brought (j : HostJob) (lo : Nat) (data : List Byte) (past : List Nat) : HostJob := { j with
  open' := j.open' - 1, got := if j.write then j.got else j.got.set lo data, past := unionNat j.past past }

/-- R288, R335: a host port's load at its node. -/
theorem applyFirst_hostLoad (hnext : nextAt s d k = some r) (hsrc : r.src = .host vf qp j.job lo) (hop : r.op = .load n) (hok : CheckedOk s r.pa n)
    (hbusy : s.pkg.qps.get .normal (qpKey vf qp) = .busy j) :
    s.applyFirst d k (fun r => r.seq.isNone && s.nextFor d k r) =
      (s.nodeTook d k r).setQp vf qp (.busy (j.brought lo (leBytes n (leNat (s.reqBytes r n).1)) (s.reqBytes r n).2)) := by
  have hreads : r.reads = true := by rw [MemReq.reads, hop]
  have hread : (s.nodeTook d k r).memRead r n = (s.nodeTook d k r, s.reqBytes r n) := by
    rw [State.memRead_checked (s := s.nodeTook d k r) hok, State.nodeTook, State.reqBytes_modDie]
  have hjob : (s.nodeTook d k r).qpJob vf qp j.job = some j := by
    have hstill : (s.nodeTook d k r).pkg.qps.get .normal (qpKey vf qp) = .busy j := hbusy
    rw [State.qpJob, hstill]
    exact if_pos rfl
  rw [nextAt] at hnext
  rw [State.applyFirst, hnext]
  change (if (s.nodeTook d k r).nodeFailed d k && !r.reads then (s.nodeTook d k r).refuseReq r
    else ((s.nodeTook d k r).linkReq r).1.applyReq ((s.nodeTook d k r).linkReq r).2) = _
  rw [hreads, Bool.not_true, Bool.and_false, if_neg Bool.false_ne_true]
  have hlink : (s.nodeTook d k r).linkReq r = (s.nodeTook d k r, r) := by rw [State.linkReq, hsrc]
  rw [hlink, State.applyReq, hop]
  simp only [hsrc, Bool.false_eq_true, if_false, hread, State.answer, State.hostGot, hjob]
  rfl

end applied

/-! ## The read answered -/

theorem State.seenEverywhere_congr {s t : State} (hflying : t.flying = s.flying) (hlines : t.lines = s.lines) (hlog : t.log = s.log) :
    t.seenEverywhere = s.seenEverywhere := by
  funext i
  simp only [State.seenEverywhere, State.seenAt, hflying, hlines, hlog]

/-- R88: no answer leaves where the one queue pair owes none that may. -/
theorem State.releaseQps_one {s : State} {c : Nat} {x : QpState} (hqps : s.pkg.qps = [(c, x)])
    (hx : x = .normal ∨ ∃ w r, x = .owed w r ∧ w.all s.seenEverywhere = false) : s.releaseQps = s := by
  rw [State.releaseQps, hqps]
  rcases hx with rfl | ⟨w, r, rfl, hw⟩
  · rfl
  · exact if_neg (by simp [hw])

/-- R88: the one queue pair's request goes on, then the answers that may leave do. -/
theorem State.advanceQps_one {s : State} {vf qp : Nat} {x : QpState} (hqp : qp < 16) (hqps : s.pkg.qps = [(16 * vf + qp, x)]) :
    s.advanceQps = (s.advanceQp vf qp).releaseQps := by
  have hvf : (16 * vf + qp) / 16 = vf := by omega
  have hpair : (16 * vf + qp) % 16 = qp := by omega
  rw [State.advanceQps, hqps, List.foldl_cons, List.foldl_nil, hvf, hpair]

theorem State.setQp_one {s : State} {vf qp : Nat} {x : QpState} (hqps : s.pkg.qps = [(16 * vf + qp, x)]) (y : QpState) :
    (s.setQp vf qp y).pkg.qps = [(16 * vf + qp, y)] := by
  change s.pkg.qps.set (16 * vf + qp) y = _
  rw [hqps, AMap.set, if_pos rfl]

theorem State.finishJob_read {s : State} {vf qp : Nat} {j : HostJob} (h : j.write = false) : s.finishJob vf qp j =
    ((s.frame vf j.len).hostSaw (s.livePast j.past)).owe vf qp (s.livePast j.past) (.data (j.got.flatMap (fun p => p.2))) := by
  rw [State.finishJob, h]
  rfl

/-- R88: a read whose answer is made leaves at once, or is owed behind what it has read. -/
theorem State.finishJob_answers {s : State} {vf qp : Nat} {j : HostJob} (hread : j.write = false) (hqps : s.pkg.qps = [(16 * vf + qp, .busy j)]) :
    let t := (s.finishJob vf qp j).releaseQps
    let b := j.got.flatMap (fun p => p.2)
    t.programs = s.programs ∧
      ((t.pkg.rdma = s.pkg.rdma ++ [(vf, qp, .data b)] ∧ t.pkg.qps.get .normal (16 * vf + qp) = .normal) ∨
        (t.pkg.rdma = s.pkg.rdma ∧ ∃ w, t.pkg.qps.get .normal (16 * vf + qp) = .owed w (.data b) ∧ ∃ i ∈ w, s.seenEverywhere i = false)) := by
  have hframe : OnlyCharged s (s.frame vf j.len) := .uncore s _ _ _ _ _
  dsimp only
  rw [State.finishJob_read hread]
  generalize s.livePast j.past = w
  generalize j.got.flatMap (fun p => p.2) = b
  generalize hF : (s.frame vf j.len).hostSaw w = F
  have hprograms : F.programs = s.programs := hF ▸ hframe.programs
  have hrdma : F.pkg.rdma = s.pkg.rdma := hF ▸ hframe.rdma
  have hone : F.pkg.qps = [(16 * vf + qp, .busy j)] := by rw [← hqps, ← hframe.qps, ← hF]; rfl
  have hseen : F.seenEverywhere = s.seenEverywhere := by
    subst hF
    exact State.seenEverywhere_congr hframe.flying (congrArg State.lines hframe.rest :) (congrArg State.log hframe.rest :)
  by_cases hall : w.all F.seenEverywhere = true
  · have howe : F.owe vf qp w (.data b) = (F.setQp vf qp .normal).rdmaAnswer vf qp (.data b) := if_pos hall
    rw [howe, State.releaseQps_one (s := (F.setQp vf qp .normal).rdmaAnswer vf qp (.data b)) (State.setQp_one hone .normal) (.inl rfl)]
    exact ⟨hprograms, .inl ⟨congrArg (· ++ [(vf, qp, RdmaReply.data b)]) hrdma, F.setQp_same vf qp _⟩⟩
  · have howe : F.owe vf qp w (.data b) = F.setQp vf qp (.owed w (.data b)) := if_neg hall
    have hwaits : w.all F.seenEverywhere = false := by simpa using hall
    rw [howe, State.releaseQps_one (s := F.setQp vf qp (.owed w (.data b))) (State.setQp_one hone _) (.inr ⟨_, _, rfl, hwaits⟩)]
    obtain ⟨i, hi, hunseen⟩ := List.all_eq_false.mp hwaits
    exact ⟨hprograms, .inr ⟨hrdma, w, F.setQp_same vf qp _, i, hi, by rw [← hseen]; simpa using hunseen⟩⟩

/-- R88, R288, R335: the last part of a read applied at its node. -/
theorem hostRead_ends {s : State} {vf qp d k n lo : Nat} {j : HostJob} {r : MemReq} (hqp : qp < 16) (hlive : (s.ctx vf).live = true)
    (hdest : (s.ctx vf).destroying = none) (hqps : s.pkg.qps = [(16 * vf + qp, .busy j)]) (hread : j.write = false) (hend : j.len ≤ j.next)
    (hopen : j.open' = 1) (hnext : nextAt s d k = some r) (hsrc : r.src = .host vf qp j.job lo) (hop : r.op = .load n) (hok : CheckedOk s r.pa n)
    (hgot : ∀ q ∈ j.got, q.1 < lo) :
    let b := j.got.flatMap (fun p => p.2) ++ leBytes n (leNat (s.reqBytes r n).1)
    ∃ t, exec (.memoryNodeApply d k) s = .next t ∧ ProgramsKept s t ∧
      ((t.pkg.rdma = s.pkg.rdma ++ [(vf, qp, .data b)] ∧ t.pkg.qps.get .normal (16 * vf + qp) = .normal) ∨
        (t.pkg.rdma = s.pkg.rdma ∧ ∃ w, t.pkg.qps.get .normal (16 * vf + qp) = .owed w (.data b) ∧ ∃ i ∈ w, s.seenEverywhere i = false)) := by
  have hbusy : s.pkg.qps.get .normal (qpKey vf qp) = .busy j := by
    rw [hqps]
    exact if_pos rfl
  have happlied := applyFirst_hostLoad hnext hsrc hop hok hbusy
  generalize hj : j.brought lo (leBytes n (leNat (s.reqBytes r n).1)) (s.reqBytes r n).2 = j' at happlied
  have hread' : j'.write = false := hj ▸ hread
  have hend' : j'.len ≤ j'.next := hj ▸ hend
  have hopen' : j'.open' = 0 := by
    subst hj
    exact congrArg (· - 1) hopen
  have hbytes : j'.got.flatMap (fun p => p.2) = j.got.flatMap (fun p => p.2) ++ leBytes n (leNat (s.reqBytes r n).1) := by
    subst hj
    simp [HostJob.brought, hread, AMap.set_last lo _ j.got hgot]
  have hone : ((s.nodeTook d k r).setQp vf qp (.busy j')).pkg.qps = [(16 * vf + qp, .busy j')] := State.setQp_one hqps _
  have hparts := State.sendParts_whole (s := (s.nodeTook d k r).setQp vf qp (.busy j')) (State.setQp_same _ vf qp _) hend' (j'.len + 1)
  have hadvance := State.advanceQp_busy (s := (s.nodeTook d k r).setQp vf qp (.busy j')) (State.setQp_same _ vf qp _) hlive hdest
    (by rw [hparts]; exact State.setQp_same _ vf qp _)
  rw [if_pos ⟨hend', hopen'⟩, hparts] at hadvance
  obtain ⟨hprograms, hanswers⟩ := State.finishJob_answers hread' hone
  rw [hbytes] at hanswers
  refine ⟨_, ?_, programsKept_of_programs hprograms, hanswers⟩
  change Host.Outcome.next (s.applyFirst d k (fun r => r.seq.isNone && s.nextFor d k r)).advanceQps = _
  rw [happlied, State.advanceQps_one hqp hone, hadvance]

/-! ## The statement -/

/-- Settles O34: a datagram is counted or answered, and a request of a queue pair that is taken goes by its pages: to the nodes of its parts,
which by induction on the parts sent each hold the request of theirs, toward its window's package, or to its refusal; the last part of a read
ends it. -/
theorem unassignedMessagesAndRdma : Obligations.UnassignedMessagesAndRdma := by
  refine ⟨fun s d h => datagram_malformed h, fun s d h hm => datagram_badcmd h hm, fun s vf qp keyLo keyLen va data len hlow hhigh hqp =>
      ⟨fun hdead => rdma_dead hlow hhigh hqp hdead _ data len, fun hlive hstop hdest hidle => ?_⟩,
    fun s vf qp d k n lo j r _ hqp hlive hdest hqps hread hend hopen hnext hsrc hop hok hgot => ?_,
    fun s vf qp => ⟨_, rfl, programsKept_of_programs rfl, rfl⟩⟩
  · have h : Takes s vf qp := ⟨hlow, hhigh, hqp, hlive, hstop, hdest, hidle⟩
    refine ⟨rdmaSend_acts h data, rdmaWrite_outside h, rdmaRead_outside h, fun s1 pas reps hin hdata hpages hlocal => ?_,
      fun s1 pas reps hin hlen hpages hlocal => ?_, fun s1 pas reps hin hlen hpages haway => ⟨fun hrefused => ?_, ?_⟩,
      fun s1 hin hpages => rdmaWrite_stalls h hin hpages, fun s1 hin hpages => rdmaRead_stalls h hin hpages,
      fun s1 c r a hin hpages => rdmaWrite_fault h hin hpages, fun s1 c r a hin hpages => rdmaRead_fault h hin hpages⟩
    · obtain ⟨t, hexec, hkept, hrdma, howed, hparts⟩ := rdmaWrite_local h hin hdata hpages hlocal
      exact ⟨t, hexec, hkept, hrdma, howed, fun i hi => hparts i _ _ hi rfl⟩
    · obtain ⟨t, j, hexec, hkept, hrdma, hbusy, hread, hjlen, hnext, hopen, hgot, hparts⟩ := rdmaRead_local h hin hlen hpages hlocal
      exact ⟨t, j, hexec, hkept, hrdma, hbusy, hread, hjlen, hnext, hopen, hgot, fun i hi => hparts i _ _ hi rfl⟩
    · exact rdmaRead_unadmitted h hin hlen hpages haway hrefused
    · intro p hout hsize hport hroom hblock hpage
      obtain ⟨t, hexec, hkept, hrdma, hflights, hlane⟩ := rdmaRead_away h hin hlen hpages haway hout hsize hport hroom hblock hpage
      exact ⟨t, _, hexec, hkept, hrdma, hflights, rfl, rfl, rfl, rfl, rfl, rfl, hlane⟩
  · have hbytes : (if r.rep then (s.heldBytes r.pa n).1 else (s.readBytes r.die r.pa n r.past).1) = (s.reqBytes r n).1 := by
      unfold State.reqBytes
      split <;> rfl
    dsimp only
    rw [hbytes]
    exact hostRead_ends hqp hlive hdest hqps hread hend hopen hnext hsrc hop hok hgot

end Sys2Proof.Machine
end

section
/-! SUPPORT. A core's turn (R153, R162, R170, R186): what decodes is a core instruction, a bundle of one slot is that instruction alone, and
what a trap at issue leaves; and O38 from these. -/

namespace Sys2Proof.Machine

/-! ## What decodes is a core instruction (R162 to R170) -/

theorem form_eq_ok {zero range : Bool} {i j : Instr} : form zero range i = .ok j ↔ zero = true ∧ range = true ∧ i = j := by
  cases zero <;> cases range <;> simp [form]

theorem decodeA_isCore {f : Fields} {i : Instr} (h : decodeA f = .ok i) : i.isCore = true := by
  unfold decodeA formBf at h
  repeat' split at h
  all_goals simp only [formRRR, formRI, formSh, formRR, formRRRR, formFp, formDi, form_eq_ok, reduceCtorEq] at h
  all_goals
    obtain ⟨-, -, rfl⟩ := h
    rfl

theorem decodeM_isCore {f : Fields} {i : Instr} (h : decodeM f = .ok i) : i.isCore = true := by
  unfold decodeM at h
  repeat' split at h
  all_goals simp only [form_eq_ok, reduceCtorEq] at h
  all_goals
    obtain ⟨-, -, rfl⟩ := h
    rfl

theorem decodeC_isCore {f : Fields} {i : Instr} (h : decodeC f = .ok i) : i.isCore = true := by
  unfold decodeC at h
  repeat' split at h
  all_goals simp only [formSA, formSI, formA, form_eq_ok, reduceCtorEq] at h
  all_goals
    obtain ⟨-, -, rfl⟩ := h
    rfl

theorem decodeQ_isCore {f : Fields} {i : Instr} (h : decodeQ f = .ok i) : i.isCore = true := by
  unfold decodeQ at h
  repeat' split at h
  all_goals simp only [formDQ, formQ, formRR, form0, formD, formRRR, formDi, formA, formAB, form_eq_ok, reduceCtorEq] at h
  all_goals
    obtain ⟨-, -, rfl⟩ := h
    rfl

theorem decodeB_isCore {f : Fields} {i : Instr} (h : decodeB f = .ok i) : i.isCore = true := by
  unfold decodeB at h
  repeat' split at h
  all_goals simp only [formI, formABt, formAt, formA, formDi, form0, formQ, form_eq_ok, reduceCtorEq] at h
  all_goals
    obtain ⟨-, -, rfl⟩ := h
    rfl

/-- R170: a slot's word is a core instruction, or none. -/
theorem decodeSlot_isCore {k : Nat} {w : Word} {i : Instr} (h : decodeSlot k w = .ok i) : i.isCore = true := by
  unfold decodeSlot decodeFields at h
  split at h
  · cases h
  · split at h
    · cases h
    · split at h
      · rw [form0, form_eq_ok] at h
        obtain ⟨-, -, rfl⟩ := h
        rfl
      · exact decodeA_isCore h
      · exact decodeM_isCore h
      · exact decodeC_isCore h
      · exact decodeQ_isCore h
      · exact decodeB_isCore h

/-- R162, R186: a core instruction is the bundle that holds it in its home slot and NOPs elsewhere. -/
theorem exec_core {i : Instr} (h : i.isCore = true) (s : State) : exec i s = .next (runBundle false (semOf i.slot i).toList s) := by
  cases i <;> cases h <;> rfl

/-! ## A bundle of one slot (R162) -/

theorem homeSlot_lt (op : Nat) : homeSlot op < 6 := by
  unfold homeSlot
  split <;> decide

/-- R162: of the six slots of a bundle made of one word, that word stands in its own and zero in the others. -/
theorem slotWord_bundleOf {k j : Nat} (w : Word) (hj : j < 6) : slotWord (Sys2Proof.bundleOf k w) j = if j = k then w else 0 := by
  apply BitVec.eq_of_getLsbD_eq
  intro b hb
  simp only [slotWord, Sys2Proof.bundleOf, BitVec.getLsbD_extractLsb', BitVec.getLsbD_shiftLeft, BitVec.getLsbD_setWidth]
  by_cases h : j = k
  · subst h
    simp [hb, show 64 * j + b < 384 by omega, show b < 384 by omega]
  · rw [if_neg h]
    rcases Nat.lt_or_gt_of_ne h with hlt | hgt
    · simp [show 64 * j + b < 64 * k by omega]
    · rw [BitVec.getLsbD_of_ge w _ (by omega)]
      simp

/-- R170: a zero word is NOP in every slot. -/
theorem decodeSlot_zero (k : Nat) : decodeSlot k 0 = .ok .nop := rfl

/-- R170: slots of which one holds an instruction and the others are zero. -/
theorem decodeSlots_bundleOf {k : Nat} {w : Word} {i : Instr} (h : decodeSlot k w = .ok i) : ∀ l : List Nat, (∀ j ∈ l, j < 6) →
    decodeSlots (Sys2Proof.bundleOf k w) l = .ok (l.map (fun j => (j, if j = k then i else .nop)))
  | [], _ => rfl
  | j :: l, hl => by
    obtain ⟨hj, hrest⟩ := List.forall_mem_cons.mp hl
    have hslot : decodeSlot j (slotWord (Sys2Proof.bundleOf k w) j) = .ok (if j = k then i else .nop) := by
      rw [slotWord_bundleOf w hj]
      by_cases e : j = k
      · rw [if_pos e, if_pos e, e, h]
      · rw [if_neg e, if_neg e, decodeSlot_zero]
    rw [decodeSlots, hslot]
    dsimp only
    rw [decodeSlots_bundleOf h l hrest]
    rfl

/-- NOP does nothing in any slot. -/
theorem semOf_nop (k : Nat) : semOf k .nop = none := rfl

/-- R162, R186: the bundle whose one instruction decodes issues as that instruction alone. -/
theorem issueBundle_bundleOf {w : Word} {i : Instr} (h : decodeSlot i.slot w = .ok i) (s : State) :
    Host.Outcome.next (issueBundle (Sys2Proof.bundleOf i.slot w) false s) = exec i s := by
  have hlt : i.slot < 6 := homeSlot_lt _
  rw [exec_core (decodeSlot_isCore h), issueBundle, decodeBundle, decodeSlots_bundleOf h _ (by simp)]
  generalize i.slot = k at hlt
  dsimp only
  congr 2
  interval_cases k <;> cases hsem : semOf _ i <;> simp [List.filterMap_cons, semOf_nop, hsem]

/-! ## A trap at issue (R181, R378) -/

/-- What a frame of a trap at issue speaks of in a strand: its registers and flags. -/
def Strand.frame (st : Strand) : AMap Word × BitVec 5 := (st.x, st.fflags)

/-- R378, R380: what a trap saves of its strand, and where its handler stands. -/
def Strand.saved (st : Strand) : BitVec 8 × Word × BitVec 32 × Bool × BitVec 32 := (st.trapc, st.trapv, st.trappc, st.handler, st.pc)

/-- What a frame of a trap at issue speaks of beside its strand: the tile's cells, and memory. -/
def State.stores (s : State) (t : Nat) : (AMap Byte × List CellWrite) × List Host.Cell × List WriteRec :=
  (((s.tile t).sram, (s.tile t).cellWrites), s.mem, s.log)

/-- Strand n of tile t and the stores, as a trap at issue is judged by them. -/
def State.trapView (s : State) (t n : Nat) := ((s.strand t n).frame, (s.strand t n).saved, s.stores t)

/-- What only a charge has changed shows what it did. -/
theorem Charged.trapView {t n : Nat} {s a : State} (h : Charged t n s a) : a.trapView t n = s.trapView t n := by
  obtain ⟨⟨e, c, m, g, k, hstrand⟩, -, htile, -, hrest⟩ := h
  have hsram : (a.tile t).sram = (s.tile t).sram := (congrArg Tile.sram htile :)
  have hwrites : (a.tile t).cellWrites = (s.tile t).cellWrites := (congrArg Tile.cellWrites htile :)
  have hmem : a.mem = s.mem := (congrArg State.mem hrest :)
  have hlog : a.log = s.log := (congrArg State.log hrest :)
  simp only [State.trapView, State.stores, hstrand, hsram, hwrites, hmem, hlog, Strand.frame, Strand.saved]

/-- R109, R160: a preload dropped changes of its tile the preload and the meter of the house account. -/
theorem State.dropPreload_tile (s : State) (t : Nat) :
    ∃ p h, (s.dropPreload t).tile t = { s.tile t with preload := p, houseResidue := h } := by
  unfold State.dropPreload State.meterHouse
  dsimp only
  split
  · split
    · rw [State.tile_windowAdd, State.modTile_modTile, State.tile_modTile_same]
      exact ⟨_, _, rfl⟩
    · exact ⟨_, _, rfl⟩
  · exact ⟨_, _, rfl⟩

theorem State.dropPreload_trapView (s : State) (t n : Nat) : (s.dropPreload t).trapView t n = s.trapView t n := by
  obtain ⟨p, h, htile⟩ := s.dropPreload_tile t
  simp [State.trapView, State.stores, State.strand, Tile.strand, htile]

/-- R393: a halt changes of its tile the strand's two marks, and FREEZE. -/
theorem State.halt_tile (s : State) (t n : Nat) : ∃ f, (s.halt t n).tile t =
    { (s.tile t).modStrand n (fun st => { st with halted := true, stepOnce := false }) with freeze := f } := by
  unfold State.halt
  dsimp only
  split
  · rw [State.tile, State.record_tiles, ← State.tile, State.modStrand_eq, State.modTile_modTile, State.tile_modTile_same]
    exact ⟨_, rfl⟩
  · rw [State.modStrand_eq, State.tile_modTile_same]
    exact ⟨_, rfl⟩

theorem State.halt_trapView (s : State) (t n : Nat) : (s.halt t n).trapView t n = s.trapView t n := by
  obtain ⟨f, htile⟩ := s.halt_tile t n
  simp [State.trapView, State.stores, State.strand, Tile.modStrand, Tile.strand, Strand.frame, Strand.saved, htile]

/-- R378, R380: a trap taken by a strand outside its handler, in a context that has one. -/
theorem State.takeTrap_trapView {s : State} {t n : Nat} (code : Nat) (info : Word) (pc : BitVec 32) (hout : (s.strand t n).handler = false)
    (hhandler : (s.ctx (s.tile t).ctx).handler ≠ 0) : (s.takeTrap t n code info pc).trapView t n =
      ((s.strand t n).frame, (BitVec.ofNat 8 code, info, pc, true, 0), s.stores t) := by
  have hdrop : (if code < 0x38 then s.dropPreload t else s).trapView t n = s.trapView t n := by
    split
    · exact s.dropPreload_trapView t n
    · rfl
  rw [State.takeTrap, if_neg (by simp [hout]), if_neg hhandler]
  generalize (if code < 0x38 then s.dropPreload t else s) = a at hdrop
  obtain ⟨hframe, hrest⟩ := Prod.mk.inj hdrop
  rw [← hframe, ← (Prod.mk.inj hrest).2, State.trapView, State.strand_modStrand_same, State.stores, State.modStrand_eq, State.tile_modTile_same]
  rfl

/-- R378, R380, R392: the same taken at issue, whether or not the strand steps. -/
theorem State.takeAtIssue_trapView {s : State} {t n : Nat} (code : Nat) (info : Word) (pc : BitVec 32) (hout : (s.strand t n).handler = false)
    (hhandler : (s.ctx (s.tile t).ctx).handler ≠ 0) : (s.takeAtIssue t n code info pc).trapView t n =
      ((s.strand t n).frame, (BitVec.ofNat 8 code, info, pc, true, 0), s.stores t) := by
  unfold State.takeAtIssue
  dsimp only
  split
  · rw [State.halt_trapView, State.takeTrap_trapView code info pc hout hhandler]
  · rw [State.takeTrap_trapView code info pc hout hhandler]

/-- R335: what a read returns is made of memory and the log of writes. -/
theorem State.readBytes_congr {s t : State} (hmem : t.mem = s.mem) (hlog : t.log = s.log) (e : Nat) (past : List Nat) :
    ∀ n a, t.readBytes e a n past = s.readBytes e a n past
  | 0, _ => rfl
  | n + 1, a => by rw [State.readBytes, State.readBytes, State.readBytes_congr hmem hlog e past n, State.readWord, State.readWord, hmem, hlog]

/-- R181: a trap that shows its strand's registers, its own saved state, and the stores as they stood kept its bundle from issuing. -/
theorem trappedUnissued_of_view {s t : State} {code : Nat} {info : Word}
    (h : t.trapView s.focus s.cur = (s.me.frame, (BitVec.ofNat 8 code, info, s.me.pc, true, 0), s.stores s.focus)) :
    TrappedUnissued s t code info := by
  simp only [State.trapView, Strand.frame, Strand.saved, State.stores, Prod.mk.injEq] at h
  obtain ⟨⟨hx, hflags⟩, ⟨htrapc, htrapv, htrappc, hhandler, hpc⟩, ⟨hsram, hwrites⟩, hmem, hlog⟩ := h
  refine ⟨⟨htrapc, htrapv, htrappc, hhandler, hpc⟩, fun r _ => ?_, hflags, fun e a past => State.readBytes_congr hmem hlog e past 1 a,
    fun f a => ?_⟩
  · rw [State.rx, Strand.rx, Strand.rx, hx]
  · rw [Tile.cellSeen, Tile.cellSeen, hsram, hwrites]

/-- R170, R181: a bundle that decodes in no way takes ILLEGAL_BUNDLE where no slot below shows a range broken. -/
theorem illegalBundle_traps {s : State} (lit : Bool) {b : Bundle} {k r : Nat} (hlower : ∀ m ∈ lowerSems b k, m.illegal s = false)
    (hcan : CanTrap s) : TrappedUnissued s (illegalBundle lit b k r s) 0x01 (illegalInfo k r) := by
  obtain ⟨hout, hhandler⟩ := hcan
  have hnone : (lowerSems b k).find? (fun m => m.illegal s) = none := List.find?_eq_none.mpr (fun m hm => by simp [hlower m hm])
  have hcharged : Charged s.focus s.cur s ((s.dropMissed s.focus s.cur).issueHead s.focus s.cur lit) :=
    (Charged.dropMissed s _ _).trans (.head _ _ _ lit)
  unfold illegalBundle
  dsimp only
  rw [hnone]
  generalize (s.dropMissed s.focus s.cur).issueHead s.focus s.cur lit = a at hcharged
  obtain ⟨hframe, hrest⟩ := Prod.mk.inj hcharged.trapView
  obtain ⟨hsaved, hstores⟩ := Prod.mk.inj hrest
  have hctx : (a.tile s.focus).ctx = (s.tile s.focus).ctx := (congrArg Tile.ctx hcharged.2.2.1 :)
  have hctxs : a.ctxs = s.ctxs := (congrArg State.ctxs hcharged.2.2.2.2 :)
  refine trappedUnissued_of_view ((State.takeAtIssue_trapView 0x01 (illegalInfo k r) s.me.pc ?_ ?_).trans ?_)
  · exact (congrArg (fun v => v.2.2.2.1) hsaved :).trans hout
  · rw [hctx, State.ctx, hctxs]
    exact hhandler
  · rw [hframe, hstores]
    rfl

/-! ## A core's turn -/

/-- R114: a BUDGET posted leaves the core in focus. -/
theorem State.budgetDue_focus (s : State) (t : Nat) : (s.budgetDue t).focus = s.focus := by
  unfold State.budgetDue State.postBudget
  dsimp only
  repeat' split
  all_goals simp

/-- The machine as core u begins its turn, a due BUDGET posted. -/
def State.turnOf (s : State) (u : Nat) (rest : List Turn) : State := ({ s with agenda := rest, focus := u } : State).budgetDue u

section coreTurn
variable {s s2 : State} {u : Nat} {rest : List Turn} {b : Bundle} {lit : Bool}

/-- R153, R186: a core that may issue and has fetched its bundle issues it. -/
theorem step_issues (hagenda : s.agenda = .core u :: rest) (hu : u < 576) (hissue : (s.turnOf u rest).coreDoes u = .issue)
    (hfetch : (s.turnOf u rest).fetchBundle u ((s.turnOf u rest).tile u).cur = .ok s2 (b, lit)) :
    step s = .next (issueBundle b lit s2) := by
  have hfocus : (s.turnOf u rest).focus = u := State.budgetDue_focus _ u
  have hturn : step s = .next (fetchAndIssue (s.turnOf u rest)) := by
    rw [step, hagenda]
    unfold State.turnOf at hissue ⊢
    simp only [runTurn, if_pos hu, coreTurn, hissue]
  rw [hturn, fetchAndIssue, State.cur, hfocus, hfetch]

end coreTurn

/-- Settles O38: each turn by its kind, a core's by the fetch and the bundle. -/
theorem stepRunsTheDecodedInstruction : Obligations.StepRunsTheDecodedInstruction := by
  refine ⟨fun s i rest hagenda hwf hcore => ?_, fun s d rest hagenda => ?_, fun s u rest hempty hrota => ?_,
    fun s u rest s2 hagenda hu => ?_⟩
  · rw [step, hagenda]
    exact if_pos (by simp [hwf, hcore])
  · rw [step, hagenda]
    rfl
  · rw [step, hempty, hrota]
    rfl
  · intro s1 hissue
    have hissues (b : Bundle) (lit : Bool) (hfetch : s1.fetchBundle u (s1.tile u).cur = .ok s2 (b, lit)) :
        step s = .next (issueBundle b lit s2) := step_issues hagenda hu hissue hfetch
    refine ⟨fun w i hfetch hdecode _ => ?_, hissues, fun b lit k r hfetch _ hbad hlower hcan => ?_⟩
    · rw [hissues _ _ hfetch, issueBundle_bundleOf hdecode]
    · refine ⟨_, hissues b lit hfetch, ?_⟩
      rw [issueBundle, hbad]
      exact illegalBundle_traps lit hlower hcan

end Sys2Proof.Machine
end

section
/-! SUPPORT. Charges on their way from meters to balances (R103, R104, R110, R111): what a meter sends, what an account unit forwards, and what
a home unit applies. -/

namespace Sys2Proof.Machine

/-! ## What reaches an account unit (R103, R104) -/

/-- What has reached the account units stands, and what has reached them since comes after it. -/
def ArrivesOn (s t : State) : Prop := ∀ e, (s.die e).arrivals <+: (t.die e).arrivals

theorem ArrivesOn.of_dies {s t : State} (h : t.dies = s.dies) : ArrivesOn s t := fun e => by rw [State.die, State.die, h]

theorem ArrivesOn.trans {s t u : State} (h : ArrivesOn s t) (k : ArrivesOn t u) : ArrivesOn s u := fun e => (h e).trans (k e)

theorem ArrivesOn.appends {s t : State} (h : ArrivesOn s t) (e : Nat) : ∃ l, (t.die e).arrivals = (s.die e).arrivals ++ l := by
  obtain ⟨l, hl⟩ := h e
  exact ⟨l, hl.symm⟩

section toAccount
variable (s : State) (d c : Nat) (a : Int)

theorem State.toAccount_programs : (s.toAccount d c a).programs = s.programs := by
  unfold State.toAccount
  split <;> rfl

theorem State.toAccount_homeDie (e : Nat) : (s.toAccount d c a).homeDie e = s.homeDie e := by
  unfold State.toAccount
  split <;> rfl

theorem State.toAccount_die_other {e : Nat} (h : e ≠ d) : (s.toAccount d c a).die e = s.die e := by
  unfold State.toAccount
  split <;> exact State.die_modDie_other _ _ h

/-- R103: an amount for a context whose home the die is goes behind what has arrived there. -/
theorem State.toAccount_arrivals :
    ((s.toAccount d c a).die d).arrivals = (s.die d).arrivals ++ if s.homeDie c = d then [(c, -a)] else [] := by
  unfold State.toAccount
  split
  · rw [State.die_modDie_same]
  · rw [State.die_modDie_same, List.append_nil]

/-- R103: an amount for another context joins the accumulator kept for its home. -/
theorem State.toAccount_accounts (e : Nat) : ((s.toAccount d c a).die d).accounts.get 0 e =
    (s.die d).accounts.get 0 e + if s.homeDie e = d then 0 else if e = c then a else 0 := by
  unfold State.toAccount
  by_cases he : e = c
  · subst he
    split <;> simp [State.die_modDie_same]
  · split <;> simp [State.die_modDie_same, he, AMap.get_set_other]

theorem arrivalSum_eq (s : State) (d c : Nat) :
    arrivalSum s d c = (((s.die d).arrivals.filter (fun p => p.1 == c)).map (fun p => p.2)).sum := List.sum_eq_foldl.symm

/-- R104: the sum of what waits for a context at its home, after more has arrived. -/
theorem arrivalSum_append {s t : State} {d : Nat} {l : List (Nat × Int)} (h : (t.die d).arrivals = (s.die d).arrivals ++ l) (c : Nat) :
    arrivalSum t d c = arrivalSum s d c + ((l.filter (fun p => p.1 == c)).map (fun p => p.2)).sum := by
  simp [arrivalSum_eq, h]

theorem State.toAccount_arrivalSum (e : Nat) : arrivalSum (s.toAccount d c a) d e =
    arrivalSum s d e - if s.homeDie e = d then (if e = c then a else 0) else 0 := by
  rw [arrivalSum_append (s.toAccount_arrivals d c a)]
  by_cases he : e = c
  · subst he
    split <;> simp [Int.sub_eq_add_neg]
  · have hne : (c == e) = false := beq_eq_false_iff_ne.mpr (Ne.symm he)
    split <;> simp [hne]

theorem ArrivesOn.toAccount : ArrivesOn s (s.toAccount d c a) := by
  intro e
  by_cases he : e = d
  · subst he
    rw [State.toAccount_arrivals]
    exact List.prefix_append _ _
  · rw [s.toAccount_die_other d c a he]

end toAccount

/-! ## A meter's residue (R103) -/

/-- R103: the whole nanojoules of an amount. -/
def wholePart (n : Nat) : Nat := n / njUnit * njUnit

theorem wholePart_eq_zero {n : Nat} (h : n / njUnit = 0) : wholePart n = 0 := by rw [wholePart, h, Nat.zero_mul]

/-- The machine once a meter has taken off the whole nanojoules of its residues. -/
def State.residueTaken (s : State) (u : Nat) : State :=
  s.modTile u (fun x => { x with residue := x.residue % njUnit, houseResidue := x.houseResidue % njUnit })

/-- The machine once a meter has sent them to its die's account unit. -/
def State.residueSent (s : State) (u : Nat) : State :=
  ((s.residueTaken u).toAccount (u / 64) (s.tile u).ctx (wholePart (s.tile u).residue)).toAccount (u / 64) 0 (wholePart (s.tile u).houseResidue)

theorem exec_meterResidueSend (s : State) (u : Nat) : exec (.meterResidueSend u) s =
    .next (if (s.tile u).residue / njUnit = 0 ∧ (s.tile u).houseResidue / njUnit = 0 then s else s.residueSent u) := rfl

/-- R103: what a meter sends of context c's charges and of the house account's. -/
def Tile.sends (x : Tile) (c : Nat) : Int :=
  (if c = x.ctx then wholePart x.residue else 0 : Nat) + (if c = 0 then wholePart x.houseResidue else 0 : Nat)

section residueSent
variable (s : State) (u : Nat)

theorem State.residueSent_tiles : (s.residueSent u).tiles = (s.residueTaken u).tiles := by
  rw [State.residueSent, State.toAccount_tiles, State.toAccount_tiles]

theorem State.residueSent_visible : (s.residueSent u).visible = s.visible := by
  have hprograms : (s.residueSent u).programs = (s.residueTaken u).programs := by
    rw [State.residueSent, State.toAccount_programs, State.toAccount_programs]
  obtain ⟨htiles, hstores⟩ := Prod.mk.inj hprograms
  have hstrand : (s.residueSent u).strand = (s.residueTaken u).strand := by
    funext v n
    rw [State.strand, State.tile, htiles]
    rfl
  have hvisible : (s.residueTaken u).visible = s.visible := s.modTile_visible u (fun _ => rfl)
  rw [← hvisible]
  exact Prod.ext hstrand hstores

theorem State.residueSent_accounts (c : Nat) : ((s.residueSent u).die (u / 64)).accounts.get 0 c =
    (s.die (u / 64)).accounts.get 0 c + if s.homeDie c = u / 64 then 0 else (s.tile u).sends c := by
  rw [State.residueSent, State.toAccount_accounts, State.toAccount_accounts, State.toAccount_homeDie, Tile.sends, Nat.cast_ite, Nat.cast_ite, Int.add_assoc]
  change (s.die (u / 64)).accounts.get 0 c + ((if s.homeDie c = u / 64 then 0 else _) + if s.homeDie c = u / 64 then 0 else _) = _
  split <;> rfl

theorem State.residueSent_arrivalSum (c : Nat) : arrivalSum (s.residueSent u) (u / 64) c =
    arrivalSum s (u / 64) c - if s.homeDie c = u / 64 then (s.tile u).sends c else 0 := by
  rw [State.residueSent, State.toAccount_arrivalSum, State.toAccount_arrivalSum, State.toAccount_homeDie, Tile.sends, Nat.cast_ite, Nat.cast_ite, Int.sub_sub]
  change arrivalSum s (u / 64) c - ((if s.homeDie c = u / 64 then _ else 0) + if s.homeDie c = u / 64 then _ else 0) = _
  split <;> rfl

theorem ArrivesOn.residueSent : ArrivesOn s (s.residueSent u) :=
  ArrivesOn.trans (t := s.residueTaken u) (.of_dies rfl) ((ArrivesOn.toAccount _ _ _ _).trans (.toAccount _ _ _ _))

end residueSent

/-! ## An account unit forwards (R104) -/

/-- Numbered amounts changed each by its number, an absent one reading as it did. -/
theorem AMap.get_map_amount {f : Nat → Int → Int} (h : ∀ k, f k 0 = 0) (k : Nat) :
    ∀ m : AMap Int, AMap.get 0 (m.map (fun p => (p.1, f p.1 p.2))) k = f k (AMap.get 0 m k)
  | [] => (h k).symm
  | (j, v) :: m => by
    rw [List.map_cons, AMap.get, AMap.get]
    split
    next e => rw [e]
    · exact AMap.get_map_amount h k m

/-- A number that reads as an amount other than 0 stands there with it. -/
theorem AMap.mem_of_get_ne_zero {k : Nat} : ∀ {m : AMap Int}, AMap.get 0 m k ≠ 0 → (k, AMap.get 0 m k) ∈ m
  | [], h => absurd rfl h
  | (j, v) :: m, h => by
    rw [AMap.get] at h ⊢
    split at h
    next e => simp [e]
    next e => rw [if_neg e]; exact List.mem_cons_of_mem _ (AMap.mem_of_get_ne_zero h)

/-- R104: an account that die d holds for another home, and that has a whole nanojoule. -/
def State.isAway (s : State) (d : Nat) (p : Nat × Int) : Bool := s.homeDie p.1 != d && p.2 / (njUnit : Int) != 0

/-- R104: what stays in an account of die d for context c. -/
def State.fractionKept (s : State) (d c : Nat) (a : Int) : Int := if s.homeDie c = d then a else a % (njUnit : Int)

/-- The machine once die d's account unit has taken off what it forwards. -/
def State.forwardTaken (s : State) (d : Nat) : State :=
  let away := (s.die d).accounts.filter (s.isAway d)
  s.modDie d (fun x => { x with
    forwards := x.forwards + 1,
    accounts := x.accounts.map (fun p => if away.contains p then (p.1, p.2 % (njUnit : Int)) else p) })

/-- R104: one account's whole nanojoules sent to its home. -/
def State.sendHome (s : State) (p : Nat × Int) : State :=
  s.modDie (s.homeDie p.1) (fun x => { x with arrivals := x.arrivals ++ [(p.1, -(p.2 / (njUnit : Int) * njUnit))] })

theorem exec_accountForward (s : State) (d : Nat) : exec (.accountForward d) s =
    .next (((s.die d).accounts.filter (s.isAway d)).foldl State.sendHome (s.forwardTaken d)) := rfl

/-- R104: an account keeps its fraction where it is of another home, and all of it where it is of this one. -/
theorem State.forwardTaken_accounts (s : State) (d c : Nat) :
    ((s.forwardTaken d).die d).accounts.get 0 c = s.fractionKept d c ((s.die d).accounts.get 0 c) := by
  have hkept : (s.die d).accounts.map (fun p => if ((s.die d).accounts.filter (s.isAway d)).contains p then (p.1, p.2 % (njUnit : Int)) else p) =
      (s.die d).accounts.map (fun p => (p.1, s.fractionKept d p.1 p.2)) := by
    refine List.map_congr_left (fun p hp => ?_)
    simp only [List.contains_iff_mem, List.mem_filter, hp, true_and, State.isAway, Bool.and_eq_true, bne_iff_ne, State.fractionKept]
    by_cases hhome : s.homeDie p.1 = d
    · simp [hhome]
    · by_cases hwhole : p.2 / (njUnit : Int) = 0
      · have hsmall : p.2 % (njUnit : Int) = p.2 := by rw [Int.emod_def, hwhole, Int.mul_zero, Int.sub_zero]
        simp [hhome, hwhole, hsmall]
      · simp [hhome, hwhole]
  unfold State.forwardTaken
  dsimp only
  rw [State.die_modDie_same]
  dsimp only
  rw [hkept]
  refine AMap.get_map_amount (f := s.fractionKept d) (fun k => ?_) c _
  unfold State.fractionKept
  split <;> rfl

/-- Between two states account units are sent amounts: all else that they hold stands, and so do programs and homes. -/
structure Forwarding (s t : State) : Prop where
  programs : t.programs = s.programs
  homes : t.homeDie = s.homeDie
  accounts : ∀ e, (t.die e).accounts = (s.die e).accounts
  arrives : ArrivesOn s t

theorem Forwarding.refl (s : State) : Forwarding s s := ⟨rfl, rfl, fun _ => rfl, .of_dies rfl⟩

theorem Forwarding.trans {s t u : State} (h : Forwarding s t) (k : Forwarding t u) : Forwarding s u :=
  ⟨k.programs.trans h.programs, k.homes.trans h.homes, fun e => (k.accounts e).trans (h.accounts e), h.arrives.trans k.arrives⟩

theorem Forwarding.sendHome (s : State) (p : Nat × Int) : Forwarding s (s.sendHome p) := by
  refine ⟨rfl, rfl, fun e => s.modDie_reads Die.accounts _ rfl e, fun e => ?_⟩
  by_cases he : e = s.homeDie p.1
  · rw [he, State.sendHome, State.die_modDie_same]
    exact List.prefix_append _ _
  · rw [State.sendHome, State.die_modDie_other _ _ he]

/-- R104: every account sent home has arrived there. -/
theorem State.foldl_sendHome_arrived {l : List (Nat × Int)} {p : Nat × Int} (hp : p ∈ l) (s : State) :
    (p.1, -(p.2 / (njUnit : Int) * njUnit)) ∈ ((l.foldl State.sendHome s).die (s.homeDie p.1)).arrivals := by
  obtain ⟨s1, hbefore, hafter⟩ := foldl_at Forwarding.refl Forwarding.trans (fun q _ a => Forwarding.sendHome a q) hp s
  refine (hafter.arrives (s.homeDie p.1)).subset ?_
  rw [← hbefore.homes, State.sendHome, State.die_modDie_same]
  exact List.mem_append_right _ List.mem_cons_self

theorem Forwarding.foldl_sendHome (l : List (Nat × Int)) (s : State) : Forwarding s (l.foldl State.sendHome s) :=
  List.foldlRecOn l _ (.refl s) (fun t h p _ => h.trans (.sendHome t p))

/-! ## A home unit applies (R104, R110, R111) -/

theorem ArrivesOn.modCtx (s : State) (c : Nat) (f : Context → Context) : ArrivesOn s (s.modCtx c f) := .of_dies rfl

theorem ArrivesOn.uncore (s : State) (d c : Nat) (ev : Uncore) (n m : Nat) : ArrivesOn s (s.uncore d c ev n m) :=
  (ArrivesOn.toAccount s _ _ _).trans (.of_dies rfl)

theorem ArrivesOn.send (s : State) (e y r : Nat) (b : List Byte) : ArrivesOn s (s.send e y r b) :=
  (ArrivesOn.uncore s _ _ _ _ _).trans (.of_dies rfl)

theorem ArrivesOn.event (s : State) (e y c : Nat) (b : List Byte) : ArrivesOn s (s.event e y c b) :=
  ArrivesOn.trans (t := s.modPkg _) (.of_dies rfl) (.send _ _ _ _ _)

theorem ArrivesOn.gutter (s : State) (c : Nat) : ArrivesOn s (s.gutter c) := by
  unfold State.gutter State.askStop
  split
  · exact .of_dies rfl
  · split
    · split
      · exact .of_dies rfl
      · exact .modCtx s c _
    · exact (ArrivesOn.modCtx s c _).trans (.event _ _ _ _ _)
    · exact .of_dies rfl
    · exact .of_dies rfl

theorem ArrivesOn.waterCheck (s : State) (c : Nat) (b low : Int) (allow : Bool) : ArrivesOn s (s.waterCheck c b low allow) := by
  unfold State.waterCheck
  split
  · exact (ArrivesOn.modCtx s c _).trans (.event _ _ _ _ _)
  · split
    · exact .modCtx s c _
    · exact .of_dies rfl

/-- An amount applied leaves what has arrived elsewhere, and sends its events' charges behind it. -/
theorem ArrivesOn.applyDelta (s : State) (c : Nat) (a : Int) : ArrivesOn s (s.applyDelta c a false) := by
  by_cases h : c = 0 ∨ (s.ctx c).live = false
  · rw [s.applyDelta_house a false h]
    exact .modCtx s 0 _
  · rw [not_or, Bool.not_eq_false] at h
    rw [s.applyDelta_live a false h.1 h.2, State.gutterCheck]
    have hwater := (ArrivesOn.modCtx s c _).trans (ArrivesOn.waterCheck (s.balanceSet c (clampBalance ((s.ctx c).balance + a))) c
      (clampBalance ((s.ctx c).balance + a)) ((s.ctx c).lowWater * njUnit) false)
    split
    · exact hwater.trans (.gutter _ c)
    · exact hwater

/-- R110: a context charged: its balance, and its low-water event disarmed where the balance falls below it. -/
def Context.charged (x : Context) (b : Int) : Context := { x with balance := b, armed := x.armed && !decide (b < x.lowWater * njUnit) }

/-- The machine with an amount's balance set and its low-water event sent. -/
def State.watered (s : State) (c : Nat) (b : Int) : State := (s.balanceSet c b).waterCheck c b ((s.ctx c).lowWater * njUnit) false

section watered
variable (s : State) (c : Nat) (b : Int)

theorem State.watered_ctx : (s.watered c b).ctx c = (s.ctx c).charged b := by
  unfold State.watered State.waterCheck State.balanceSet
  rw [State.ctx_modCtx_same]
  dsimp only
  by_cases hlow : b < (s.ctx c).lowWater * njUnit
  · cases harmed : (s.ctx c).armed <;> simp [Context.charged, hlow, harmed]
  · simp [Context.charged, hlow]

theorem State.watered_sentOn : SentOn s (s.watered c b) := ((Accounted.balanceSet s c b).trans (.waterCheck _ c b _ false)).sent

/-- R110: the low-water event. -/
theorem State.watered_low (hlow : b < (s.ctx c).lowWater * njUnit) (harmed : (s.ctx c).armed = true) :
    Event s (s.watered c b) c 0x4002 c (balanceBody b) := by
  have hcheck : b < (s.ctx c).lowWater * njUnit ∧ ((s.balanceSet c b).ctx c).armed = true := by
    rw [State.balanceSet, State.ctx_modCtx_same]
    exact ⟨hlow, harmed⟩
  rw [State.watered, State.waterCheck, if_pos hcheck]
  exact event_of_sentOn (s1 := (s.balanceSet c b).modCtx c _) (.of_eq rfl) (.of_eq rfl)

end watered

/-- R104: an amount other than an ALLOW for a live context: its balance and low-water event, then the gutter. -/
theorem State.applyDelta_charges (s : State) {c : Nat} (a : Int) (hc : c ≠ 0) (hlive : (s.ctx c).live = true) :
    s.applyDelta c a false = if clampBalance ((s.ctx c).balance + a) ≤ 0 then (s.watered c (clampBalance ((s.ctx c).balance + a))).gutter c
      else s.watered c (clampBalance ((s.ctx c).balance + a)) := s.applyDelta_live a false hc hlive

section gutter
variable (s : State) (c : Nat)

/-- R405: under replay the gutter waits. -/
theorem State.gutter_of_replay (h : (s.ctx c).msgRpl = 2) : s.gutter c = s := if_pos h

/-- R111, R386: a running context gutters by a stop. -/
theorem State.gutter_of_running (h : (s.ctx c).msgRpl ≠ 2) (hstate : (s.ctx c).state = .running) : s.gutter c = s.askStop c .guttered 1 := by
  rw [State.gutter, if_neg h, hstate]

/-- R111: a context that is READY gutters at once. -/
theorem State.gutter_of_ready (h : (s.ctx c).msgRpl ≠ 2) (hstate : (s.ctx c).state = .ready) : s.gutter c =
    (s.modCtx c (fun x => { x with state := .guttered })).event c 0x4003 c (balanceBody (s.ctx c).balance) := by
  rw [State.gutter, if_neg h, hstate]

/-- R111: a context that is neither gutters no more. -/
theorem State.gutter_of_ended (hstate : (s.ctx c).state = .guttered ∨ (s.ctx c).state = .faulted) : s.gutter c = s := by
  unfold State.gutter
  split
  · rfl
  · rcases hstate with h | h <;> rw [h]

end gutter

/-- R111, R405: what the gutter does to a context by its state: READY to GUTTERED with its event, running to a stop, else nothing. -/
theorem State.gutter_spec (s : State) (c : Nat) :
    ((s.ctx c).msgRpl = 2 → (s.gutter c).ctx c = s.ctx c) ∧
    ((s.ctx c).msgRpl ≠ 2 → (s.ctx c).state = .ready →
      ((s.gutter c).ctx c).state = .guttered ∧ Event s (s.gutter c) c 0x4003 c (balanceBody (s.ctx c).balance)) ∧
    ((s.ctx c).msgRpl ≠ 2 → (s.ctx c).state = .running →
      ((s.gutter c).ctx c).state = .running ∧ ((s.gutter c).ctx c).stopTo.isSome = true) ∧
    ((s.ctx c).state = .guttered ∨ (s.ctx c).state = .faulted → (s.gutter c).ctx c = s.ctx c) := by
  refine ⟨fun h => ?_, fun h hstate => ?_, fun h hstate => ?_, fun h => ?_⟩
  · rw [s.gutter_of_replay c h]
  · rw [s.gutter_of_ready c h hstate, State.ctx_event, State.ctx_modCtx_same]
    exact ⟨rfl, event_of_sentOn (s1 := s.modCtx c _) (.of_eq rfl) (.of_eq rfl)⟩
  · rw [s.gutter_of_running c h hstate]
    exact ⟨(s.askStop_state c _ _ c).trans hstate, s.askStop_asks c _ _ hstate⟩
  · rw [s.gutter_of_ended c h]

/-- R104: an amount for the house account, or charged to it for a context that is not live. -/
theorem applied_house {s : State} {c : Nat} (a : Int) (h : c = 0 ∨ (s.ctx c).live = false) : Applied s (s.applyDelta c a false) c a := by
  rw [s.applyDelta_house a false h]
  refine ⟨fun h' => ?_, fun hc _ => ⟨by rw [State.ctx_modCtx_same]; rfl, State.ctx_modCtx_other _ _ hc⟩, fun hc hlive => ?_⟩
  · have hc : c = 0 := h'.elim id (fun hlive => h.resolve_right (by simp [hlive]))
    rw [hc, State.ctx_modCtx_same]
    rfl
  · simp [hc, hlive] at h

/-- R104, R110, R111: an amount charged to a live context. -/
theorem applied_live {s : State} {c : Nat} (a : Int) (hc : c ≠ 0) (hlive : (s.ctx c).live = true) : Applied s (s.applyDelta c a false) c a := by
  refine ⟨fun _ => s.applyDelta_balance a false hc hlive, fun _ hdead => absurd hdead (by simp [hlive]), fun _ _ => ?_⟩
  rw [s.applyDelta_charges a hc hlive]
  change let b := clampBalance ((s.ctx c).balance + a); _
  intro b
  have hctx := s.watered_ctx c b
  have hsent := s.watered_sentOn c b
  obtain ⟨hreplay, hready, hrunning, hended⟩ := (s.watered c b).gutter_spec c
  have harmed := State.gutter_reads Context.armed (fun _ _ _ _ => rfl) (s.watered c b) c c
  have hgutter := (Accounted.gutter (s.watered c b) c).sent
  rw [hctx] at hreplay hready hrunning hended harmed
  by_cases hb : b ≤ 0
  · rw [if_pos hb]
    refine ⟨harmed, fun hlow h => (s.watered_low c b hlow h).within (.of_eq rfl) hgutter, fun h => ?_, fun _ h hstate => ?_,
      fun _ h hstate => hrunning h hstate, fun h => (congrArg Context.state (hended h) :)⟩
    · have hkept := hreplay (h.resolve_left (not_lt.mpr hb))
      exact ⟨(congrArg Context.state hkept :), (congrArg Context.stopTo hkept :)⟩
    · obtain ⟨hnow, hevent⟩ := hready h hstate
      exact ⟨hnow, hevent.within hsent (.of_eq rfl)⟩
  · rw [if_neg hb]
    exact ⟨(congrArg Context.armed hctx :), fun hlow h => s.watered_low c b hlow h,
      fun _ => ⟨(congrArg Context.state hctx :), (congrArg Context.stopTo hctx :)⟩, fun h => absurd h hb, fun h => absurd h hb,
      fun _ => (congrArg Context.state hctx :)⟩

/-- R104, R110, R111: an amount other than an ALLOW, applied. -/
theorem applied_applyDelta (s : State) (c : Nat) (a : Int) : Applied s (s.applyDelta c a false) c a := by
  by_cases h : c = 0 ∨ (s.ctx c).live = false
  · exact applied_house a h
  · rw [not_or, Bool.not_eq_false] at h
    exact applied_live a h.1 h.2

/-- The machine with an amount taken from die d's account unit, and applied. -/
theorem applied_of_modDie (s : State) (d : Nat) (f : Die → Die) (c : Nat) (a : Int) :
    ProgramsKept s ((s.modDie d f).applyDelta c a false) ∧ Applied s ((s.modDie d f).applyDelta c a false) c a :=
  ⟨programsKept_of_programs ((Accounted.applyDelta (s.modDie d f) c a false).programs.trans (s.modDie_programs d f)),
    applied_applyDelta (s.modDie d f) c a⟩

theorem exec_chargeApply_arrived {s : State} {d c : Nat} {a : Int} {rest : List (Nat × Int)} (h : (s.die d).arrivals = (c, a) :: rest) :
    exec (.chargeApply d) s = .next ((s.modDie d (fun x => { x with arrivals := rest })).applyDelta c a false) := by
  change execChargeApply d s = _
  rw [execChargeApply, engine, h]

theorem exec_chargeApply_held {s : State} {d c : Nat} {a : Int} (h : (s.die d).arrivals = [])
    (hheld : (s.die d).accounts.find? (fun p => s.homeDie p.1 == d && p.2 != 0) = some (c, a)) :
    exec (.chargeApply d) s = .next ((s.modDie d (fun x => { x with accounts := x.accounts.erase c })).applyDelta c (-a) false) := by
  change execChargeApply d s = _
  simp only [execChargeApply, engine, h, hheld]

theorem exec_chargeApply_none {s : State} {d : Nat} (h : (s.die d).arrivals = [])
    (hnone : (s.die d).accounts.find? (fun p => s.homeDie p.1 == d && p.2 != 0) = none) : exec (.chargeApply d) s = .next s := by
  change execChargeApply d s = _
  simp only [execChargeApply, engine, h, hnone]

/-- R104: an amount due at a home unit is applied, and those behind it stay in their order. -/
theorem chargeApply_acts {s : State} {d c : Nat} {a : Int} (h : dueAmount s d = some (c, a)) :
    ∃ t, exec (.chargeApply d) s = .next t ∧ ProgramsKept s t ∧ Applied s t c a ∧
      ∀ x rest, (s.die d).arrivals = x :: rest → ∃ l, (t.die d).arrivals = rest ++ l := by
  unfold dueAmount at h
  split at h
  next x rest harrived =>
    obtain rfl := Option.some.inj h
    obtain ⟨hprograms, happlied⟩ := applied_of_modDie s d (fun x => { x with arrivals := rest }) c a
    refine ⟨_, exec_chargeApply_arrived harrived, hprograms, happlied, fun x' rest' h' => ?_⟩
    obtain ⟨-, rfl⟩ := List.cons.inj (harrived.symm.trans h')
    obtain ⟨l, hl⟩ := (ArrivesOn.applyDelta (s.modDie d (fun x => { x with arrivals := rest })) c a).appends d
    exact ⟨l, by rw [hl, State.die_modDie_same]⟩
  next hempty =>
    obtain ⟨p, hheld, hp⟩ := Option.map_eq_some_iff.mp h
    obtain ⟨rfl, rfl⟩ := Prod.mk.inj hp
    obtain ⟨hprograms, happlied⟩ := applied_of_modDie s d (fun x => { x with accounts := x.accounts.erase p.1 }) p.1 (-p.2)
    exact ⟨_, exec_chargeApply_held hempty hheld, hprograms, happlied, fun x rest h' => by rw [hempty] at h'; cases h'⟩

theorem chargeApply_idle {s : State} {d : Nat} (h : dueAmount s d = none) : exec (.chargeApply d) s = .next s := by
  unfold dueAmount at h
  split at h
  · cases h
  next hempty => exact exec_chargeApply_none hempty (Option.map_eq_none_iff.mp h)

/-- R103: a meter sends the whole nanojoules of its residues. -/
theorem meterResidueSend_acts (s : State) (u : Nat) : ∃ t, exec (.meterResidueSend u) s = .next t ∧ ProgramsKept s t ∧
    (t.tile u).residue = (s.tile u).residue % njUnit ∧ (t.tile u).houseResidue = (s.tile u).houseResidue % njUnit ∧
    (∀ c, (t.die (u / 64)).accounts.get 0 c = (s.die (u / 64)).accounts.get 0 c + (if s.homeDie c = u / 64 then 0 else (s.tile u).sends c) ∧
      arrivalSum t (u / 64) c = arrivalSum s (u / 64) c - (if s.homeDie c = u / 64 then (s.tile u).sends c else 0)) ∧
    (∃ l, (t.die (u / 64)).arrivals = (s.die (u / 64)).arrivals ++ l) ∧
    (∀ d, d ≠ u / 64 → t.die d = s.die d) ∧ (∀ v, v ≠ u → t.tile v = s.tile v) := by
  rw [exec_meterResidueSend]
  split
  next h =>
    obtain ⟨hk, hh⟩ := h
    have hnone (c : Nat) : (s.tile u).sends c = 0 := by
      simp [Tile.sends, wholePart_eq_zero hk, wholePart_eq_zero hh]
    have hsmall {n : Nat} (hn : n / njUnit = 0) : n = n % njUnit := (Nat.mod_eq_of_lt ((Nat.div_eq_zero_iff_lt (by decide)).mp hn)).symm
    exact ⟨s, rfl, programsKept_of_visible rfl, hsmall hk, hsmall hh, fun c => by simp [hnone], ⟨[], by simp⟩, fun _ _ => rfl, fun _ _ => rfl⟩
  next h =>
    have htile (v : Nat) : (s.residueSent u).tile v = (s.residueTaken u).tile v := by rw [State.tile, State.residueSent_tiles, State.tile]
    refine ⟨_, rfl, programsKept_of_visible (s.residueSent_visible u), ?_, ?_,
      fun c => ⟨s.residueSent_accounts u c, s.residueSent_arrivalSum u c⟩, (ArrivesOn.residueSent s u).appends _, fun d hd => ?_, fun v hv => ?_⟩
    · rw [htile, State.residueTaken, State.tile_modTile_same]
    · rw [htile, State.residueTaken, State.tile_modTile_same]
    · rw [State.residueSent, State.toAccount_die_other _ _ _ _ hd, State.toAccount_die_other _ _ _ _ hd]
      rfl
    · rw [htile, State.residueTaken, State.tile_modTile_other _ _ hv]

/-- R104: an account unit forwards the whole nanojoules of contexts homed elsewhere. -/
theorem accountForward_acts (s : State) (d : Nat) : ∃ t, exec (.accountForward d) s = .next t ∧ ProgramsKept s t ∧
    (∀ c, (t.die d).accounts.get 0 c = s.fractionKept d c ((s.die d).accounts.get 0 c)) ∧
    (∀ e, ∃ l, (t.die e).arrivals = (s.die e).arrivals ++ l) ∧
    ∀ c, s.homeDie c ≠ d → (s.die d).accounts.get 0 c / (njUnit : Int) ≠ 0 →
      (c, -((s.die d).accounts.get 0 c / (njUnit : Int) * njUnit)) ∈ (t.die (s.homeDie c)).arrivals := by
  have hsent := Forwarding.foldl_sendHome ((s.die d).accounts.filter (s.isAway d)) (s.forwardTaken d)
  have harrived : ArrivesOn s (s.forwardTaken d) := fun e => by
    have hsame : ((s.forwardTaken d).die e).arrivals = (s.die e).arrivals := s.modDie_reads Die.arrivals d rfl e
    rw [hsame]
  refine ⟨_, exec_accountForward s d, programsKept_of_programs hsent.programs, fun c => ?_, (harrived.trans hsent.arrives).appends,
    fun c hhome hwhole => ?_⟩
  · rw [hsent.accounts, s.forwardTaken_accounts]
  · have hheld : (s.die d).accounts.get 0 c ≠ 0 := fun h => hwhole (by rw [h, Int.zero_ediv])
    have haway : (c, (s.die d).accounts.get 0 c) ∈ (s.die d).accounts.filter (s.isAway d) :=
      List.mem_filter.mpr ⟨AMap.mem_of_get_ne_zero hheld, by simp [State.isAway, hhome, hwhole]⟩
    exact State.foldl_sendHome_arrived haway (s.forwardTaken d)

theorem accountsMoveAndApplyCharges : Rules.AccountsMoveAndApplyCharges :=
  ⟨meterResidueSend_acts, accountForward_acts, fun _ _ _ _ h => chargeApply_acts h, fun _ _ h => chargeApply_idle h⟩

end Sys2Proof.Machine
end

section
/-! SUPPORT. The fabric clock's edges (R18, R21, R101, R105); and O42 from its parts. -/

namespace Sys2Proof.Machine

/-! ## An edge at one tile -/

/-- R101: does the fc that ends charge the house account: the tile's, under its context x? -/
def Tile.houseFc (u : Tile) (x : Context) : Bool := x.fixed || u.stage.isNone

/-- R101: the coefficient of the time class of the fc that ends. -/
def Tile.fcUnits (u : Tile) : Nat := if u.stage.isSome && u.active then 3200 else 2560

/-- R101, R103, R105: a tile of a domain charged for the fc that ends, under its context x. -/
def Tile.fcCharged (dom : Nat) (x : Context) (u : Tile) : Tile :=
  if u.houseFc x then { u with houseResidue := u.houseResidue + u.fcUnits * u.scale.toNat }
  else { u with
    residue := u.residue + u.fcUnits * x.factor dom u.scale.toNat
    emtr := min (u.emtr + u.fcUnits * x.factor dom u.scale.toNat / 2 ^ 14) (2 ^ 64 - 1) }

/-- R18, R21: a tile at an fc edge: one fc more, and free to issue and to grant again. -/
def Tile.edgeMarks (u : Tile) : Tile := { u with
  active := false, issued := false, granted := false, lcyc := (u.lcyc + 1) % 2 ^ 64 }

/-- R18, R21: a tile at an fc edge, its fc charged. -/
def Tile.edged (dom : Nat) (x : Context) (u : Tile) : Tile := (u.fcCharged dom x).edgeMarks

/-- R101: the coefficient of each of the two time classes. -/
theorem Tile.fcUnits_eq (u : Tile) : tileCoef.getD (if u.stage.isSome && u.active then 57 else 56) 0 * 1 = u.fcUnits := by
  unfold Tile.fcUnits
  split <;> rfl

section tileEdge
variable (s : State) (u : Nat)

/-- R101: both time classes charge the house account as R101 says. -/
theorem State.houseClass_time : s.houseClass u (if (s.tile u).stage.isSome && (s.tile u).active then 57 else 56) =
    (s.tile u).houseFc (s.ctx (s.tile u).ctx) := by
  unfold State.houseClass Tile.houseFc
  split <;> rfl

theorem State.tileEdge_ctxs : (s.tileEdge u).ctxs = s.ctxs := by simp [State.tileEdge]

theorem State.tileEdge_dies : (s.tileEdge u).dies = s.dies := by simp [State.tileEdge]

/-- The machine with a tile's fc charged, before its edge. -/
def State.fcCharge (s : State) (u : Nat) : State :=
  if (s.tile u).houseFc (s.ctx (s.tile u).ctx) then s.meterHouse u (s.tile u).fcUnits else s.meterCtx u (s.tile u).fcUnits

theorem State.tileEdge_eq : s.tileEdge u = (s.fcCharge u).modTile u Tile.edgeMarks := by
  unfold State.tileEdge State.charge
  dsimp only
  rw [State.houseClass_time, Tile.fcUnits_eq]
  rfl

theorem State.tile_fcCharge : (s.fcCharge u).tile u = (s.tile u).fcCharged (u / 64) (s.ctx (s.tile u).ctx) := by
  unfold State.fcCharge Tile.fcCharged
  split
  · rw [State.meterHouse, State.tile_windowAdd, State.tile_modTile_same]
  · rw [State.meterCtx, State.tile_windowAdd, State.tile_modTile_same]
    rfl

theorem State.tileEdge_tile_same : (s.tileEdge u).tile u = (s.tile u).edged (u / 64) (s.ctx (s.tile u).ctx) := by
  rw [State.tileEdge_eq, State.tile_modTile_same, State.tile_fcCharge, Tile.edged]

theorem State.tileEdge_tile_other {v : Nat} (h : v ≠ u) : (s.tileEdge u).tile v = s.tile v := by
  rw [State.tileEdge_eq, State.tile_modTile_other _ _ h, State.fcCharge]
  split
  · rw [State.meterHouse, State.tile_windowAdd, State.tile_modTile_other _ _ h]
  · rw [State.meterCtx, State.tile_windowAdd, State.tile_modTile_other _ _ h]

theorem State.tileEdge_visible : (s.tileEdge u).visible = s.visible := by
  have hmarks : ((s.fcCharge u).modTile u Tile.edgeMarks).visible = (s.fcCharge u).visible :=
    (s.fcCharge u).modTile_visible u (fun _ => rfl)
  rw [State.tileEdge_eq, hmarks, State.fcCharge]
  split
  · exact s.meterHouse_visible u _
  · rw [State.meterCtx, State.windowAdd_visible]
    exact s.modTile_visible u (fun _ => rfl)

end tileEdge

/-! ## An edge at a die -/

/-- The machine once an fc edge has come to the 64 tiles of a die. -/
def State.tilesEdged (s : State) (d : Nat) : State := (List.range 64).foldl (fun s i => s.tileEdge (64 * d + i)) s

/-- R21: the die counts its fc. -/
def Die.countFc (x : Die) : Die := { x with fc := (x.fc + 1) % 2 ^ 64 }

theorem exec_fcEdge (s : State) (d : Nat) : exec (.fcEdge d) s = .next (if s.pkg.clockStopped then s
    else (s.tilesEdged d).modDie d Die.countFc) := rfl

section tilesEdged
variable (s : State) (d : Nat)

theorem State.tilesEdged_dies : (s.tilesEdged d).dies = s.dies := foldl_keeps State.dies _ (fun s _ => s.tileEdge_dies _) _ s

theorem State.tilesEdged_visible : (s.tilesEdged d).visible = s.visible := foldl_keeps State.visible _ (fun s _ => s.tileEdge_visible _) _ s

/-- R21: an edge leaves the tiles of other dies. -/
theorem State.tilesEdged_tile_other {u : Nat} (h : u / 64 ≠ d) : (s.tilesEdged d).tile u = s.tile u :=
  List.foldlRecOn (List.range 64) _ (motive := fun t : State => t.tile u = s.tile u) rfl
    (fun t ht i hi => (t.tileEdge_tile_other _ (by have := List.mem_range.mp hi; omega)).trans ht)

/-- What an edge at tile i of die d reads: the contexts, and the tile. -/
def State.edgeReads (d : Nat) (s : State) (i : Nat) : AMap Context × Tile := (s.ctxs, s.tile (64 * d + i))

/-- The same after the edge at that tile. -/
def edgedReads (d i : Nat) (r : AMap Context × Tile) : AMap Context × Tile := (r.1, r.2.edged ((64 * d + i) / 64) (r.1.get {} r.2.ctx))

theorem State.tileEdge_edgeReads_same (s : State) (i : Nat) : (s.tileEdge (64 * d + i)).edgeReads d i = edgedReads d i (s.edgeReads d i) :=
  Prod.ext (s.tileEdge_ctxs _) (s.tileEdge_tile_same _)

theorem State.tileEdge_edgeReads_other (s : State) (i j : Nat) (h : i ≠ j) : (s.tileEdge (64 * d + j)).edgeReads d i = s.edgeReads d i :=
  Prod.ext (s.tileEdge_ctxs _) (s.tileEdge_tile_other _ (by omega))

/-- R21: each tile of the die has its edge once, under the contexts as they stand. -/
theorem State.tilesEdged_tile {u : Nat} (h : u / 64 = d) : (s.tilesEdged d).tile u = (s.tile u).edged d (s.ctx (s.tile u).ctx) := by
  have hreads : (s.tilesEdged d).edgeReads d (u % 64) = if u % 64 < 64 then edgedReads d (u % 64) (s.edgeReads d (u % 64)) else _ :=
    foldl_range_reads (State.tileEdge_edgeReads_same d) (State.tileEdge_edgeReads_other d) (u % 64) s 64
  rw [if_pos (Nat.mod_lt _ (by decide)), edgedReads, State.edgeReads, State.edgeReads, show 64 * d + u % 64 = u by omega, h] at hreads
  exact (Prod.mk.inj hreads).2

theorem State.countFc_visible : (s.modDie d Die.countFc).visible = s.visible := rfl

theorem programsKept_edge : ProgramsKept s ((s.tilesEdged d).modDie d Die.countFc) :=
  programsKept_of_visible (((s.tilesEdged d).countFc_visible d).trans (s.tilesEdged_visible d))

end tilesEdged

/-- What an edge makes of a tile's counts, its marks and its two residues. -/
theorem Tile.edged_spec (dom : Nat) (x : Context) (u : Tile) :
    let house : Bool := u.stage.isNone || x.liveModes.getLsbD 1
    let f := if house = false ∧ x.rpl = 2 then (x.calib.get 0x4000 dom).toNat else u.scale.toNat
    let e := (if u.stage.isSome && u.active then 3200 else 2560) * f
    (u.edged dom x).lcyc = (u.lcyc + 1) % 2 ^ 64 ∧
      (u.edged dom x).active = false ∧ (u.edged dom x).issued = false ∧ (u.edged dom x).granted = false ∧
      (u.edged dom x).residue = u.residue + (if house then 0 else e) ∧
      (u.edged dom x).houseResidue = u.houseResidue + (if house then e else 0) := by
  intro house f e
  have hhouse : u.houseFc x = house := Bool.or_comm _ _
  simp only [Tile.edged, Tile.edgeMarks, Tile.fcCharged, hhouse]
  cases h : house
  · have hfixed : x.fixed = false := (Bool.or_eq_false_iff.mp h).2
    have hf : x.factor dom u.scale.toNat = f := by
      simp [Context.factor, hfixed, f, h]
    simp [hf, e, Tile.fcUnits]
  · have hf : u.scale.toNat = f := by simp [f, h]
    simp [hf, e, Tile.fcUnits]

/-- R18, R21, R26, R101, R105: an fc edge of a die, and none where the clock is stopped. -/
theorem fcEdgesCountAndChargeTime : Rules.FcEdgesCountAndChargeTime := by
  refine ⟨fun s d hstop => ?_, fun s d hgo => ⟨(s.tilesEdged d).modDie d Die.countFc, ?_,
    programsKept_edge s d, ?_, fun e he => ?_, fun u hu => ?_, fun u hu => ?_⟩⟩
  · rw [exec_fcEdge, if_pos hstop]
  · rw [exec_fcEdge, if_neg (by simp [hgo])]
  · rw [State.die_modDie_same, State.die, State.tilesEdged_dies, State.die, Die.countFc]
  · rw [State.die_modDie_other _ _ he, State.die, State.tilesEdged_dies, State.die]
  · rw [State.tile_modDie, s.tilesEdged_tile_other d hu]
  · rw [State.tile_modDie, s.tilesEdged_tile d hu]
    exact (s.tile u).edged_spec d (s.ctx (s.tile u).ctx)

/-- Settles O42: what meters, account units and home units do with charges, and the fc edges that charge time. -/
theorem chargesMoveAndTimeIsCharged : Obligations.ChargesMoveAndTimeIsCharged := ⟨accountsMoveAndApplyCharges, fcEdgesCountAndChargeTime⟩

end Sys2Proof.Machine
end

section
/-! SUPPORT. The refused answer of a read that no element waits for (R346, R372), and O28 refuted by it. -/

namespace Sys2Proof.Machine

/-! ## A late answer at a command that has taken the id -/

/-- A reduction that returns its elements; its element 0 waits for the answer to request 7. -/
def reducing : Cmd :=
  { kind := .sra 0 true 0, strand := 0, slot := 0, stage := 0, ctx := 5, order := 1, next := 1, flight := [{ n := 0, req := 7 }] }

/-- Request 8, sent on port 3: the read of an element 0 of the command that had id 3 of tile 0. -/
def lateRead : RemoteFlight :=
  { tag := 8, tile := 0, id := 3, n := 0, ctx := 5, window := 3, port := 3, addr := 0x20000, isWrite := false, wid := 8 }

/-- The machine in which that read is outstanding, and the reduction has id 3. -/
def lateAtReducing : State := { tiles := [(0, { ctx := 5, cmds := [(3, reducing)] })], pkg := { flights := [lateRead] } }

/-- Request 8 refused by its target. -/
def lateRefusal : RemoteResp := { tag := 8, accepted := false, data := [] }

/-- The machine once the refusal has arrived at port 3 on lane 2. -/
def lateRefused : State := (lateAtReducing.respArrives 3 Config.pkgid.toNat 2 lateRefusal).advanceQps

theorem lateRead_outstanding : Outstanding lateAtReducing lateRead reducing := ⟨rfl, by decide, rfl, rfl, rfl⟩

theorem lateAtReducing_noHostJobs : NoHostJobs lateAtReducing := fun _ h => absurd h List.not_mem_nil

/-- R372: the refusal stops no command, since no element waits for request 8. -/
theorem lateRefused_cmd : (lateRefused.tile 0).cmd 3 = some reducing := by
  rw [lateRefused, State.respArrives, if_neg (not_not_intro rfl)]
  rfl

/-- Refutes O28: its clause on refused and lost answers asks for a fault wherever the command returns its elements, also where the answer is
a read's that no element of it waits for. Here request 8 is such a read's, of an earlier command of the id: the reduction waits for
request 7, and the refusal of request 8 leaves it as it was. -/
theorem not_flitsResponsesAndDeadPorts : ¬ Obligations.FlitsResponsesAndDeadPorts := by
  rintro ⟨-, -, -, hanswers, -, -⟩
  obtain ⟨t, hexec, -, -, -, -, -, -, hrefused⟩ := hanswers lateAtReducing 3 2 lateRead reducing lateRefusal
    lateAtReducing_noHostJobs lateRead_outstanding rfl
  have ht : lateRefused = t := Host.Outcome.next.inj hexec
  obtain ⟨c, hcmd, hfault, -⟩ := hrefused rfl (.inr rfl) ⟨_, List.mem_singleton_self _, rfl⟩
  have hkept : c = reducing := Option.some.inj (hcmd.symm.trans (ht ▸ lateRefused_cmd))
  rw [hkept] at hfault
  cases hfault

end Sys2Proof.Machine
end

section
/-! SUPPORT. How memory keeps its canonical form (R132, R333; log 2). Memory is written by `State.settle` alone, whose result has the form whatever
the writes are; every other operation passes the memory on. One lemma an operation, in the order of the model: first the operations on parts
of the state, translation, queues and tasks. -/

namespace Sys2Proof.Machine

/-! ### Folds, choices and carriers of a state -/

theorem State.foldl_inv {α : Type} {f : State → α → State} (hf : ∀ s a, s.Inv → (f s a).Inv) :
    ∀ (l : List α) {s : State}, s.Inv → (l.foldl f s).Inv
  | [], _, h => h
  | a :: l, _, h => State.foldl_inv hf l (hf _ a h)

theorem foldl_fst_inv {α β : Type} {f : State × β → α → State × β} (hf : ∀ p a, p.1.Inv → (f p a).1.Inv) :
    ∀ (l : List α) {p : State × β}, p.1.Inv → (l.foldl f p).1.Inv
  | [], _, h => h
  | a :: l, _, h => foldl_fst_inv hf l (hf _ a h)

theorem State.getD_inv {o : Option State} {s : State} (ho : ∀ t, o = some t → t.Inv) (hs : s.Inv) : (o.getD s).Inv := by
  cases o with
  | none => exact hs
  | some t => exact ho t rfl

theorem State.ite_inv {p : Prop} [Decidable p] {s t : State} (hs : s.Inv) (ht : t.Inv) : (if p then s else t).Inv := by
  split
  · exact hs
  · exact ht

/-! An answer that carries a state is good when the state it carries is; of a look-up that answers with no state nothing is asked. -/

def Target.Inv : Target → Prop
  | .wait s | .stop s _ | .cell s | .node s _ _ | .away s _ _ => s.Inv

def Made.Inv : Made → Prop
  | .wait s | .stop s _ | .made s => s.Inv

def Xl.Inv : Xl → Prop
  | .ok s _ _ | .wait s | .fault s _ _ => s.Inv

def Gate.Inv : Gate → Prop
  | .go s | .wait s | .trap s _ _ => s.Inv

def ImageRead.Inv : ImageRead → Prop
  | .got s _ | .wait s | .fault s _ _ => s.Inv

def PushOut.Inv : PushOut → Prop
  | .failed s _ | .wait s | .done s => s.Inv

def VaRead.Inv : VaRead → Prop
  | .ok s _ | .wait s | .fault s _ _ _ => s.Inv

def VaWrite.Inv : VaWrite → Prop
  | .ok s | .wait s | .fault s _ _ _ => s.Inv

def PagesXl.Inv : PagesXl → Prop
  | .ok s _ _ | .wait s | .fault s _ _ _ => s.Inv

def Checked.Inv : Checked → Prop
  | .same s | .differ s | .wait s => s.Inv

def Tried.Inv : Tried → Prop
  | .done s | .stay s _ => s.Inv

def Fetch.Inv {α : Type} : Fetch α → Prop
  | .ok s _ | .wait s | .trap s _ _ | .fatal s _ _ => s.Inv

def Reply.Inv : Reply → Prop
  | .now s _ _ | .later s => s.Inv

def Point.Inv : Point → Prop
  | .go s _ => s.Inv
  | _ => True

/-- Asking a slot, and carrying it out, keep the form. -/
def Sem.Inv (m : Sem) : Prop := (∀ s, s.Inv → (m.gate s).Inv) ∧ ∀ pre s, pre.Inv → s.Inv → (m.act pre s).Inv

/-- An operation keeps the form wherever it goes on to a state. -/
def KeepsInv (g : State → Out) : Prop := ∀ s t, s.Inv → g s = .next t → t.Inv

theorem engine_keeps {f : State → State} (hf : ∀ s, s.Inv → (f s).Inv) : KeepsInv (engine f) := by
  rintro s _ h ⟨⟩
  exact hf s h

variable {s s' pre : State} {c slot g q t n k d id code ctx dom i lane pa port qp va vf : Nat}

/-! ### Parts of the state -/

theorem State.modTile_inv {f : Tile → Tile} (hs : s.Inv) : (s.modTile t f).Inv := by simpa [State.Inv] using hs
theorem State.modStrand_inv {f : Strand → Strand} (hs : s.Inv) : (s.modStrand t n f).Inv := by simpa [State.Inv] using hs
theorem State.modDie_inv {f : Die → Die} (hs : s.Inv) : (s.modDie d f).Inv := by simpa [State.Inv] using hs
theorem State.modCtx_inv {f : Context → Context} (hs : s.Inv) : (s.modCtx c f).Inv := by simpa [State.Inv] using hs
theorem State.modPart_inv {p : Nat} {f : Partition → Partition} (hs : s.Inv) : (s.modPart p f).Inv := by simpa [State.Inv] using hs
theorem State.modPkg_inv {f : Package → Package} (hs : s.Inv) : (s.modPkg f).Inv := by simpa [State.Inv] using hs
theorem State.modPipe_inv {f : Pipeline → Pipeline} (hs : s.Inv) : (s.modPipe c slot f).Inv := by simpa [State.Inv] using hs
theorem State.modStage_inv {f : Stage → Stage} (hs : s.Inv) : (s.modStage c slot g f).Inv := by simpa [State.Inv] using hs
theorem State.modQueue_inv {f : Queue → Queue} (hs : s.Inv) : (s.modQueue c slot q f).Inv := by simpa [State.Inv] using hs
theorem State.bump_inv (hs : s.Inv) : (s.bump).Inv := by simpa [State.Inv] using hs

/-! ### Registers (R182) -/

theorem State.modMe_inv {f : Strand → Strand} (hs : s.Inv) : (s.modMe f).Inv := by simpa [State.Inv] using hs

/-! ### Writes, visibility and reads (R331-R337) -/

theorem State.settle_inv {s : State} (h : s.Inv) : (State.settle s).Inv := State.wf_settle s h
theorem State.issueHeld_inv (hs : s.Inv) : (s.issueHeld).1.Inv := by
  grind [State.issueHeld, State.Inv]
theorem State.joinBatch_inv (hs : s.Inv) : (s.joinBatch d i).Inv := by simpa [State.Inv] using hs
theorem State.issueWrite_inv (hs : s.Inv) : (s.issueWrite d).1.Inv := by
  grind [State.issueWrite, State.issueHeld_inv, State.joinBatch_inv]
theorem State.applyWrite_inv {data : List Byte} {past : List Nat} (hs : s.Inv) : (s.applyWrite i d pa data past).Inv := by
  grind [State.applyWrite, State.Inv, State.settle_inv]
theorem State.dropWrite_inv (hs : s.Inv) : (s.dropWrite i).Inv := by
  grind [State.dropWrite, State.Inv, State.settle_inv]
theorem State.sealBatch_inv (hs : s.Inv) : (s.sealBatch d).Inv := by simpa [State.Inv] using hs

/-! ### Energy (R101-R106, R113) -/

theorem State.windowAdd_inv {units scaled : Nat} (hs : s.Inv) : (s.windowAdd dom ctx units scaled).Inv := by simpa [State.Inv] using hs
theorem State.meterCtx_inv {units : Nat} (hs : s.Inv) : (s.meterCtx t units).Inv := by
  grind [State.meterCtx, State.modTile_inv, State.windowAdd_inv]
theorem State.meterHouse_inv {units : Nat} (hs : s.Inv) : (s.meterHouse t units).Inv := by simpa [State.Inv] using hs
theorem State.charge_inv {cls : Nat} {strand : Option Nat} (hs : s.Inv) : (s.charge t cls n strand).Inv := by simpa [State.Inv] using hs
theorem State.toAccount_inv {amt : Int} (hs : s.Inv) : (s.toAccount d c amt).Inv := by
  grind [State.toAccount, State.modDie_inv]
theorem State.uncore_inv {ev : Uncore} (hs : s.Inv) : (s.uncore d ctx ev n dom).Inv := by simpa [State.Inv] using hs
theorem State.chargeBridges_inv {e : Nat} (hs : s.Inv) : (s.chargeBridges ctx d e k).Inv := by simpa [State.Inv] using hs
theorem State.chargeHops_inv {e : Nat} {hops : Nat → Nat} {bytes : Nat} (hs : s.Inv) :
    (s.chargeHops ctx d e hops bytes).Inv := by simpa [State.Inv] using hs
theorem State.chargePath_inv {u bytes : Nat} (hs : s.Inv) : (s.chargePath ctx t u bytes).Inv := by simpa [State.Inv] using hs

/-! ### Messages (R81-R86) -/

theorem State.frame_inv (hs : s.Inv) : (s.frame c n).Inv := by simpa [State.Inv] using hs
theorem State.send_inv {ep ty rid : Nat} {body : List Byte} (hs : s.Inv) : (s.send ep ty rid body).Inv := by simpa [State.Inv] using hs
theorem State.event_inv {ep ty : Nat} {body : List Byte} (hs : s.Inv) : (s.event ep ty ctx body).Inv := by simpa [State.Inv] using hs

/-! ### Taking an exception (R378-R383, R391) -/

theorem State.sendFault_inv {r : FaultRec} (hs : s.Inv) : (s.sendFault c r).Inv := by simpa [State.Inv] using hs
theorem State.fatal_inv {r : FaultRec} (hs : s.Inv) : (s.fatal c r).Inv := by simpa [State.Inv] using hs
theorem State.fatalAt_inv {info : Word} {pc : BitVec 32} (hs : s.Inv) : (s.fatalAt t n code info pc).Inv := by simpa [State.Inv] using hs
theorem State.takeTrap_inv {info : Word} {pc : BitVec 32} (hs : s.Inv) : (s.takeTrap t n code info pc).Inv := by simpa [State.Inv] using hs
theorem State.postCause_inv {info : Word} (hs : s.Inv) : (s.postCause t n code info).Inv := by simpa [State.Inv] using hs

/-! ### Endpoints and arcs (R176, R216-R218), emission over routes (R181) -/

theorem State.emitFrom_inv {src owner : Nat} {k : Token} (hs : s.Inv) : (s.emitFrom t src owner k).Inv := by
  grind [State.emitFrom, State.charge_inv, State.modTile_inv]
theorem State.sendPart_inv (hs : s.Inv) : (s.sendPart t k n).Inv := by
  grind [State.sendPart, State.charge_inv, State.modTile_inv, State.foldl_inv]
theorem State.unbind_inv (hs : s.Inv) : (s.unbind t k n).Inv := by
  grind [State.unbind, State.modTile_inv, State.sendPart_inv]
theorem State.unbindAll_inv (hs : s.Inv) : (s.unbindAll t k).Inv := by
  grind [State.unbindAll, State.unbind_inv, State.foldl_inv]

/-! ### Memory nodes -/

theorem State.countReqs_inv {e : Nat} (hs : s.Inv) : (s.countReqs e d n).Inv := by
  grind [State.countReqs, State.modDie_inv]
theorem State.nodeCharge_inv {write atomic : Bool} (hs : s.Inv) : (s.nodeCharge ctx pa write atomic).Inv := by
  grind [State.nodeCharge, State.uncore_inv]
theorem State.nodeEvent_inv {e : Nat} {write atomic : Bool} (hs : s.Inv) : (s.nodeEvent e ctx pa write atomic).Inv := by
  grind [State.nodeEvent, State.countReqs_inv, State.nodeCharge_inv]

/-! ### The translation structures (R143) -/

theorem fillWindow_inv {e : TlbEntry} (hs : s.Inv) : (fillWindow s t port e).Inv := by
  grind [fillWindow, State.modTile_inv]
theorem State.fillAbove_inv {who : Requester} {e : TlbEntry} (hs : s.Inv) : (s.fillAbove who e).Inv := by
  grind [State.fillAbove, State.modTile_inv, fillWindow_inv]
theorem State.fillDie_inv {e : TlbEntry} (hs : s.Inv) : (s.fillDie d e).Inv := by
  grind [State.fillDie, State.modDie_inv]
theorem State.tlbLookup_inv {s : State} {who : Requester} {ctx va : Nat} {a : Access} (hs : s.Inv) : (s.tlbLookup who ctx va a).1.Inv := by
  unfold State.tlbLookup
  split
  · exact hs
  · split
    · exact State.fillAbove_inv hs
    · grind [State.charge_inv, State.fillAbove_inv, State.fillDie_inv, State.modStrand_inv, State.uncore_inv]
theorem State.use_inv {v : Nat} {e : TlbEntry} {a : Access} {super atomic : Bool} (hs : s.Inv) : (s.use ctx d v e a super atomic).Inv := by
  grind [State.use, Xl.Inv]
theorem State.translate_inv {who : Requester} {va : Word} {a : Access} {super atomic : Bool} (hs : s.Inv) :
    (s.translate who ctx va a super atomic).Inv := by
  grind [State.translate, Xl.Inv, State.modDie_inv, State.tlbLookup_inv, State.use_inv]
theorem State.devWriteWord_inv {data : List Byte} (hs : s.Inv) : (s.devWriteWord pa data).Inv := by
  grind [State.devWriteWord, State.Inv, State.settle_inv]
theorem State.chargeLine_inv {e : Nat} (hs : s.Inv) : (s.chargeLine ctx d e pa).Inv := by
  grind [State.chargeLine, State.chargePath_inv, State.countReqs_inv, State.uncore_inv]
theorem State.followStamp_inv {stamp : Nat} (hs : s.Inv) : (s.followStamp d stamp).Inv := by
  grind [State.followStamp, State.modDie_inv]
theorem State.sendLine_inv {wid : Nat} {past : List Nat} (hs : s.Inv) : (s.sendLine d ctx pa wid past).Inv := by
  grind [State.sendLine, State.Inv, State.chargeLine_inv, State.followStamp_inv, State.modDie_inv, State.foldl_inv]
theorem State.applyLine_inv {l : LineMsg} (hs : s.Inv) : (s.applyLine l).Inv := by
  grind [State.applyLine, State.Inv, State.followStamp_inv, State.modDie_inv, State.settle_inv]
theorem State.devLine_inv {data : List Byte} {rep : Bool} (hs : s.Inv) : (s.devLine d ctx pa data rep).Inv := by
  grind [State.devLine, State.applyLine_inv, State.devWriteWord_inv, State.followStamp_inv, State.sendLine_inv, State.foldl_inv]
theorem State.devWrite_inv {data : List Byte} {rep : Bool} (hs : s.Inv) : (s.devWrite d ctx pa data rep).Inv := by
  grind [State.devWrite, State.devLine_inv, State.foldl_inv]
theorem State.requestPage_inv {a : Access} (hs : s.Inv) : (s.requestPage ctx va a).1.Inv := by
  grind [State.requestPage, State.modCtx_inv, State.send_inv]
theorem State.standJoined_inv {m : Miss} {x : XWait} (hs : s.Inv) : (s.standJoined d m x).Inv := by
  grind [State.standJoined, State.modDie_inv]
theorem State.fillMisses_inv {m : Miss} {t : TlbEntry} (hs : s.Inv) : (s.fillMisses d m t).Inv := by
  grind [State.fillMisses, State.fillAbove_inv, State.fillDie_inv, State.modDie_inv, State.foldl_inv]
theorem State.askPage_inv {m : Miss} (hs : s.Inv) : (s.askPage d m).Inv := by
  grind [State.askPage, State.modCtx_inv, State.requestPage_inv, State.standJoined_inv]
theorem State.grantPages_inv (hs : s.Inv) : (s.grantPages ctx).Inv := by
  grind [State.grantPages, State.modCtx_inv, State.modDie_inv, State.requestPage_inv, State.foldl_inv]
theorem State.fillFrom_inv {a : Access} {level addr : Nat} {e : Word} {y1 : TlbEntry} (hs : s.Inv) (e : s.fillFrom ctx va a level addr e =
    some (s', y1)) :
    s'.Inv := by
  grind [State.fillFrom, State.devWriteWord_inv, State.nodeCharge_inv]
theorem State.walkMiss_inv {m : Miss} (hs : s.Inv) : (s.walkMiss d m).Inv := by
  grind [State.walkMiss, State.askPage_inv, → State.fillFrom_inv, State.fillMisses_inv, State.standJoined_inv]
theorem execTlbWalkState_inv (hs : s.Inv) : (execTlbWalkState s d).Inv := by
  grind [execTlbWalkState, State.modDie_inv, State.uncore_inv, State.walkMiss_inv]
theorem State.recheckMigrating_inv (hs : s.Inv) : (s.recheckMigrating d).Inv := by
  grind [State.recheckMigrating, State.modDie_inv]
theorem State.purgeFetch_inv {v : Inval} (hs : s.Inv) : (s.purgeFetch v).Inv := by
  grind [State.purgeFetch, State.Inv]
theorem State.purge_inv {v : Inval} (hs : s.Inv) : (s.purge v).Inv := by
  grind [State.purge, State.Inv, State.purgeFetch_inv]

/-! ### Crumb log -/

theorem State.record_inv {r : Crumb} (hs : s.Inv) : (s.record ctx r).Inv := by simpa [State.Inv] using hs
theorem State.takeRecord_inv {mine : Crumb → Bool} {y0 : Crumb} (hs : s.Inv) (e : s.takeRecord ctx mine = some (y0, s')) : s'.Inv := by
  grind [State.takeRecord, State.modCtx_inv]
theorem State.replayDiv_inv {r : Crumb} (hs : s.Inv) : (s.replayDiv ctx r).Inv := by
  grind [State.replayDiv, State.event_inv, State.modCtx_inv]

/-! ### Queues -/

theorem State.spillFail_inv (hs : s.Inv) : (s.spillFail c slot q va).Inv := by
  grind [State.spillFail, State.fatal_inv, State.modQueue_inv]
theorem State.spillEvents_inv {j : Nat} {write : Bool} (hs : s.Inv) : (s.spillEvents c slot q j pa write).Inv := by
  grind [State.spillEvents, State.chargePath_inv, State.nodeEvent_inv]
theorem State.spillPush_inv {j : Nat} {it : Item} (hs : s.Inv) : (s.spillPush c slot q j it).Inv := by
  grind [State.spillPush, PushOut.Inv, Xl.Inv, State.devWrite_inv, State.modQueue_inv, State.spillEvents_inv, State.spillFail_inv,
      State.translate_inv]
theorem State.queueEvent_inv {j : Nat} {src : Option Nat} {write : Bool} (hs : s.Inv) : (s.queueEvent c slot q j src write).Inv := by
  grind [State.queueEvent, State.chargePath_inv, State.uncore_inv]
theorem State.deliver_inv {s : State} {c slot q cur : Nat} {src : Option Nat} {it : Item} {toSpill : Bool} (hs : s.Inv) :
    (s.deliver c slot q cur src it toSpill).Inv := by
  unfold State.deliver
  dsimp only
  split
  · exact hs
  · split <;> grind [PushOut.Inv, State.modQueue_inv, State.queueEvent_inv, State.record_inv, State.replayDiv_inv, State.spillPush_inv, →
      State.takeRecord_inv]
theorem State.popItem_inv {src : Option Nat} {y0 : Item} {y2 : Bool} (hs : s.Inv) (e : s.popItem c slot q src = some (y0, s', y2)) :
    s'.Inv := by
  grind [State.popItem, State.modQueue_inv, State.queueEvent_inv, State.record_inv, State.replayDiv_inv, → State.takeRecord_inv]

/-! ### Tasks, reservations and braids -/

theorem State.modTask_inv {e : Nat} {f : TaskEntry → TaskEntry} (hs : s.Inv) : (s.modTask c slot g e f).Inv := by
  grind [State.modTask, State.modStage_inv]
theorem State.takeEntry_inv (hs : s.Inv) : (s.takeEntry c slot g).1.Inv := by
  grind [State.takeEntry, State.modTask_inv]
theorem State.reserve_inv {e j : Nat} (hs : s.Inv) : (s.reserve c slot g e j n).Inv := by
  grind [State.reserve, State.modQueue_inv, State.modTask_inv]
theorem State.braidTagEvent_inv {tag : Lane} (hs : s.Inv) : (s.braidTagEvent c slot g tag).Inv := by
  grind [State.braidTagEvent, State.event_inv]
theorem State.openBraid_inv {e : Nat} {tag : Lane} (hs : s.Inv) : (s.openBraid c slot g e tag).Inv := by
  grind [State.openBraid, State.braidTagEvent_inv, State.modStage_inv, State.modTask_inv]
theorem State.bumpCursor_inv (hs : s.Inv) : (s.bumpCursor t slot q k).Inv := by
  grind [State.bumpCursor, State.modTile_inv]
theorem State.storeFailEvent_inv {stage : Option (Nat × Nat)} {f : FailRec} (hs : s.Inv) : (s.storeFailEvent c stage f).Inv := by
  grind [State.storeFailEvent, State.event_inv]
theorem State.deliverAll_inv {c slot g : Nat} {poison : Bool} :
    ∀ (l : List (Nat × Item × Nat)) {s : State}, s.Inv → (s.deliverAll c slot g poison l).1.Inv
  | [], _, h => h
  | (q, it, t) :: rest, s, h => by
    have ih := @State.deliverAll_inv c slot g poison rest
    grind [State.deliverAll, PushOut.Inv, State.bumpCursor_inv, State.deliver_inv, State.storeFailEvent_inv]
theorem State.releaseBraid_inv {c slot g : Nat} : ∀ (n : Nat) {s : State}, s.Inv → (s.releaseBraid c slot g n).Inv
  | 0, _, h => h
  | n + 1, s, h => by
    have ih := @State.releaseBraid_inv c slot g n
    grind [State.releaseBraid, State.deliverAll_inv, State.modStage_inv]
theorem State.releaseAll_inv (hs : s.Inv) : (s.releaseAll c slot g).Inv := by
  grind [State.releaseAll, State.releaseBraid_inv]
theorem State.releasePipe_inv (hs : s.Inv) : (s.releasePipe c slot).Inv := by
  grind [State.releasePipe, State.releaseAll_inv, State.foldl_inv]
theorem State.popEffects_inv {e : Nat} {it : Item} (hs : s.Inv) : (s.popEffects c slot g e it).Inv := by
  grind [State.popEffects, State.openBraid_inv, State.reserve_inv, State.foldl_inv]
theorem State.storeFail_inv (hs : s.Inv) : (s.storeFail t n).Inv := by
  grind [State.storeFail, State.modStrand_inv, State.storeFailEvent_inv]
theorem State.failStore_inv {part : Nat} {stage : Option (Nat × Nat)} {k : FailKind} {addr : Nat} (hs : s.Inv) :
    (s.failStore c t n part stage k addr).Inv := by
  grind [State.failStore, State.modCtx_inv, State.modStrand_inv, State.storeFailEvent_inv]
theorem State.orphan_inv (hs : s.Inv) : (s.orphan t n).Inv := by
  grind [State.orphan, State.fatalAt_inv, State.modStrand_inv]
theorem State.toResume_inv (hs : s.Inv) : (s.toResume t n).Inv := by
  grind [State.toResume, State.charge_inv, State.modStage_inv, State.modStrand_inv]
theorem State.endEntry_inv {e : Nat} (hs : s.Inv) : (s.endEntry c slot g e).Inv := by
  grind [State.endEntry, State.modQueue_inv, State.modStage_inv, State.releaseAll_inv, State.foldl_inv]
theorem State.withdrawPops_inv (hs : s.Inv) : (s.withdrawPops t n).Inv := by
  grind [State.withdrawPops, State.modPipe_inv]
theorem State.undoPop_inv {e : Nat} (hs : s.Inv) : (s.undoPop c slot g e).Inv := by
  grind [State.undoPop, State.modQueue_inv, State.modStage_inv, State.modTask_inv, State.foldl_inv]
theorem State.ungrant_inv (hs : s.Inv) : (s.ungrant t n).Inv := by
  grind [State.ungrant, State.modQueue_inv, State.modStrand_inv, State.undoPop_inv]
theorem State.notePipeWrites_inv {l : List Nat} (hs : s.Inv) : (s.notePipeWrites c slot l).Inv := by
  grind [State.notePipeWrites, State.modPipe_inv]
theorem State.noteTaskWrites_inv (hs : s.Inv) : (s.noteTaskWrites t n).Inv := by
  grind [State.noteTaskWrites, State.notePipeWrites_inv]
theorem State.endTask_inv {s : State} {t n : Nat} {k : EndKind} (hs : s.Inv) : (s.endTask t n k).Inv := by
  have h1 : ((((((s.unbindAll t n).storeFail t n).noteTaskWrites t n).withdrawPops t n).ungrant t n).charge t 48 1 (some n)).Inv :=
    State.charge_inv (State.ungrant_inv (State.withdrawPops_inv (State.noteTaskWrites_inv (State.storeFail_inv (State.unbindAll_inv hs)))))
  unfold State.endTask
  refine State.modTile_inv ?_
  cases k
  case done => 
    refine State.orphan_inv (State.modStrand_inv ?_)
    split
    · exact State.endEntry_inv h1
    · exact h1
  all_goals
    dsimp only
    split
    · exact State.toResume_inv (State.modStrand_inv h1)
    · exact State.modStrand_inv h1

/-! ### Uncorrectable ECC errors -/

theorem State.eccHit_inv {rec : List Byte} (hs : s.Inv) : (s.eccHit ctx rec).Inv := by
  grind [State.eccHit, State.event_inv, State.modCtx_inv]

/-! ### Cell SRAM -/

theorem State.cellRead_inv {f addr : Nat} {lane : optParam Nat 0} (hs : s.Inv) : (s.cellRead t f addr n lane).1.Inv := by
  grind [State.cellRead, State.eccHit_inv, State.foldl_inv]
theorem State.cellLatest_inv {f addr : Nat} {lane : optParam Nat 0} (hs : s.Inv) : (s.cellLatest t f addr n lane).1.Inv := by
  grind [State.cellLatest, State.eccHit_inv, State.foldl_inv]
theorem State.cellWrite_inv {f rank addr : Nat} {data : List Byte} {atomic : optParam Bool false} {past : optParam (List Nat) []} (hs :
    s.Inv) :
    (s.cellWrite t f rank addr data atomic past).Inv := by
  grind [State.cellWrite, State.modTile_inv]
theorem execCellWriteVisibleState_inv (hs : s.Inv) : (execCellWriteVisibleState s t).Inv := by
  grind [execCellWriteVisibleState, State.modTile_inv, State.foldl_inv]

/-! ### Requests to memory nodes -/

theorem State.toNode_inv {r : MemReq} (hs : s.Inv) : (s.toNode pa r).Inv := by
  grind [State.toNode, State.modDie_inv]
theorem State.nodePath_inv {bytes : Nat} (hs : s.Inv) : (s.nodePath ctx t pa bytes).Inv := by
  grind [State.nodePath, State.chargePath_inv]

/-! ### Ports of a tile (R292, R305) -/

theorem State.modCmd_inv {f : Cmd → Cmd} (hs : s.Inv) : (s.modCmd t id f).Inv := by
  grind [State.modCmd, State.modTile_inv]
theorem State.modStatus_inv {f : StreamStatus → StreamStatus} (hs : s.Inv) : (s.modStatus t id f).Inv := by
  grind [State.modStatus, State.modTile_inv]

/-! ### The divider -/

theorem State.takeItem_inv {y0 : Item} (hs : s.Inv) (e : s.takeItem c slot q t n = some (y0, s')) : s'.Inv := by
  grind [State.takeItem, State.charge_inv, → State.popItem_inv, State.record_inv, State.replayDiv_inv, → State.takeRecord_inv]
theorem State.giveStream_inv {x : Cmd} (hs : s.Inv) (e : s.giveStream c slot q t id x = some s') : s'.Inv := by
  grind [State.giveStream, State.charge_inv, State.emitFrom_inv, State.modCmd_inv, State.modStatus_inv, → State.takeItem_inv]
theorem State.giveStrand_inv (hs : s.Inv) (e : s.giveStrand c slot q t n = some s') : s'.Inv := by
  grind [State.giveStrand, State.modStrand_inv, State.popEffects_inv, → State.takeItem_inv]
theorem State.serveFirst_inv {s s' : State} {c slot q : Nat} {r : PopReq} (h : s.Inv) :
    ∀ {l : List PopReq}, s.serveFirst c slot q l = some (r, s') → s'.Inv
  | [], e => by cases e
  | _ :: rest, e => by
    have ih := @State.serveFirst_inv s s' c slot q r h rest
    grind [State.serveFirst, → State.giveStrand_inv, → State.giveStream_inv]
theorem execDividerAssignState_inv (hs : s.Inv) : (execDividerAssignState s c slot q).Inv := by
  grind [execDividerAssignState, State.modQueue_inv, → State.serveFirst_inv]
theorem State.serveAll_inv {c slot q : Nat} : ∀ (n : Nat) {s : State}, s.Inv → (s.serveAll c slot q n).Inv
  | 0, _, h => h
  | n + 1, s, h => by
    have ih := @State.serveAll_inv c slot q n
    grind [State.serveAll, State.modQueue_inv, → State.serveFirst_inv]
theorem State.askPop_inv {r : PopReq} (hs : s.Inv) : (s.askPop c slot q r).Inv := by
  grind [State.askPop, State.modQueue_inv]

/-! ### The path of a remote request (R369, R370) -/

theorem State.toLane_inv {f : Flit} (hs : s.Inv) : (s.toLane port lane f).Inv := by
  grind [State.toLane, State.modPkg_inv]

/-! ### Reduction sequences (R315) -/

theorem State.modSeq_inv {f : RedSeq → RedSeq} (hs : s.Inv) : (s.modSeq c slot n f).Inv := by
  grind [State.modSeq, State.modPipe_inv]

/-! ### Slots (R291) -/

theorem State.modSlot_inv {f : Slot → Slot} (hs : s.Inv) : (s.modSlot ctx va f).Inv := by
  grind [State.modSlot, State.Inv]

/-! ### Stopping a command (R181, R303, R308, R327) -/

theorem State.creditSmc_inv {f : Cmd → Cmd} (hs : s.Inv) : (s.creditSmc t id f).Inv := by
  grind [State.creditSmc, State.modCmd_inv, State.modStatus_inv, State.foldl_inv]
theorem State.dropMember_inv {m : Nat} (hs : s.Inv) : (s.dropMember t id m).Inv := by
  grind [State.dropMember, State.creditSmc_inv, State.modTile_inv]
theorem State.stopCmd_inv {quiet : Bool} (hs : s.Inv) : (s.stopCmd t id code quiet).Inv := by
  grind [State.stopCmd, State.dropMember_inv, State.modCmd_inv, State.modDie_inv, State.modQueue_inv, State.modStatus_inv]

/-! ### The start of a round (R226) -/

theorem State.startRound_inv (hs : s.Inv) : (s.startRound t n).Inv := by
  grind [State.startRound, State.modTile_inv, State.foldl_inv]

end Sys2Proof.Machine
end

section
/-! SUPPORT. Memory's canonical form under the operators of cells and the instructions of a core (R170, R186, R187): a slot's gate and its act keep it,
and so does a bundle. -/

namespace Sys2Proof.Machine

variable {s s' pre : State} {c slot g q t n k d id code ctx dom i lane pa port qp va vf : Nat}

/-! ### Structural operators (R261-R266) -/

theorem structOp_inv {v : EEnv} {e : Elem} {o : List Opnd} {taken : Option Opnd} {t : Nat} {s : State} (hs : s.Inv) :
    (structOp v e o taken t s).s.Inv := by
  unfold structOp
  dsimp only
  split <;> grind [State.modTile_inv]

/-! ### Cell memory (R267-R269) -/

theorem State.pendRead_inv {v : EEnv} {words : List Nat} (hs : s.Inv) : (s.pendRead t v words).Inv := by
  grind [State.pendRead, State.modTile_inv, State.postCause_inv]
theorem State.flagCellEcc_inv {cell : Nat} {words : List Nat} (hs : s.Inv) : (s.flagCellEcc t cell words).Inv := by
  grind [State.flagCellEcc, State.modTile_inv]
theorem cellMemOp_inv {v : EEnv} {e : Elem} {o : List Opnd} {t : Nat} {s : State} (hs : s.Inv) : (cellMemOp v e o t s).s.Inv := by
  unfold cellMemOp
  dsimp only
  split <;> grind [State.cellLatest_inv, State.cellRead_inv, State.cellWrite_inv, State.flagCellEcc_inv, State.modTile_inv,
      State.pendRead_inv, State.foldl_inv, foldl_fst_inv]

/-! ### Matrix cells (R270-R274) -/

theorem State.planeEcc_inv (hs : s.Inv) : (s.planeEcc t c).Inv := by
  grind [State.planeEcc, State.eccHit_inv, State.modTile_inv, State.foldl_inv]
theorem matrixOp_inv {v : EEnv} {e : Elem} {o : List Opnd} (hs : s.Inv) : (matrixOp v e o t s).s.Inv := by
  grind [matrixOp, State.modTile_inv, State.planeEcc_inv, State.foldl_inv]

/-! ### Merge cell (R275-R281) -/

theorem mergeFire_inv {v : EEnv} {e : Elem} {g : Nat} {taken : Option Opnd} {t : Nat} {s : State} (hs : s.Inv) :
    (mergeFire v e g taken t s).s.Inv := by
  unfold mergeFire
  dsimp only
  cases taken <;> grind [State.modTile_inv]
theorem mergeOp_inv {v : EEnv} {e : Elem} {o : List Opnd} {taken : Option Opnd} (hs : s.Inv) : (mergeOp v e g o taken t s).s.Inv := by
  grind [mergeOp, State.modTile_inv, mergeFire_inv]

/-! ### Lookup island (R282-R284) -/

theorem islandOp_inv {env : EEnv} {e : Elem} {o : List Opnd} (hs : s.Inv) : (islandOp env e o t s).s.Inv := by
  grind [islandOp, State.modTile_inv, State.foldl_inv]

/-! ### System registers -/

theorem State.setSys_inv {num : Nat} {v : Word} (hs : s.Inv) : (s.setSys t n num v).Inv := by simpa [State.Inv] using hs

/-! ### Halts -/

theorem State.halt_inv (hs : s.Inv) : (s.halt t n).Inv := by simpa [State.Inv] using hs
theorem State.breakpoint_inv {info : Word} (hs : s.Inv) : (s.breakpoint t n info).Inv := by
  grind [State.breakpoint, State.event_inv, State.halt_inv, State.modStrand_inv]

/-! ### Completion -/

theorem State.completeBundle_inv {b : Issue} (hs : s.Inv) : (s.completeBundle t b).Inv := by
  grind [State.completeBundle, State.breakpoint_inv, State.endTask_inv, State.halt_inv, State.modStrand_inv, State.modTile_inv,
      State.setSys_inv, State.takeTrap_inv, State.foldl_inv]
theorem State.takeAtIssue_inv {info : Word} {pc : BitVec 32} (hs : s.Inv) :
    (s.takeAtIssue t n code info pc).Inv := by simpa [State.Inv] using hs

/-! ### Issue -/

theorem gates_inv : ∀ {l : List Sem} {s : State}, (∀ m ∈ l, m.Inv) → s.Inv → (gates l s).Inv
  | [], _, _, hs => hs
  | m :: rest, s, hl, hs => by
    have hm := (hl m (List.mem_cons_self ..)).1 s hs
    unfold gates
    split
    · next s' e => exact gates_inv (fun m' h => hl m' (List.mem_cons_of_mem _ h)) (e ▸ hm : Gate.Inv (.go s'))
    · exact hm
theorem State.wb_inv {r : XReg} {v : Word} (hs : s.Inv) : (s.wb slot r v).Inv := by simpa [State.Inv] using hs
theorem State.awaitReg_inv {r : XReg} (hs : s.Inv) : (s.awaitReg id slot r).Inv := by simpa [State.Inv] using hs
theorem State.issueHead_inv {lit : Bool} (hs : s.Inv) : (s.issueHead t n lit).Inv := by
  grind [State.issueHead, State.charge_inv, State.modTile_inv]
theorem State.dropMissed_inv (hs : s.Inv) : (s.dropMissed t n).Inv := by
  grind [State.dropMissed, State.modStrand_inv]
theorem State.chargeMissed_inv (hs : s.Inv) : (s.chargeMissed t n).Inv := by
  grind [State.chargeMissed, State.charge_inv, State.dropMissed_inv]
theorem Sem.carryOut_inv {m : Sem} {pre s : State} (hm : m.Inv) (hpre : pre.Inv) (hs : s.Inv) : (m.carryOut pre s).Inv := by
  unfold Sem.carryOut
  split
  · exact State.ite_inv (hm.2 pre s hpre hs) (State.modTile_inv hs)
  · exact hm.2 pre s hpre hs
theorem carryOuts_inv {pre : State} (hpre : pre.Inv) :
    ∀ {l : List Sem} {s : State}, (∀ m ∈ l, m.Inv) → s.Inv → (l.foldl (fun s m => m.carryOut pre s) s).Inv
  | [], _, _, hs => hs
  | m :: l, _, hl, hs =>
    carryOuts_inv hpre (l := l) (fun m' h => hl m' (List.mem_cons_of_mem m h)) (Sem.carryOut_inv (hl m List.mem_cons_self) hpre hs)
theorem runBundle_inv {lit : Bool} {l : List Sem} {s : State} (hl : ∀ m ∈ l, m.Inv) (hs : s.Inv) : (runBundle lit l s).Inv := by
  have hhead : ∀ s' : State, s'.Inv → ((s'.dropMissed s.focus s.cur).issueHead s.focus s.cur lit).Inv :=
    fun _ h => State.issueHead_inv (State.dropMissed_inv h)
  have hg := gates_inv hl hs
  obtain ⟨g, e⟩ : ∃ g, gates l s = g := ⟨_, rfl⟩
  unfold runBundle
  rw [e] at hg ⊢
  dsimp only
  cases l.find? (fun m => m.illegal s) with
  | some m => exact State.takeAtIssue_inv (hhead s hs)
  | none =>
    cases (if s.super s.focus then none else l.find? (fun m => m.priv)) with
    | some m => exact State.takeAtIssue_inv (hhead s hs)
    | none =>
      cases g with
      | wait s' => exact State.modStrand_inv hg
      | trap s' code info => exact State.takeAtIssue_inv (hhead s' hg)
      | go pre =>
        have hissued : ((pre.chargeMissed s.focus s.cur).issueHead s.focus s.cur lit).Inv := State.issueHead_inv (State.chargeMissed_inv hg)
        have hclasses (s' : State) (m : Sem) (h : s'.Inv) : (m.classes.foldl (fun s' c => s'.charge s.focus c 1 (some s.cur)) s').Inv :=
          State.foldl_inv (fun _ _ => State.charge_inv) _ h
        refine State.ite_inv (State.completeBundle_inv (State.modTile_inv ?_)) (State.modTile_inv (State.modTile_inv ?_)) <;>
          exact carryOuts_inv hg hl (State.modTile_inv (State.foldl_inv hclasses l (State.modStrand_inv hissued)))
theorem State.returnValue_inv {v : Word} (hs : s.Inv) : (s.returnValue t id v).Inv := by
  grind [State.returnValue, State.completeBundle_inv, State.modTile_inv]

/-! ### Fetch (R152-R158) -/

theorem State.bufferHalf_inv {buf : AMap Half} (hs : s.Inv) : (s.bufferHalf t n buf va pa).Inv := by
  grind [State.bufferHalf, State.modStrand_inv, State.nodeEvent_inv, State.nodePath_inv]
theorem State.fetchHalf_inv {pc : BitVec 32} (hs : s.Inv) : (s.fetchHalf t n pc).Inv := by
  grind [State.fetchHalf, Fetch.Inv, Xl.Inv, State.bufferHalf_inv, State.translate_inv]
theorem State.fetchHalves_inv {t n : Nat} : ∀ (k : Nat) {pc : BitVec 32} {s : State}, s.Inv → (s.fetchHalves t n pc k).Inv
  | 0, _, _, h => h
  | k + 1, pc, s, h => by
    have ih := @State.fetchHalves_inv t n k
    grind [State.fetchHalves, Fetch.Inv, State.fetchHalf_inv]
theorem State.fetchBundle_inv (hs : s.Inv) : (s.fetchBundle t n).Inv := by
  grind [State.fetchBundle, Fetch.Inv, State.eccHit_inv, State.fetchHalf_inv, State.fetchHalves_inv]
theorem execIndexFetchState_inv (hs : s.Inv) : (execIndexFetchState s t).Inv := by
  grind [execIndexFetchState, Fetch.Inv, State.fatalAt_inv, State.fetchBundle_inv, State.modStrand_inv, State.takeAtIssue_inv]
theorem State.silentXlate_inv {who : Requester} {super : Bool} (hs : s.Inv) : (s.silentXlate who ctx va super).1.Inv := by
  grind [State.silentXlate, Xl.Inv, State.fillAbove_inv, State.fillDie_inv, → State.fillFrom_inv, State.tlbLookup_inv, State.uncore_inv,
      State.use_inv]
theorem execPrefetchFillState_inv (hs : s.Inv) : (execPrefetchFillState s t n).Inv := by
  grind [execPrefetchFillState, State.bufferHalf_inv, State.modStrand_inv, State.silentXlate_inv]
theorem State.postBudget_inv (hs : s.Inv) : (s.postBudget t n).Inv := by
  grind [State.postBudget, State.postCause_inv]
theorem execPendingTrapState_inv (hs : s.Inv) : (execPendingTrapState s t).Inv := by
  grind [execPendingTrapState, State.modStrand_inv, State.modTile_inv, State.postBudget_inv, State.takeTrap_inv]

/-! ### The A class (R192-R200) -/

theorem State.raise_inv {f : Flags} (hs : s.Inv) : (s.raise f).Inv := by
  grind [State.raise, State.modMe_inv]

/-! ### Conversion (R199, R59, R62, R63) -/

theorem State.fcvt_inv {dt sc rm : Nat} {x : Word} {d : XReg} (hs : s.Inv) : (s.fcvt dt sc rm x slot d).Inv := by
  grind [State.fcvt, State.charge_inv, State.modMe_inv, State.raise_inv, State.wb_inv]

/-! ### Loads, stores, atomics -/

theorem memGate_inv {a : XReg} {k : Imm} {width : Nat} {acc : Access} (hs : s.Inv) : (memGate a k width acc s).Inv := by
  grind [memGate, Gate.Inv, Xl.Inv, State.modTile_inv, State.translate_inv]
theorem ldAct_inv {t3 : BitVec 3} {d a : XReg} {k : Imm} (_hpre : pre.Inv) (hs : s.Inv) : (ldAct t3 d a k pre s).Inv := by
  grind [ldAct, State.awaitReg_inv, State.bump_inv, State.cellRead_inv, State.charge_inv, State.modStrand_inv, State.nodePath_inv,
      State.toNode_inv, State.wb_inv]
theorem State.noteStore_inv {cls : Nat} (hs : s.Inv) : (s.noteStore t n i cls).Inv := by
  grind [State.noteStore, State.modStrand_inv]
theorem stAct_inv {t2 : BitVec 2} {a b : XReg} {k : Imm} (_hpre : pre.Inv) (hs : s.Inv) : (stAct t2 a b k pre s).Inv := by
  grind [stAct, State.cellWrite_inv, State.charge_inv, State.issueWrite_inv, State.nodePath_inv, State.noteStore_inv, State.toNode_inv]
theorem rmwAct_inv {wide : Bool} {d a : XReg} {k : Imm} {op : State → MemOp} {new : State → Nat → Nat} (_hpre : pre.Inv) (hs : s.Inv) :
    (rmwAct wide d a k op new pre s).Inv := by
  grind [rmwAct, State.awaitReg_inv, State.cellLatest_inv, State.cellWrite_inv, State.charge_inv, State.issueWrite_inv,
      State.modStrand_inv, State.nodePath_inv, State.noteStore_inv, State.toNode_inv, State.wb_inv]

/-! ### Stream-bound registers -/

theorem srdGate_inv {r : SReg} (hs : s.Inv) : (srdGate r s).Inv := by
  grind [srdGate, Gate.Inv]
theorem srdAct_inv {d : XReg} {r : SReg} (_hpre : pre.Inv) (hs : s.Inv) : (srdAct d r pre s).Inv := by
  grind [srdAct, State.modStrand_inv, State.modTile_inv, State.wb_inv]
theorem swrGate_inv {r : SReg} (hs : s.Inv) : (swrGate r s).Inv := by
  grind [swrGate, Gate.Inv]
theorem swrAct_inv {r : SReg} {a : XReg} (_hpre : pre.Inv) (hs : s.Inv) : (swrAct r a pre s).Inv := by
  grind [swrAct, State.modTile_inv, State.sendPart_inv]

/-! ### System registers and bindings -/

theorem sbindGate_inv {r : SReg} {b : BindTarget} (hs : s.Inv) : (sbindGate r b s).Inv := by
  grind [sbindGate, Gate.Inv]
theorem sbindAct_inv {r : SReg} {b : BindTarget} {pre s : State} (_ : pre.Inv) (hs : s.Inv) : (sbindAct r b pre s).Inv := by
  have h1 : (s.unbind s.focus s.cur r.toNat).Inv := State.unbind_inv hs
  unfold sbindAct
  dsimp only
  refine State.modTile_inv ?_
  split
  · exact State.unbind_inv h1
  · exact h1

/-! ### The B class (R210-R214) -/

theorem State.modIssue_inv {f : Issue → Issue} (hs : s.Inv) : (s.modIssue f).Inv := by simpa [State.Inv] using hs
theorem State.goTo_inv {pc : BitVec 32} (hs : s.Inv) : (s.goTo pc).Inv := by simpa [State.Inv] using hs

/-! ### Ends of a task, traps -/

theorem endGate_inv (hs : s.Inv) : (endGate s).Inv := by
  grind [endGate, Gate.Inv]
theorem State.atEnd_inv {a : BAct} (hs : s.Inv) : (s.atEnd a).Inv := by simpa [State.Inv] using hs

/-! ### Queues -/

theorem State.pushMade_inv {it : Item} {toSpill : Bool} (hs : s.Inv) : (s.pushMade q it toSpill).Inv := by
  grind [State.pushMade, PushOut.Inv, State.bumpCursor_inv, State.deliver_inv, State.modStage_inv, State.foldl_inv]
theorem qpushGate_inv {q : QNum} {a b : XReg} (hs : s.Inv) : (qpushGate q a b s).Inv := by
  grind [qpushGate, Gate.Inv, PushOut.Inv, State.pushMade_inv]
theorem qpushAct_inv {d : XReg} {q : QNum} {a b : XReg} (_hpre : pre.Inv) (hs : s.Inv) : (qpushAct d q a b pre s).Inv := by
  grind [qpushAct, PushOut.Inv, State.charge_inv, State.failStore_inv, State.modQueue_inv, State.modTask_inv, State.pushMade_inv,
      State.sealBatch_inv, State.wb_inv]
theorem State.loadItem_inv {d : XReg} {it : Item} (hs : s.Inv) : (s.loadItem d it).Inv := by
  grind [State.loadItem, State.charge_inv, State.modMe_inv, State.wb_inv, State.foldl_inv]
theorem State.takeMine_inv {y0 : Item} (hs : s.Inv) (e : s.takeMine q = some (y0, s')) : s'.Inv := by
  grind [State.takeMine, State.popEffects_inv, → State.takeItem_inv]
theorem qpopGate_inv {q : QNum} (hs : s.Inv) : (qpopGate q s).Inv := by
  grind [qpopGate, Gate.Inv, State.askPop_inv]
theorem qpopAct_inv {d : XReg} {q : QNum} {pre s : State} (_ : pre.Inv) (hs : s.Inv) : (qpopAct d q pre s).Inv := by
  grind [qpopAct, State.loadItem_inv, State.modMe_inv, State.modQueue_inv, State.wb_inv, → State.takeMine_inv]
theorem qtryGate_inv {q : QNum} (hs : s.Inv) : (qtryGate q s).Inv := by
  grind [qtryGate, Gate.Inv, State.askPop_inv, State.serveAll_inv]
theorem qtryAct_inv {d : XReg} {q : QNum} {pre s : State} (_ : pre.Inv) (hs : s.Inv) : (qtryAct d q pre s).Inv := by
  grind [qtryAct, State.loadItem_inv, State.modMe_inv, State.modQueue_inv, State.wb_inv, State.serveAll_inv, → State.takeMine_inv]
theorem qresAct_inv {d : XReg} {q : QNum} {a : XReg} (_hpre : pre.Inv) (hs : s.Inv) : (qresAct d q a pre s).Inv := by
  grind [qresAct, State.reserve_inv, State.wb_inv]

/-! ### The fabric -/

theorem fcfgGate_inv {a : XReg} (hs : s.Inv) : (fcfgGate a s).Inv := by
  grind [fcfgGate, Gate.Inv, State.modMe_inv, State.modTile_inv]
theorem roundGate_inv (hs : s.Inv) : (roundGate s).Inv := by
  grind [roundGate, Gate.Inv]

/-! ### Tokens between strands -/

theorem tsendAct_inv {d a b : XReg} (_hpre : pre.Inv) (hs : s.Inv) : (tsendAct d a b pre s).Inv := by
  grind [tsendAct, State.bump_inv, State.chargePath_inv, State.modCtx_inv, State.modMe_inv, State.modPkg_inv, State.sealBatch_inv,
      State.toLane_inv, State.wb_inv]
theorem takeMail_inv {d : XReg} {tag : Lane} {pre s : State} (_ : pre.Inv) (hs : s.Inv) : (takeMail d tag pre s).Inv := by
  grind [takeMail, State.modMe_inv, State.wb_inv]

/-! ### Membership sets and barriers -/

theorem State.leadPath_inv (hs : s.Inv) : (s.leadPath).Inv := by
  grind [State.leadPath, State.chargePath_inv]
theorem garrAct_inv {d a : XReg} (_hpre : pre.Inv) (hs : s.Inv) : (garrAct d a pre s).Inv := by
  grind [garrAct, State.leadPath_inv, State.modCtx_inv, State.wb_inv]
theorem gbarGate_inv {a : XReg} {s : State} (hs : s.Inv) : (gbarGate a s).Inv := by
  unfold gbarGate
  dsimp only
  split
  · exact hs
  · split
    · split <;> exact hs
    · split <;> exact State.modMe_inv (State.modCtx_inv (State.leadPath_inv hs))

/-! ### Fences and early trigger -/

theorem fenceGate_inv {scope : BitVec 3} (hs : s.Inv) : (fenceGate scope s).Inv := by
  grind [fenceGate, Gate.Inv, State.sealBatch_inv]
theorem trigAct_inv {pre s : State} (_ : pre.Inv) (hs : s.Inv) : (trigAct pre s).Inv := by
  grind [trigAct, State.modCtx_inv, State.sealBatch_inv]
theorem Gate.ite_inv {p : Prop} [Decidable p] {g g' : Gate} (h : g.Inv) (h' : g'.Inv) : (if p then g else g').Inv := by
  split
  · exact h
  · exact h'
theorem Sem.inv_mk {slot : Nat} {classes : List Nat} {illegal : State → Bool} {priv : Bool} {gate : State → Gate} {act : State → State →
    State}
    {stall : Nat × Nat} {late : Option Instr} (hgate : ∀ s, s.Inv → (gate s).Inv) (hact : ∀ pre s, pre.Inv → s.Inv → (act pre s).Inv) :
    Sem.Inv { slot, classes, illegal, priv, gate, act, stall, late } := ⟨hgate, hact⟩
theorem Sem.inv_at_once {slot : Nat} {classes : List Nat} {illegal : State → Bool} {priv : Bool} {act : State → State → State}
    {stall : Nat × Nat} {late : Option Instr} (hact : ∀ pre s, s.Inv → (act pre s).Inv) :
    Sem.Inv { slot, classes, illegal, priv, gate := Gate.go, act, stall, late } := ⟨fun _ hs => hs, fun pre s _ => hact pre s⟩
theorem qSem_inv {op : Nat × Nat} {illegal : State → Bool} {gate : State → Gate} {act : State → State → State} (hgate : ∀ s, s.Inv → (gate
    s).Inv)
    (hact : ∀ pre s, pre.Inv → s.Inv → (act pre s).Inv) : (qSem op illegal gate act).Inv := Sem.inv_mk hgate hact
theorem qpushSem_inv {d : XReg} {q : QNum} {a b : XReg} :
    (qpushSem d q a b).Inv := Sem.inv_mk (fun _ => qpushGate_inv) fun _ _ => qpushAct_inv
theorem tsendSem_inv {d a b : XReg} : (tsendSem d a b).Inv := Sem.inv_mk (fun _ hs => Gate.ite_inv hs hs) fun _ _ => tsendAct_inv
theorem trigSem_inv : trigSem.Inv := Sem.inv_mk (fun _ hs => hs) fun _ _ => trigAct_inv
theorem lateAct_inv {i : Instr} {s : State} (hs : s.Inv) : (lateAct i s).1.Inv := by
  unfold lateAct
  extract_lets go
  have hgo : ∀ m : Sem, m.Inv → (go m).1.Inv := fun m hm => by
    have hg := hm.1 s hs
    simp only [go]
    generalize m.gate s = g at hg ⊢
    cases g with
    | go s' => exact hm.2 s' s' hg hg
    | wait s' => exact hg
    | trap s' _ _ => exact hg
  clear_value go
  cases i with
  | qpush => exact hgo _ qpushSem_inv
  | tsend => exact hgo _ tsendSem_inv
  | trig => exact hgo _ trigSem_inv
  | _ => exact hs

/-! ### Invalidation -/

theorem State.startInval_inv {v : Inval} (hs : s.Inv) : (s.startInval v).Inv := by
  grind [State.startInval, State.Inv, State.bump_inv, State.purge_inv, State.recheckMigrating_inv, State.foldl_inv]
theorem invwGate_inv {a b : XReg} (hs : s.Inv) : (invwGate a b s).Inv := by
  grind [invwGate, Gate.Inv, State.modMe_inv, State.startInval_inv]
theorem State.advanceInval_inv {v : Inval} (hs : s.Inv) : (s.advanceInval v).1.Inv := by
  grind [State.advanceInval, State.purge_inv]
theorem execInvalidationCompleteState_inv {s : State} (hs : s.Inv) : (execInvalidationCompleteState s).Inv := by
  have h1 : (s.invals.foldl (fun (p : State × List Inval) v => ((p.1.advanceInval v).1, p.2 ++ [(p.1.advanceInval v).2])) (s, [])).1.Inv :=
    foldl_fst_inv (f := fun p v => ((p.1.advanceInval v).1, p.2 ++ [(p.1.advanceInval v).2])) (fun _ _ => State.advanceInval_inv) _ hs
  exact State.foldl_inv (fun _ _ => State.purgeFetch_inv) _ h1

/-! ### Patterns (R309-R311) -/

theorem State.modPat_inv {p : PReg} {f : Pattern → Pattern} (hs : s.Inv) : (s.modPat p f).Inv := by
  grind [State.modPat, State.modMe_inv]

/-! ### Issue of a command (R305) -/

theorem State.refuseCmd_inv {c : Cmd} (hs : s.Inv) : (s.refuseCmd t id c code).Inv := by
  grind [State.refuseCmd, State.modSeq_inv, State.modStatus_inv]
theorem issueAct_inv {id : SId} {mk : State → Cmd} {check : State → Cmd → Option Nat} (_hpre : pre.Inv) (hs : s.Inv) :
    (issueAct id mk check pre s).Inv := by
  grind [issueAct, State.charge_inv, State.modSeq_inv, State.modSlot_inv, State.modTile_inv, State.refuseCmd_inv]
theorem idGate_inv {id : SId} (hs : s.Inv) : (idGate id s).Inv := by
  grind [idGate, Gate.Inv]

/-! ### Ordering and waiting -/

theorem sbarAct_inv {m : BitVec 3} {pre s : State} (_ : pre.Inv) (hs : s.Inv) : (sbarAct m pre s).Inv := State.modMe_inv hs
theorem swaitAct_inv {d : XReg} {id : SId} (_hpre : pre.Inv) (hs : s.Inv) : (swaitAct d id pre s).Inv := by
  grind [swaitAct, State.modMe_inv, State.wb_inv]

/-! ### Carried-state slots (R291, R321, R322) -/

theorem State.xlPages_inv {who : Requester} {ctx : Nat} {a : Access} {super : Bool} :
    ∀ {l : List Nat} {s : State}, s.Inv → (s.xlPages who ctx a super l).Inv
  | [], _, hs => hs
  | va :: rest, s, hs => by
    have ih := @State.xlPages_inv who ctx a super rest
    grind [State.xlPages, PagesXl.Inv, Xl.Inv, State.translate_inv]
theorem State.chargeSlot_inv {size : Nat} {pas : List Nat} {toSlot : Bool} (hs : s.Inv) : (s.chargeSlot ctx d size pas toSlot).Inv := by
  grind [State.chargeSlot, State.chargeBridges_inv, State.countReqs_inv, State.uncore_inv, State.foldl_inv]
theorem State.slotOut_inv {x : Slot} (hs : s.Inv) : (∀ t, (s.slotOut x).1 = some t → t.Inv) ∧ (s.slotOut x).2.Inv := by
  grind [State.slotOut, PagesXl.Inv, State.Inv, State.chargeSlot_inv, State.devWrite_inv, State.xlPages_inv, State.foldl_inv]
theorem slotRoom_inv {size : Nat} (hs : s.Inv) : (slotRoom s d size).Inv := by
  grind [slotRoom, Gate.Inv, State.modDie_inv]
theorem sslotGate_inv {a : XReg} {z : BitVec 4} {s : State} (hs : s.Inv) : (sslotGate a z s).Inv := by
  have hp : ∀ l, (s.xlPages (.strand s.focus s.cur) s.myCtx .atomic (s.super s.focus) l).Inv := fun _ => State.xlPages_inv hs
  unfold sslotGate
  dsimp only
  split
  · exact hs
  · split
    · exact hs
    · split <;> grind [Gate.Inv, PagesXl.Inv, State.modTile_inv, State.slotOut_inv, slotRoom_inv]
theorem sslotAct_inv {dst a : XReg} {z : BitVec 4} {zero : Bool} {pre s : State} (_ : pre.Inv) (hs : s.Inv) :
    (sslotAct dst a z zero pre s).Inv := by
  unfold sslotAct
  extract_lets t va size ctx pas hold bytes x s2
  have hh : ∀ {s}, s.Inv → (hold s).bump.Inv := fun h => State.bump_inv (State.modTile_inv h)
  split
  · exact State.wb_inv (State.modSlot_inv (hh hs))
  · refine State.wb_inv ?_
    exact hh (State.ite_inv hs (State.chargeSlot_inv hs))
theorem State.release_inv (hs : s.Inv) : (s.release t ctx va).Inv := by
  grind [State.release, State.modSlot_inv, State.modTile_inv]

end Sys2Proof.Machine
end

section
/-! SUPPORT. Memory's canonical form under the stream engine of a tile (R292 to R318), the memory nodes (R288), batches, lines and values returned. -/

namespace Sys2Proof.Machine

variable {s s' pre : State} {c slot g q t n k d id code ctx dom i lane pa port qp va vf : Nat}

/-! ### Accesses of elements -/

theorem State.elemTarget_inv {c : Cmd} {p : Pattern} {a : Nat} {acc : Access} {atomic : Bool} (hs : s.Inv) :
    (s.elemTarget t id c p a acc atomic).Inv := by
  grind [State.elemTarget, Target.Inv, Xl.Inv, State.translate_inv]
theorem State.sendAway_inv {c : Cmd} {w off : Nat} {kind : RemoteKind} {tag : Nat} {isWrite : Bool} (hs : s.Inv) :
    (s.sendAway t id n c w off kind tag isWrite).Inv := by
  grind [State.sendAway, State.chargePath_inv, State.modPkg_inv, State.toLane_inv]
theorem State.tookGrant_inv (hs : s.Inv) : (s.tookGrant t).Inv := by
  grind [State.tookGrant, State.modTile_inv]
theorem State.statusFlags_inv {f : BitVec 5} (hs : s.Inv) : (s.statusFlags t id f).Inv := by
  grind [State.statusFlags, State.modStatus_inv]
theorem State.startRead_inv {c : Cmd} {p : Pattern} {a : Nat} {again : Bool} (hs : s.Inv) : (s.startRead t id n c p a again).Inv := by
  grind [State.startRead, Made.Inv, Target.Inv, State.bump_inv, State.cellRead_inv, State.charge_inv, State.elemTarget_inv,
      State.modCmd_inv, State.nodeEvent_inv, State.nodePath_inv, State.sendAway_inv, State.statusFlags_inv, State.toNode_inv,
      State.tookGrant_inv]
theorem State.noteWrite_inv {a : Nat} (hs : s.Inv) : (s.noteWrite t id i a).Inv := by
  grind [State.noteWrite, State.modCmd_inv]
theorem State.startWrite_inv {c : Cmd} {p : Pattern} {a v : Nat} {past : List Nat} (hs : s.Inv) :
    (s.startWrite t id n c p a v past).Inv := by
  grind [State.startWrite, Made.Inv, Target.Inv, State.cellWrite_inv, State.charge_inv, State.elemTarget_inv, State.issueWrite_inv,
      State.modCmd_inv, State.modStatus_inv, State.nodeEvent_inv, State.nodePath_inv, State.noteWrite_inv, State.sendAway_inv,
      State.toNode_inv, State.tookGrant_inv]
theorem State.startReduce_inv {c : Cmd} {a v : Nat} {past : List Nat} (hs : s.Inv) : (s.startReduce t id n c a v past).Inv := by
  grind [State.startReduce, Made.Inv, Target.Inv, State.cellLatest_inv, State.cellWrite_inv, State.charge_inv, State.elemTarget_inv,
      State.issueHeld_inv, State.issueWrite_inv, State.modCmd_inv, State.modStatus_inv, State.nodeEvent_inv, State.nodePath_inv,
      State.noteWrite_inv, State.sendAway_inv, State.statusFlags_inv, State.toNode_inv, State.tookGrant_inv]

/-! ### Grants (R292) -/

theorem State.faultCmd_inv (hs : s.Inv) : (s.faultCmd t id code).Inv := by
  grind [State.faultCmd, State.modCmd_inv]
theorem State.faultCmdAt_inv (hs : s.Inv) : (s.faultCmdAt t id n code).Inv := by
  grind [State.faultCmdAt, State.modCmd_inv]
theorem State.grantRead_inv {c : Cmd} (hs : s.Inv) : (s.grantRead t id c).1.Inv := by
  grind [State.grantRead, Made.Inv, State.faultCmd_inv, State.faultCmdAt_inv, State.modCmd_inv, State.startRead_inv]
theorem State.grantStore_inv {c : Cmd} (hs : s.Inv) : (s.grantStore t id c).1.Inv := by
  grind [State.grantStore, Made.Inv, State.faultCmd_inv, State.modCmd_inv, State.startReduce_inv, State.startWrite_inv,
      State.statusFlags_inv]
theorem State.grantCopy_inv {s : State} {t id : Nat} {c : Cmd} {sat : Bool} (hs : s.Inv) : (s.grantCopy t id c sat).1.Inv := by
  unfold State.grantCopy
  dsimp only
  split
  · grind [State.modCmd_inv, State.faultCmd_inv, State.startRead_inv, Made.Inv]
  · split
    · grind [Made.Inv, State.startRead_inv, State.faultCmdAt_inv]
    · split
      · exact State.modCmd_inv hs
      · exact State.faultCmd_inv hs
      · grind [Made.Inv, State.charge_inv, State.faultCmd_inv, State.modCmd_inv, State.startWrite_inv, State.statusFlags_inv]
theorem State.endCmd_inv (hs : s.Inv) : (s.endCmd t id code).Inv := by
  grind [State.endCmd, State.modCmd_inv]
theorem State.grantPop_inv {c : Cmd} (hs : s.Inv) : (s.grantPop t id c q).1.Inv := by
  grind [State.grantPop, State.askPop_inv, State.endCmd_inv]
theorem State.startRec_inv {c : Cmd} (hs : s.Inv) : (s.startRec t id c va d).Inv := by
  grind [State.startRec, State.modCmd_inv]
theorem State.grantOne_inv (hs : s.Inv) : (s.grantOne t id).1.Inv := by
  grind [State.grantOne, State.grantCopy_inv, State.grantPop_inv, State.grantRead_inv, State.grantStore_inv, State.startRec_inv]

/-! ### Ends of commands -/

theorem State.settleCmd_inv (hs : s.Inv) : (s.settleCmd t id).Inv := by
  grind [State.settleCmd, State.endCmd_inv, State.modCmd_inv, State.modStatus_inv, State.stopCmd_inv]
theorem State.refreshAll_inv (hs : s.Inv) : (s.refreshAll t).Inv := by
  grind [State.refreshAll, State.modTile_inv]
theorem State.grantFirst_inv {t : Nat} : ∀ {l : List Nat} {s : State}, s.Inv → (s.grantFirst t l).Inv
  | [], _, hs => hs
  | id :: rest, s, hs => by
    have ih := @State.grantFirst_inv t rest
    grind [State.grantFirst, State.grantOne_inv, State.modTile_inv, State.settleCmd_inv]
theorem State.sendAgain_inv {r : MemReq} (hs : s.Inv) : (s.sendAgain t r).Inv := by
  grind [State.sendAgain, Target.Inv, State.dropWrite_inv, State.elemTarget_inv, State.faultCmdAt_inv, State.modCmd_inv, State.modCtx_inv,
      State.nodeEvent_inv, State.nodePath_inv, State.sendAway_inv, State.toNode_inv, State.tookGrant_inv]
theorem State.nextAgain_inv (hs : s.Inv) : (s.nextAgain t).Inv := by
  grind [State.nextAgain, State.sendAgain_inv]
theorem execStreamRequestGrantState_inv (hs : s.Inv) : (execStreamRequestGrantState s t).Inv := by
  grind [execStreamRequestGrantState, State.grantFirst_inv, State.nextAgain_inv, State.refreshAll_inv]

/-! ### Data and tokens toward the fabric -/

theorem State.giveAnswer_inv {r : MemResp} (hs : s.Inv) : (s.giveAnswer t id r).Inv := by
  grind [State.giveAnswer, State.modCmd_inv, State.statusFlags_inv]
theorem State.takeResp_inv (hs : s.Inv) : (s.takeResp t id).Inv := by
  grind [State.takeResp, State.Inv, State.giveAnswer_inv]
theorem State.formFill_inv (hs : s.Inv) : (s.formFill t id).Inv := by
  grind [State.formFill, State.charge_inv, State.modCmd_inv]
theorem State.sendMembers_inv {c : Cmd} {k : Token} (hs : s.Inv) : (s.sendMembers t id c k n).Inv := by
  grind [State.sendMembers, State.chargePath_inv, State.modCmd_inv, State.modTile_inv, State.foldl_inv]
theorem State.placeToken_inv {s : State} {t id : Nat} (hs : s.Inv) : (s.placeToken t id).Inv := by
  unfold State.placeToken
  split
  · exact hs
  · split
    · exact hs
    · split
      · exact State.ite_inv (State.sendMembers_inv hs) hs
      · split
        · exact hs
        · refine State.ite_inv hs (State.modCmd_inv ?_)
          grind [State.charge_inv, State.emitFrom_inv, State.modStatus_inv]
theorem State.pumpPorts_inv (hs : s.Inv) : (s.pumpPorts t).Inv := by
  grind [State.pumpPorts, State.modTile_inv]
theorem execStreamDataReturnState_inv (hs : s.Inv) : (execStreamDataReturnState s t id).Inv := by
  grind [execStreamDataReturnState, State.formFill_inv, State.placeToken_inv, State.pumpPorts_inv, State.settleCmd_inv, State.takeResp_inv]

/-! ### Multicast members (R300) -/

theorem execMulticastSpaceReturnState_inv {m : Nat} (hs : s.Inv) : (execMulticastSpaceReturnState s t id m).Inv := by
  grind [execMulticastSpaceReturnState, State.charge_inv, State.creditSmc_inv, State.emitFrom_inv, State.modTile_inv, State.pumpPorts_inv]

/-! ### Tokens from the fabric -/

theorem State.consumeAt_inv {c : Cmd} {p : Nat} (hs : s.Inv) : (s.consumeAt t c p).Inv := by
  grind [State.consumeAt, State.charge_inv, State.modTile_inv]
theorem State.drainPort_inv {s s' : State} {t id : Nat} {c : Cmd} (hs : s.Inv) : ∀ {l : List Nat}, s.drainPort t id c l = some s' → s'.Inv
  | [], e => by cases e
  | p :: rest, e => by
    have ih := @State.drainPort_inv s s' t id c hs rest
    grind [State.drainPort, State.consumeAt_inv, State.modStatus_inv, State.modCmd_inv]
theorem State.takeIndex_inv {c : Cmd} (hs : s.Inv) (e : s.takeIndex t id c = some s') : s'.Inv := by
  grind [State.takeIndex, State.consumeAt_inv, State.modCmd_inv]
theorem State.takeData_inv {c : Cmd} (hs : s.Inv) (e : s.takeData t id c = some s') : s'.Inv := by
  grind [State.takeData, State.consumeAt_inv, State.modCmd_inv, State.modStatus_inv]
theorem State.takeOut_inv {c : Cmd} (hs : s.Inv) (e : s.takeOut t id c q = some s') : s'.Inv := by
  grind [State.takeOut, PushOut.Inv, State.bumpCursor_inv, State.charge_inv, State.consumeAt_inv, State.deliver_inv, State.endCmd_inv,
      State.failStore_inv, State.modCmd_inv, State.modStatus_inv, State.stopCmd_inv]
theorem State.takeRec_inv {c : Cmd} (hs : s.Inv) (e : s.takeRec t id c va d = some s') : s'.Inv := by
  grind [State.takeRec, State.bump_inv, State.consumeAt_inv, State.endCmd_inv, State.modCmd_inv, State.modSlot_inv]
theorem execStreamTokenTakeState_inv {s : State} {t id : Nat} (hs : s.Inv) : (execStreamTokenTakeState s t id).Inv := by
  have h1 := State.refreshAll_inv (t := t) hs
  unfold execStreamTokenTakeState
  dsimp only
  split
  · exact hs
  · split
    · exact h1
    · refine State.settleCmd_inv (State.getD_inv (fun s' e => ?_) h1)
      grind [→ State.drainPort_inv, → State.takeOut_inv, → State.takeRec_inv, → State.takeIndex_inv, → State.takeData_inv]

/-! ### Completion (R306) -/

theorem execStreamCompleteState_inv (hs : s.Inv) : (execStreamCompleteState s t id).Inv := by
  grind [execStreamCompleteState, State.failStore_inv, State.modSeq_inv, State.modSlot_inv, State.modStatus_inv, State.modTile_inv,
      State.notePipeWrites_inv, State.foldl_inv]

/-! ### A request applied -/

theorem State.memRead_inv {r : MemReq} (hs : s.Inv) : (s.memRead r n).1.Inv := by
  grind [State.memRead, State.eccHit_inv, State.foldl_inv]
theorem State.memLatest_inv {r : MemReq} (hs : s.Inv) : (s.memLatest r n).1.Inv := by
  grind [State.memLatest, State.eccHit_inv]
theorem State.modPort_inv {f : LinkPort → LinkPort} (hs : s.Inv) : (s.modPort port f).Inv := by
  grind [State.modPort, State.modPkg_inv]
theorem State.sendReply_inv {f : Flit} {waits : List Nat} (hs : s.Inv) : (s.sendReply port f waits).Inv := by
  grind [State.sendReply, State.modPort_inv]
theorem State.remoteAnswer_inv {dst tag : Nat} {data : List Byte} {waits : List Nat} (hs : s.Inv) :
    (s.remoteAnswer port lane dst tag ctx data waits).Inv := by
  grind [State.remoteAnswer, State.sendReply_inv]

/-! ### Queue pairs of the host port (R87, R88) -/

theorem State.rdmaAnswer_inv {r : RdmaReply} (hs : s.Inv) : (s.rdmaAnswer vf qp r).Inv := by
  grind [State.rdmaAnswer, State.modPkg_inv]
theorem State.setQp_inv {x : QpState} (hs : s.Inv) : (s.setQp vf qp x).Inv := by
  grind [State.setQp, State.modPkg_inv]
theorem State.qpError_inv (hs : s.Inv) : (s.qpError vf qp).Inv := by
  grind [State.qpError, State.rdmaAnswer_inv, State.setQp_inv]
theorem State.hostGot_inv {job lo : Nat} {data : List Byte} {past : List Nat} (hs : s.Inv) : (s.hostGot vf qp job lo data past).Inv := by
  grind [State.hostGot, State.setQp_inv]
theorem State.refuseJobs_inv (hs : s.Inv) : (s.refuseJobs i).Inv := by
  grind [State.refuseJobs, State.qpError_inv, State.foldl_inv]
theorem State.answer_inv {r : MemReq} {data : Nat} {past : List Nat} {rmw : Bool} (hs : s.Inv) : (s.answer r n data past rmw).Inv := by
  grind [State.answer, State.Inv, State.hostGot_inv, State.modPort_inv, State.remoteAnswer_inv]
theorem State.putResult_inv {r : MemReq} {new : Nat} {past : List Nat} (hs : s.Inv) : (s.putResult r n new past).Inv := by
  grind [State.putResult, State.Inv, State.applyWrite_inv]
theorem State.performed_inv {r : MemReq} {fl : Flags} (hs : s.Inv) : (s.performed r fl).Inv := by
  grind [State.performed, State.modStatus_inv, State.statusFlags_inv]
theorem State.replicate_inv {r : MemReq} (hs : s.Inv) : (s.replicate r).Inv := by
  grind [State.replicate, State.sendLine_inv]
theorem State.applyReq_inv {r : MemReq} (hs : s.Inv) : (s.applyReq r).Inv := by
  grind [State.applyReq, State.Inv, State.answer_inv, State.applyWrite_inv, State.joinBatch_inv, State.memLatest_inv, State.memRead_inv,
      State.nodeEvent_inv, State.performed_inv, State.putResult_inv, State.replicate_inv]
theorem State.refuseReply_inv (hs : s.Inv) : (s.refuseReply i).Inv := by
  grind [State.refuseReply, State.modPkg_inv]
theorem State.refuseReq_inv {s : State} {r : MemReq} (hs : s.Inv) : (s.refuseReq r).Inv := by
  unfold State.refuseReq
  dsimp only
  split
  · exact State.dropWrite_inv (State.failStore_inv hs)
  · exact (State.answer_inv (State.dropWrite_inv (State.failStore_inv hs)) : State.Inv _)
  · split
    · exact (State.answer_inv (State.dropWrite_inv (State.failStore_inv hs)) : State.Inv _)
    · exact State.dropWrite_inv (State.failStore_inv hs)
  · exact State.refuseJobs_inv (State.refuseReply_inv (State.dropWrite_inv hs))
  · exact State.refuseJobs_inv (State.refuseReply_inv (State.dropWrite_inv hs))
  · exact State.sendReply_inv (State.dropWrite_inv hs)
theorem State.linkReq_inv {r : MemReq} (hs : s.Inv) : (s.linkReq r).1.Inv := by
  grind [State.linkReq, State.modCmd_inv]
theorem State.applyFirst_inv {pick : MemReq → Bool} (hs : s.Inv) : (s.applyFirst d k pick).Inv := by
  grind [State.applyFirst, State.applyReq_inv, State.linkReq_inv, State.modDie_inv, State.refuseReq_inv]

/-! ### Values returned to a core -/

theorem State.finishLate_inv (hs : s.Inv) : (s.finishLate t).Inv := by
  grind [State.finishLate, State.Inv, State.completeBundle_inv, State.modTile_inv, lateAct_inv]
theorem State.takeLoad_inv (hs : s.Inv) : (s.takeLoad t).Inv := by
  grind [State.takeLoad, State.Inv, State.modStrand_inv, State.returnValue_inv]
theorem execLoadReturn_keeps : KeepsInv (execLoadReturn t) := engine_keeps fun s h => by
  grind [State.finishLate_inv, State.takeLoad_inv]

/-! ### Batches and replica lines (R334, R341) -/

theorem State.showBatch_inv {a b : Nat} (hs : s.Inv) : (s.showBatch a b).Inv := by
  grind [State.showBatch, State.Inv, State.applyLine_inv, State.modDie_inv, State.settle_inv, State.foldl_inv]
theorem execWriteBatchSeal_keeps : KeepsInv (execWriteBatchSeal d) := engine_keeps fun s h => by
  grind [State.sealBatch_inv]
theorem State.nextLine_inv {e : Nat} (hs : s.Inv) : (s.nextLine e).Inv := by
  grind [State.nextLine, State.applyLine_inv, State.showBatch_inv]

/-! ### Tokens between strands (R359) -/

theorem State.modTileOf_inv {f : Tile → Tile} (hs : s.Inv) : (s.modTileOf c t f).Inv := by
  grind [State.modTileOf, State.modCtx_inv, State.modTile_inv]
theorem execTokenDeliver_keeps : KeepsInv (execTokenDeliver c) := engine_keeps fun s h => by
  grind [State.modCtx_inv, State.modTileOf_inv]

/-! ### Slots and spill -/

theorem execSlotWriteback_keeps : KeepsInv (execSlotWriteback d) := engine_keeps fun s h => by
  grind [State.slotOut_inv]
theorem State.spillBack_inv (hs : s.Inv) : (s.spillBack c slot q).Inv := by
  grind [State.spillBack, Xl.Inv, State.modQueue_inv, State.spillEvents_inv, State.spillFail_inv, State.translate_inv]

/-! ### Steps of the engines written in earlier files -/

theorem execMigrateRecheck_keeps : KeepsInv (execMigrateRecheck d) := engine_keeps fun s h => by
  grind [State.recheckMigrating_inv]
theorem execInvalidationComplete_keeps : KeepsInv (execInvalidationComplete) := engine_keeps fun s h => by
  grind [execInvalidationCompleteState_inv]
theorem execIndexFetch_keeps : KeepsInv (execIndexFetch t) := engine_keeps fun s h => by
  grind [execIndexFetchState_inv]
theorem execPrefetchFill_keeps : KeepsInv (execPrefetchFill t n) := engine_keeps fun s h => by
  grind [execPrefetchFillState_inv]
theorem execPendingTrapTake_keeps : KeepsInv (execPendingTrapTake t) := engine_keeps fun s h => by
  grind [execPendingTrapState_inv]
theorem execDividerAssign_keeps : KeepsInv (execDividerAssign c slot q) := engine_keeps fun s h => by
  grind [execDividerAssignState_inv]
theorem execCellWriteVisible_keeps : KeepsInv (execCellWriteVisible t) := engine_keeps fun s h => by
  grind [execCellWriteVisibleState_inv]
theorem execStreamRequestGrant_keeps : KeepsInv (execStreamRequestGrant t) := engine_keeps fun s h => by
  grind [execStreamRequestGrantState_inv]
theorem execStreamDataReturn_keeps : KeepsInv (execStreamDataReturn t id) := engine_keeps fun s h => by
  grind [execStreamDataReturnState_inv]
theorem execStreamTokenTake_keeps : KeepsInv (execStreamTokenTake t id) := engine_keeps fun s h => by
  grind [execStreamTokenTakeState_inv]
theorem execStreamComplete_keeps : KeepsInv (execStreamComplete t id) := engine_keeps fun s h => by
  grind [execStreamCompleteState_inv]
theorem execMulticastSpaceReturn_keeps {m : Nat} : KeepsInv (execMulticastSpaceReturn t id m) := engine_keeps fun s h => by
  grind [execMulticastSpaceReturnState_inv]

end Sys2Proof.Machine
end

section
/-! SUPPORT. Memory's canonical form under the fabric's rounds, charges, launches, stages, the proofer, the scheduler, the start of a task and the
lamplighter. -/

namespace Sys2Proof.Machine

variable {s s' pre : State} {c slot g q t n k d id code ctx dom i lane pa port qp va vf : Nat}

/-! ### Selection (R218, R222) -/

theorem State.startFiring_inv {f : Nat} {ready : List (Nat × Need)} {n : Need} (hs : s.Inv) : (s.startFiring t f c ready g n).Inv := by
  grind [State.startFiring, State.charge_inv, State.modTile_inv, State.record_inv, → State.takeRecord_inv, State.foldl_inv]
theorem State.chooseGroups_inv (hs : s.Inv) : (s.chooseGroups t).Inv := by
  grind [State.chooseGroups, State.startFiring_inv, State.foldl_inv]

/-! ### Executing an element (R236) -/

theorem State.elemDone_inv {idx : Nat} {h : Held} {e : Elem} {o : List Opnd} (hs : s.Inv) : (s.elemDone t c idx h e o).s.Inv := by
  grind [State.elemDone, State.modTile_inv, cellMemOp_inv, islandOp_inv, matrixOp_inv, mergeOp_inv, structOp_inv]
theorem State.emitCell_inv {k : Token} (hs : s.Inv) : (s.emitCell t c port k).Inv := by
  grind [State.emitCell, State.charge_inv, State.modTile_inv, State.foldl_inv]
theorem State.sendRet_inv {e : Elem} {h : Held} {a : Opnd} {past : List Nat} (hs : s.Inv) : (s.sendRet t c e h a past).Inv := by
  grind [State.sendRet, State.charge_inv, State.modTile_inv]
theorem State.execElement_inv {h : Held} {gd : Group} {e : Elem} {o : List Opnd} (hs : s.Inv) : (s.execElement t c h gd e o).Inv := by
  grind [State.execElement, State.charge_inv, State.elemDone_inv, State.emitCell_inv, State.modTile_inv, State.postCause_inv,
      State.sendRet_inv, State.foldl_inv]
theorem State.runElement_inv {only : Bool} (hs : s.Inv) : (s.runElement t c only).Inv := by
  grind [State.runElement, State.execElement_inv]
theorem State.acceptEnds_inv (hs : s.Inv) : (s.acceptEnds t).Inv := by
  grind [State.acceptEnds, State.modTile_inv]
theorem execGroupFiringState_inv (hs : s.Inv) : (execGroupFiringState s t c).Inv := by
  grind [execGroupFiringState, State.acceptEnds_inv, State.chooseGroups_inv, State.runElement_inv]
theorem execElementWatermarkResumeState_inv (hs : s.Inv) : (execElementWatermarkResumeState s t c).Inv := by
  grind [execElementWatermarkResumeState, State.runElement_inv]

/-! ### The end of a round (R227, R228, R384) -/

theorem State.endRound_inv (hs : s.Inv) : (s.endRound t).Inv := by
  grind [State.endRound, State.modStrand_inv, State.modTile_inv, State.foldl_inv]
theorem execRoundCompleteState_inv (hs : s.Inv) : (execRoundCompleteState s t).Inv := by
  grind [execRoundCompleteState, State.acceptEnds_inv, State.endRound_inv, State.modTile_inv]
theorem execRoundDeadlockState_inv (hs : s.Inv) : (execRoundDeadlockState s t).Inv := by
  grind [execRoundDeadlockState, State.acceptEnds_inv, State.endRound_inv, State.modTile_inv, State.postCause_inv, State.stopCmd_inv,
      State.foldl_inv]
theorem execGroupFiring_keeps : KeepsInv (execGroupFiring t c) := engine_keeps fun s h => by
  grind [execGroupFiringState_inv]
theorem execElementWatermarkResume_keeps : KeepsInv (execElementWatermarkResume t c) := engine_keeps fun s h => by
  grind [execElementWatermarkResumeState_inv]
theorem execRoundComplete_keeps : KeepsInv (execRoundComplete t) := engine_keeps fun s h => by
  grind [execRoundCompleteState_inv]
theorem execRoundDeadlock_keeps : KeepsInv (execRoundDeadlock t) := engine_keeps fun s h => by
  grind [execRoundDeadlockState_inv]

/-! ### Stops asked for (R386) -/

theorem State.askStop_inv {dest : CtxState} {cause : Nat} (hs : s.Inv) : (s.askStop c dest cause).Inv := by
  grind [State.askStop, State.modCtx_inv]
theorem State.gutter_inv (hs : s.Inv) : (s.gutter c).Inv := by
  grind [State.gutter, State.askStop_inv, State.event_inv, State.modCtx_inv]
theorem State.ungutter_inv (hs : s.Inv) : (s.ungutter c).Inv := by
  grind [State.ungutter, State.modCtx_inv]

/-! ### Applications (R104) -/

theorem State.arrive_inv {amt : Int} (hs : s.Inv) : (s.arrive c amt).Inv := by
  grind [State.arrive, State.modDie_inv]
theorem State.applyDelta_inv {amt : Int} {allow : Bool} (hs : s.Inv) : (s.applyDelta c amt allow).Inv := by
  grind [State.applyDelta, State.event_inv, State.gutter_inv, State.modCtx_inv, State.ungutter_inv]
theorem execChargeApply_keeps : KeepsInv (execChargeApply d) := engine_keeps fun s h => by
  grind [State.applyDelta_inv, State.modDie_inv]
theorem State.applyArrivals_inv (hs : s.Inv) : (s.applyArrivals d).Inv := by
  grind [State.applyArrivals, State.applyDelta_inv, State.modDie_inv, State.foldl_inv]
theorem execAccountForward_keeps : KeepsInv (execAccountForward d) := engine_keeps fun s h => by
  grind [State.modDie_inv, State.foldl_inv]
theorem execMeterResidueSend_keeps : KeepsInv (execMeterResidueSend t) := engine_keeps fun s h => by
  grind [State.modTile_inv, State.toAccount_inv]
theorem State.leaveResidue_inv (hs : s.Inv) : (s.leaveResidue t).Inv := by
  grind [State.leaveResidue, State.modTile_inv, State.toAccount_inv]

/-! ### The fabric clock (R19-R21, R101) -/

theorem State.tileEdge_inv (hs : s.Inv) : (s.tileEdge t).Inv := by
  grind [State.tileEdge, State.charge_inv, State.modTile_inv]
theorem execFcEdge_keeps : KeepsInv (execFcEdge d) := engine_keeps fun s h => by
  grind [State.modDie_inv, State.tileEdge_inv, State.foldl_inv]

/-! ### Reads and writes of virtual memory that the device itself makes -/

theorem State.chargeRun_inv {pas : List Nat} {write : Bool} (hs : s.Inv) : (s.chargeRun ctx t va n pas write).Inv := by
  grind [State.chargeRun, State.nodeEvent_inv, State.nodePath_inv, State.foldl_inv]
theorem State.readVa_inv {who : Requester} {super : Bool} (hs : s.Inv) : (s.readVa who ctx t va n super).Inv := by
  grind [State.readVa, PagesXl.Inv, VaRead.Inv, State.chargeRun_inv, State.xlPages_inv]
theorem State.putRun_inv {pas reps : List Nat} {data : List Byte} (hs : s.Inv) : (s.putRun d ctx va pas reps data).Inv := by
  grind [State.putRun, State.devLine_inv, State.foldl_inv]
theorem State.writeVa_inv {who : Requester} {data : List Byte} {super : Bool} (hs : s.Inv) : (s.writeVa who ctx t va data super).Inv := by
  grind [State.writeVa, PagesXl.Inv, VaWrite.Inv, State.chargeRun_inv, State.putRun_inv, State.xlPages_inv]

/-! ### A load (R226, R354) -/

theorem State.loadDone_inv {l : ImageLoad} {w : Word} (hs : s.Inv) : (s.loadDone t l w).Inv := by
  grind [State.loadDone, State.modStrand_inv, State.modTile_inv]
theorem State.configure_inv {im : Image} {strand : Option Nat} (hs : s.Inv) : (s.configure t im strand).Inv := by
  grind [State.configure, State.charge_inv, State.modTile_inv, State.foldl_inv]
theorem State.readImage_inv (hs : s.Inv) : (s.readImage t va).Inv := by
  grind [State.readImage, ImageRead.Inv, VaRead.Inv, State.readVa_inv]
theorem execFabricImageLoadState_inv {s : State} {t : Nat} (hs : s.Inv) : (execFabricImageLoadState s t).Inv := by
  have hi : ∀ va, (s.readImage t va).Inv := fun _ => State.readImage_inv hs
  obtain ⟨readImage, ei⟩ : ∃ f, s.readImage t = f := ⟨_, rfl⟩
  unfold execFabricImageLoadState
  rw [ei] at hi ⊢
  grind [ImageRead.Inv, State.configure_inv, State.loadDone_inv, State.modTile_inv]
theorem execFabricImageLoad_keeps : KeepsInv (execFabricImageLoad t) := engine_keeps fun s h => by
  grind [execFabricImageLoadState_inv]

/-! ### Tiles (R116, R120) -/

theorem State.moveFromPool_inv {grant : Bool} (hs : s.Inv) : (s.moveFromPool c t slot g grant).Inv := by
  grind [State.moveFromPool, State.modCtx_inv, State.modPart_inv, State.modTile_inv]
theorem State.moveFromStage_inv {fromKey : Nat × Nat} {grant : Bool} (hs : s.Inv) : (s.moveFromStage c t fromKey slot g grant).Inv := by
  grind [State.moveFromStage, State.modCtx_inv, State.modTile_inv]
theorem State.loggedMove_inv {r : Crumb} (hs : s.Inv) (e : s.loggedMove c r = some s') : s'.Inv := by
  grind [State.loggedMove, State.moveFromPool_inv, State.moveFromStage_inv]
theorem State.grantTile_inv {s : State} {c slot g : Nat} (hs : s.Inv) : (s.grantTile c slot g).Inv := by
  unfold State.grantTile
  dsimp only
  split
  · split
    · exact hs
    · next e => 
      have h1 := State.takeRecord_inv hs e
      exact State.getD_inv (fun _ => State.loggedMove_inv h1) (State.replayDiv_inv h1)
  · grind [State.moveFromPool_inv, State.moveFromStage_inv]
theorem State.grantMins_inv (hs : s.Inv) : (s.grantMins c slot).Inv := by
  grind [State.grantMins, State.grantTile_inv, State.foldl_inv]

/-! ### LAUNCH_START -/

theorem State.decideEnd_inv {status : Nat} {body : List Byte} (hs : s.Inv) : (s.decideEnd c slot status body).Inv := by
  grind [State.decideEnd, State.modPipe_inv]
theorem State.startPipe_inv (hs : s.Inv) : (s.startPipe c slot).Inv := by
  grind [State.startPipe, State.decideEnd_inv, State.grantMins_inv, State.modPipe_inv, State.modTile_inv, State.foldl_inv]
theorem execLaunchStart_keeps : KeepsInv (execLaunchStart c slot) := engine_keeps fun s h => by
  grind [VaRead.Inv, State.decideEnd_inv, State.grantMins_inv, State.modPipe_inv, State.readVa_inv, State.startPipe_inv]

/-! ### Preloads held (R109, R160) -/

theorem State.chargeHeld_inv (hs : s.Inv) : (s.chargeHeld t).Inv := by
  grind [State.chargeHeld, State.meterCtx_inv, State.modTile_inv]
theorem State.discardPreloads_inv {pick : Nat → Preload → Bool} (hs : s.Inv) : (s.discardPreloads pick).Inv := by
  grind [State.discardPreloads, State.meterHouse_inv, State.modTile_inv, State.foldl_inv]

/-! ### Leaving a stage (R123, steps 1 to 4) -/

theorem State.recordMove_inv {m : Move} (hs : s.Inv) : (s.recordMove c m).Inv := by
  grind [State.recordMove, State.record_inv]
theorem State.endMoves_inv (hs : s.Inv) : (s.endMoves t).Inv := by
  grind [State.endMoves, State.modCtx_inv, State.modStage_inv, State.recordMove_inv, State.foldl_inv]
theorem State.toPool_inv (hs : s.Inv) : (s.toPool t).Inv := by
  grind [State.toPool, State.endMoves_inv, State.modPart_inv, State.modStage_inv, State.modTile_inv]
theorem State.pushSuspended_inv (hs : s.Inv) : (s.pushSuspended t).Inv := by
  grind [State.pushSuspended, State.toResume_inv, State.foldl_inv]
theorem State.leaveMulticasts_inv (hs : s.Inv) : (s.leaveMulticasts t).Inv := by
  grind [State.leaveMulticasts, State.dropMember_inv, State.foldl_inv]
theorem State.dropHolds_inv (hs : s.Inv) : (s.dropHolds c t).Inv := by
  grind [State.dropHolds, State.Inv, State.modTileOf_inv]
theorem State.clearTile_inv (hs : s.Inv) : (s.clearTile t).Inv := by
  grind [State.clearTile, State.charge_inv, State.discardPreloads_inv, State.dropHolds_inv, State.modCtx_inv, State.modTile_inv]
theorem execMoveTakeup_keeps : KeepsInv (execMoveTakeup t) := engine_keeps fun s h => by
  grind [State.clearTile_inv, State.leaveMulticasts_inv, State.modTile_inv, State.pushSuspended_inv, State.toPool_inv]

/-! ### Taking up a stage (R123, step 5; R155, R156) -/

theorem State.takenUp_inv (hs : s.Inv) : (s.takenUp t).Inv := by
  grind [State.takenUp, State.endMoves_inv, State.modStage_inv, State.modTile_inv]
theorem State.loadFail_inv (hs : s.Inv) : (s.loadFail t va).Inv := by
  grind [State.loadFail, State.fatal_inv, State.modTile_inv]
theorem State.dictDone_inv {d : StageDesc} (hs : s.Inv) : (s.dictDone t d).Inv := by
  grind [State.dictDone, State.modTile_inv, State.takenUp_inv]
theorem execStageTakeup_keeps {t : Nat} : KeepsInv (execStageTakeup t) := engine_keeps fun s hs => by
  have hv : ∀ who c t va n super, (s.readVa who c t va n super).Inv := fun _ _ _ _ _ _ => State.readVa_inv hs
  have hi : ∀ va, (s.readImage t va).Inv := fun _ => State.readImage_inv hs
  -- the readers become variables, so that the kernel, which compares the branches below, does not evaluate them
  obtain ⟨readVa, ev⟩ : ∃ f, s.readVa = f := ⟨_, rfl⟩
  obtain ⟨readImage, ei⟩ : ∃ f, s.readImage t = f := ⟨_, rfl⟩
  rw [ev] at hv ⊢
  rw [ei] at hi ⊢
  grind [VaRead.Inv, ImageRead.Inv, State.modTile_inv, State.dictDone_inv, State.loadFail_inv, State.takenUp_inv, State.configure_inv]

/-! ### TRIG counts (R99, R363) -/

theorem execTrigCount_keeps : KeepsInv (execTrigCount c) := engine_keeps fun s h => by
  grind [State.modCtx_inv, State.modPipe_inv]

/-! ### Retirement of a stage (R397, R398) -/

theorem State.divertMoves_inv (hs : s.Inv) : (s.divertMoves c slot g).Inv := by
  grind [State.divertMoves, State.modCtx_inv, State.modTileOf_inv, State.foldl_inv]
theorem State.sendTilesHome_inv (hs : s.Inv) : (s.sendTilesHome c slot g).Inv := by
  grind [State.sendTilesHome, State.modTileOf_inv, State.foldl_inv]
theorem execStageRetire_keeps : KeepsInv (execStageRetire c slot g) := engine_keeps fun s h => by
  grind [State.divertMoves_inv, State.dropHolds_inv, State.modCtx_inv, State.modPipe_inv, State.modStage_inv, State.sendTilesHome_inv,
      State.foldl_inv]

/-! ### The end of a pipeline (R97, R99, R399) -/

theorem State.endPipe_inv {status : Nat} {body : List Byte} (hs : s.Inv) : (s.endPipe c slot status body).Inv := by
  grind [State.endPipe, State.discardPreloads_inv, State.event_inv, State.modCtx_inv]
theorem execPipelineRetire_keeps : KeepsInv (execPipelineRetire c slot) := engine_keeps fun s h => by
  grind [VaWrite.Inv, State.decideEnd_inv, State.endPipe_inv, State.writeVa_inv]

/-! ### The proofer -/

theorem execProofSample_keeps {pt : Nat} : KeepsInv (execProofSample pt) := engine_keeps fun s h => by
  grind [State.modPart_inv, State.modStage_inv, State.foldl_inv]
theorem State.proofLoop_inv {pt c : Nat} : ∀ (n : Nat) {l : List (Nat × Nat)} {s : State}, s.Inv → (s.proofLoop pt c n l).Inv
  | 0, _, _, hs => hs
  | n + 1, l, s, hs => by
    unfold State.proofLoop
    dsimp only
    split
    · exact hs
    · split
      · exact State.proofLoop_inv n (State.moveFromPool_inv hs)
      · split
        · exact hs
        · refine State.ite_inv hs ?_
          split
          · exact hs
          · exact State.proofLoop_inv n (State.moveFromStage_inv hs)
theorem State.proofReplay_inv {c : Nat} : ∀ (n : Nat) {s : State}, s.Inv → (s.proofReplay c n).Inv
  | 0, _, hs => hs
  | n + 1, s, hs => by
    unfold State.proofReplay
    split
    · exact hs
    · next e => 
      have h1 := State.takeRecord_inv hs e
      exact State.proofReplay_inv n (State.getD_inv (fun _ => State.loggedMove_inv h1) (State.replayDiv_inv h1))
theorem State.loggedScale_inv {s : State} {c dom : Nat} {y0 : BitVec 16} {s' : State} (hs : s.Inv) (e : s.loggedScale c dom = some (y0,
    s')) :
    s'.Inv := by
  obtain ⟨⟨r, _⟩, hr, ⟨⟩⟩ := Option.map_eq_some_iff.mp e
  exact State.takeRecord_inv hs hr
theorem State.takeTileScales_inv {pt : Nat} (hs : s.Inv) : (s.takeTileScales pt c).Inv := by
  grind [State.takeTileScales, State.modTile_inv, State.record_inv, State.foldl_inv]
theorem State.takeLoggedScales_inv (hs : s.Inv) : (s.takeLoggedScales c).Inv := by
  grind [State.takeLoggedScales, → State.loggedScale_inv, State.modCtx_inv, State.foldl_inv]
theorem State.takeScales_inv {pt : Nat} (hs : s.Inv) : (s.takeScales pt c).Inv := by
  grind [State.takeScales, State.takeLoggedScales_inv, State.takeTileScales_inv]
theorem State.logScales_inv {pt : Nat} (hs : s.Inv) : (s.logScales pt c).Inv := by
  grind [State.logScales, State.modTile_inv, State.record_inv, State.foldl_inv]
theorem execProofIntervalEnd_keeps {pt : Nat} : KeepsInv (execProofIntervalEnd pt) := engine_keeps fun s h => by
  grind [State.modCtx_inv, State.modPart_inv, State.modStage_inv, State.proofLoop_inv, State.proofReplay_inv, State.takeScales_inv,
      State.foldl_inv]

/-! ### Runnable contexts (R91, R92) -/

theorem execSliceEnd_keeps {pt : Nat} : KeepsInv (execSliceEnd pt) := engine_keeps fun s h => by
  grind [State.askStop_inv]

/-! ### Preloads (R159) -/

theorem execPreload_keeps : KeepsInv (execPreload t) := engine_keeps fun s h => by
  grind [VaRead.Inv, State.modTile_inv, State.readVa_inv]

/-! ### Tiles at dispatch and at a stop -/

theorem State.leaveTiles_inv {keep : Bool} (hs : s.Inv) : (s.leaveTiles c keep).Inv := by
  grind [State.leaveTiles, State.leaveResidue_inv, State.modCtx_inv, State.modPart_inv, State.modTile_inv, State.foldl_inv]

/-! ### The stop sequence, steps 1 to 4 (R387) -/

theorem State.takeOwed_inv {l : List Nat} (hs : s.Inv) : (s.takeOwed l).Inv := by
  grind [State.takeOwed, State.giveAnswer_inv, State.foldl_inv]
theorem State.withdraw_inv {l : List Nat} (hs : s.Inv) : (s.withdraw c l).Inv := by
  grind [State.withdraw, State.Inv, State.modCtx_inv, State.takeOwed_inv]
theorem State.withdrawAsks_inv (hs : s.Inv) : (s.withdrawAsks c).Inv := by
  grind [State.withdrawAsks, State.modCtx_inv]
theorem State.recordStop_inv (hs : s.Inv) : (s.recordStop c).Inv := by
  grind [State.recordStop, State.record_inv, State.foldl_inv]
theorem State.faultOut_inv (hs : s.Inv) : (s.faultOut c t i).Inv := by
  grind [State.faultOut, State.modTileOf_inv, State.foldl_inv]
theorem State.faultOuts_inv {l : List Nat} (hs : s.Inv) : (s.faultOuts c l).Inv := by
  grind [State.faultOuts, State.faultOut_inv, State.foldl_inv]
theorem State.dropPreloads_inv (hs : s.Inv) : (s.dropPreloads c).Inv := by
  grind [State.dropPreloads, State.discardPreloads_inv]
theorem State.stopSteps_inv (hs : s.Inv) : (s.stopSteps c).Inv := by
  grind [State.stopSteps, State.dropPreloads_inv, State.faultOuts_inv, State.modCtx_inv, State.modTile_inv, State.recordStop_inv,
      State.withdraw_inv, State.withdrawAsks_inv, State.foldl_inv]

/-! ### Destroying a context (R400) -/

theorem State.killXlate_inv (hs : s.Inv) : (s.killXlate c va).Inv := by
  grind [State.killXlate, Xl.Inv, State.fillDie_inv, → State.fillFrom_inv, State.tlbLookup_inv, State.uncore_inv, State.use_inv]
theorem State.killToken_inv {status : Nat} (hs : s.Inv) : (s.killToken c slot status).Inv := by
  grind [State.killToken, Xl.Inv, State.devLine_inv, State.event_inv, State.killXlate_inv, State.modPipe_inv, State.nodeEvent_inv,
      State.nodePath_inv]
theorem State.forget_inv (hs : s.Inv) : (s.forget c).Inv := by
  grind [State.forget, State.Inv]
theorem State.finishDestroy_inv {rid : Nat} (hs : s.Inv) : (s.finishDestroy c rid).Inv := by
  grind [State.finishDestroy, State.applyArrivals_inv, State.discardPreloads_inv, State.forget_inv, State.leaveTiles_inv, State.modCtx_inv,
      State.send_inv]
theorem State.dropWithdrawn_inv (hs : s.Inv) : (s.dropWithdrawn c).Inv := by
  grind [State.dropWithdrawn, State.dropWrite_inv, State.modCtx_inv, State.foldl_inv]
theorem State.goDestroy_inv {rid : Nat} (hs : s.Inv) : (s.goDestroy c rid).Inv := by
  grind [State.goDestroy, State.dropWithdrawn_inv, State.finishDestroy_inv, State.killToken_inv, State.stopSteps_inv, State.foldl_inv]

/-! ### Saving (R387 step 5, R389-R391) -/

theorem State.enterStopped_inv (hs : s.Inv) : (s.enterStopped c).Inv := by
  grind [State.enterStopped, State.event_inv, State.leaveTiles_inv, State.modCtx_inv, State.sendFault_inv]
theorem execStopSequence_keeps : KeepsInv (execStopSequence c) := engine_keeps fun s h => by
  grind [State.dropPreloads_inv, State.enterStopped_inv, State.goDestroy_inv, State.recordStop_inv, State.stopSteps_inv]
theorem State.saveFault_inv (hs : s.Inv) : (s.saveFault c va).Inv := by
  grind [State.saveFault, State.enterStopped_inv, State.modCtx_inv]
theorem execSaveComplete_keeps : KeepsInv (execSaveComplete c) := engine_keeps fun s h => by
  grind [VaWrite.Inv, State.charge_inv, State.enterStopped_inv, State.modCtx_inv, State.saveFault_inv, State.writeVa_inv]

/-! ### Dispatch and restore (R92, R115, R388) -/

theorem State.walkAgain_inv (hs : s.Inv) : (s.walkAgain c).Inv := by
  grind [State.walkAgain, State.Inv]
theorem State.putBack_inv (hs : s.Inv) : (s.putBack c).Inv := by
  grind [State.putBack, State.modCtx_inv, State.modPart_inv, State.modTile_inv, State.walkAgain_inv, State.foldl_inv]
theorem State.restoreFault_inv (hs : s.Inv) : (s.restoreFault c va).Inv := by
  grind [State.restoreFault, State.leaveResidue_inv, State.modCtx_inv, State.modPart_inv, State.modTile_inv, State.sendFault_inv,
      State.foldl_inv]
theorem State.restoreStep_inv (hs : s.Inv) : (s.restoreStep c).Inv := by
  grind [State.restoreStep, PagesXl.Inv, State.charge_inv, State.chargeRun_inv, State.eccHit_inv, State.modCtx_inv, State.putBack_inv,
      State.restoreFault_inv, State.xlPages_inv, State.foldl_inv]
theorem State.takeModes_inv {pt : Nat} (hs : s.Inv) : (s.takeModes pt c).Inv := by
  grind [State.takeModes, State.logScales_inv, State.modCtx_inv, State.modPart_inv]
theorem State.dispatch_inv {pt : Nat} (hs : s.Inv) : (s.dispatch pt c).Inv := by
  grind [State.dispatch, State.discardPreloads_inv, State.meterHouse_inv, State.modCtx_inv, State.modPart_inv, State.modTile_inv,
      State.takeModes_inv, State.foldl_inv]
theorem State.restIfIdle_inv {pt : Nat} (hs : s.Inv) : (s.restIfIdle pt c).Inv := by
  grind [State.restIfIdle, State.leaveTiles_inv, State.modCtx_inv]
theorem execContextDispatch_keeps {pt : Nat} : KeepsInv (execContextDispatch pt) := engine_keeps fun s h => by
  grind [State.dispatch_inv, State.restIfIdle_inv, State.restoreStep_inv]

/-! ### Strand selection (R184, R189) and the start of a task (R185, R122, R396) -/

theorem State.startStrand_inv {s : State} {t n : Nat} (hs : s.Inv) : (s.startStrand t n).Inv := by
  unfold State.startStrand
  dsimp only
  split
  · exact hs
  · split
    · split <;> grind [State.charge_inv, State.chargeHeld_inv, State.modStage_inv, State.modStrand_inv, State.modTile_inv,
        State.takeEntry_inv]
    · exact State.modTile_inv (State.modStrand_inv (State.chargeHeld_inv hs))
theorem execStrandSelect_keeps : KeepsInv (execStrandSelect t) := engine_keeps fun s h => by
  grind [State.startStrand_inv]

/-! ### Units (R27-R30) -/

theorem State.refreshHealth_inv (hs : s.Inv) : (s.refreshHealth).Inv := by
  grind [State.refreshHealth, State.event_inv, State.modPkg_inv, State.foldl_inv]
theorem State.setUnit_inv {u : Nat} {x : UnitState} (hs : s.Inv) : (s.setUnit u x).Inv := by
  grind [State.setUnit, State.event_inv, State.modPkg_inv, State.refreshHealth_inv]
theorem execUnitTestStart_keeps {u : Nat} : KeepsInv (execUnitTestStart u) := engine_keeps fun s h => by
  grind [State.setUnit_inv]
theorem execUnitTestDone_keeps {u : Nat} {pass : Bool} : KeepsInv (execUnitTestDone u pass) := engine_keeps fun s h => by
  grind [State.setUnit_inv]

/-! ### Failure in service (R29, R346) -/

theorem State.refuseAt_inv {u : Nat} (hs : s.Inv) : (s.refuseAt u).Inv := by
  grind [State.refuseAt, State.Inv, State.refuseReq_inv, State.foldl_inv]
theorem State.unitFault_inv {pt u : Nat} (hs : s.Inv) : (s.unitFault pt u).Inv := by
  grind [State.unitFault, State.fatal_inv, State.modCtx_inv, State.foldl_inv]
theorem State.failUnit_inv {u : Nat} (hs : s.Inv) : (s.failUnit u).Inv := by
  grind [State.failUnit, State.refuseAt_inv, State.setUnit_inv, State.unitFault_inv, State.foldl_inv]
theorem execUnitFailInService_keeps {u : Nat} : KeepsInv (execUnitFailInService u) := engine_keeps fun s h => by
  grind [State.failUnit_inv]

/-! ### Power and temperature (R26) -/

theorem State.trip_inv {l : List Int} (hs : s.Inv) : (s.trip l).Inv := by
  grind [State.trip, State.askStop_inv, State.event_inv, State.modPkg_inv, State.foldl_inv]
theorem State.tripped_inv (hs : s.Inv) : (s.tripped).Inv := by
  grind [State.tripped, State.modPkg_inv]
theorem execPowerCheck_keeps {mw : Nat} {hot : List Int} : KeepsInv (execPowerCheck mw hot) := engine_keeps fun s h => by
  grind [State.modPkg_inv, State.trip_inv, State.tripped_inv]

/-! ### Calibration and shared costs (R107, R108) -/

theorem State.share_inv {nj : Int} (hs : s.Inv) : (s.share c nj).Inv := by
  grind [State.share, State.arrive_inv]
theorem State.split_inv {s : State} {cost : Int} {weights : List (Nat × Nat)} {total : Nat} (hs : s.Inv) :
    (s.split cost weights total).Inv :=
  State.arrive_inv (State.ite_inv hs (State.foldl_inv (fun _ _ => State.share_inv) _ hs))
theorem State.closeDomain_inv {m own : Nat} (hs : s.Inv) : (s.closeDomain dom m own).Inv := by
  grind [State.closeDomain, State.arrive_inv, State.modPkg_inv, State.record_inv, State.split_inv, State.foldl_inv]
theorem State.chargeUpkeep_inv {scrubs flits : Nat → Nat} (hs : s.Inv) : (s.chargeUpkeep scrubs flits).Inv := by
  grind [State.chargeUpkeep, State.uncore_inv, State.foldl_inv]
theorem execCalibrationWindow_keeps {rail : List Nat} : KeepsInv (execCalibrationWindow rail) := engine_keeps fun s h => by
  grind [State.chargeUpkeep_inv, State.closeDomain_inv, State.split_inv, State.foldl_inv]

/-! ### Health and wear (R32-R36) -/

theorem execWearSample_keeps {u ind : Nat} {v : WearReading} : KeepsInv (execWearSample u ind v) := engine_keeps fun s h => by
  grind [State.modPkg_inv]
theorem execHealthRefresh_keeps : KeepsInv (execHealthRefresh) := engine_keeps fun s h => by
  grind [State.refreshHealth_inv]

/-! ### Package reset -/

theorem execPackageReset_keeps : KeepsInv execPackageReset := engine_keeps fun _ _ => rfl

end Sys2Proof.Machine
end

section
/-! SUPPORT. Memory's canonical form under the host port, links, Lantern commands, the crumb log, replay and debuggers; then under a core's turn. -/

namespace Sys2Proof.Machine

variable {s s' pre : State} {c slot g q t n k d id code ctx dom i lane pa port qp va vf : Nat}

/-! ### The requests of the host port's queue pairs (R87, R88) -/

theorem State.hostSaw_inv {l : List Nat} (hs : s.Inv) : (s.hostSaw l).Inv := by
  grind [State.hostSaw, State.modPkg_inv]
theorem State.owe_inv {waits : List Nat} {r : RdmaReply} (hs : s.Inv) : (s.owe vf qp waits r).Inv := by
  grind [State.owe, State.rdmaAnswer_inv, State.setQp_inv]
theorem State.releaseQps_inv (hs : s.Inv) : (s.releaseQps).Inv := by
  grind [State.releaseQps, State.owe_inv, State.foldl_inv]
theorem State.partHere_inv {j : HostJob} (hs : s.Inv) : (s.partHere vf qp j pa).Inv := by
  grind [State.partHere, State.bump_inv, State.issueWrite_inv, State.nodeEvent_inv, State.nodePath_inv, State.setQp_inv, State.toNode_inv]
theorem State.partAway_inv {j : HostJob} (hs : s.Inv) (e : s.partAway vf qp j pa = some s') : s'.Inv := by
  grind [State.partAway, State.bump_inv, State.chargePath_inv, State.issueWrite_inv, State.modPkg_inv, State.qpError_inv, State.setQp_inv,
      State.toLane_inv]
theorem State.sendParts_inv {vf qp : Nat} : ∀ (n : Nat) {s : State}, s.Inv → (s.sendParts vf qp n).Inv
  | 0, _, hs => hs
  | n + 1, s, hs => by
    have ih := @State.sendParts_inv vf qp n
    grind [State.sendParts, → State.partAway_inv, State.partHere_inv]
theorem State.finishJob_inv {j : HostJob} (hs : s.Inv) : (s.finishJob vf qp j).Inv := by
  grind [State.finishJob, State.frame_inv, State.hostSaw_inv, State.owe_inv]
theorem State.advanceQp_inv (hs : s.Inv) : (s.advanceQp vf qp).Inv := by
  grind [State.advanceQp, State.finishJob_inv, State.qpError_inv, State.sendParts_inv]
theorem State.advanceQps_inv (hs : s.Inv) : (s.advanceQps).Inv := by
  grind [State.advanceQps, State.advanceQp_inv, State.releaseQps_inv, State.foldl_inv]
theorem State.rdmaDo_inv {write : Bool} {len : Nat} {data : List Byte} (hs : s.Inv) : (s.rdmaDo vf qp va write len data).Inv := by
  grind [State.rdmaDo, PagesXl.Inv, State.advanceQp_inv, State.bump_inv, State.qpError_inv, State.setQp_inv, State.xlPages_inv]

/-! ### Memory nodes -/

theorem execMemoryNodeApply_keeps : KeepsInv (execMemoryNodeApply d k) := engine_keeps fun s h => by
  grind [State.advanceQps_inv, State.applyFirst_inv]
theorem execReductionApply_keeps : KeepsInv (execReductionApply d k) := engine_keeps fun s h => by
  grind [State.advanceQps_inv, State.applyFirst_inv]

/-! ### Flits -/

theorem State.flitEvent_inv {s : State} {port : Nat} {c : Option Nat} (hs : s.Inv) : (s.flitEvent port c).Inv := by
  cases c <;> exact State.uncore_inv hs
theorem State.releaseReplies_inv (hs : s.Inv) : (s.releaseReplies port).Inv := by
  grind [State.releaseReplies, State.modPort_inv, State.toLane_inv, State.foldl_inv]
theorem execLinkFlitSend_keeps : KeepsInv (execLinkFlitSend port) := engine_keeps fun s h => by
  grind [State.Inv, State.flitEvent_inv, State.modPort_inv, State.releaseReplies_inv]

/-! ### Requests of other packages (R372) -/

theorem State.reply_inv {c : Option Nat} {r : RemoteReq} {accepted : Bool} {data : List Byte} {waits : List Nat} (hs : s.Inv) :
    (s.reply port c r accepted data waits).Inv := by
  grind [State.reply, State.sendReply_inv]
theorem State.ingressWrite_inv {data : List Byte} {rep : Bool} (hs : s.Inv) : (s.ingressWrite port c pa va data rep).1.Inv := by
  grind [State.ingressWrite, State.issueWrite_inv, State.modPort_inv, State.toNode_inv]
theorem State.ingressRun_inv {port c : Nat} {rep : Bool} :
    ∀ (n : Nat) {pa va : Nat} {data : List Byte} {s : State}, s.Inv → (s.ingressRun port c pa va rep n data).1.Inv
  | 0, _, _, _, _, hs => hs
  | n + 1, pa, va, data, s, hs => by
    have ih := @State.ingressRun_inv port c rep n
    grind [State.ingressRun, State.ingressWrite_inv]
theorem State.portPath_inv (hs : s.Inv) : (s.portPath port c pa n).Inv := by
  grind [State.portPath, State.chargeHops_inv]
theorem State.ingressAccess_inv {r : RemoteReq} {rep : Bool} (hs : s.Inv) : (s.ingressAccess port c r pa rep).Inv := by
  grind [State.ingressAccess, State.bump_inv, State.ingressRun_inv, State.issueWrite_inv, State.modPort_inv, State.nodeEvent_inv,
      State.portPath_inv, State.reply_inv, State.toNode_inv]
theorem State.ingressToken_inv {r : RemoteReq} {tag pay addr : BitVec 32} (hs : s.Inv) : (s.ingressToken port r tag pay addr).Inv := by
  grind [State.ingressToken, State.flitEvent_inv, State.modCtx_inv, State.modPort_inv, State.reply_inv]
theorem State.ingressOne_inv {r : RemoteReq} (hs : s.Inv) :
    (∀ t, (s.ingressOne port r).1 = some t → t.Inv) ∧ (s.ingressOne port r).2.Inv := by
  grind [State.ingressOne, Xl.Inv, State.flitEvent_inv, State.ingressAccess_inv, State.reply_inv, State.translate_inv]
theorem State.ingressAll_inv {port : Nat} :
    ∀ (l : List RemoteReq) {kept : List RemoteReq} {s : State}, s.Inv → (s.ingressAll port l kept).Inv
  | [], _, _, hs => State.modPort_inv hs
  | r :: rest, kept, s, hs => by
    have ih := @State.ingressAll_inv port rest
    have h1 := State.ingressOne_inv (port := port) (r := r) hs
    grind [State.ingressAll]
theorem State.tellLost_inv {r : RemoteReq} (hs : s.Inv) : (s.tellLost port r).Inv := by
  grind [State.tellLost, State.sendReply_inv]
theorem State.passOn_inv {r : RemoteReq} (hs : s.Inv) : (s.passOn port r).Inv := by
  grind [State.passOn, State.flitEvent_inv, State.tellLost_inv, State.toLane_inv]
theorem execRemoteIngress_keeps {r : RemoteReq} : KeepsInv (execRemoteIngress port r) := engine_keeps fun s h => by
  grind [State.ingressAll_inv, State.ingressToken_inv, State.modPort_inv, State.passOn_inv]

/-! ### Responses (R346, R372, R376) -/

theorem State.modCmdOf_inv {f : Cmd → Cmd} (hs : s.Inv) : (s.modCmdOf c t id f).Inv := by
  grind [State.modCmdOf, State.modTileOf_inv]
theorem State.flightFails_inv {f : RemoteFlight} {k : FailKind} (hs : s.Inv) : (s.flightFails f k code).Inv := by
  grind [State.flightFails, State.dropWrite_inv, State.failStore_inv, State.modCmdOf_inv, State.modTileOf_inv, State.qpError_inv]
theorem State.flightDone_inv {f : RemoteFlight} {data : List Byte} (hs : s.Inv) : (s.flightDone f data).Inv := by
  grind [State.flightDone, State.Inv, State.dropWrite_inv, State.hostGot_inv, State.modCmdOf_inv, State.modTileOf_inv]
theorem State.respArrives_inv {dst : Nat} {r : RemoteResp} (hs : s.Inv) : (s.respArrives port dst lane r).Inv := by
  grind [State.respArrives, State.flightDone_inv, State.flightFails_inv, State.flitEvent_inv, State.modPkg_inv, State.toLane_inv]
theorem execRemoteResponse_keeps {a : RespArrival} : KeepsInv (execRemoteResponse a) := engine_keeps fun s h => by
  grind [State.advanceQps_inv, State.respArrives_inv]

/-! ### Dead ports (R375) -/

theorem State.moveFlit_inv {f : Flit} (hs : s.Inv) : (s.moveFlit port f).Inv := by
  grind [State.moveFlit, State.flightFails_inv, State.modPkg_inv, State.tellLost_inv, State.toLane_inv]
theorem execLinkDead_keeps : KeepsInv (execLinkDead port) := engine_keeps fun s h => by
  grind [State.advanceQps_inv, State.failUnit_inv, State.flightFails_inv, State.modPkg_inv, State.modPort_inv, State.moveFlit_inv,
      State.foldl_inv]

/-! ### Messages taken and answered -/

theorem State.answerCmd_inv {ty : Nat} {m : Lmsg} {status : Nat} {body : List Byte} (hs : s.Inv) : (s.answerCmd ty m status body).Inv := by
  grind [State.answerCmd, State.send_inv]
theorem State.takeMsg_inv {m : Lmsg} (hs : s.Inv) : (∀ t, (s.takeMsg m).1 = some t → t.Inv) ∧ (s.takeMsg m).2.Inv := by
  grind [State.takeMsg, State.frame_inv, State.modPkg_inv]
theorem hostCommand_keeps {ty : Nat} {mgmt : Bool} {m : Lmsg} {f : State → Reply} (hf : ∀ s, s.Inv → (f s).Inv) :
    KeepsInv (hostCommand ty mgmt m f) :=
  engine_keeps fun s h => by
    have hm := State.takeMsg_inv (m := m) h
    grind [Reply.Inv, State.answerCmd_inv]
theorem State.withCtx_inv {s : State} {c : Nat} {f : Context → Reply} (h : s.Inv) (hf : ∀ x, (f x).Inv) : (s.withCtx c f).Inv := by
  grind [State.withCtx, refuse, Reply.Inv]

/-! ### Partitions (R31, R89, R135) -/

theorem State.partForm_inv {m : Lmsg} (hs : s.Inv) : (s.partForm m).Inv := by
  grind [State.partForm, Reply.Inv, State.modPart_inv]
theorem execPartform_keeps {m : Lmsg} : KeepsInv (execPartform m) := hostCommand_keeps fun s h => by
  grind [Reply.Inv, ok, refuse, State.partForm_inv, hostCommand_keeps]
theorem execPartfree_keeps {m : Lmsg} : KeepsInv (execPartfree m) := hostCommand_keeps fun s h => by
  grind [Reply.Inv, ok, refuse, State.modPart_inv, hostCommand_keeps]

/-! ### Contexts (R90, R93, R400) -/

theorem execCtxcreate_keeps {m : Lmsg} : KeepsInv (execCtxcreate m) := hostCommand_keeps fun s h => by
  grind [Reply.Inv, ok, refuse, State.applyDelta_inv, State.modCtx_inv, hostCommand_keeps]
theorem execCtxdestroy_keeps {m : Lmsg} : KeepsInv (execCtxdestroy m) := hostCommand_keeps fun s h => by
  grind [Reply.Inv, ok, refuse, State.answerCmd_inv, State.goDestroy_inv, State.modCtx_inv, State.withCtx_inv, hostCommand_keeps,
      State.foldl_inv]
theorem execKeyset_keeps {m : Lmsg} : KeepsInv (execKeyset m) := hostCommand_keeps fun s h => by
  grind [Reply.Inv, ok, refuse, State.modPkg_inv, hostCommand_keeps]
theorem execAllow_keeps {m : Lmsg} : KeepsInv (execAllow m) := hostCommand_keeps fun s h => by
  grind [Reply.Inv, ok, refuse, State.applyArrivals_inv, State.applyDelta_inv, State.withCtx_inv, hostCommand_keeps]
theorem execModeset_keeps {m : Lmsg} : KeepsInv (execModeset m) := hostCommand_keeps fun s h => by
  grind [Reply.Inv, ok, refuse, State.modCtx_inv, State.withCtx_inv, hostCommand_keeps]

/-! ### Units and records (R29-R36) -/

theorem execRetest_keeps {m : Lmsg} : KeepsInv (execRetest m) := hostCommand_keeps fun s h => by
  grind [Reply.Inv, ok, refuse, State.setUnit_inv, hostCommand_keeps]
theorem execMapread_keeps {m : Lmsg} : KeepsInv (execMapread m) := hostCommand_keeps fun s h => by
  grind [Reply.Inv, ok, refuse, hostCommand_keeps]
theorem execHealthread_keeps {m : Lmsg} : KeepsInv (execHealthread m) := hostCommand_keeps fun s h => by
  grind [Reply.Inv, ok, refuse, hostCommand_keeps]
theorem execIdread_keeps {m : Lmsg} : KeepsInv (execIdread m) := hostCommand_keeps fun s h => by
  grind [Reply.Inv, ok, refuse, hostCommand_keeps]
theorem execProofset_keeps {m : Lmsg} : KeepsInv (execProofset m) := hostCommand_keeps fun s h => by
  grind [Reply.Inv, ok, refuse, State.modPart_inv, hostCommand_keeps]
theorem execWinset_keeps {m : Lmsg} : KeepsInv (execWinset m) := hostCommand_keeps fun s h => by
  grind [Reply.Inv, ok, refuse, State.modCtx_inv, State.withCtx_inv, hostCommand_keeps]
theorem execTraffic_keeps {m : Lmsg} : KeepsInv (execTraffic m) := hostCommand_keeps fun s h => by
  grind [Reply.Inv, ok, refuse, State.modDie_inv, hostCommand_keeps, State.foldl_inv]
theorem execTripclear_keeps {m : Lmsg} : KeepsInv (execTripclear m) := hostCommand_keeps fun s h => by
  grind [Reply.Inv, ok, refuse, State.modPkg_inv, State.tripped_inv, hostCommand_keeps]
theorem execStatread_keeps {m : Lmsg} : KeepsInv (execStatread m) := hostCommand_keeps fun s h => by
  grind [Reply.Inv, ok, refuse, State.withCtx_inv, hostCommand_keeps]
theorem execLanternMessageDrop_keeps {d : Datagram} : KeepsInv (execLanternMessageDrop d) := engine_keeps fun s h => by
  grind [State.answerCmd_inv, State.modPkg_inv, State.takeMsg_inv]

/-! ### Records of host messages (R403) -/

theorem State.recordHost_inv {r : Crumb} (hs : s.Inv) : (s.recordHost c r).Inv := by
  grind [State.recordHost, State.modCtx_inv, State.record_inv]

/-! ### Outcomes of waiting messages -/

theorem HostOp.finish_inv {o : HostOp} {status : Nat} {body : List Byte} (hs : s.Inv) : (o.finish s status body).Inv := by
  grind [HostOp.finish, Tried.Inv, State.answerCmd_inv]

/-! ### QFEED, QTAKE, QEND (R98, R353, R398) -/

theorem State.feed_inv {c slot q : Nat} : ∀ (n : Nat) {o : HostOp} {s : State}, s.Inv → (s.feed c slot q o n).1.Inv
  | 0, _, _, hs => hs
  | n + 1, o, s, hs => by
    have ih := @State.feed_inv c slot q n
    grind [State.feed, PushOut.Inv, State.deliver_inv, State.modQueue_inv]
theorem State.drainTake_inv {c slot q : Nat} : ∀ (n : Nat) {o : HostOp} {s : State}, s.Inv → (s.drainTake c slot q o n).1.Inv
  | 0, _, _, hs => hs
  | n + 1, o, s, hs => by
    have ih := @State.drainTake_inv c slot q n
    grind [State.drainTake, → State.popItem_inv, State.hostSaw_inv]
theorem State.queuePoint_inv {o : HostOp} (hs : s.Inv) : (s.queuePoint c slot q o).Inv := by
  grind [State.queuePoint, Point.Inv, State.replayDiv_inv, → State.takeRecord_inv]
theorem State.tryQueueOp_inv {o : HostOp} (hs : s.Inv) : (s.tryQueueOp c o).Inv := by
  grind [State.tryQueueOp, Point.Inv, Tried.Inv, HostOp.finish_inv, State.drainTake_inv, State.feed_inv, State.modQueue_inv,
      State.queuePoint_inv, State.recordHost_inv]

/-! ### LAUNCH (R95, R96, R99, R405) -/

theorem State.doLaunch_inv {o : HostOp} (hs : s.Inv) : (s.doLaunch c o).Inv := by
  grind [State.doLaunch, Tried.Inv, HostOp.finish_inv, State.modPipe_inv, State.recordHost_inv]
theorem State.checkReplay_inv (hs : s.Inv) : (s.checkReplay c).Inv := by
  grind [State.checkReplay, Checked.Inv, VaRead.Inv, State.modCtx_inv, State.readVa_inv]
theorem State.launchPoint_inv {o : HostOp} (hs : s.Inv) : (s.launchPoint c o).Inv := by
  grind [State.launchPoint, Tried.Inv, State.doLaunch_inv, State.replayDiv_inv, → State.takeRecord_inv]
theorem State.tryLaunch_inv {o : HostOp} (hs : s.Inv) : (s.tryLaunch c o).Inv := by
  grind [State.tryLaunch, Checked.Inv, Tried.Inv, HostOp.finish_inv, State.checkReplay_inv, State.launchPoint_inv]

/-! ### Page replies (R149-R151) -/

theorem State.setMiss_inv {m : Miss} {x : Option XWait} (hs : s.Inv) : (s.setMiss m x).Inv := by
  grind [State.setMiss, State.Inv]
theorem State.failCmd_inv (hs : s.Inv) : (s.failCmd c t i).Inv := by
  grind [State.failCmd, State.faultOut_inv, State.modCmd_inv]
theorem State.failMiss_inv {m : Miss} (hs : s.Inv) : (s.failMiss c m).Inv := by
  grind [State.failMiss, State.failCmd_inv, State.fatal_inv, State.modTileOf_inv, State.setMiss_inv]
theorem State.applyPage_inv {rid : Nat} {okay : Bool} (hs : s.Inv) : (s.applyPage c rid okay).Inv := by
  grind [State.applyPage, State.failMiss_inv, State.grantPages_inv, State.modCtx_inv, State.record_inv, State.setMiss_inv, State.foldl_inv]
theorem State.tryPage_inv {o : HostOp} (hs : s.Inv) : (s.tryPage c o).Inv := by
  grind [State.tryPage, Tried.Inv, State.applyPage_inv, → State.takeRecord_inv]

/-! ### Messages that wait -/

theorem State.tryOp_inv {o : HostOp} (hs : s.Inv) : (s.tryOp c o).Inv := by
  grind [State.tryOp, Tried.Inv, State.tryLaunch_inv, State.tryPage_inv, State.tryQueueOp_inv]
theorem State.tryOps_inv {c : Nat} : ∀ (l : List HostOp) {kept : List HostOp} {s : State}, s.Inv → (s.tryOps c l kept).1.Inv
  | [], _, _, hs => hs
  | o :: rest, kept, s, hs => by
    have ih := @State.tryOps_inv c rest
    grind [State.tryOps, Tried.Inv, State.tryOp_inv]
theorem State.runOps_inv (hs : s.Inv) : (s.runOps c).Inv := by
  grind [State.runOps, State.modCtx_inv, State.tryOps_inv]
theorem State.queueOp_inv {kind : Nat} {m : Lmsg} (hs : s.Inv) : (s.queueOp c kind m).Inv := by
  grind [State.queueOp, State.modCtx_inv, State.runOps_inv]
theorem execLaunch_keeps {m : Lmsg} : KeepsInv (execLaunch m) := hostCommand_keeps fun s h => by
  grind [Reply.Inv, ok, refuse, State.queueOp_inv, State.withCtx_inv, hostCommand_keeps]
theorem execQfeed_keeps {m : Lmsg} : KeepsInv (execQfeed m) := hostCommand_keeps fun s h => by
  grind [Reply.Inv, ok, refuse, State.queueOp_inv, State.withCtx_inv, hostCommand_keeps]
theorem execQtake_keeps {m : Lmsg} : KeepsInv (execQtake m) := hostCommand_keeps fun s h => by
  grind [Reply.Inv, ok, refuse, State.queueOp_inv, State.withCtx_inv, hostCommand_keeps]
theorem execQend_keeps {m : Lmsg} : KeepsInv (execQend m) := hostCommand_keeps fun s h => by
  grind [Reply.Inv, ok, refuse, State.queueOp_inv, State.withCtx_inv, hostCommand_keeps]
theorem execPagereply_keeps {m : Lmsg} : KeepsInv (execPagereply m) := engine_keeps fun s h => by
  grind [State.modPkg_inv, State.queueOp_inv, State.takeMsg_inv]

/-! ### The crumb log (R401-R404) -/

theorem State.logFull_inv (hs : s.Inv) : (s.logFull c).Inv := by
  grind [State.logFull, State.event_inv, State.modCtx_inv]
theorem State.putHeader_inv (hs : s.Inv) : (s.putHeader c).Inv := by
  grind [State.putHeader, VaWrite.Inv, State.modCtx_inv, State.writeVa_inv]
theorem execCrumbRecordWrite_keeps {c : Nat} : KeepsInv (execCrumbRecordWrite c) := engine_keeps fun s hs => by
  extract_lets x
  split
  extract_lets put
  have hput : ∀ s off data f, s.Inv → (∀ s, s.Inv → (f s).Inv) → (put s off data f).Inv := fun s off data f h hf => by
    grind [VaWrite.Inv, State.writeVa_inv, State.logFull_inv]
  split
  · exact hs
  · split
    · exact State.putHeader_inv hs
    · split
      · exact hput _ _ _ _ hs fun _ h => State.modCtx_inv h
      · split
        · exact hs
        · split
          · exact hput _ _ _ _ (State.modCtx_inv hs) fun _ h => State.logFull_inv h
          · exact hput _ _ _ _ hs fun _ h => State.putHeader_inv (State.modCtx_inv h)

/-! ### Replay (R405) -/

theorem State.leaveReplay_inv (hs : s.Inv) : (s.leaveReplay c).Inv := by
  grind [State.leaveReplay, State.gutter_inv, State.modCtx_inv]
theorem State.replayStop_inv (hs : s.Inv) : (s.replayStop c).Inv := by
  grind [State.replayStop, State.askStop_inv, State.modCtx_inv, State.foldl_inv]
theorem State.replayHalts_inv (hs : s.Inv) : (s.replayHalts c).Inv := by
  grind [State.replayHalts, State.modCtx_inv, State.modTileOf_inv, State.foldl_inv]
theorem State.takeRead_inv {r : Crumb} (hs : s.Inv) : (s.takeRead c r).Inv := by
  grind [State.takeRead, State.modCtx_inv]
theorem State.releaseCtx_inv (hs : s.Inv) : (s.releaseCtx c).Inv := by
  grind [State.releaseCtx, State.releasePipe_inv, State.foldl_inv]
theorem execReplayRecordTake_keeps {c : Nat} : KeepsInv (execReplayRecordTake c) := engine_keeps fun s hs => by
  extract_lets x s1 s2 y
  have hr : (s.readVa (.scheduler c) c (s.leadTile c) (x.replayLog + 64 + 32 * x.replayPos) 32 false).Inv := State.readVa_inv hs
  have h1 : s1.Inv := by
    refine State.ite_inv hs ?_
    generalize s.readVa _ _ _ _ _ _ = r at hr ⊢
    match r with
    | .ok .. => exact State.takeRead_inv hr
    | .wait _ => exact hr
    | .fault .. => exact State.modCtx_inv hr
  have h2 : s2.Inv := State.runOps_inv (State.releaseCtx_inv (State.replayHalts_inv (State.replayStop_inv h1)))
  exact State.ite_inv hs (State.ite_inv (State.runOps_inv (State.releaseCtx_inv (State.event_inv (State.leaveReplay_inv h2)))) h2)

/-! ### Engines whose work lets messages go on -/

theorem execSpillReturn_keeps : KeepsInv (execSpillReturn c slot q) := engine_keeps fun s h => by
  grind [State.releasePipe_inv, State.runOps_inv, State.spillBack_inv]

/-! ### Debugger commands (R392-R395) -/

theorem debugCommand_keeps {ty extra : Nat} {m : Lmsg} {f : Nat → Nat → List Nat → State → Reply} (hf : ∀ c t l s, s.Inv → (f c t l s).Inv)
    :
    KeepsInv (debugCommand ty extra m f) :=
  hostCommand_keeps fun s h => by
    grind [Reply.Inv, refuse, State.withCtx_inv]
theorem State.modStrandOf_inv {f : Strand → Strand} (hs : s.Inv) : (s.modStrandOf c t n f).Inv := by
  grind [State.modStrandOf, State.modTileOf_inv]
theorem execDbgattach_keeps {m : Lmsg} : KeepsInv (execDbgattach m) := debugCommand_keeps fun c t l s h => by
  grind [Reply.Inv, ok, refuse, State.modCtx_inv, debugCommand_keeps]
theorem execDbgdetach_keeps {m : Lmsg} : KeepsInv (execDbgdetach m) := debugCommand_keeps fun c t l s h => by
  grind [Reply.Inv, ok, refuse, State.modCtx_inv, debugCommand_keeps]
theorem State.haltOf_inv (hs : s.Inv) : (s.haltOf c t n).Inv := by
  grind [State.haltOf, State.halt_inv, State.modStrand_inv, State.modStrandOf_inv, State.modTileOf_inv, State.record_inv]
theorem execDbghalt_keeps {m : Lmsg} : KeepsInv (execDbghalt m) := debugCommand_keeps fun c t l s h => by
  grind [Reply.Inv, ok, refuse, State.haltOf_inv, debugCommand_keeps, State.foldl_inv]
theorem execDbggo_keeps {m : Lmsg} : KeepsInv (execDbggo m) := debugCommand_keeps fun c t l s h => by
  grind [Reply.Inv, ok, refuse, State.modStrandOf_inv, debugCommand_keeps, State.foldl_inv]
theorem execDbgstep_keeps {m : Lmsg} : KeepsInv (execDbgstep m) := debugCommand_keeps fun c t l s h => by
  grind [Reply.Inv, ok, refuse, State.modStrandOf_inv, debugCommand_keeps, State.foldl_inv]
theorem execDbgfreeze_keeps {m : Lmsg} : KeepsInv (execDbgfreeze m) := debugCommand_keeps fun c t l s h => by
  grind [Reply.Inv, ok, refuse, State.modTileOf_inv, debugCommand_keeps]
theorem execDbgthaw_keeps {m : Lmsg} : KeepsInv (execDbgthaw m) := debugCommand_keeps fun c t l s h => by
  grind [Reply.Inv, ok, refuse, State.modTileOf_inv, debugCommand_keeps]
theorem execDbgread_keeps {m : Lmsg} : KeepsInv (execDbgread m) := debugCommand_keeps fun c t l s h => by
  grind [Reply.Inv, ok, refuse, debugCommand_keeps]
theorem execDbgwrite_keeps {m : Lmsg} : KeepsInv (execDbgwrite m) := debugCommand_keeps fun c t l s h => by
  grind [Reply.Inv, ok, refuse, State.modTileOf_inv, debugCommand_keeps]

/-! ### RDMA at the host port (R87, R88) -/

theorem rdmaRequest_keeps {vf qp : Nat} {f : State → State} (hf : ∀ s, s.Inv → (f s).Inv) : KeepsInv (rdmaRequest vf qp f) :=
  engine_keeps fun s h => by
    grind [State.rdmaAnswer_inv]
theorem execRdmaWrite_keeps {a : RdmaAt} {data : List Byte} : KeepsInv (execRdmaWrite vf qp a data) := rdmaRequest_keeps fun s h => by
  grind [State.frame_inv, State.qpError_inv, State.rdmaDo_inv, rdmaRequest_keeps]
theorem execRdmaRead_keeps {a : RdmaAt} {len : Nat} : KeepsInv (execRdmaRead vf qp a len) := rdmaRequest_keeps fun s h => by
  grind [State.qpError_inv, State.rdmaDo_inv, rdmaRequest_keeps]
theorem execRdmaSend_keeps {data : List Byte} : KeepsInv (execRdmaSend vf qp data) := rdmaRequest_keeps fun s h => by
  grind [State.frame_inv, State.rdmaAnswer_inv, rdmaRequest_keeps]
theorem execRdmaInvalidRequest_keeps : KeepsInv (execRdmaInvalidRequest vf qp) := engine_keeps fun s h => by
  grind [State.rdmaAnswer_inv]
theorem State.resumeQps_inv (hs : s.Inv) : (s.resumeQps).Inv := by
  grind [State.resumeQps, State.advanceQp_inv, State.qpError_inv, State.rdmaDo_inv, State.foldl_inv]
theorem State.resumePorts_inv (hs : s.Inv) : (s.resumePorts d).Inv := by
  grind [State.resumePorts, State.ingressAll_inv, State.foldl_inv]
theorem execTlbWalk_keeps : KeepsInv (execTlbWalk d) := engine_keeps fun s h => by
  grind [State.resumePorts_inv, State.resumeQps_inv, State.runOps_inv, execTlbWalkState_inv, State.foldl_inv]
theorem execBatchVisible_keeps {a b : Nat} : KeepsInv (execBatchVisible a b) := engine_keeps fun s h => by
  grind [State.advanceQps_inv, State.showBatch_inv]
theorem execReplicaLineApply_keeps {e : Nat} : KeepsInv (execReplicaLineApply e) := engine_keeps fun s h => by
  grind [State.advanceQps_inv, State.nextLine_inv]

/-! ### A core's turn -/

theorem aSem_inv {extra : List Nat} {d : XReg} {f : State → Word} {slot : Nat} : (aSem extra d f slot).Inv :=
  Sem.inv_at_once fun _ _ => State.wb_inv
theorem fSem_inv {extra : List Nat} {d : XReg} {f : State → Nat × Flags} {slot : Nat} : (fSem extra d f slot).Inv :=
  Sem.inv_at_once fun _ _ hs => State.wb_inv (State.raise_inv hs)
theorem brSemOf_inv {cond : State → Bool} {off : Imm} : (brSemOf cond off).Inv :=
  Sem.inv_at_once fun _ _ hs => State.ite_inv (State.goTo_inv hs) hs
theorem cSem_inv {op : Nat × Nat} {gate : State → Gate} {act : State → State → State} (hgate : ∀ s, s.Inv → (gate s).Inv)
    (hact : ∀ pre s, pre.Inv → s.Inv → (act pre s).Inv) : (cSem op gate act).Inv := Sem.inv_mk hgate hact
theorem cmdSem_inv {op : Nat} {id : SId} {mk : State → Cmd} {check : State → Cmd → Option Nat} : (cmdSem op id mk check).Inv :=
  cSem_inv (fun _ => idGate_inv) fun _ _ => issueAct_inv
theorem gbarSem_inv {a : XReg} : (gbarSem a).Inv :=
  qSem_inv (fun _ => gbarGate_inv) fun pre s _ hs => by
    cases pre.me.gbarNow with
    | some _ => exact State.modMe_inv hs
    | none => exact State.leadPath_inv hs
theorem semOf_inv {slot : Nat} {i : Instr} {m : Sem} (h : semOf slot i = some m) : m.Inv := by
  have of {m' : Sem} (e : some m' = some m) (hm : m'.Inv) : m.Inv := Option.some.inj e ▸ hm
  cases i with
  | add | sub | addi | mul | mulh | mulhu | div | divu | rem | remu | and | or | xor | andi | ori | xori | shl | shr | sar | shli | shri |
      sari
  | min | max | minu | maxu | slt | sltu | seq | sne | slti | clz | ctz | popc | bfx | bfxR | bfxs | bfxsR | bfi | bfiR | movi | movhi |
      sel | lea
  | rngP0 | rngP1 => exact of h aSem_inv
  | fadd | fsub | fmul | ffma | fmin | fmax | fcmp => exact of h fSem_inv
  | fcvt => exact of h (Sem.inv_at_once fun _ _ => State.fcvt_inv)
  | ld => exact of h (Sem.inv_mk (fun _ => memGate_inv) fun _ _ => ldAct_inv)
  | st => exact of h (Sem.inv_mk (fun _ => memGate_inv) fun _ _ => stAct_inv)
  | atom => exact of h (Sem.inv_mk (fun _ => memGate_inv) fun _ _ => rmwAct_inv)
  | cas => exact of h (Sem.inv_mk (fun _ => memGate_inv) fun _ _ => rmwAct_inv)
  | srd => exact of h (Sem.inv_mk (fun _ => srdGate_inv) fun _ _ => srdAct_inv)
  | speek | gets => exact of h (Sem.inv_at_once fun _ _ => State.wb_inv)
  | swr => exact of h (Sem.inv_mk (fun _ => swrGate_inv) fun _ _ => swrAct_inv)
  | sets => exact of h (Sem.inv_at_once fun _ _ => State.modTile_inv)
  | sbind => exact of h (Sem.inv_mk (fun _ => sbindGate_inv) fun _ _ => sbindAct_inv)
  | psetb | psetdExt | psetdStr | psetdBnd | psetf => exact of h (cSem_inv (fun _ hs => hs) fun _ _ _ => State.modPat_inv)
  | sla | ssa | sli | ssi | sra | sri | smc | sfill | srec | scpy | sqin | sqout => exact of h cmdSem_inv
  | sbar => exact of h (cSem_inv (fun _ hs => hs) fun _ _ => sbarAct_inv)
  | swaitDone | swaitMark => exact of h (cSem_inv (fun _ hs => Gate.ite_inv hs hs) fun _ _ => swaitAct_inv)
  | swaitPoll => exact of h (cSem_inv (fun _ hs => hs) fun _ _ => swaitAct_inv)
  | sabt => exact of h (cSem_inv (fun _ hs => hs) fun _ _ _ => State.stopCmd_inv)
  | sord => exact of h (cSem_inv (fun _ hs => hs) fun _ _ _ => State.modTile_inv)
  | sslot => exact of h (cSem_inv (fun _ => sslotGate_inv) fun _ _ => sslotAct_inv)
  | srel => exact of h (cSem_inv (fun _ hs => hs) fun _ _ _ => State.release_inv)
  | qpush => exact of h qpushSem_inv
  | qpop => exact of h (qSem_inv (fun _ => qpopGate_inv) fun _ _ => qpopAct_inv)
  | qtry => exact of h (qSem_inv (fun _ => qtryGate_inv) fun _ _ => qtryAct_inv)
  | qstat | fstat | emtrTask | emtrCtx => exact of h (qSem_inv (fun _ hs => hs) fun _ _ _ => State.wb_inv)
  | qclose => exact of h (qSem_inv (fun _ hs => hs) fun _ _ _ => State.modQueue_inv)
  | qres => exact of h (qSem_inv (fun _ hs => hs) fun _ _ => qresAct_inv)
  | fcfg => exact of h (qSem_inv (fun _ => fcfgGate_inv) fun _ _ _ hs => State.wb_inv (State.modMe_inv hs))
  | farg => exact of h (qSem_inv (fun _ hs => hs) fun _ _ _ hs => State.modTile_inv (State.charge_inv hs))
  | fgo => exact of h (qSem_inv (fun _ => roundGate_inv) fun _ _ _ => State.startRound_inv)
  | fdrn => exact of h (qSem_inv (fun _ => roundGate_inv) fun _ _ _ => State.wb_inv)
  | tsend => exact of h tsendSem_inv
  | twait => exact of h (qSem_inv (fun _ hs => Gate.ite_inv hs hs) fun _ _ => takeMail_inv)
  | tpoll => exact of h (qSem_inv (fun _ hs => hs) fun _ _ => takeMail_inv)
  | join | leave => exact of h (qSem_inv (fun _ hs => hs) fun _ _ _ hs => State.modCtx_inv (State.leadPath_inv hs))
  | gbar => exact of h gbarSem_inv
  | garr => exact of h (qSem_inv (fun _ hs => hs) fun _ _ => garrAct_inv)
  | fence => exact of h (qSem_inv (fun _ => fenceGate_inv) fun _ _ _ hs => State.wb_inv (State.modMe_inv hs))
  | trig => exact of h trigSem_inv
  | ebgt => exact of h (qSem_inv (fun _ hs => hs) fun _ _ _ => State.modIssue_inv)
  | invl => exact of h (Sem.inv_mk (fun _ hs => hs) fun _ _ _ hs => State.ite_inv hs (State.modMe_inv (State.startInval_inv hs)))
  | invw => exact of h (Sem.inv_mk (fun _ => invwGate_inv) fun _ _ _ => State.modMe_inv)
  | br | beq | bne | blt | bge | bltu | bgeu | bz | bnz => exact of h brSemOf_inv
  | jr | ret => exact of h (Sem.inv_at_once fun _ _ => State.goTo_inv)
  | call => exact of h (Sem.inv_at_once fun _ _ hs => State.goTo_inv (State.wb_inv hs))
  | loop => exact of h (Sem.inv_at_once fun _ _ hs => State.ite_inv (State.goTo_inv (State.wb_inv hs)) (State.wb_inv hs))
  | yield | waitq | done => exact of h (Sem.inv_mk (fun _ => endGate_inv) fun _ _ _ => State.atEnd_inv)
  | trap | brk | tret => exact of h (Sem.inv_at_once fun _ _ => State.atEnd_inv)
  | _ => cases h
theorem illegalBundle_inv {lit : Bool} {b : Bundle} {k reason : Nat} {s : State} (hs : s.Inv) : (illegalBundle lit b k reason s).Inv := by
  have hhead : ((s.dropMissed s.focus s.cur).issueHead s.focus s.cur lit).Inv := State.issueHead_inv (State.dropMissed_inv hs)
  unfold illegalBundle
  cases (lowerSems b k).find? (fun m => m.illegal s) with
  | some m => exact State.takeAtIssue_inv hhead
  | none => exact State.takeAtIssue_inv hhead
theorem issueBundle_inv {b : Bundle} {lit : Bool} {s : State} (hs : s.Inv) : (issueBundle b lit s).Inv := by
  unfold issueBundle
  split
  · refine runBundle_inv (fun m hm => ?_) hs
    obtain ⟨p, -, hp⟩ := List.mem_filterMap.mp hm
    exact semOf_inv hp
  · exact illegalBundle_inv hs
theorem fetchAndIssue_inv (hs : s.Inv) : (fetchAndIssue s).Inv := by
  grind [fetchAndIssue, Fetch.Inv, State.fatalAt_inv, State.fetchBundle_inv, State.modStrand_inv, State.takeAtIssue_inv, issueBundle_inv]
theorem State.budgetDue_inv (hs : s.Inv) : (s.budgetDue t).Inv := by
  grind [State.budgetDue, State.postBudget_inv]
theorem coreTurn_keeps {t : Nat} : KeepsInv (coreTurn t) := fun s u hs hu => by
  have hb : (({ s with focus := t } : State).budgetDue t).Inv := State.budgetDue_inv (s := { s with focus := t }) hs
  unfold coreTurn at hu
  dsimp only at hu
  split at hu
  · exact Host.Outcome.next.inj hu ▸ hb
  · exact execStrandSelect_keeps _ _ hb hu
  · exact execPendingTrapTake_keeps _ _ hb hu
  · exact Host.Outcome.next.inj hu ▸ fetchAndIssue_inv hb

end Sys2Proof.Machine
end

section
/-! SUPPORT. A step of the machine keeps the canonical form of memory; and O39. -/

namespace Sys2Proof.Machine

theorem exec_keeps {i : Instr} : KeepsInv (exec i) := by
  by_cases h : i.isCore = true
  · intro s t hs ht
    rw [exec_core h] at ht
    refine Host.Outcome.next.inj ht ▸ runBundle_inv (fun m hm => ?_) hs
    exact semOf_inv (Option.mem_toList.mp hm)
  cases i with
  | packageReset => exact execPackageReset_keeps
  | unitTestStart => exact execUnitTestStart_keeps
  | unitTestDone => exact execUnitTestDone_keeps
  | unitFailInService => exact execUnitFailInService_keeps
  | powerCheck => exact execPowerCheck_keeps
  | calibrationWindow => exact execCalibrationWindow_keeps
  | wearSample => exact execWearSample_keeps
  | healthRefresh => exact execHealthRefresh_keeps
  | meterResidueSend => exact execMeterResidueSend_keeps
  | accountForward => exact execAccountForward_keeps
  | chargeApply => exact execChargeApply_keeps
  | sliceEnd => exact execSliceEnd_keeps
  | contextDispatch => exact execContextDispatch_keeps
  | stopSequence => exact execStopSequence_keeps
  | saveComplete => exact execSaveComplete_keeps
  | proofSample => exact execProofSample_keeps
  | proofIntervalEnd => exact execProofIntervalEnd_keeps
  | moveTakeup => exact execMoveTakeup_keeps
  | stageTakeup => exact execStageTakeup_keeps
  | preload => exact execPreload_keeps
  | launchStart => exact execLaunchStart_keeps
  | trigCount => exact execTrigCount_keeps
  | stageRetire => exact execStageRetire_keeps
  | pipelineRetire => exact execPipelineRetire_keeps
  | strandSelect => exact execStrandSelect_keeps
  | dividerAssign => exact execDividerAssign_keeps
  | tlbWalk => exact execTlbWalk_keeps
  | migrateRecheck => exact execMigrateRecheck_keeps
  | invalidationComplete => exact execInvalidationComplete_keeps
  | indexFetch => exact execIndexFetch_keeps
  | prefetchFill => exact execPrefetchFill_keeps
  | pendingTrapTake => exact execPendingTrapTake_keeps
  | loadReturn => exact execLoadReturn_keeps
  | streamRequestGrant => exact execStreamRequestGrant_keeps
  | streamDataReturn => exact execStreamDataReturn_keeps
  | streamTokenTake => exact execStreamTokenTake_keeps
  | streamComplete => exact execStreamComplete_keeps
  | memoryNodeApply => exact execMemoryNodeApply_keeps
  | reductionApply => exact execReductionApply_keeps
  | multicastSpaceReturn => exact execMulticastSpaceReturn_keeps
  | slotWriteback => exact execSlotWriteback_keeps
  | spillReturn => exact execSpillReturn_keeps
  | writeBatchSeal => exact execWriteBatchSeal_keeps
  | batchVisible => exact execBatchVisible_keeps
  | replicaLineApply => exact execReplicaLineApply_keeps
  | tokenDeliver => exact execTokenDeliver_keeps
  | remoteIngress => exact execRemoteIngress_keeps
  | remoteResponse => exact execRemoteResponse_keeps
  | linkFlitSend => exact execLinkFlitSend_keeps
  | linkDead => exact execLinkDead_keeps
  | groupFiring => exact execGroupFiring_keeps
  | elementWatermarkResume => exact execElementWatermarkResume_keeps
  | roundComplete => exact execRoundComplete_keeps
  | roundDeadlock => exact execRoundDeadlock_keeps
  | cellWriteVisible => exact execCellWriteVisible_keeps
  | fabricImageLoad => exact execFabricImageLoad_keeps
  | crumbRecordWrite => exact execCrumbRecordWrite_keeps
  | replayRecordTake => exact execReplayRecordTake_keeps
  | partform => exact execPartform_keeps
  | partfree => exact execPartfree_keeps
  | ctxcreate => exact execCtxcreate_keeps
  | ctxdestroy => exact execCtxdestroy_keeps
  | keyset => exact execKeyset_keeps
  | allow => exact execAllow_keeps
  | modeset => exact execModeset_keeps
  | retest => exact execRetest_keeps
  | mapread => exact execMapread_keeps
  | healthread => exact execHealthread_keeps
  | idread => exact execIdread_keeps
  | proofset => exact execProofset_keeps
  | winset => exact execWinset_keeps
  | traffic => exact execTraffic_keeps
  | tripclear => exact execTripclear_keeps
  | dbgattach => exact execDbgattach_keeps
  | dbgdetach => exact execDbgdetach_keeps
  | dbghalt => exact execDbghalt_keeps
  | dbggo => exact execDbggo_keeps
  | dbgstep => exact execDbgstep_keeps
  | dbgfreeze => exact execDbgfreeze_keeps
  | dbgthaw => exact execDbgthaw_keeps
  | dbgread => exact execDbgread_keeps
  | dbgwrite => exact execDbgwrite_keeps
  | launch => exact execLaunch_keeps
  | qfeed => exact execQfeed_keeps
  | qtake => exact execQtake_keeps
  | qend => exact execQend_keeps
  | statread => exact execStatread_keeps
  | pagereply => exact execPagereply_keeps
  | rdmaWrite => exact execRdmaWrite_keeps
  | rdmaRead => exact execRdmaRead_keeps
  | rdmaSend => exact execRdmaSend_keeps
  | fcEdge => exact execFcEdge_keeps
  | lanternMessageDrop => exact execLanternMessageDrop_keeps
  | rdmaInvalidRequest => exact execRdmaInvalidRequest_keeps
  | _ => exact absurd rfl h


theorem runTurn_keeps {u : Turn} : KeepsInv (runTurn u) := fun s t hs ht => by
  have stays {s : State} (hs : s.Inv) (e : (.next s : Out) = .next t) : t.Inv := Host.Outcome.next.inj e ▸ hs
  unfold runTurn at ht
  split at ht
  · split at ht
    · exact coreTurn_keeps s t hs ht
    · exact stays hs ht
  · split at ht
    · exact exec_keeps s t hs ht
    · exact stays hs ht
  · exact exec_keeps s t hs ht

/-- Settles O39: memory changes only where a write is applied to it (`State.settle`), and there it keeps its canonical form. -/
theorem everyStepKeepsMemoryCanonical : Obligations.EveryStepKeepsMemoryCanonical := by
  intro s t hs ht
  unfold step at ht
  split at ht
  · next u rest _ => exact runTurn_keeps { s with agenda := rest } t hs ht
  · split at ht
    · next u rest _ => exact runTurn_keeps { s with agenda := rest } t hs ht
    · exact Host.Outcome.next.inj ht ▸ hs

end Sys2Proof.Machine
end

section
/-! SUPPORT. The proofer's samples and intervals (R118 to R120, R132, R405); and O20. -/

namespace Sys2Proof.Machine

/-! ## Keys of stages -/

theorem AMap.get_of_mem {α : Type} (d : α) : ∀ {m : AMap α}, (m.map (fun p => p.1)).Nodup → ∀ {p : Nat × α}, p ∈ m → AMap.get d m p.1 = p.2
  | q :: m, hm, p, hp => by
    obtain ⟨hq, hm⟩ := List.nodup_cons.mp hm
    rcases List.mem_cons.mp hp with rfl | hp
    · exact if_pos rfl
    · exact (if_neg fun (h : p.1 = q.1) => hq (List.mem_map.mpr ⟨p, hp, h⟩)).trans (AMap.get_of_mem d hm hp)

/-- The keys of the stages of a pipeline that have not retired, where it runs. -/
def Pipeline.stageKeys (slot : Nat) (p : Pipeline) : List (Nat × Nat) :=
  if p.active && p.started && p.ending.isNone then ((List.range p.stages.length).filter (fun g => !(p.stage g).retired)).map (fun g => (slot, g))
  else []

theorem Pipeline.mem_stageKeys {slot : Nat} {p : Pipeline} {k : Nat × Nat} (h : k ∈ p.stageKeys slot) : k.1 = slot ∧ k.2 < p.stages.length := by
  unfold Pipeline.stageKeys at h
  split at h
  · obtain ⟨g, hg, rfl⟩ := List.mem_map.mp h
    exact ⟨rfl, List.mem_range.mp (List.mem_filter.mp hg).1⟩
  · cases h

theorem Pipeline.stageKeys_nodup (slot : Nat) (p : Pipeline) : (p.stageKeys slot).Nodup := by
  unfold Pipeline.stageKeys
  split
  · exact (List.nodup_range.filter _).map fun _ _ h => congrArg Prod.snd h
  · exact List.nodup_nil

theorem Context.stageKeys_eq (x : Context) : x.stageKeys = x.pipes.flatMap (fun (p : Nat × Pipeline) => p.2.stageKeys p.1) := rfl

theorem Context.stageKeys_nodup {x : Context} (h : (x.pipes.map (fun p => p.1)).Nodup) : x.stageKeys.Nodup := by
  rw [Context.stageKeys_eq, List.nodup_flatMap]
  refine ⟨fun p _ => p.2.stageKeys_nodup p.1, (List.pairwise_map.mp h).imp fun {p q} hpq k hp hq => hpq ?_⟩
  rw [← (Pipeline.mem_stageKeys hp).1, (Pipeline.mem_stageKeys hq).1]

/-- A key names a stage that its pipeline has. -/
theorem Context.stage_lt_of_mem {x : Context} (h : (x.pipes.map (fun p => p.1)).Nodup) {k : Nat × Nat} (hk : k ∈ x.stageKeys) :
    k.2 < (x.pipe k.1).stages.length := by
  obtain ⟨p, hp, hkp⟩ := List.mem_flatMap.mp hk
  obtain ⟨hslot, hlt⟩ := Pipeline.mem_stageKeys hkp
  rw [hslot, Context.pipe, AMap.get_of_mem _ h hp]
  exact hlt

/-! ## A stage of a context changed -/

theorem State.stageAt_modStage (s : State) (c : Nat) (k h : Nat × Nat) (f : Stage → Stage) :
    ((s.modStage c k.1 k.2 f).ctx c).stageAt h =
      if h = k ∧ k.2 < (s.pipe c k.1).stages.length then f ((s.ctx c).stageAt k) else (s.ctx c).stageAt h := by
  change (((s.modStage c k.1 k.2 f).pipe c h.1).stage h.2) = _
  by_cases hslot : h.1 = k.1
  · rw [hslot, State.modStage, State.pipe_modPipe_same, Pipeline.stage, getElem?_modNth]
    by_cases hg : h.2 = k.2
    · have hk : h = k := Prod.ext hslot hg
      rw [if_pos hg, hk]
      by_cases hlt : k.2 < (s.pipe c k.1).stages.length
      · rw [if_pos ⟨rfl, hlt⟩, Context.stageAt, Pipeline.stage]
        change _ = f (((s.pipe c k.1).stages[k.2]?).getD {})
        rw [List.getElem?_eq_getElem hlt]
        rfl
      · rw [if_neg fun hn => hlt hn.2, Context.stageAt, Pipeline.stage]
        change _ = ((s.pipe c k.1).stages[k.2]?).getD {}
        rw [List.getElem?_eq_none (Nat.le_of_not_lt hlt)]
        rfl
    · rw [if_neg hg, if_neg fun hn => hg (congrArg Prod.snd hn.1), Context.stageAt, hslot]
      rfl
  · rw [State.modStage, State.pipe_modPipe_other _ _ _ hslot, if_neg fun hn => hslot (congrArg Prod.fst hn.1)]
    rfl

theorem State.stageAt_modStage_same {s : State} {c : Nat} {k : Nat × Nat} (f : Stage → Stage) (h : k.2 < (s.pipe c k.1).stages.length) :
    ((s.modStage c k.1 k.2 f).ctx c).stageAt k = f ((s.ctx c).stageAt k) := by
  rw [State.stageAt_modStage, if_pos ⟨rfl, h⟩]

theorem State.stageAt_modStage_other (s : State) (c : Nat) {k h : Nat × Nat} (f : Stage → Stage) (hk : h ≠ k) :
    ((s.modStage c k.1 k.2 f).ctx c).stageAt h = (s.ctx c).stageAt h := by
  rw [State.stageAt_modStage, if_neg fun hn => hk hn.1]

/-! ## Samples (R119) -/

/-- A stage whose pressure stands at its start. -/
def Stage.unpressed (g : Stage) : Stage := { g with pressure := 0, samples := 0 }

/-- A pipeline but for its stages' pressures: what a sample is computed from. -/
def Pipeline.unpressed (p : Pipeline) : Pipeline := { p with stages := p.stages.map Stage.unpressed }

theorem Pipeline.unpressed_stage (p : Pipeline) (g : Nat) : p.unpressed.stage g = (p.stage g).unpressed := by
  simp only [Pipeline.stage, Pipeline.unpressed, List.getElem?_map]
  cases p.stages[g]? <;> rfl

theorem Pipeline.unpressed_sampleOf (p : Pipeline) (g : Nat) : p.unpressed.sampleOf g = p.sampleOf g := by
  have hbraided (q : Nat) : p.unpressed.braided q = p.braided q := List.foldl_map
  have hocc : p.unpressed.occ = p.occ := funext fun q => by rw [Pipeline.occ, hbraided]; rfl
  rw [Pipeline.sampleOf, Pipeline.unpressed_stage, hocc]
  rfl

theorem map_modNth {α β : Type} {f : α → α} {g : α → β} (h : ∀ a, g (f a) = g a) : ∀ (l : List α) (n : Nat), (modNth l n f).map g = l.map g
  | [], _ => rfl
  | a :: _, 0 => congrArg (· :: _) (h a)
  | a :: l, n + 1 => congrArg (g a :: ·) (map_modNth h l n)

/-- R119: a stage with one sample more. -/
def Stage.sampled (v : Int) (g : Stage) : Stage := { g with pressure := g.pressure + v, samples := g.samples + 1 }

/-- R119: a stage's sample added. -/
def State.sampleStage (c : Nat) (s : State) (k : Nat × Nat) : State := s.modStage c k.1 k.2 (Stage.sampled ((s.pipe c k.1).sampleOf k.2))

/-- Of the pipelines of a context a sample changes pressures alone. -/
theorem State.sampleStage_unpressed (c : Nat) (s : State) (k : Nat × Nat) (slot : Nat) :
    ((s.sampleStage c k).pipe c slot).unpressed = (s.pipe c slot).unpressed := by
  by_cases hslot : slot = k.1
  · subst hslot
    rw [State.sampleStage, State.modStage, State.pipe_modPipe_same]
    exact congrArg (fun l => ({ s.pipe c k.1 with stages := l } : Pipeline))
      (map_modNth (f := Stage.sampled ((s.pipe c k.1).sampleOf k.2)) (g := Stage.unpressed) (fun _ => rfl) _ _)
  · rw [State.sampleStage, State.modStage, State.pipe_modPipe_other _ _ _ hslot]

/-- A step of a fold that is made once, between others that leave what it changes. -/
theorem foldl_once {α β γ : Type} {R : α → α → Prop} (refl : ∀ a, R a a) (trans : ∀ {a b c}, R a b → R b c → R a c) {f : α → β → α} {g : α → γ}
    {l : List β} (hl : l.Nodup) {b : β} (hb : b ∈ l) (step : ∀ c a, R a (f a c)) (other : ∀ c, c ≠ b → ∀ a, g (f a c) = g a) (a : α) :
    ∃ a1, R a a1 ∧ g a1 = g a ∧ g (l.foldl f a) = g (f a1 b) := by
  obtain ⟨before, after, rfl⟩ := List.append_of_mem hb
  obtain ⟨hnot, -⟩ := List.nodup_cons.mp (List.nodup_middle.mp hl)
  have hstands (l' : List β) (h : ∀ c ∈ l', c ≠ b) (a : α) : g (l'.foldl f a) = g a :=
    List.foldlRecOn (motive := fun x => g x = g a) l' f rfl fun x hx c hc => (other c (h c hc) x).trans hx
  refine ⟨before.foldl f a, List.foldlRecOn (motive := fun x => R a x) before f (refl a) fun x hx c _ => trans hx (step c x), ?_, ?_⟩
  · exact hstands before (fun c hc h => hnot (List.mem_append_left _ (h ▸ hc))) a
  · rw [List.foldl_append, List.foldl_cons]
    exact hstands after (fun c hc h => hnot (List.mem_append_right _ (h ▸ hc))) _

/-- R119: over the stages of a context each sample is added once, computed as the queues stand. -/
theorem State.samplesAdded {s : State} {c : Nat} (hnodup : ((s.ctx c).pipes.map (fun p => p.1)).Nodup) {k : Nat × Nat}
    (hk : k ∈ (s.ctx c).stageKeys) : (((s.ctx c).stageKeys.foldl (State.sampleStage c) s).ctx c).stageAt k =
      ((s.ctx c).stageAt k).sampled ((s.pipe c k.1).sampleOf k.2) := by
  obtain ⟨a, hsame, hbefore, hafter⟩ := foldl_once (R := fun a b : State => ∀ slot, (b.pipe c slot).unpressed = (a.pipe c slot).unpressed)
    (g := fun a => (a.ctx c).stageAt k) (fun _ _ => rfl) (fun h j slot => (j slot).trans (h slot)) (Context.stageKeys_nodup hnodup) hk
    (fun j a => a.sampleStage_unpressed c j) (fun j hj a => a.stageAt_modStage_other c _ hj.symm) s
  have hlen (p : Pipeline) : p.unpressed.stages.length = p.stages.length := List.length_map _
  have hlt : k.2 < (a.pipe c k.1).stages.length := by
    rw [← hlen, hsame, hlen]
    exact Context.stage_lt_of_mem hnodup hk
  rw [hafter, State.sampleStage, State.stageAt_modStage_same _ hlt, hbefore, ← Pipeline.unpressed_sampleOf, hsame, Pipeline.unpressed_sampleOf]

/-! ## PROOF_SAMPLE (R119, R132) -/

/-- R119, R132: a sample of every stage, none under replay. -/
def State.sampleStages (s : State) (c : Nat) : State :=
  if (s.ctx c).rpl = 2 then s else (s.ctx c).stageKeys.foldl (State.sampleStage c) s

theorem ActsFor.exec_proofSample {s : State} {pt c : Nat} (h : ActsFor s pt c) (hsample : (s.part pt).sample < 16)
    (hdue : ((s.part pt).sample + 1) * (s.part pt).interval / 16 ≤ s.proofCount pt) :
    exec (.proofSample pt) s = .next ((s.sampleStages c).modPart pt (fun p => { p with sample := p.sample + 1 })) := by
  have hnot : ¬ (16 ≤ (s.part pt).sample ∨ s.proofCount pt < ((s.part pt).sample + 1) * (s.part pt).interval / 16) := by omega
  change execProofSample pt s = _
  simp only [execProofSample, engine, h.runs, if_neg hnot]
  rfl

theorem State.sampleStages_keeps {γ : Type} (g : State → γ) (h : ∀ s c k j f, g (State.modStage s c k j f) = g s) (s : State) (c : Nat) :
    g (s.sampleStages c) = g s := by
  unfold State.sampleStages
  split
  · rfl
  · exact foldl_keeps g _ (fun _ _ => h _ _ _ _ _) _ s

theorem proofSample_acts {s : State} {pt c : Nat} (h : ActsFor s pt c) (hnodup : ((s.ctx c).pipes.map (fun p => p.1)).Nodup)
    (hsample : (s.part pt).sample < 16) (hdue : ((s.part pt).sample + 1) * (s.part pt).interval / 16 ≤ s.proofCount pt) :
    ∃ t, exec (.proofSample pt) s = .next t ∧ (t.part pt).sample = (s.part pt).sample + 1 ∧ ProgramsKept s t ∧
      ∀ k ∈ (s.ctx c).stageKeys,
        if (s.ctx c).rpl = 2 then (t.ctx c).stageAt k = (s.ctx c).stageAt k
        else ((t.ctx c).stageAt k).pressure = ((s.ctx c).stageAt k).pressure + (s.pipe c k.1).sampleOf k.2 ∧
          ((t.ctx c).stageAt k).samples = ((s.ctx c).stageAt k).samples + 1 := by
  refine ⟨_, h.exec_proofSample hsample hdue, ?_, programsKept_of_programs (s.sampleStages_keeps State.programs (fun _ _ _ _ _ => rfl) c), fun k hk => ?_⟩
  · rw [State.part_modPart_same, s.sampleStages_keeps (fun a => a.part pt) (fun _ _ _ _ _ => rfl) c]
  · rw [State.ctx_modPart]
    unfold State.sampleStages
    split
    · rfl
    · rw [State.samplesAdded hnodup hk]
      exact ⟨rfl, rfl⟩

/-! ## What the choice of moves changes (R120, R405) -/

/-- Between two states of the choice of an interval's moves at most n moves are added; the pipelines of the context stand, its interval, the
partition's clock of intervals, and what programs see. -/
structure Placing (s t : State) (pt c n : Nat) : Prop where
  pipes : (t.ctx c).pipes = (s.ctx c).pipes
  interval : (t.ctx c).interval = (s.ctx c).interval
  moves : ∃ l, (t.ctx c).moves = (s.ctx c).moves ++ l ∧ l.length ≤ n
  clock : ((t.part pt).opened, (t.part pt).interval) = ((s.part pt).opened, (s.part pt).interval)
  visible : t.visible = s.visible

theorem Placing.refl (s : State) (pt c n : Nat) : Placing s s pt c n := ⟨rfl, rfl, ⟨[], (List.append_nil _).symm, Nat.zero_le n⟩, rfl, rfl⟩

theorem Placing.trans {s t u : State} {pt c n m : Nat} (h : Placing s t pt c n) (k : Placing t u pt c m) : Placing s u pt c (n + m) := by
  obtain ⟨l, hl, hn⟩ := h.moves
  obtain ⟨l', hl', hm⟩ := k.moves
  refine ⟨k.pipes.trans h.pipes, k.interval.trans h.interval, ⟨l ++ l', ?_, ?_⟩, k.clock.trans h.clock, k.visible.trans h.visible⟩
  · rw [hl', hl, List.append_assoc]
  · rw [List.length_append]
    omega

/-- A change that adds no move. -/
theorem Placing.of_moves {s t : State} {pt c : Nat} (hctx : ((t.ctx c).pipes, (t.ctx c).interval, (t.ctx c).moves) =
      ((s.ctx c).pipes, (s.ctx c).interval, (s.ctx c).moves))
    (hclock : ((t.part pt).opened, (t.part pt).interval) = ((s.part pt).opened, (s.part pt).interval)) (hvisible : t.visible = s.visible) :
    Placing s t pt c 0 := by
  obtain ⟨hpipes, hrest⟩ := Prod.mk.inj hctx
  obtain ⟨hinterval, hmoves⟩ := Prod.mk.inj hrest
  exact ⟨hpipes, hinterval, ⟨[], by rw [hmoves, List.append_nil], Nat.le_refl 0⟩, hclock, hvisible⟩

/-- A change of the context that leaves its pipelines, its interval and its moves. -/
theorem Placing.modCtx (s : State) (pt c : Nat) {f : Context → Context}
    (h : ∀ x, ((f x).pipes, (f x).interval, (f x).moves) = (x.pipes, x.interval, x.moves)) : Placing s (s.modCtx c f) pt c 0 :=
  .of_moves (by rw [State.ctx_modCtx_same, h]) rfl rfl

theorem Placing.addMove (s : State) (pt c : Nat) (m : Move) : Placing s (s.modCtx c (fun x => { x with moves := x.moves ++ [m] })) pt c 1 := by
  refine ⟨?_, ?_, ⟨[m], ?_, Nat.le_refl 1⟩, rfl, rfl⟩ <;> rw [State.ctx_modCtx_same]

theorem Placing.modTile (s : State) (pt c t : Nat) {f : Tile → Tile} (h : ∀ u, (f u).strands = u.strands) : Placing s (s.modTile t f) pt c 0 :=
  .of_moves rfl rfl (s.modTile_visible t h)

theorem Placing.modPart (s : State) (pt c p : Nat) {f : Partition → Partition} (h : ∀ x, ((f x).opened, (f x).interval) = (x.opened, x.interval)) :
    Placing s (s.modPart p f) pt c 0 := by
  refine .of_moves rfl ?_ rfl
  by_cases hp : pt = p
  · rw [hp, State.part_modPart_same, h]
  · rw [State.part_modPart_other _ _ hp]

theorem Placing.record (s : State) (pt c : Nat) (r : Crumb) : Placing s (s.record c r) pt c 0 := by
  unfold State.record
  split
  · exact .modCtx s pt c fun _ => rfl
  · exact .refl s pt c 0

theorem Placing.foldl {α : Type} {pt c : Nat} {f : State → α → State} (step : ∀ s a, Placing s (f s a) pt c 0) (l : List α) (s : State) :
    Placing s (l.foldl f s) pt c 0 := List.foldlRecOn (motive := fun t => Placing s t pt c 0) l f (.refl s pt c 0) fun _ h a _ => h.trans (step _ a)

theorem Placing.moveFromPool (s : State) (pt c t slot g : Nat) (grant : Bool) : Placing s (s.moveFromPool c t slot g grant) pt c 1 := by
  have hpool := Placing.modPart s pt c (s.ctx c).part (f := fun p => { p with pool := p.pool.filter (· != t) }) fun _ => rfl
  have hmove := Placing.trans (n := 0) (m := 1) hpool (.addMove _ pt c
    { tile := t, slot, stage := g, fromPool := true, grant, interval := (s.ctx c).interval })
  exact hmove.trans (.modTile _ pt c t (f := fun u => { u with stage := some (slot, g), takeUp := .loading 0 }) fun _ => rfl)

theorem Placing.moveFromStage (s : State) (pt c t : Nat) (k : Nat × Nat) (slot g : Nat) (grant : Bool) :
    Placing s (s.moveFromStage c t k slot g grant) pt c 1 := by
  have hmove := Placing.addMove s pt c
    { tile := t, slot, stage := g, fromPool := false, fromSlot := k.1, fromStage := k.2, grant, interval := (s.ctx c).interval }
  exact hmove.trans (.modTile _ pt c t (f := fun u => { u with takeUp := .leaving (some (slot, g)) }) fun _ => rfl)

/-! ## The moves of an interval (R120, R405) -/

/-- R120: at most n moves are chosen. -/
theorem Placing.proofLoop (pt c : Nat) : ∀ (n : Nat) (s : State) (l : List (Nat × Nat)), Placing s (s.proofLoop pt c n l) pt c n
  | 0, s, _ => .refl s pt c 0
  | n + 1, s, l => by
    have hmore {t : State} (h : Placing s t pt c 1) (l' : List (Nat × Nat)) : Placing s (t.proofLoop pt c n l') pt c (n + 1) :=
      Nat.add_comm 1 n ▸ h.trans (Placing.proofLoop pt c n t l')
    unfold State.proofLoop
    dsimp only
    split
    · exact .refl s pt c _
    · split
      · exact hmore (.moveFromPool s pt c _ _ _ _) _
      · split
        · exact .refl s pt c _
        · split
          · exact .refl s pt c _
          · split
            · exact .refl s pt c _
            · exact hmore (.moveFromStage s pt c _ _ _ _ _) _

theorem Placing.takeRecord {s t : State} {c : Nat} {mine : Crumb → Bool} {r : Crumb} (pt : Nat) (h : s.takeRecord c mine = some (r, t)) :
    Placing s t pt c 0 := by
  unfold State.takeRecord at h
  split at h
  · cases h
  · cases h
    exact .modCtx s pt c fun _ => rfl

theorem Placing.replayDiv (s : State) (pt c : Nat) (r : Crumb) : Placing s (s.replayDiv c r) pt c 0 := by
  unfold State.replayDiv
  refine Placing.trans (n := 0) (m := 0) (.modCtx s pt c ?_) (.of_moves ?_ ?_ (State.event_visible _ _ _ _ _))
  · exact fun _ => rfl
  · rw [State.ctx_event]
  · rw [State.part, State.event_parts]
    rfl

theorem Placing.loggedMove {s t : State} {c : Nat} {r : Crumb} (pt : Nat) (h : s.loggedMove c r = some t) : Placing s t pt c 1 := by
  unfold State.loggedMove at h
  dsimp only at h
  split at h
  · cases h
  · split at h
    · split at h
      · cases h
        exact .moveFromPool s pt c _ _ _ _
      · cases h
    · split at h
      · cases h
        exact .moveFromStage s pt c _ _ _ _ _
      · cases h

/-- R405: at most n of the logged moves are made. -/
theorem Placing.proofReplay (pt c : Nat) : ∀ (n : Nat) (s : State), Placing s (s.proofReplay c n) pt c n
  | 0, s => .refl s pt c 0
  | n + 1, s => by
    unfold State.proofReplay
    split
    · exact .refl s pt c _
    next r s1 hr =>
      have hmove : Placing s1 ((s1.loggedMove c r).getD (s1.replayDiv c r)) pt c 1 := by
        cases hm : s1.loggedMove c r with
        | none => exact (Placing.refl s1 pt c 1).trans (.replayDiv s1 pt c r)
        | some t => exact .loggedMove pt hm
      exact Nat.add_comm 1 n ▸ (Nat.zero_add 1 ▸ (Placing.takeRecord pt hr).trans hmove).trans (Placing.proofReplay pt c n _)

/-- R120, R405: the moves of the interval that ends. -/
def State.chooseMoves (s : State) (pt c : Nat) : State :=
  if (s.ctx c).rpl = 2 then s.proofReplay c 4 else s.proofLoop pt c 4 (s.ctx c).stageKeys

theorem Placing.chooseMoves (s : State) (pt c : Nat) : Placing s (s.chooseMoves pt c) pt c 4 := by
  unfold State.chooseMoves
  split
  · exact .proofReplay pt c 4 s
  · exact .proofLoop pt c 4 s _

/-- R120: the first move goes to the stage of the highest pressure from the pool, where its pressure passes its hysteresis. -/
theorem State.proofLoop_fromPool {s : State} {pt c n : Nat} {l : List (Nat × Nat)} {recv : Nat × Nat} {u : Nat}
    (hrecv : lowestBy (fun k => -((s.ctx c).stageAt k).pressure) (l.filter (fun k =>
      decide (((s.ctx c).stageAt k).tiles.length < ((s.ctx c).stageAt k).desc.maxTiles) && (s.ctx c).movesIn k.1 k.2 == 0)) = some recv)
    (hth : 16 * (((s.ctx c).stageAt recv).desc.hyst : Int) < ((s.ctx c).stageAt recv).pressure)
    (hpool : lowestBy (fun (u : Nat) => (u : Int)) (s.part pt).pool = some u) :
    s.proofLoop pt c (n + 1) l = (s.moveFromPool c u recv.1 recv.2 false).proofLoop pt c n (l.filter (· != recv)) := by
  simp only [State.proofLoop, hrecv, if_pos hth, hpool]

theorem State.moveFromPool_mem (s : State) (c t slot g : Nat) (grant : Bool) :
    ∃ m ∈ ((s.moveFromPool c t slot g grant).ctx c).moves, m.tile = t ∧ m.slot = slot ∧ m.stage = g ∧ m.fromPool = true := by
  have hmoves : ((s.moveFromPool c t slot g grant).ctx c).moves =
      (s.ctx c).moves ++ [{ tile := t, slot, stage := g, fromPool := true, grant, interval := (s.ctx c).interval }] := by
    rw [State.moveFromPool, State.ctx_modTile, State.ctx_modCtx_same]
    rfl
  exact ⟨_, by rw [hmoves]; exact List.mem_append_right _ (List.mem_singleton_self _), rfl, rfl, rfl, rfl⟩

theorem Placing.mem_moves {s t : State} {pt c n : Nat} (h : Placing s t pt c n) {m : Move} (hm : m ∈ (s.ctx c).moves) : m ∈ (t.ctx c).moves := by
  obtain ⟨l, hl, -⟩ := h.moves
  rw [hl]
  exact List.mem_append_left l hm

theorem State.chooseMoves_fromPool {s : State} {pt c : Nat} {recv : Nat × Nat} {u : Nat} (hrpl : (s.ctx c).rpl ≠ 2)
    (hrecv : lowestBy (fun k => -((s.ctx c).stageAt k).pressure) ((s.ctx c).stageKeys.filter (fun k =>
      decide (((s.ctx c).stageAt k).tiles.length < ((s.ctx c).stageAt k).desc.maxTiles) && (s.ctx c).movesIn k.1 k.2 == 0)) = some recv)
    (hth : 16 * (((s.ctx c).stageAt recv).desc.hyst : Int) < ((s.ctx c).stageAt recv).pressure)
    (hpool : lowestBy (fun (u : Nat) => (u : Int)) (s.part pt).pool = some u) :
    ∃ m ∈ ((s.chooseMoves pt c).ctx c).moves, m.tile = u ∧ m.slot = recv.1 ∧ m.stage = recv.2 ∧ m.fromPool = true := by
  obtain ⟨m, hm, hto⟩ := s.moveFromPool_mem c u recv.1 recv.2 false
  refine ⟨m, ?_, hto⟩
  rw [State.chooseMoves, if_neg hrpl, State.proofLoop_fromPool hrecv hth hpool]
  exact (Placing.proofLoop pt c 3 _ _).mem_moves hm

/-! ## The factors of an interval (R107, R403, R405) -/

/-- R107: tiles whose meters take up a factor. -/
def State.tilesScaled (s : State) (f : BitVec 16) (l : List Nat) : State := l.foldl (fun s t => s.modTile t (fun u => { u with scale := f })) s

theorem Placing.tilesScaled (s : State) (pt c : Nat) (f : BitVec 16) (l : List Nat) : Placing s (s.tilesScaled f l) pt c 0 :=
  .foldl (fun s t => .modTile s pt c t (f := fun u => { u with scale := f }) fun _ => rfl) l s

theorem Placing.takeTileScales (s : State) (pt c : Nat) : Placing s (s.takeTileScales pt c) pt c 0 := by
  refine Placing.foldl (fun s d => ?_) _ s
  dsimp only
  split
  · exact .refl s pt c 0
  · exact (Placing.tilesScaled s pt c _ _).trans (.record _ pt c _)

theorem Placing.takeLoggedScales (s : State) (pt c : Nat) : Placing s (s.takeLoggedScales c) pt c 0 := by
  unfold State.takeLoggedScales
  split
  · refine Placing.foldl (fun s dom => ?_) _ s
    split
    next f t hf =>
      obtain ⟨⟨r, t'⟩, hr, heq⟩ := Option.map_eq_some_iff.mp hf
      cases heq
      exact Placing.trans (n := 0) (m := 0) (.takeRecord pt hr) (.modCtx t' pt c fun _ => rfl)
    · exact .refl s pt c 0
  · exact .refl s pt c 0

theorem Placing.takeScales (s : State) (pt c : Nat) : Placing s (s.takeScales pt c) pt c 0 :=
  (Placing.takeTileScales s pt c).trans (.takeLoggedScales _ pt c)

/-! ## PROOF_INTERVAL_END (R118, R120) -/

/-- R118: a stage at the start of an interval. -/
def Stage.intervalEnded (g : Stage) : Stage :=
  { g with lastPressure := if g.samples = 16 then g.pressure else g.lastPressure, pressure := 0, samples := 0 }

/-- R118: the pressures of a context's stages start again. -/
def State.pressuresEnded (s : State) (c : Nat) : State :=
  (s.ctx c).stageKeys.foldl (fun s k => s.modStage c k.1 k.2 Stage.intervalEnded) s

theorem State.pressuresEnded_keeps {γ : Type} (g : State → γ) (h : ∀ s c k j f, g (State.modStage s c k j f) = g s) (s : State) (c : Nat) :
    g (s.pressuresEnded c) = g s := foldl_keeps g _ (fun _ _ => h _ _ _ _ _) _ s

/-- R118: a stage without pressure. -/
def Stage.AtRest (g : Stage) : Prop := g.pressure = 0 ∧ g.samples = 0

theorem State.modStage_atRest (s : State) (c : Nat) (j k : Nat × Nat) (h : ((s.ctx c).stageAt k).AtRest) :
    (((s.modStage c j.1 j.2 Stage.intervalEnded).ctx c).stageAt k).AtRest := by
  rw [State.stageAt_modStage]
  split
  · exact ⟨rfl, rfl⟩
  · exact h

theorem State.modStage_rests (s : State) (c : Nat) (k : Nat × Nat) : (((s.modStage c k.1 k.2 Stage.intervalEnded).ctx c).stageAt k).AtRest := by
  rw [State.stageAt_modStage]
  split
  · exact ⟨rfl, rfl⟩
  next hout =>
    have hnone : (s.pipe c k.1).stages[k.2]? = none := List.getElem?_eq_none (Nat.le_of_not_lt fun hlt => hout ⟨rfl, hlt⟩)
    change (((s.pipe c k.1).stages[k.2]?).getD {}).AtRest
    rw [hnone]
    exact ⟨rfl, rfl⟩

theorem State.pressuresEnded_atRest (s : State) (c : Nat) {k : Nat × Nat} (hk : k ∈ (s.ctx c).stageKeys) :
    (((s.pressuresEnded c).ctx c).stageAt k).AtRest := by
  obtain ⟨a, -, hafter⟩ := foldl_at (R := fun a b : State => ((a.ctx c).stageAt k).AtRest → ((b.ctx c).stageAt k).AtRest)
    (fun _ => id) (fun h j => j ∘ h) (fun j _ a => a.modStage_atRest c j k) hk s
  exact hafter (a.modStage_rests c k)

theorem State.pressuresEnded_ctx (s : State) (c : Nat) : ∃ l, (s.pressuresEnded c).ctx c = { s.ctx c with pipes := l } := by
  refine List.foldlRecOn (motive := fun t : State => ∃ l, t.ctx c = { s.ctx c with pipes := l }) _ _ ⟨_, rfl⟩ ?_
  rintro t ⟨l, hl⟩ k -
  exact ⟨_, (t.ctx_modPipe_same c k.1 _).trans (by rw [hl])⟩

theorem ActsFor.exec_proofIntervalEnd {s : State} {pt c : Nat} (h : ActsFor s pt c) (hsample : (s.part pt).sample = 16)
    (hread : (s.ctx c).rpl = 2 → (s.ctx c).crumbCount ≤ (s.ctx c).replayPos) :
    exec (.proofIntervalEnd pt) s = .next (((((s.chooseMoves pt c).pressuresEnded c).takeScales pt c).modCtx c
      (fun x => { x with interval := (x.interval + 1) % 2 ^ 32 })).modPart pt (fun p =>
        { p with sample := 0, opened := (p.opened + p.interval) % 2 ^ 64 })) := by
  have hdue : ¬ ((decide ((s.part pt).sample < 16) || ((s.ctx c).rpl == 2 && decide ((s.ctx c).replayPos < (s.ctx c).crumbCount))) = true) := by
    simpa [hsample] using hread
  change execProofIntervalEnd pt s = _
  simp only [execProofIntervalEnd, engine, h.runs, if_neg hdue]
  rfl

theorem proofIntervalEnd_acts {s : State} {pt c : Nat} (h : ActsFor s pt c) (hsample : (s.part pt).sample = 16)
    (hread : (s.ctx c).rpl = 2 → (s.ctx c).crumbCount ≤ (s.ctx c).replayPos) :
    ∃ t, exec (.proofIntervalEnd pt) s = .next t ∧ (t.part pt).sample = 0 ∧
      (t.part pt).opened = ((s.part pt).opened + (s.part pt).interval) % 2 ^ 64 ∧
      (t.ctx c).interval = ((s.ctx c).interval + 1) % 2 ^ 32 ∧
      (∃ l, (t.ctx c).moves = (s.ctx c).moves ++ l ∧ l.length ≤ 4) ∧ ProgramsKept s t ∧
      (∀ k ∈ (s.ctx c).stageKeys, ((t.ctx c).stageAt k).pressure = 0 ∧ ((t.ctx c).stageAt k).samples = 0) ∧
      (∀ recv u, (s.ctx c).rpl ≠ 2 →
        lowestBy (fun k => -((s.ctx c).stageAt k).pressure)
          ((s.ctx c).stageKeys.filter (fun k => decide (((s.ctx c).stageAt k).tiles.length < ((s.ctx c).stageAt k).desc.maxTiles)
            && (s.ctx c).movesIn k.1 k.2 == 0)) = some recv →
        16 * (((s.ctx c).stageAt recv).desc.hyst : Int) < ((s.ctx c).stageAt recv).pressure →
        lowestBy (fun (u : Nat) => (u : Int)) (s.part pt).pool = some u →
        ∃ m ∈ (t.ctx c).moves, m.tile = u ∧ m.slot = recv.1 ∧ m.stage = recv.2 ∧ m.fromPool = true) := by
  have hchosen := Placing.chooseMoves s pt c
  obtain ⟨l, hended⟩ := State.pressuresEnded_ctx (s.chooseMoves pt c) c
  have hscaled := Placing.takeScales ((s.chooseMoves pt c).pressuresEnded c) pt c
  have hpart : ((((s.chooseMoves pt c).pressuresEnded c).takeScales pt c).modCtx c (fun x => { x with interval := (x.interval + 1) % 2 ^ 32 })).part pt =
      (((s.chooseMoves pt c).pressuresEnded c).takeScales pt c).part pt := rfl
  obtain ⟨hopened, hinterval⟩ := Prod.mk.inj (hscaled.clock.trans ((State.pressuresEnded_keeps
    (fun a => ((a.part pt).opened, (a.part pt).interval)) (fun _ _ _ _ _ => rfl) _ c).trans hchosen.clock))
  refine ⟨_, h.exec_proofIntervalEnd hsample hread, ?_⟩
  rw [State.part_modPart_same, State.ctx_modPart, State.ctx_modCtx_same, hpart]
  refine ⟨rfl, by rw [hopened, hinterval], ?_, ?_, programsKept_of_visible ?_, fun k hk => ?_, fun recv u hrpl hrecv hth hpool => ?_⟩
  · rw [hscaled.interval, hended, hchosen.interval]
  · obtain ⟨l1, hl1, hnone⟩ := hscaled.moves
    obtain ⟨l2, hl2, hfour⟩ := hchosen.moves
    refine ⟨l2, ?_, hfour⟩
    rw [hl1, List.eq_nil_of_length_eq_zero (Nat.le_zero.mp hnone), List.append_nil, hended, hl2]
  · exact hscaled.visible.trans ((State.pressuresEnded_keeps State.visible (fun _ _ _ _ _ => rfl) _ c).trans hchosen.visible)
  · have hkeys : (s.ctx c).stageKeys = ((s.chooseMoves pt c).ctx c).stageKeys := by rw [Context.stageKeys, ← hchosen.pipes, Context.stageKeys]
    have hpipe := State.pipe_of_pipes hscaled.pipes k.1
    have hrest := (s.chooseMoves pt c).pressuresEnded_atRest c (hkeys ▸ hk)
    exact (congrArg (fun p : Pipeline => (p.stage k.2).AtRest) hpipe).mpr hrest
  · obtain ⟨m, hm, hto⟩ := State.chooseMoves_fromPool hrpl hrecv hth hpool
    exact ⟨m, hscaled.mem_moves (by rw [hended]; exact hm), hto⟩

/-- Settles O20: a sample adds to each stage's pressure; an interval's end makes its moves and starts the pressures afresh. -/
theorem proofSamplesAndIntervals : Obligations.ProofSamplesAndIntervals :=
  ⟨fun _ _ _ h hnodup hsample hdue => proofSample_acts h hnodup hsample hdue, fun _ _ _ h hsample hread => proofIntervalEnd_acts h hsample hread⟩

end Sys2Proof.Machine
end

section
/-! SUPPORT. Tiles that leave and take up stages, and preloads (R115, R117, R123, R125, R155, R159, R300); and O21. -/

namespace Sys2Proof.Machine

/-! ## A leaving tile out of its multicasts (R300) -/

/-- A tile with its memberships in multicasts left out. -/
def Tile.unlisted (u : Tile) : Tile := { u with mcast := [] }

/-- What another tile's wait for a tile that leaves reads of it: its context, its stage, and how it leaves. -/
def Tile.post (u : Tile) : Nat × TakeUp × Option (Nat × Nat) := (u.ctx, u.takeUp, u.stage)

/-- Numbered data with a value kept: an entry of it is that value or stood before. -/
theorem AMap.mem_of_mem_set {α : Type} {k : Nat} {v : α} : ∀ {m : AMap α} {p : Nat × α}, p ∈ AMap.set m k v → p ∈ m ∨ p = (k, v)
  | [], p, h => .inr (by simpa [AMap.set] using h)
  | (j, w) :: r, p, h => by
    rw [AMap.set] at h
    split at h
    · exact (List.mem_cons.mp h).symm.imp_left (List.mem_cons_of_mem _)
    · split at h
      · exact (List.mem_cons.mp h).symm
      · rcases List.mem_cons.mp h with rfl | hr
        · exact .inl List.mem_cons_self
        · exact (AMap.mem_of_mem_set hr).imp_left (List.mem_cons_of_mem _)

/-- A value kept under a number is an entry, or it is the default. -/
theorem AMap.get_mem {α : Type} (d : α) (k : Nat) : ∀ (m : AMap α), (k, AMap.get d m k) ∈ m ∨ AMap.get d m k = d
  | [] => .inr rfl
  | (j, w) :: r => by
    rw [AMap.get]
    split
    next hk => exact .inl (by rw [hk]; exact List.mem_cons_self)
    · exact (AMap.get_mem d k r).imp_left (List.mem_cons_of_mem _)

/-- Between two states contexts and partitions stand, tile u but for its multicasts, and every tile that leaves for the pool left so before. -/
structure Disbanding (u : Nat) (s t : State) : Prop where
  ctxs : t.ctxs = s.ctxs
  parts : t.parts = s.parts
  tile : (t.tile u).unlisted = (s.tile u).unlisted
  leaving : ∀ v ∈ t.tiles, v.2.takeUp = .leaving none → ∃ w ∈ s.tiles, w.1 = v.1 ∧ w.2.post = v.2.post

theorem Disbanding.refl (u : Nat) (s : State) : Disbanding u s s := ⟨rfl, rfl, rfl, fun v hv _ => ⟨v, hv, rfl, rfl⟩⟩

theorem Disbanding.trans {u : Nat} {s t r : State} (h : Disbanding u s t) (k : Disbanding u t r) : Disbanding u s r where
  ctxs := k.ctxs.trans h.ctxs
  parts := k.parts.trans h.parts
  tile := k.tile.trans h.tile
  leaving v hv hleaves := by
    obtain ⟨w, hw, hnum, hpost⟩ := k.leaving v hv hleaves
    have htake : w.2.takeUp = v.2.takeUp := congrArg (fun x => x.2.1) hpost
    obtain ⟨x, hx, hnum', hpost'⟩ := h.leaving w hw (htake.trans hleaves)
    exact ⟨x, hx, hnum'.trans hnum, hpost'.trans hpost⟩

theorem Disbanding.modTile (u : Nat) (s : State) (t : Nat) {f : Tile → Tile} (hpost : (f (s.tile t)).post = (s.tile t).post)
    (htile : u = t → (f (s.tile t)).unlisted = (s.tile t).unlisted) : Disbanding u s (s.modTile t f) where
  ctxs := rfl
  parts := rfl
  tile := by
    rw [State.tile_modTile]
    split
    next hu => rw [htile hu, hu]
    · rfl
  leaving v hv hleaves := by
    rcases AMap.mem_of_mem_set (show v ∈ AMap.set s.tiles t (f (s.tile t)) from hv) with hin | rfl
    · exact ⟨v, hin, rfl, rfl⟩
    · rcases AMap.get_mem {} t s.tiles with hin | habsent
      · exact ⟨_, hin, rfl, hpost.symm⟩
      · have htake : (f (s.tile t)).takeUp = (s.tile t).takeUp := congrArg (fun x => x.2.1) hpost
        have hdefault : (s.tile t).takeUp = .none := congrArg Tile.takeUp habsent
        exact absurd (hleaves.symm.trans (htake.trans hdefault)) nofun

theorem Disbanding.cmds {u : Nat} {s t : State} (h : Disbanding u s t) : (t.tile u).cmds = (s.tile u).cmds := (congrArg Tile.cmds h.tile :)

theorem Disbanding.foldl {α : Type} {u : Nat} {f : State → α → State} (step : ∀ s a, (s.tile u).cmds = [] → Disbanding u s (f s a)) (l : List α)
    (s : State) (hcmds : (s.tile u).cmds = []) : Disbanding u s (l.foldl f s) :=
  List.foldlRecOn l f (.refl u s) fun t h a _ =>
    h.trans (step t a (h.cmds.trans hcmds))

/-- R300: a multicast changed at its source leaves a tile that has no command. -/
theorem Disbanding.creditSmc {u : Nat} {s : State} (hcmds : (s.tile u).cmds = []) (t id : Nat) (f : Cmd → Cmd) :
    Disbanding u s (s.creditSmc t id f) := by
  unfold State.creditSmc
  split
  · exact .refl u s
  next c hc =>
    have hother : u ≠ t := by
      rintro rfl
      rw [Tile.cmd, hcmds] at hc
      cases hc
    dsimp only
    unfold State.modCmd State.modStatus
    refine Disbanding.trans ?_ (.modTile u _ t rfl fun h => absurd h hother)
    refine .modTile u s t ?_ fun h => absurd h hother
    rfl

theorem Disbanding.dropMember {u : Nat} {s : State} (hcmds : (s.tile u).cmds = []) (t id m : Nat) : Disbanding u s (s.dropMember t id m) := by
  have hlist : Disbanding u s (s.modTile m (fun u => { u with mcast := u.mcast.filter (fun x => !(x.src == t && x.id == id)) })) :=
    .modTile u s m rfl fun _ => rfl
  exact hlist.trans (.creditSmc (hlist.cmds.trans hcmds) t id _)

theorem Disbanding.leaveMulticasts {u : Nat} {s : State} (hcmds : (s.tile u).cmds = []) : Disbanding u s (s.leaveMulticasts u) :=
  .foldl (fun s _ hs => .foldl (fun _ _ hs => .dropMember hs _ _ u) _ s hs) s.tiles s hcmds

/-- R117: a tile that waits for no other one does not wait for one after. -/
theorem Disbanding.returnsLater {u : Nat} {s t : State} (h : Disbanding u s t) (hs : s.returnsLater u = false) : t.returnsLater u = false := by
  have hctx (c : Nat) : t.ctx c = s.ctx c := by rw [State.ctx, h.ctxs, State.ctx]
  have hpipe (c k : Nat) : t.pipe c k = s.pipe c k := by rw [State.pipe, hctx, State.pipe]
  have hown : (t.tile u).ctx = (s.tile u).ctx := (congrArg Tile.ctx h.tile :)
  have hstage : (t.tile u).stage = (s.tile u).stage := (congrArg Tile.stage h.tile :)
  rw [← Bool.not_eq_true] at hs ⊢
  refine fun ht => hs ?_
  unfold State.returnsLater at ht ⊢
  simp only [hctx, hpipe, hown, hstage] at ht
  cases hk : (s.tile u).stage with
  | none => rw [hk] at ht; cases ht
  | some k =>
    simp only [hk, Bool.and_eq_true, List.any_eq_true] at ht ⊢
    obtain ⟨hmoving, v, hv, ⟨⟨⟨hlt, hsame⟩, hleaves⟩, hstill⟩, hkey⟩ := ht
    obtain ⟨w, hw, hnum, hpost⟩ := h.leaving v hv (by simpa using hleaves)
    obtain ⟨hwctx, hwtake, hwstage⟩ : w.2.ctx = v.2.ctx ∧ w.2.takeUp = v.2.takeUp ∧ w.2.stage = v.2.stage := by
      simpa [Tile.post] using hpost
    refine ⟨hmoving, w, hw, ⟨⟨⟨?_, ?_⟩, ?_⟩, ?_⟩, ?_⟩
    · rw [hnum]; exact hlt
    · rw [hwctx]; exact hsame
    · rw [hwtake]; exact hleaves
    · rw [hnum]; exact hstill
    · rw [hwstage]; exact hkey

/-! ## MOVE_TAKEUP (R123) -/

/-- R123: a tile without tasks has no suspended one to give to the resume queue. -/
theorem State.pushSuspended_of_taskless {s : State} {u : Nat} (h : (s.tile u).taskless = true) : s.pushSuspended u = s := by
  obtain ⟨hidle, -⟩ := Bool.and_eq_true_iff.mp h
  refine List.foldlRecOn (motive := fun t => t = s) _ _ rfl fun t ht n hn => ?_
  have hn : ((s.tile u).strand n).state = .idle := beq_iff_eq.mp (List.all_eq_true.mp hidle n hn)
  rw [ht, hn]

/-- R123: the way on from a stage left: to the receiver of the move, or to the pool. -/
def State.goesOn (s : State) (u : Nat) : Option (Nat × Nat) → State
  | none => s.toPool u
  | some k => s.modTile u (fun x => { x with stage := some k, takeUp := .loading 0 })

theorem Tile.drained_taskless {u : Tile} (h : u.drained = true) : u.taskless = true ∧ u.cmds = [] := by
  simp only [Tile.drained, Bool.and_eq_true, List.isEmpty_iff] at h
  obtain ⟨⟨⟨⟨htasks, -⟩, hcmds⟩, -⟩, -⟩ := h
  exact ⟨htasks, hcmds⟩

/-- R123: a drained tile leaves its multicasts, is cleared, and goes on. -/
theorem exec_moveTakeup_drained {s : State} {u : Nat} {dst : Option (Nat × Nat)} (hleaves : (s.tile u).takeUp = .leaving dst)
    (hgoing : (s.tile u).stopping = false) (hdrained : (s.tile u).drained = true) (hlater : dst = none → s.returnsLater u = false) :
    exec (.moveTakeup u) s = .next (((s.leaveMulticasts u).clearTile u).goesOn u dst) := by
  obtain ⟨htasks, hcmds⟩ := Tile.drained_taskless hdrained
  have hout := Disbanding.leaveMulticasts hcmds
  have hstill : ((s.leaveMulticasts u).tile u).drained = true := by
    rw [← hdrained]
    exact (congrArg Tile.drained hout.tile :)
  have hturn : (dst.isNone && (s.leaveMulticasts u).returnsLater u) = false := by
    cases dst with
    | none => exact hout.returnsLater (hlater rfl)
    | some k => rfl
  change execMoveTakeup u s = _
  simp only [execMoveTakeup, engine, hleaves, hgoing, State.pushSuspended_of_taskless htasks, htasks, hstill, hturn, if_true, Bool.not_true,
    Bool.or_false, Bool.false_eq_true, if_false]
  cases dst <;> rfl

theorem Stopping.charge (s : State) (t cls n : Nat) (o : Option Nat) : Stopping s (s.charge t cls n o) := by
  have hmeter (a : State) (n : Nat) : Stopping a (if a.houseClass t cls then a.meterHouse t n else a.meterCtx t n) := by
    split
    · exact .meterHouse a t n
    · exact (Stopping.modTile a t rfl).trans (.of_ctxs rfl rfl rfl fun _ => rfl)
  cases o with
  | some k => exact (Stopping.modTile s t rfl).trans (hmeter _ _)
  | none => exact hmeter s _

/-- R123: clearing a tile leaves contexts, partitions and tiles where they are. -/
theorem Stopping.clearTile (s : State) (u : Nat) : Stopping s (s.clearTile u) := by
  have hslots : Stopping s (s.slotsFreed (s.tile u).ctx u) := .of_ctxs rfl rfl rfl fun _ => rfl
  have hholds : Stopping s (s.dropHolds (s.tile u).ctx u) := by
    rw [State.dropHolds_eq]
    exact hslots.trans (.modTileOf _ _ u fun _ => rfl)
  have hsets := hholds.trans (.modCtx _ (s.tile u).ctx (f := fun x => x.leaveAll u) (Context.leaveAll_reads Context.ending (fun _ _ => rfl) _ u))
  unfold State.clearTile
  dsimp only
  split
  · exact ((hsets.trans (.discardPreloads _ _)).trans (.charge _ u 33 _ none)).trans (.modTile _ u rfl)
  · exact (hsets.trans (.charge _ u 33 _ none)).trans (.modTile _ u rfl)

/-- R123, step 4: what a tile holds stands as zeroed. -/
theorem State.clearTile_zeroed (s : State) (u : Nat) : ∃ x : Tile, (s.clearTile u).tile u = x.zeroed := by
  unfold State.clearTile
  exact ⟨_, State.tile_modTile_same _ u _⟩

theorem mem_insertNat (x : Nat) : ∀ l : List Nat, x ∈ insertNat x l
  | [] => List.mem_singleton_self x
  | a :: r => by
    rw [insertNat]
    split
    · exact List.mem_cons_self
    · split
      next h => rw [h]; exact List.mem_cons_self
      · exact List.mem_cons_of_mem _ (mem_insertNat x r)

/-! ## A move's end (R125) -/

section
variable {γ : Type} (g : State → γ) (hstage : ∀ s c k j f, g (State.modStage s c k j f) = g s) (hrecord : ∀ s c r, g (State.record s c r) = g s)
  (hmoves : ∀ s c (l : List Move → List Move), g (State.modCtx s c (fun x => { x with moves := l x.moves })) = g s)
include hstage hrecord hmoves

/-- What neither a stage's tiles, a record nor a context's moves are read in stands when a tile's move ends. -/
theorem State.endMoves_keeps (s : State) (u : Nat) : g (s.endMoves u) = g s := by
  unfold State.endMoves
  dsimp only
  rw [hmoves _ _ (fun l => l.filter (fun m => m.tile != u))]
  refine foldl_keeps g _ (fun s m => ?_) _ s
  unfold State.recordMove
  rw [hrecord]
  split
  · rfl
  · exact hstage _ _ _ _ _

end

theorem State.endMoves_tiles (s : State) (u : Nat) : (s.endMoves u).tiles = s.tiles :=
  State.endMoves_keeps State.tiles (fun _ _ _ _ _ => rfl) State.record_tiles (fun _ _ _ => rfl) s u

theorem State.endMoves_stored (s : State) (u : Nat) : (s.endMoves u).stored = s.stored :=
  State.endMoves_keeps State.stored (fun _ _ _ _ _ => rfl) (fun s c r => by simp [State.stored]) (fun _ _ _ => rfl) s u

theorem partOf_modCtx (s : State) (c e : Nat) {f : Context → Context} (h : ∀ x, (f x).part = x.part) : partOf (s.modCtx c f) e = partOf s e :=
  s.modCtx_reads Context.part c (h _) e

theorem partOf_modStage (s : State) (c k j : Nat) (f : Stage → Stage) (e : Nat) : partOf (s.modStage c k j f) e = partOf s e :=
  partOf_modCtx s c e fun _ => rfl

/-! ## The pool (R117) -/

/-- A tile as the pool has it. -/
def Tile.pooled (u : Tile) : Tile := { u with stage := none, takeUp := .none, dictN := 0, code := [], codeBad := [] }

theorem State.toPool_tile (s : State) (u : Nat) : (s.toPool u).tile u = (s.tile u).pooled := by
  unfold State.toPool
  dsimp only
  rw [State.tile_modTile_same, State.tile_modPart, State.tile, State.endMoves_tiles]
  split <;> rfl

theorem State.toPool_pool (s : State) (u : Nat) : u ∈ ((s.toPool u).part (partOf s (s.tile u).ctx)).pool := by
  have hpool (a b : State) (p : Nat) (hp : (b.ctx (s.tile u).ctx).part = p) :
      u ∈ ((a.modPart (b.ctx (s.tile u).ctx).part (fun x => { x with pool := insertNat u x.pool })).part p).pool := by
    rw [hp, State.part_modPart_same]
    exact mem_insertNat u _
  unfold State.toPool
  dsimp only
  refine hpool _ _ _ ?_
  split
  · exact partOf_modStage s _ _ _ _ _
  · rfl

/-- R123: how the receiver of a move, or the pool, has a tile. -/
def takeUpOnward : Option (Nat × Nat) → TakeUp
  | some _ => .loading 0
  | none => .none

/-- R115, R117, R123: a tile that has drained leaves its stage with its state zeroed. -/
theorem moveTakeup_acts {s : State} {u : Nat} {dst : Option (Nat × Nat)} (hleaves : (s.tile u).takeUp = .leaving dst)
    (hgoing : (s.tile u).stopping = false) (hdrained : (s.tile u).drained = true) (hlater : dst = none → s.returnsLater u = false) :
    ∃ t, exec (.moveTakeup u) s = .next t ∧ (t.tile u).stage = dst ∧ (t.tile u).sram = [] ∧ (t.tile u).cells = [] ∧ (t.tile u).arcs = [] ∧
      (t.tile u).matrix = [] ∧ (t.tile u).status = [] ∧ (t.tile u).fstat = {} ∧ (t.tile u).fargs = [] ∧
      (t.tile u).takeUp = takeUpOnward dst ∧
      (dst = none → u ∈ (t.part (partOf s (s.tile u).ctx)).pool ∧ (t.tile u).dictN = 0) := by
  obtain ⟨-, hcmds⟩ := Tile.drained_taskless hdrained
  have hout := Disbanding.leaveMulticasts hcmds
  have hclear := Stopping.clearTile (s.leaveMulticasts u) u
  obtain ⟨x, hzero⟩ := (s.leaveMulticasts u).clearTile_zeroed u
  refine ⟨_, exec_moveTakeup_drained hleaves hgoing hdrained hlater, ?_⟩
  cases dst with
  | some k =>
    rw [State.goesOn, State.tile_modTile_same, hzero]
    exact ⟨rfl, rfl, rfl, rfl, rfl, rfl, rfl, rfl, rfl, nofun⟩
  | none =>
    have hown : (((s.leaveMulticasts u).clearTile u).tile u).ctx = (s.tile u).ctx :=
      (congrArg Prod.fst (hclear.seat u) :).trans (congrArg Tile.ctx hout.tile :)
    have hpart : partOf ((s.leaveMulticasts u).clearTile u) (s.tile u).ctx = partOf s (s.tile u).ctx := by
      have hcleared : partOf ((s.leaveMulticasts u).clearTile u) (s.tile u).ctx = partOf (s.leaveMulticasts u) (s.tile u).ctx :=
        (congrArg Context.part (hclear.ending _) :)
      rw [hcleared, partOf, State.ctx, hout.ctxs, partOf, State.ctx]
    have hpool := ((s.leaveMulticasts u).clearTile u).toPool_pool u
    rw [hown, hpart] at hpool
    rw [State.goesOn, State.toPool_tile, hzero]
    exact ⟨rfl, rfl, rfl, rfl, rfl, rfl, rfl, rfl, rfl, fun _ => ⟨hpool, rfl⟩⟩

/-! ## The seats of tiles under a device read (R136 to R140, R186) -/

/-- Where the tiles stand: the context that each runs and the stage that it holds. -/
def State.seats (s : State) : Nat → Nat × Option (Nat × Nat) := fun u => (s.tile u).seat

theorem State.seats_of_tiles {s t : State} (h : t.tiles = s.tiles) : t.seats = s.seats := by
  funext u
  rw [State.seats, State.tile, h, State.seats, State.tile]

theorem Stopping.seats {s t : State} (h : Stopping s t) : t.seats = s.seats := funext h.seat

theorem State.modTile_seats (s : State) (t : Nat) {f : Tile → Tile} (h : (f (s.tile t)).seat = (s.tile t).seat) : (s.modTile t f).seats = s.seats :=
  funext (s.seat_modTile h)

theorem State.modStrand_seats (s : State) (t n : Nat) (f : Strand → Strand) : (s.modStrand t n f).seats = s.seats := s.modTile_seats t rfl

theorem State.fillAbove_seats (s : State) (who : Requester) (e : TlbEntry) : (s.fillAbove who e).seats = s.seats := by
  have hwindow (a : State) (t p : Nat) : (fillWindow a t p e).seats = a.seats := a.modTile_seats t rfl
  have hown : (match who.tile with
      | some t => s.modTile t (fun u => { u with utlb := lruPut 64 u.utlb e })
      | none => s).seats = s.seats := by
    split
    · exact s.modTile_seats _ rfl
    · rfl
  unfold State.fillAbove
  dsimp only
  split
  · exact (hwindow _ _ _).trans hown
  · exact hown

theorem State.tlbLookup_seats (s : State) (who : Requester) (c va : Nat) (a : Access) : (s.tlbLookup who c va a).1.seats = s.seats := by
  have hasked : (match who with
      | .strand t n => s.modStrand t n (fun st => { st with missed := st.missed + 1 })
      | .fetcher t n => s.charge t 46 1 (some n)
      | .command t i => s.charge t 46 1 (((s.tile t).cmds.find? (fun (c : Nat × Cmd) => c.1 == i)).map (fun (c : Nat × Cmd) => c.2.strand))
      | _ => s).seats = s.seats := by
    split
    · exact s.modStrand_seats _ _ _
    · exact (Stopping.charge s _ _ _ _).seats
    · exact (Stopping.charge s _ _ _ _).seats
    · rfl
  have huncore (x : State) (d : Nat) : (x.uncore d c .tlb 1 (uncoreDomain d)).seats = x.seats := State.seats_of_tiles (x.uncore_tiles _ _ _ _ _)
  unfold State.tlbLookup
  split
  · rfl
  · split
    · exact s.fillAbove_seats _ _
    · dsimp only
      split
      · exact (State.fillAbove_seats _ _ _).trans ((huncore _ _).trans hasked)
      · exact (huncore _ _).trans hasked

theorem State.translate_seats (s : State) (who : Requester) (c : Nat) (va : Word) (a : Access) (super atomic : Bool) :
    (s.translate who c va a super atomic).after.seats = s.seats := by
  have hlook := s.tlbLookup_seats who c va.toNat a
  unfold State.translate
  split
  · rfl
  · dsimp only
    split
    · split
      · rfl
      · rfl
      · split
        · rw [State.use_after]; rfl
        · rfl
      · rfl
    · split
      next h => rw [h] at hlook; rw [State.use_after]; exact hlook
      next h =>
        rw [h] at hlook
        split
        · rfl
        · exact hlook

theorem State.xlPages_seats (who : Requester) (c : Nat) (a : Access) (super : Bool) : ∀ (l : List Nat) (s : State),
    (s.xlPages who c a super l).after.seats = s.seats
  | [], _ => rfl
  | va :: rest, s => by
    have hfirst := s.translate_seats who c (w64 va) a super false
    unfold State.xlPages
    split
    next s1 pa rep h =>
      rw [h] at hfirst
      have hrest := State.xlPages_seats who c a super rest s1
      split
      next h1 => rw [h1] at hrest; exact hrest.trans hfirst
      · exact hrest.trans hfirst
    next h => rw [h] at hfirst; exact hfirst
    next h => rw [h] at hfirst; exact hfirst

theorem State.nodeEvent_tiles (s : State) (e c pa : Nat) (w a : Bool) : (s.nodeEvent e c pa w a).tiles = s.tiles := by
  have hcharge : (s.nodeCharge c pa w a).tiles = s.tiles := by
    unfold State.nodeCharge
    dsimp only
    split <;> exact s.uncore_tiles _ _ _ _ _
  unfold State.nodeEvent
  dsimp only
  split
  · exact hcharge
  · exact hcharge

theorem State.chargeRun_tiles (s : State) (c t va n : Nat) (pas : List Nat) (w : Bool) : (s.chargeRun c t va n pas w).tiles = s.tiles :=
  foldl_keeps State.tiles _ (fun s _ => (State.nodeEvent_tiles _ _ _ _ _ _).trans (s.chargePath_tiles _ _ _ _)) _ s

/-- A device read leaves every tile with its context and its stage. -/
theorem State.readVa_seats {s s1 : State} {who : Requester} {c t va n : Nat} {super : Bool} {l : List Byte}
    (h : s.readVa who c t va n super = .ok s1 l) : s1.seats = s.seats := by
  have hpages := State.xlPages_seats who c .read super (pagesOf va n) s
  unfold State.readVa at h
  split at h
  next hx =>
    split at h
    · cases h
    · cases h
      rw [hx] at hpages
      exact (State.seats_of_tiles (State.chargeRun_tiles _ _ _ _ _ _ _)).trans hpages
  · cases h
  · cases h

/-! ## STAGE_TAKEUP (R123, R155) -/

/-- R155: a tile with one more entry of its dictionary. -/
def Tile.given (e : Nat) (b : List Byte) (u : Tile) : Tile := { u with code := u.code.set e (bundleOf b), takeUp := .loading (e + 1) }

/-- R155: a step of a copy that needs no preload gives the tile the entry that it reads; the last makes the copy whole. -/
theorem exec_stageTakeup_read {s s1 : State} {u e slot g : Nat} {b : List Byte} (hgoing : (s.tile u).stopping = false)
    (htake : (s.tile u).takeUp = .loading e) (hstage : (s.tile u).stage = some (slot, g)) (hfits : s.preloadFits u = false) {d : StageDesc}
    (hd : ((s.pipe (s.tile u).ctx slot).stage g).desc = d)
    (hread : s.readVa (.loader u) (s.tile u).ctx u ((d.dictBase.toNat + 48 * e) % 2 ^ 64) 48 (s.super u) = .ok s1 b) :
    exec (.stageTakeup u) s =
      .next (if e + 1 = d.dictN then (s1.modTile u (Tile.given e b)).dictDone u d else s1.modTile u (Tile.given e b)) := by
  subst hd
  change execStageTakeup u s = _
  simp only [execStageTakeup, engine, hgoing, htake, hstage, hfits, hread, Bool.false_eq_true, if_false, List.length_nil, Nat.not_lt_zero]
  rfl

/-- R155: a tile with the whole copy. -/
def Tile.whole (d : StageDesc) (u : Tile) : Tile :=
  { u with code := u.code.filter (fun (p : Nat × Bundle) => decide (p.1 < d.dictN)), codeBad := [], dictN := d.dictN, csb := d.csb }

/-- R120, R123: a tile that has taken up its stage. -/
def Tile.starting (u : Tile) : Tile := { u with takeUp := .none, choosing := true, cur := 7, liveBanks := [] }

/-- R155: the whole copy, then the image, or the start where the stage has none. -/
theorem State.dictDone_eq (s : State) (u : Nat) (d : StageDesc) : s.dictDone u d =
    if d.image = 0 then (s.modTile u (Tile.whole d)).takenUp u
    else (s.modTile u (Tile.whole d)).modTile u (fun x => { x with takeUp := .imaging }) := rfl

theorem State.takenUp_tile {s : State} {u slot g : Nat} (h : (s.tile u).stage = some (slot, g)) : (s.takenUp u).tile u = (s.tile u).starting := by
  simp only [State.takenUp, h]
  rw [State.tile_modTile_same, State.tile_modStage, State.tile, State.endMoves_tiles]
  rfl

theorem State.takenUp_stored (s : State) (u : Nat) : (s.takenUp u).stored = s.stored := by
  unfold State.takenUp
  dsimp only
  split
  · rfl
  · exact s.endMoves_stored u

/-- How many stages a slot's pipeline has stands when a stage changes. -/
theorem State.modStage_stages_length (s : State) (c k j : Nat) (f : Stage → Stage) (e slot : Nat) :
    ((s.modStage c k j f).pipe e slot).stages.length = (s.pipe e slot).stages.length := by
  refine State.modCtx_reads (fun x => (x.pipe slot).stages.length) s c ?_ e
  by_cases hslot : slot = k
  · subst hslot
    simp [Context.pipe]
  · simp [Context.pipe, AMap.get_set_other _ _ _ hslot]

theorem State.endMoves_stages_length (s : State) (u e slot : Nat) :
    ((s.endMoves u).pipe e slot).stages.length = (s.pipe e slot).stages.length :=
  State.endMoves_keeps (fun s => (s.pipe e slot).stages.length) (fun s c k j f => s.modStage_stages_length c k j f e slot)
    (fun s _ r => s.record_reads _ (fun x : Context => (x.pipe slot).stages.length) (fun _ _ => rfl) r e)
    (fun s c _ => s.modCtx_reads (fun x => (x.pipe slot).stages.length) c rfl e) s u

/-- R123: a stage that a tile has taken up lists it. -/
theorem State.takenUp_lists {s : State} {u slot g : Nat} (h : (s.tile u).stage = some (slot, g))
    (hg : g < (s.pipe (s.tile u).ctx slot).stages.length) : u ∈ (((s.takenUp u).pipe (s.tile u).ctx slot).stage g).tiles := by
  have hlt : g < ((s.endMoves u).pipe (s.tile u).ctx slot).stages.length := by
    rw [State.endMoves_stages_length]
    exact hg
  have hadded := State.stageAt_modStage_same (s := s.endMoves u) (c := (s.tile u).ctx) (k := (slot, g))
    (fun x => { x with tiles := insertNat u x.tiles }) hlt
  simp only [State.takenUp, h]
  exact (congrArg (fun x : Stage => u ∈ x.tiles) hadded).mpr (mem_insertNat u _)

/-- The value under a number that a filter keeps. -/
theorem AMap.get_filter {α : Type} (d : α) {P : Nat × α → Bool} {k : Nat} (hk : ∀ v, P (k, v) = true) :
    ∀ m : AMap α, AMap.get d (m.filter P) k = AMap.get d m k
  | [] => rfl
  | (j, w) :: r => by
    have hrest := AMap.get_filter d hk r
    by_cases hj : k = j
    · subst hj
      rw [List.filter_cons_of_pos (hk w), AMap.get, AMap.get, if_pos rfl, if_pos rfl]
    · rw [AMap.get, if_neg hj, ← hrest]
      by_cases hP : P (j, w) = true
      · rw [List.filter_cons_of_pos hP, AMap.get, if_neg hj]
      · rw [List.filter_cons_of_neg hP]

/-- R155, R159: taking up a stage copies one dictionary entry a step; the last sets the count and the code segment base. -/
theorem stageTakeup_acts {s s1 : State} {u e slot g : Nat} {b : List Byte} (hgoing : (s.tile u).stopping = false)
    (htake : (s.tile u).takeUp = .loading e) (hstage : (s.tile u).stage = some (slot, g)) (hfits : s.preloadFits u = false) {d : StageDesc}
    (hd : ((s.pipe (s.tile u).ctx slot).stage g).desc = d) (he : e < d.dictN)
    (hread : s.readVa (.loader u) (s.tile u).ctx u ((d.dictBase.toNat + 48 * e) % 2 ^ 64) 48 (s.super u) = .ok s1 b) :
    ∃ t, exec (.stageTakeup u) s = .next t ∧ (t.tile u).code.get 0 e = BitVec.ofNat 384 (leNat b) ∧ t.stored = s1.stored ∧
      (e + 1 < d.dictN → (t.tile u).takeUp = .loading (e + 1)) ∧
      (e + 1 = d.dictN → (t.tile u).dictN = d.dictN ∧ (t.tile u).csb = d.csb ∧ (∀ p ∈ (t.tile u).code, p.1 < d.dictN)) ∧
      (e + 1 = d.dictN → d.image ≠ 0 → (t.tile u).takeUp = .imaging) ∧
      (e + 1 = d.dictN → d.image = 0 → g < (s.pipe (s.tile u).ctx slot).stages.length →
        (t.tile u).takeUp = .none ∧ (t.tile u).choosing = true ∧ u ∈ ((t.pipe (s.tile u).ctx slot).stage g).tiles) := by
  have hexec := exec_stageTakeup_read hgoing htake hstage hfits hd hread
  have hseat : (s1.tile u).seat = (s.tile u).seat := congrFun (State.readVa_seats hread) u
  have hgiven : ((s1.tile u).given e b).code.get 0 e = BitVec.ofNat 384 (leNat b) := AMap.get_set_same _ _ _ _
  by_cases hlast : e + 1 = d.dictN
  · have hkept : (((s1.tile u).given e b).whole d).code.get 0 e = BitVec.ofNat 384 (leNat b) :=
      (AMap.get_filter 0 (fun _ => decide_eq_true he) _).trans hgiven
    have hbelow : ∀ p ∈ (((s1.tile u).given e b).whole d).code, p.1 < d.dictN := fun p hp => of_decide_eq_true (List.mem_filter.mp hp).2
    have hwhole : ((s1.modTile u (Tile.given e b)).modTile u (Tile.whole d)).tile u = ((s1.tile u).given e b).whole d := by
      rw [State.tile_modTile_same, State.tile_modTile_same]
    rw [if_pos hlast, State.dictDone_eq] at hexec
    by_cases himage : d.image = 0
    · have hctx : ((s1.tile u).given e b |>.whole d).ctx = (s.tile u).ctx := (congrArg Prod.fst hseat :)
      have hat : ((s1.tile u).given e b |>.whole d).stage = some (slot, g) := (congrArg Prod.snd hseat :).trans hstage
      rw [← hwhole] at hctx hat
      have hlists := State.takenUp_lists hat
      have hpipe : ((s1.modTile u (Tile.given e b)).modTile u (Tile.whole d)).pipe (s.tile u).ctx slot = s.pipe (s.tile u).ctx slot :=
        State.pipe_of_affairs (State.readVa_ok hread).1 _ _
      rw [hctx, hpipe] at hlists
      rw [if_pos himage] at hexec
      refine ⟨_, hexec, ?_⟩
      rw [State.takenUp_tile hat, hwhole]
      exact ⟨hkept, State.takenUp_stored _ u, fun h => absurd hlast h.ne, fun _ => ⟨rfl, rfl, hbelow⟩, fun _ h => absurd himage h,
        fun _ _ hg => ⟨rfl, rfl, hlists hg⟩⟩
    · rw [if_neg himage] at hexec
      refine ⟨_, hexec, ?_⟩
      rw [State.tile_modTile_same, hwhole]
      exact ⟨hkept, rfl, fun h => absurd hlast h.ne, fun _ => ⟨rfl, rfl, hbelow⟩, fun _ _ => rfl, fun _ h => absurd h himage⟩
  · rw [if_neg hlast] at hexec
    refine ⟨_, hexec, ?_⟩
    rw [State.tile_modTile_same]
    exact ⟨hgiven, rfl, fun _ => rfl, fun h => absurd h hlast, fun h => absurd h hlast, fun h => absurd h hlast⟩

/-! ## PRELOAD (R109, R159) -/

/-- R109, R159: the copy of a stage's dictionary that a preload holds, for a stage without an image. -/
def dictCopy (p : Pipeline) (c slot g : Nat) (b : List Byte) : Preload :=
  let n := min 256 (p.stage g).desc.dictN
  { ctx := c, slot, stage := g, serial := p.handle, entries := (List.range n).map (fun i => bundleOf (cut b (48 * i) 48)), bank := [],
    units := tileCoef.getD 55 0 * n + tileCoef.getD 33 0 * ((([] : List Byte).length + 63) / 64) }

theorem dictCopy_units (p : Pipeline) (c slot g : Nat) (b : List Byte) : (dictCopy p c slot g b).units = 192 * min 256 (p.stage g).desc.dictN := by
  have hcoef : tileCoef.getD 55 0 = 192 := by decide
  have hnone : tileCoef.getD 33 0 * ((([] : List Byte).length + 63) / 64) = 0 := by decide
  rw [dictCopy, hcoef, hnone, Nat.add_zero]

/-- R159: PRELOAD into a tile that holds no copy. -/
theorem exec_preload_dict {s s1 : State} {u c slot g : Nat} {b : List Byte} (hnext : s.nextStage u = some (c, slot, g))
    (hnone : (s.tile u).preload = none) (himage : ((s.pipe c slot).stage g).desc.image = 0)
    (hread : s.readVa (.loader u) c u ((s.pipe c slot).stage g).desc.dictBase.toNat (48 * min 256 ((s.pipe c slot).stage g).desc.dictN) false =
      .ok s1 b) :
    exec (.preload u) s = .next (s1.modTile u (fun x => { x with preload := some (dictCopy (s.pipe c slot) c slot g b) })) := by
  change execPreload u s = _
  simp only [execPreload, engine, hnext, hnone, himage, hread, Option.isSome_none, Bool.false_eq_true, if_false, if_true]
  rfl

/-- Settles O21: a drained tile goes on zeroed, a take-up copies entry by entry, and a preload copies the dictionary of the next stage. -/
theorem tilesLeaveAndTakeUpStages : Obligations.TilesLeaveAndTakeUpStages := by
  refine ⟨fun s u dst hleaves hgoing hdrained hlater => moveTakeup_acts hleaves hgoing hdrained hlater, ?_, ?_⟩
  · intro s u e slot g s1 b hgoing htake hstage hfits d he hread
    obtain ⟨t, hexec, hcode, hstored, hmore, hwhole, himaging, hstarts⟩ := stageTakeup_acts hgoing htake hstage hfits rfl he hread
    exact ⟨t, hexec, hcode, congrArg Prod.fst hstored, congrArg Prod.snd hstored, hmore, hwhole, himaging, fun hlast himage _ => hstarts hlast himage⟩
  · intro s u c slot g s1 b hnext hnone d himage hread
    refine ⟨_, exec_preload_dict hnext hnone himage hread, rfl, rfl, dictCopy (s.pipe c slot) c slot g b, ?_, rfl, rfl, rfl, rfl,
      dictCopy_units _ _ _ _ _⟩
    rw [State.tile_modTile_same]

end Sys2Proof.Machine
end

section
/-! SUPPORT. The start of a task on the strand that a core chooses (R122, R184, R185, R189). -/

namespace Sys2Proof.Machine

/-! ## A strand's registers as its task starts (R122, R185) -/

/-- R185: x1 to x6 are those that the strand holds. -/
theorem Strand.startTask_rx_low (st : Strand) (b : BitVec 32) (p : List Nat) {r : XReg} (h : r.toNat ≤ 6) :
    (st.startTask b p).rx r = st.rx r := by
  unfold Strand.rx
  rw [Strand.startTask, AMap.get_filter 0 fun _ => decide_eq_true h]

/-- R185: the other registers are zero. -/
theorem Strand.startTask_rx_high (st : Strand) (b : BitVec 32) (p : List Nat) {r : XReg} (h : 6 < r.toNat) :
    (st.startTask b p).rx r = 0 := by
  have habsent : ∀ q ∈ st.x.filter (fun (q : Nat × Word) => decide (q.1 ≤ 6)), q.1 ≠ r.toNat := fun q hq heq => by
    have hlow : q.1 ≤ 6 := of_decide_eq_true (List.mem_filter.mp hq).2
    omega
  unfold Strand.rx
  rw [Strand.startTask, AMap.get_of_absent 0 habsent, ite_self]

/-- R122: x1 to x6 of a record's strand are those of the record. -/
theorem Strand.ofRecord_rx (st : Strand) (r : Item) {d : XReg} (hlow : 1 ≤ d.toNat) (hhigh : d.toNat ≤ 6) :
    (st.ofRecord r).rx d = r.recX d.toNat := by
  have hd : d ≠ 0 := by
    rintro rfl
    exact absurd hlow (by decide)
  have hx : (st.ofRecord r).x = [(1, r.recX 1), (2, r.recX 2), (3, r.recX 3), (4, r.recX 4), (5, r.recX 5), (6, r.recX 6)] := rfl
  rw [Strand.rx, if_neg hd, hx]
  generalize d.toNat = k at hlow hhigh
  interval_cases k <;> rfl

theorem Strand.waits_rx (st : Strand) (q : Nat) (d : XReg) : ({ st with state := .waiting q } : Strand).rx d = st.rx d := rfl

/-! ## The start (R109, R185) -/

/-- R185: the start of the task that a strand holds. -/
def State.begins (s : State) (u n : Nat) (budget : BitVec 32) (past : List Nat) : State :=
  ((s.chargeHeld u).modStrand u n (fun st => st.startTask budget past)).modTile u (fun x => { x with cur := n, choosing := false })

/-- R109: a charge that a preload holds leaves the strands of its tile. -/
theorem State.chargeHeld_strands (s : State) (u : Nat) : ((s.chargeHeld u).tile u).strands = (s.tile u).strands := by
  unfold State.chargeHeld
  split
  · rfl
  · unfold State.meterCtx
    rw [State.tile_windowAdd, State.tile_modTile_same, State.tile_modTile_same]

theorem State.chargeHeld_keeps {γ : Type} (g : State → γ) (htile : ∀ s t f, g (State.modTile s t f) = g s)
    (hwindow : ∀ s d c y x, g (State.windowAdd s d c y x) = g s) (s : State) (u : Nat) : g (s.chargeHeld u) = g s := by
  unfold State.chargeHeld
  split
  · rfl
  · unfold State.meterCtx
    rw [hwindow, htile, htile]

theorem State.begins_keeps {γ : Type} (g : State → γ) (htile : ∀ s t f, g (State.modTile s t f) = g s)
    (hwindow : ∀ s d c y x, g (State.windowAdd s d c y x) = g s) (s : State) (u n : Nat) (b : BitVec 32) (p : List Nat) :
    g (s.begins u n b p) = g s := by
  rw [State.begins, htile, State.modStrand, htile, State.chargeHeld_keeps g htile hwindow]

theorem State.begins_strand (s : State) (u n : Nat) (b : BitVec 32) (p : List Nat) :
    (s.begins u n b p).strand u n = (s.strand u n).startTask b p := by
  have hheld : (s.chargeHeld u).strand u n = s.strand u n := by
    rw [State.strand, Tile.strand, State.chargeHeld_strands, State.strand, Tile.strand]
  rw [← hheld, ← State.strand_modStrand_same (s.chargeHeld u) u n (fun st => st.startTask b p)]
  unfold State.begins State.strand
  rw [State.tile_modTile_same]
  rfl

/-- R185: what the start of a task leaves. -/
theorem StartedAt.begins {s a : State} (hstored : a.stored = s.stored) (u n : Nat) (b : BitVec 32) (p : List Nat) :
    StartedAt s (a.begins u n b p) u n b := by
  have hkept : (a.begins u n b p).stored = s.stored := (State.begins_keeps State.stored (fun _ _ _ => rfl) (fun _ _ _ _ _ => rfl) a u n b p).trans hstored
  unfold StartedAt
  rw [State.begins_strand]
  refine ⟨?_, ?_, rfl, fun r => Strand.startTask_rx_high _ b p, rfl, rfl, rfl, rfl, rfl, rfl, rfl, rfl, rfl, rfl, rfl,
    congrArg Prod.fst hkept, congrArg Prod.snd hkept⟩ <;>
  · rw [State.begins, State.tile_modTile_same]

/-! ## STRAND_SELECT (R184, R189) -/

/-- R185: what a fresh task's strand holds before its start. -/
def Strand.fresh (pc : BitVec 32) (e : Nat) (st : Strand) : Strand :=
  { st with x := [], pc, item := 0, itag := 0, entry := some e, claim := true }

/-- R113, R122: the first record of a stage's resume queue taken to a strand, its event charged. -/
def State.recordTaken (s : State) (u n slot g : Nat) (r : Item) (rest : List Item) : State :=
  ((s.charge u 47 1 (some n)).modStage (s.tile u).ctx slot g (fun x => { x with resume := rest })).modStrand u n (fun st => st.ofRecord r)

section chooses
variable {s : State} {u n slot g : Nat} (h : Chooses s u n slot g)
include h

theorem Chooses.exec : exec (.strandSelect u) s = .next (s.startStrand u n) := by
  obtain ⟨hmay, hchosen, -⟩ := h
  change execStrandSelect u s = _
  simp only [execStrandSelect, engine, hmay, hchosen, Bool.not_true, Bool.false_eq_true, if_false]

theorem Chooses.choosing : (s.tile u).choosing = true := by
  obtain ⟨hmay, -, -⟩ := h
  simp only [Tile.mayChoose, Bool.and_eq_true] at hmay
  obtain ⟨⟨⟨⟨hchoosing, -⟩, -⟩, -⟩, -⟩ := hmay
  exact hchoosing

/-- R122: a suspended task goes on as its strand holds it. -/
theorem Chooses.startStrand_suspended (hstate : (s.strand u n).state ≠ .idle) : s.startStrand u n =
    s.begins u n ((s.pipe (s.tile u).ctx slot).stage g).desc.budget ((s.pipe (s.tile u).ctx slot)).startPast := by
  obtain ⟨-, -, hstage⟩ := h
  simp only [State.startStrand, hstage]
  split
  next hidle => exact absurd hidle hstate
  · rfl

/-- R185: a strand without a task, and no record to resume: a fresh task. -/
theorem Chooses.startStrand_fresh (hstate : (s.strand u n).state = .idle)
    (hresume : ((s.pipe (s.tile u).ctx slot).stage g).resume = []) : s.startStrand u n =
    (((s.takeEntry (s.tile u).ctx slot g).1.modStrand u n (Strand.fresh ((s.pipe (s.tile u).ctx slot).stage g).desc.entry
      (s.takeEntry (s.tile u).ctx slot g).2)).begins u n ((s.pipe (s.tile u).ctx slot).stage g).desc.budget
        (s.pipe (s.tile u).ctx slot).startPast) := by
  obtain ⟨-, -, hstage⟩ := h
  have hidle : ((s.tile u).strand n).state = .idle := hstate
  simp only [State.startStrand, hstage, hidle, hresume]
  rfl

/-- R122: a strand without a task takes the first record: one that waits on a queue waits again, another starts. -/
theorem Chooses.startStrand_record (hstate : (s.strand u n).state = .idle) {r : Item} {rest : List Item}
    (hresume : ((s.pipe (s.tile u).ctx slot).stage g).resume = r :: rest) : s.startStrand u n =
    match r.recWait with
    | some q => (s.recordTaken u n slot g r rest).modStrand u n (fun st => { st with state := .waiting q })
    | none => (s.recordTaken u n slot g r rest).begins u n ((s.pipe (s.tile u).ctx slot).stage g).desc.budget
        (s.pipe (s.tile u).ctx slot).startPast := by
  obtain ⟨-, -, hstage⟩ := h
  have hidle : ((s.tile u).strand n).state = .idle := hstate
  simp only [State.startStrand, hstage, hidle, hresume]
  rfl

end chooses

/-- R122: the first record taken leaves the resume queue, and its strand holds what it says. -/
theorem State.recordTaken_resume {s : State} {u n slot g : Nat} {r : Item} {rest : List Item}
    (hresume : ((s.pipe (s.tile u).ctx slot).stage g).resume = r :: rest) :
    (((s.recordTaken u n slot g r rest).pipe (s.tile u).ctx slot).stage g).resume = rest := by
  have hlt : g < (s.pipe (s.tile u).ctx slot).stages.length := by
    by_contra hge
    rw [Pipeline.stage, List.getElem?_eq_none (Nat.le_of_not_lt hge)] at hresume
    cases hresume
  have hctxs : (s.charge u 47 1 (some n)).ctx (s.tile u).ctx = s.ctx (s.tile u).ctx := by rw [State.ctx, State.charge_ctxs, State.ctx]
  have htaken := State.stageAt_modStage_same (s := s.charge u 47 1 (some n)) (c := (s.tile u).ctx) (k := (slot, g))
    (fun x => { x with resume := rest }) (by rw [State.pipe, hctxs]; exact hlt)
  exact congrArg Stage.resume htaken

theorem State.recordTaken_strand (s : State) (u n slot g : Nat) (r : Item) (rest : List Item) :
    (s.recordTaken u n slot g r rest).strand u n = ((s.strand u n).charged 47 1).ofRecord r := by
  rw [State.recordTaken, State.strand_modStrand_same, ← s.charge_strand_same u 47 1 n]
  rfl

theorem State.recordTaken_stored (s : State) (u n slot g : Nat) (r : Item) (rest : List Item) :
    (s.recordTaken u n slot g r rest).stored = s.stored := by
  change (s.charge u 47 1 (some n)).stored = s.stored
  simp [State.stored]

theorem State.recordTaken_choosing (s : State) (u n slot g : Nat) (r : Item) (rest : List Item) :
    ((s.recordTaken u n slot g r rest).tile u).choosing = (s.tile u).choosing := by
  obtain ⟨_, _, _, hcharged⟩ := s.charge_tile_same u 47 1 n
  rw [State.recordTaken, State.modStrand, State.tile_modTile_same, State.tile_modStage, hcharged]
  rfl

theorem strandsStartTasks : Rules.StrandsStartTasks := by
  intro s u n slot g h
  have hkeeps (a : State) (b : BitVec 32) (p : List Nat) (c k : Nat) : (a.begins u n b p).pipe c k = a.pipe c k :=
    State.begins_keeps (fun s => s.pipe c k) (fun _ _ _ => rfl) (fun _ _ _ _ _ => rfl) a u n b p
  refine ⟨fun hstate hresume => ⟨_, h.exec, ?_⟩, fun hstate => ⟨_, h.exec, ?_⟩, fun r rest hstate hresume => ⟨_, h.exec, ?_⟩⟩
  · rw [h.startStrand_fresh hstate hresume]
    refine ⟨.begins ?_ u n _ _, ?_, fun r => ?_, ?_, ?_⟩
    · rfl
    · rw [State.begins_strand, State.strand_modStrand_same]
      rfl
    · rw [State.begins_strand, State.strand_modStrand_same]
      exact ite_self _
    · rw [State.begins_strand, State.strand_modStrand_same]
      rfl
    · rw [State.begins_strand, State.strand_modStrand_same]
      rfl
  · rw [h.startStrand_suspended hstate]
    refine ⟨.begins rfl u n _ _, ?_⟩
    rw [State.begins_strand]
    exact ⟨rfl, fun r hr => Strand.startTask_rx_low _ _ _ hr, rfl, rfl⟩
  · have hstrand := s.recordTaken_strand u n slot g r rest
    have hx (d : XReg) : 1 ≤ d.toNat → d.toNat ≤ 6 → (((s.strand u n).charged 47 1).ofRecord r).rx d = r.recX d.toNat :=
      Strand.ofRecord_rx _ r
    have hleft := State.recordTaken_resume (n := n) hresume
    rw [h.startStrand_record hstate hresume]
    cases hwait : r.recWait with
    | none =>
      dsimp only
      rw [hkeeps, State.begins_strand, hstrand]
      exact ⟨hleft, rfl, rfl, rfl, fun d hlow hhigh => (Strand.startTask_rx_low _ _ _ hhigh).trans (hx d hlow hhigh),
        .begins (s.recordTaken_stored u n slot g r rest) u n _ _⟩
    | some q =>
      dsimp only
      rw [State.strand_modStrand_same, hstrand]
      refine ⟨hleft, rfl, rfl, rfl, fun d hlow hhigh => (Strand.waits_rx _ q d).trans (hx d hlow hhigh), rfl, ?_⟩
      rw [State.modStrand, State.tile_modTile_same]
      exact (s.recordTaken_choosing u n slot g r rest).trans h.choosing
end Sys2Proof.Machine
end
section
/-! SUPPORT. An item given to the first waiting strand by its queue's divider (R126 to R129); and O55. -/

namespace Sys2Proof.Machine

/-! ## What programs see (R113) -/

theorem ProgramsKept.trans {s t r : State} (h : ProgramsKept s t) (k : ProgramsKept t r) : ProgramsKept s r := by
  obtain ⟨hregs, hmem, hlog⟩ := h
  obtain ⟨kregs, kmem, klog⟩ := k
  exact ⟨fun u n => ⟨fun r => ((kregs u n).1 r).trans ((hregs u n).1 r), (kregs u n).2.trans (hregs u n).2⟩, kmem.trans hmem, klog.trans hlog⟩

/-- A change of a strand that leaves its registers and its PC. -/
theorem programsKept_modStrand (s : State) (t n : Nat) {f : Strand → Strand} (h : ∀ st, (f st).x = st.x ∧ (f st).pc = st.pc) :
    ProgramsKept s (s.modStrand t n f) := by
  refine ⟨fun u m => ?_, rfl, rfl⟩
  by_cases hum : u = t ∧ m = n
  · obtain ⟨rfl, rfl⟩ := hum
    obtain ⟨hx, hpc⟩ := h (s.strand u m)
    rw [State.strand_modStrand_same]
    exact ⟨fun r => by rw [Strand.rx, hx, Strand.rx], hpc⟩
  · rw [State.strand_modStrand_other s f (not_and_or.mp hum)]
    exact ⟨fun _ => rfl, rfl⟩

/-- R113: a charge with a strand raises its TASKCHG alone. -/
theorem programsKept_charge (s : State) (t k m n : Nat) : ProgramsKept s (s.charge t k m (some n)) := by
  refine ⟨fun u i => ?_, by simp, by simp⟩
  by_cases hu : u = t
  · subst hu
    by_cases hi : i = n
    · subst hi
      rw [State.charge_strand_same]
      exact ⟨fun _ => rfl, rfl⟩
    · rw [State.charge_strand_other _ _ _ _ hi]
      exact ⟨fun _ => rfl, rfl⟩
  · rw [State.strand, State.charge_tile_other _ _ _ _ hu]
    exact ⟨fun _ => rfl, rfl⟩

/-! ## A queue's contents (R126, R128) -/

/-- A queue but for the slots reserved in it. -/
def Queue.contents (x : Queue) : Queue := { x with reserved := 0 }

/-- The queues of a pipeline but for the slots reserved in them. -/
def Pipeline.contents (p : Pipeline) : List Queue := p.queues.map Queue.contents

theorem Pipeline.contents_length {p r : Pipeline} (h : p.contents = r.contents) : p.queues.length = r.queues.length := by
  simpa [Pipeline.contents] using congrArg List.length h

theorem Pipeline.contents_queue {p r : Pipeline} (h : p.contents = r.contents) (k : Nat) : (p.queue k).contents = (r.queue k).contents := by
  have hread (p : Pipeline) : (p.queue k).contents = (p.contents[k]?).getD {} := by
    rw [Pipeline.contents, List.getElem?_map, Pipeline.queue]
    cases p.queues[k]? <;> rfl
  rw [hread, hread, h]

theorem State.modStage_contents (s : State) (c slot j : Nat) (f : Stage → Stage) :
    ((s.modStage c slot j f).pipe c slot).contents = (s.pipe c slot).contents := by
  rw [State.modStage, State.pipe_modPipe_same]
  rfl

/-- R126: slots reserved leave the queues' contents. -/
theorem State.reserve_contents (s : State) (c slot g e j n : Nat) :
    ((s.reserve c slot g e j n).pipe c slot).contents = (s.pipe c slot).contents := by
  unfold State.reserve State.modTask
  rw [State.modStage_contents, State.modQueue, State.pipe_modPipe_same]
  exact map_modNth (f := fun x : Queue => { x with reserved := x.reserved + n }) (fun _ => rfl) _ _

theorem State.braidTagEvent_ctxs (s : State) (c slot g : Nat) (tag : Lane) : (s.braidTagEvent c slot g tag).ctxs = s.ctxs := by
  simp [State.braidTagEvent]

theorem State.braidTagEvent_programs (s : State) (c slot g : Nat) (tag : Lane) : (s.braidTagEvent c slot g tag).programs = s.programs := by
  simp [State.braidTagEvent]

/-- R129: a braid entry opened leaves the queues. -/
theorem State.openBraid_contents (s : State) (c slot g e : Nat) (tag : Lane) :
    ((s.openBraid c slot g e tag).pipe c slot).contents = (s.pipe c slot).contents := by
  unfold State.openBraid State.modTask
  dsimp only
  rw [State.modStage_contents, State.modStage_contents]
  split
  · rw [State.pipe, State.ctx, State.braidTagEvent_ctxs]
    rfl
  · rfl

theorem State.openBraid_programs (s : State) (c slot g e : Nat) (tag : Lane) : (s.openBraid c slot g e tag).programs = s.programs := by
  unfold State.openBraid
  dsimp only
  split
  · exact s.braidTagEvent_programs c slot g tag
  · rfl

/-- R126, R129, R348: what a taken item does for its task leaves the queues' contents, and what programs see. -/
theorem State.popEffects_keeps (s : State) (c slot g e : Nat) (it : Item) :
    ((s.popEffects c slot g e it).pipe c slot).contents = (s.pipe c slot).contents ∧ (s.popEffects c slot g e it).programs = s.programs := by
  have hcontents := foldl_keeps (fun s : State => (s.pipe c slot).contents)
    (fun a j => a.reserve c slot g e j (((s.pipe c slot).stage g).desc.ratios.getD j 0)) (fun a j => a.reserve_contents c slot g e j _)
    (List.range ((s.pipe c slot).stage g).desc.outputs.length) s
  have hprograms := foldl_keeps State.programs
    (fun a j => a.reserve c slot g e j (((s.pipe c slot).stage g).desc.ratios.getD j 0)) (fun _ _ => rfl)
    (List.range ((s.pipe c slot).stage g).desc.outputs.length) s
  unfold State.popEffects
  dsimp only
  split
  · rw [State.openBraid_contents, State.openBraid_programs]
    exact ⟨hcontents, hprograms⟩
  · exact ⟨hcontents, hprograms⟩

/-- R128: the choice of a sub-queue changes pass-over counts alone: the requests that wait and the count of pops stand. -/
theorem Queue.choose_keeps {y x : Queue} {n j : Nat} {drew : Bool} (h : y.choose n = some (j, x, drew)) : x.waiting = y.waiting ∧ x.pops = y.pops := by
  unfold Queue.choose at h
  dsimp only at h
  split at h
  · split at h
    · cases h; exact ⟨rfl, rfl⟩
    · cases h
  · split at h
    · cases h
    · split at h
      · cases h; exact ⟨rfl, rfl⟩
      · split at h
        · split at h
          · cases h; exact ⟨rfl, rfl⟩
          · cases h
        · split at h
          · cases h; exact ⟨rfl, rfl⟩
          · split at h
            · cases h; exact ⟨rfl, rfl⟩
            · cases h; exact ⟨rfl, rfl⟩

/-! ## An item popped and taken (R127, R128, R403) -/

/-- R128: a queue whose sub-queue j has given its first item. -/
def Queue.given (x : Queue) (j : Nat) (l : List Item) : Queue := { x.modSub j (fun y => { y with items := l }) with pops := (x.pops + 1) % 2 ^ 64 }

/-- R128, R403: the record of a pop of a relaxed queue. -/
def State.popNoted (s : State) (c slot q j t : Nat) (x : Queue) : State :=
  if x.desc.relaxed then s.record c { kind := 3, tile := s.ordinal c t, a := j, b := queueKey slot q, c := x.pops } else s

/-- R128: the state that a strand's pop from sub-queue j leaves. -/
def State.popGiven (s : State) (c slot q j t : Nat) (x : Queue) (l : List Item) : State :=
  ((s.popNoted c slot q j t x).modQueue c slot q (fun _ => x.given j l)).queueEvent c slot q j (some t) false

/-- R127, R403: the state that the divider's taking of the item leaves, the draw charged and the assignment recorded. -/
def State.itemGiven (s : State) (c slot q j t n : Nat) (x : Queue) (drew : Bool) (it : Item) (l : List Item) : State :=
  let a := if drew then (s.popGiven c slot q j t x l).charge t 49 1 (some n) else s.popGiven c slot q j t x l
  a.record c { kind := 2, sub := n, tile := a.ordinal c t, a := it.tag.toNat, b := queueKey slot q }

theorem State.popNoted_keeps (s : State) (c slot q j t : Nat) (x : Queue) :
    (∀ e, ((s.popNoted c slot q j t x).ctx e).rpl = (s.ctx e).rpl ∧ ((s.popNoted c slot q j t x).ctx e).pipes = (s.ctx e).pipes) ∧
      (s.popNoted c slot q j t x).programs = s.programs := by
  unfold State.popNoted
  split
  · exact ⟨fun e => ⟨State.record_reads s c Context.rpl (fun _ _ => rfl) _ e, State.record_reads s c Context.pipes (fun _ _ => rfl) _ e⟩,
      State.record_programs _ _ _⟩
  · exact ⟨fun _ => ⟨rfl, rfl⟩, rfl⟩

section given
variable {s : State} {c slot q j t n : Nat} {x : Queue} {drew : Bool} {it : Item} {l : List Item}

theorem State.popGiven_rpl : ((s.popGiven c slot q j t x l).ctx c).rpl = (s.ctx c).rpl := by
  rw [State.popGiven, State.ctx_of_affairs (State.queueEvent_affairs _ _ _ _ _ _ _)]
  refine (State.modCtx_reads Context.rpl _ c rfl c).trans ?_
  exact ((s.popNoted_keeps c slot q j t x).1 c).1

theorem State.popGiven_programs : (s.popGiven c slot q j t x l).programs = s.programs := by
  rw [State.popGiven, State.queueEvent_programs]
  exact (s.popNoted_keeps c slot q j t x).2

/-- A pipeline whose queue q is changed for another. -/
def Pipeline.withQueue (p : Pipeline) (q : Nat) (y : Queue) : Pipeline := { p with queues := modNth p.queues q (fun _ => y) }

/-- R128: the queues that a pop leaves. -/
theorem State.popGiven_pipe : (s.popGiven c slot q j t x l).pipe c slot = (s.pipe c slot).withQueue q (x.given j l) := by
  have hnoted : ((s.popNoted c slot q j t x).pipe c slot) = s.pipe c slot := by
    rw [State.pipe, Context.pipe, ((s.popNoted_keeps c slot q j t x).1 c).2]
    rfl
  rw [State.popGiven, State.pipe_queueEvent, State.modQueue, State.pipe_modPipe_same, hnoted]
  rfl

theorem State.popItem_given (hopen : s.spillBlocked c slot q = false) (hlive : (s.ctx c).rpl ≠ 2)
    (hchoose : ((s.pipe c slot).queue q).choose q = some (j, x, drew)) (hitems : (x.sub j).items = it :: l) :
    s.popItem c slot q (some t) = some (it, s.popGiven c slot q j t x l, drew) := by
  simp only [State.popItem, hopen, hlive, hchoose, hitems, and_false, Bool.false_eq_true, if_false]
  rfl

theorem State.takeItem_given (hopen : s.spillBlocked c slot q = false) (hlive : (s.ctx c).rpl ≠ 2)
    (hchoose : ((s.pipe c slot).queue q).choose q = some (j, x, drew)) (hitems : (x.sub j).items = it :: l) :
    s.takeItem c slot q t n = some (it, s.itemGiven c slot q j t n x drew it l) := by
  have hlogged : ((if drew then (s.popGiven c slot q j t x l).charge t 49 1 (some n) else s.popGiven c slot q j t x l).ctx c).rpl ≠ 2 := by
    split
    · rw [State.ctx, State.charge_ctxs]
      exact State.popGiven_rpl.trans_ne hlive
    · exact State.popGiven_rpl.trans_ne hlive
  simp only [State.takeItem, State.popItem_given hopen hlive hchoose hitems, hlogged, if_false]
  rfl

/-- R127: the taking leaves the queue as the pop leaves it, and what programs see. -/
theorem State.itemGiven_keeps : (s.itemGiven c slot q j t n x drew it l).pipe c slot = (s.pipe c slot).withQueue q (x.given j l) ∧
      ProgramsKept s (s.itemGiven c slot q j t n x drew it l) := by
  have hpopped : ProgramsKept s (s.popGiven c slot q j t x l) := programsKept_of_programs State.popGiven_programs
  have hrecord (a : State) (r : Crumb) : (a.record c r).pipe c slot = a.pipe c slot :=
    State.record_reads a c (fun y : Context => y.pipe slot) (fun _ _ => rfl) r c
  have hcharged : ((s.popGiven c slot q j t x l).charge t 49 1 (some n)).pipe c slot = (s.popGiven c slot q j t x l).pipe c slot := by
    rw [State.pipe, State.ctx, State.charge_ctxs]
    rfl
  unfold State.itemGiven
  dsimp only
  rw [hrecord]
  split
  · rw [hcharged]
    exact ⟨State.popGiven_pipe, (hpopped.trans (programsKept_charge _ t 49 1 n)).trans (programsKept_of_programs (State.record_programs _ _ _))⟩
  · exact ⟨State.popGiven_pipe, hpopped.trans (programsKept_of_programs (State.record_programs _ _ _))⟩

end given

/-! ## The divider (R127) -/

/-- R127, R348: the item taken for a strand, with what its task reserves and opens. -/
def State.taskServed (s : State) (c slot q g j t n e : Nat) (x : Queue) (drew : Bool) (it : Item) (l : List Item) : State :=
  (s.itemGiven c slot q j t n x drew it l).popEffects c slot g e it

/-- R127: a strand with an item of queue q. -/
def Strand.given (q : Nat) (it : Item) (sub : Nat) (st : Strand) : Strand := { st with granted := some (q, it), grantSub := sub }

/-- R127: a queue without one of its requests. -/
def Queue.without (r : PopReq) (x : Queue) : Queue := { x with waiting := x.waiting.erase r }

section served
variable {s : State} {c slot q g j t n : Nat} {x : Queue} {drew : Bool} {it : Item} {l : List Item}

theorem State.giveStrand_given (hconsumer : (s.pipe c slot).consumer q = some g) (hasks : (s.strand t n).asksPop q = true)
    (hnone : (s.strand t n).granted = none) (hgoing : (s.tile t).stopping = false) (hready : (s.pipe c slot).strandReady g = true)
    (hlive : (s.ctx c).rpl ≠ 2) (htake : s.takeItem c slot q t n = some (it, s.itemGiven c slot q j t n x drew it l)) :
    ∃ e sub, s.giveStrand c slot q t n = some ((s.taskServed c slot q g j t n e x drew it l).modStrand t n (Strand.given q it sub)) := by
  have hturn : s.turnOk c slot q t n = true := by rw [State.turnOk, bne_iff_ne.mpr hlive, Bool.true_or]
  simp only [State.giveStrand, hconsumer, hasks, hnone, hgoing, hready, hturn, htake, Option.isSome_none, Bool.not_true, Bool.or_false,
    Bool.false_eq_true, if_false]
  exact ⟨_, _, rfl⟩

/-- R127: a divider whose first request is that of a strand that it can serve serves it. -/
theorem exec_dividerAssign_first {r : PopReq} {rest : List PopReq} {a : State} (hwaiting : ((s.pipe c slot).queue q).waiting = r :: rest)
    (hcore : r.stream = none) (hgive : s.giveStrand c slot q r.tile r.strand = some a) :
    exec (.dividerAssign c slot q) s = .next (a.modQueue c slot q (Queue.without r)) := by
  change Host.Outcome.next (execDividerAssignState s c slot q) = _
  simp only [execDividerAssignState, hwaiting, State.serveFirst, hcore, hgive]
  rfl

/-- R126, R127: the queue that the divider leaves: the item and its request are gone, its pop is counted. -/
theorem State.taskServed_queue (hq : q < (s.pipe c slot).queues.length) (e : Nat) :
    q < ((s.taskServed c slot q g j t n e x drew it l).pipe c slot).queues.length ∧
      (((s.taskServed c slot q g j t n e x drew it l).pipe c slot).queue q).contents = (x.given j l).contents := by
  have hcontents := ((s.itemGiven c slot q j t n x drew it l).popEffects_keeps c slot g e it).1
  rw [State.itemGiven_keeps.1] at hcontents
  have hqueue := Pipeline.contents_queue hcontents q
  rw [Pipeline.withQueue, Pipeline.queue_modNth _ _ hq] at hqueue
  refine ⟨?_, hqueue⟩
  have hlength := Pipeline.contents_length hcontents
  rw [State.taskServed, hlength, Pipeline.withQueue, length_modNth]
  exact hq

end served

theorem dividersGiveItemsInOrder : Rules.DividersGiveItemsInOrder := by
  intro s c slot q g r rest j x drew it l hwaiting hcore hconsumer hasks hnone hgoing hready hlive hopen hchoose hitems
  have hq : q < (s.pipe c slot).queues.length := by
    by_contra hge
    rw [Pipeline.queue, List.getElem?_eq_none (Nat.le_of_not_lt hge)] at hwaiting
    cases hwaiting
  obtain ⟨hxwaiting, hxpops⟩ := Queue.choose_keeps hchoose
  obtain ⟨e, sub, hgive⟩ :=
    State.giveStrand_given hconsumer hasks hnone hgoing hready hlive (State.takeItem_given hopen hlive hchoose hitems)
  obtain ⟨hlen, hcontents⟩ := State.taskServed_queue (g := g) (j := j) (t := r.tile) (n := r.strand) (x := x) (drew := drew) (it := it) (l := l) hq e
  have hserved : ProgramsKept s (s.taskServed c slot q g j r.tile r.strand e x drew it l) :=
    State.itemGiven_keeps.2.trans (programsKept_of_programs (State.popEffects_keeps _ c slot g e it).2)
  have hgiven := hserved.trans (programsKept_modStrand _ r.tile r.strand (f := Strand.given q it sub) fun _ => ⟨rfl, rfl⟩)
  generalize s.taskServed c slot q g j r.tile r.strand e x drew it l = a at hgive hlen hcontents hgiven
  have hleft : (((a.modStrand r.tile r.strand (Strand.given q it sub)).modQueue c slot q (Queue.without r)).pipe c slot).queue q =
      ((a.pipe c slot).queue q).without r := State.queue_modQueue (Queue.without r) hlen
  refine ⟨_, exec_dividerAssign_first hwaiting hcore hgive, ?_, ?_, ?_, ?_, hgiven.trans (programsKept_of_programs rfl)⟩
  · exact congrArg Strand.granted (a.strand_modStrand_same r.tile r.strand (Strand.given q it sub))
  · have hstill : ((a.pipe c slot).queue q).waiting = r :: rest := (congrArg Queue.waiting hcontents :).trans (hxwaiting.trans hwaiting)
    rw [hleft, Queue.without, hstill]
    exact List.erase_cons_head r rest
  · have hsub : ((a.pipe c slot).queue q).sub j = (x.given j l).sub j := (congrArg (fun y => y.sub j) hcontents :)
    rw [hleft]
    refine (congrArg SubQueue.items hsub).trans ?_
    exact congrArg SubQueue.items (AMap.get_set_same _ _ _ _)
  · have hpops : ((a.pipe c slot).queue q).pops = (x.pops + 1) % 2 ^ 64 := (congrArg Queue.pops hcontents :)
    rw [hleft, ← hxpops]
    exact hpops

/-- Settles O55: what each way to a task leaves of its strand, and what the queue and the strand of a divider's first request hold. -/
theorem tasksStartAndItemsAreDivided : Obligations.TasksStartAndItemsAreDivided := ⟨strandsStartTasks, dividersGiveItemsInOrder⟩

end Sys2Proof.Machine
end

section
/-! SUPPORT. What a write of the device itself leaves at the memory nodes (R97, R140, R333, R337). -/

namespace Sys2Proof.Machine

/-! ## Little-endian bytes (R3) -/

theorem leBytes_getD : ∀ (n v k : Nat), k < n → (leBytes n v).getD k 0 = byte (v / 256 ^ k)
  | n + 1, v, 0, _ => by simp [leBytes]
  | n + 1, v, k + 1, h => by
    have hrest := leBytes_getD n (v / 256) k (by omega)
    rw [leBytes, List.getD_cons_succ, hrest, Nat.div_div_eq_div_mul, ← Nat.pow_succ']

/-- Memory that holds the bytes of a value from an address on reads as that value there. -/
theorem Memory.read_of_leBytes {m : List Host.Cell} : ∀ (n a v : Nat), (∀ i < n, Memory.get m (a + i) = (leBytes n v).getD i 0) →
    Memory.read m a n = v % 256 ^ n
  | 0, _, _, _ => (Nat.mod_one _).symm
  | n + 1, a, v, h => by
    have hfirst : Memory.get m a = byte v := h 0 (Nat.succ_pos n)
    have hrest := Memory.read_of_leBytes (m := m) n (a + 1) (v / 256) fun i hi => by
      have hnext := h (i + 1) (Nat.succ_lt_succ hi)
      rwa [leBytes, List.getD_cons_succ, ← Nat.add_assoc, Nat.add_right_comm] at hnext
    rw [Memory.read, hfirst, hrest, Nat.pow_succ', Nat.mod_mul]
    simp

/-- A word written to canonical memory is read back, and the others stand. -/
theorem Memory.word_setBytes {m : List Host.Cell} (h : Memory.wf m = true) (k w : Nat) (v : Word) :
    Memory.word (Memory.setBytes m (8 * k) (leBytes 8 v.toNat)) w = if k = w then v else Memory.word m w := by
  unfold Memory.word
  split
  next hk =>
    subst hk
    rw [Memory.read_of_leBytes 8 (8 * k) v.toNat fun i hi => Memory.get_setBytes_same _ m _ i h (by simpa using hi),
      Nat.mod_eq_of_lt (by simpa using v.isLt)]
    simp
  next hk =>
    rw [Memory.read_congr 8 (8 * w) fun j hlo hhi => Memory.get_setBytes_other _ m _ (by rw [leBytes_length]; omega)]

/-- R333: a byte replaced in a word: a bit under it is the byte's, any other the word's. -/
theorem getLsbD_mergeByte (w : Word) (b : Byte) (o : Nat) {i : Nat} (hi : i < 64) :
    (w &&& ~~~((0xFF#64) <<< (8 * o)) ||| (b.setWidth 64) <<< (8 * o)).getLsbD i =
      if 8 * o ≤ i ∧ i < 8 * o + 8 then b.getLsbD (i - 8 * o) else w.getLsbD i := by
  have hones : (0xFF#64).getLsbD (i - 8 * o) = decide (i - 8 * o < 8) := by
    rw [BitVec.getLsbD_ofNat, show (255 : Nat) = 2 ^ 8 - 1 from rfl, Nat.testBit_two_pow_sub_one, Bool.and_eq_right_iff_imp, decide_eq_true_iff,
      decide_eq_true_iff]
    omega
  rw [BitVec.getLsbD_or, BitVec.getLsbD_and, BitVec.getLsbD_not, BitVec.getLsbD_shiftLeft, BitVec.getLsbD_shiftLeft, hones, BitVec.getLsbD_setWidth]
  by_cases hlow : i < 8 * o
  · rw [if_neg (by omega)]
    simp [hi, hlow]
  · by_cases hin : i < 8 * o + 8
    · rw [if_pos (by omega)]
      have hbyte : i - 8 * o < 8 := by omega
      simp [hi, hlow, hbyte, Nat.lt_of_le_of_lt (Nat.sub_le i (8 * o)) hi]
    · rw [if_neg (by omega), BitVec.getLsbD_of_ge b _ (by omega)]
      have hbyte : ¬i - 8 * o < 8 := by omega
      simp [hi, hlow, hbyte]

/-- R333: bytes replaced in a word. -/
theorem getLsbD_mergeBytes : ∀ (l : List Byte) (w : Word) (o i : Nat), i < 64 → (mergeBytes w o l).getLsbD i =
    if 8 * o ≤ i ∧ i < 8 * (o + l.length) then (l.getD (i / 8 - o) 0).getLsbD (i % 8) else w.getLsbD i
  | [], w, o, i, _ => by rw [mergeBytes, if_neg (by simp)]
  | b :: l, w, o, i, hi => by
    rw [mergeBytes, getLsbD_mergeBytes l _ (o + 1) i hi, getLsbD_mergeByte w b o hi, List.length_cons]
    by_cases hin : 8 * o ≤ i ∧ i < 8 * o + 8
    · have hdiv : i / 8 - o = 0 := by omega
      have hmod : i % 8 = i - 8 * o := by omega
      rw [if_neg (by omega), if_pos hin, if_pos (by omega), hdiv, hmod, List.getD_cons_zero]
    · rw [if_neg hin]
      split
      next hrest =>
        have hsub : i / 8 - o = (i / 8 - (o + 1)) + 1 := by omega
        rw [if_pos (by omega), hsub, List.getD_cons_succ]
      next => rw [if_neg (by omega)]

/-- R333: a whole word replaced. -/
theorem mergeBytes_word (w v : Word) : mergeBytes w 0 (leBytes 8 v.toNat) = v := by
  refine BitVec.eq_of_getLsbD_eq fun i hi => ?_
  have hbit : (byte (v.toNat / 256 ^ (i / 8))).getLsbD (i % 8) = v.getLsbD i := by
    rw [BitVec.getLsbD_ofNat, show (256 : Nat) = 2 ^ 8 from rfl, ← Nat.pow_mul, Nat.testBit_div_two_pow, Nat.add_comm, Nat.div_add_mod,
      BitVec.testBit_toNat]
    simp [Nat.mod_lt]
  rw [getLsbD_mergeBytes _ _ _ _ hi, if_pos (by rw [leBytes_length]; omega), Nat.sub_zero, leBytes_getD 8 _ _ (by omega), hbit]

/-! ## Words under the log of writes (R333, R337) -/

/-- R333: a later write takes a word's place. -/
def WriteRec.over (w : Nat) (v : Word) (r : WriteRec) : Word := if r.word = w then r.val else v

/-- R333: the word numbered w of memory under a log of writes, the oldest first. -/
def wordUnder (l : List WriteRec) (m : List Host.Cell) (w : Nat) : Word := l.foldl (WriteRec.over w) (Memory.word m w)

theorem State.nodeWord_eq (s : State) (w : Nat) : s.nodeWord w = wordUnder s.log.reverse s.mem w := by
  unfold State.nodeWord wordUnder
  rw [List.foldl_reverse]
  induction s.log with
  | nil => rfl
  | cons r l ih =>
    rw [List.find?_cons, List.foldr_cons, WriteRec.over, ← ih]
    by_cases h : r.word = w
    · rw [if_pos h, beq_iff_eq.mpr h]
    · rw [if_neg h, beq_false_of_ne h]

/-- Writes to a word behind one that stays in the log stay there too. -/
theorem retireLog_blocked {w : Nat} : ∀ (l : List WriteRec) (m : List Host.Cell) (b : List Nat) (v : Word), w ∈ b →
    (retireLog l m b).1.foldl (WriteRec.over w) v = l.foldl (WriteRec.over w) v
  | [], _, _, _, _ => rfl
  | r :: l, m, b, v, hw => by
    rw [retireLog]
    split
    next hretired =>
      have hr : r.word ≠ w := by
        rintro rfl
        simp [hw] at hretired
      rw [retireLog_blocked l _ b v hw, List.foldl_cons, WriteRec.over, if_neg hr]
    next => exact retireLog_blocked l m (r.word :: b) _ (List.mem_cons_of_mem _ hw)

/-- R337: writes that go from the log into memory leave every word what it was. -/
theorem retireLog_word (w : Nat) : ∀ (l : List WriteRec) {m : List Host.Cell} (b : List Nat), Memory.wf m = true →
    wordUnder (retireLog l m b).1 (retireLog l m b).2 w = wordUnder l m w
  | [], _, _, _ => rfl
  | r :: l, m, b, h => by
    rw [retireLog]
    split
    · rw [retireLog_word w l b (Memory.wf_setBytes _ _ h), wordUnder, Memory.word_setBytes h]
      rfl
    · by_cases hr : r.word = w
      · have hkept := retireLog_blocked l m (r.word :: b) r.val (by rw [hr]; exact List.mem_cons_self)
        simpa [wordUnder, WriteRec.over, hr] using hkept
      · have hrest := retireLog_word w l (r.word :: b) h
        simpa [wordUnder, WriteRec.over, hr] using hrest

theorem State.settleLoop_nodeWord (w : Nat) : ∀ (n : Nat) (s : State), (settleLoop n s).nodeWord w = s.nodeWord w
  | 0, _ => rfl
  | n + 1, s => by
    rw [settleLoop, State.settleLoop_nodeWord w n, State.nodeWord_eq, State.nodeWord_eq]
    simp [wordUnder, settleOnce, WriteRec.over, List.foldr_map]

/-- R333, R337: visibility brought up to date changes no word at its home node. -/
theorem State.settle_nodeWord {s : State} (h : s.Inv) (w : Nat) : s.settle.nodeWord w = s.nodeWord w := by
  rw [State.nodeWord_eq, State.settle]
  dsimp only
  rw [List.reverse_reverse, retireLog_word w _ [] (by rw [settleLoop_mem]; exact h), ← State.nodeWord_eq, State.settleLoop_nodeWord]

/-- R97, R140: a word that the device writes stands at its node, and every other word as before. -/
theorem State.devWriteWord_nodeWord {s : State} (h : s.Inv) {pa : Nat} (haligned : pa % 8 = 0) (v : Word) (w : Nat) :
    (s.devWriteWord pa (leBytes 8 v.toNat)).nodeWord w = if pa / 8 = w then v else s.nodeWord w := by
  unfold State.devWriteWord
  dsimp only
  rw [State.settle_nodeWord (by exact h), haligned, mergeBytes_word]
  unfold State.nodeWord
  by_cases hw : pa / 8 = w <;> simp [hw]

end Sys2Proof.Machine
end

section
/-! SUPPORT. The progress and the end of invalidations (R145, R146, R157): what each removes, and what stands. -/

namespace Sys2Proof.Machine

/-! ## What the removals of an invalidation leave -/

/-- R146: what invalidations wait on: the requests at nodes, those on their way to other packages, and the log of writes. -/
def State.traffic (s : State) : List (AMap (List MemReq)) × List RemoteFlight × List WriteRec :=
  (s.dies.map (fun d => d.2.nodes), s.pkg.flights, s.log)

theorem State.traffic_eq {s t : State} (h : t.traffic = s.traffic) :
    t.dies.map (fun d => d.2.nodes) = s.dies.map (fun d => d.2.nodes) ∧ t.pkg.flights = s.pkg.flights ∧ t.log = s.log := by
  simpa [State.traffic] using h

/-- R146: whether an access is still to be performed is read in the traffic alone. -/
theorem State.unperformed_of_traffic {s t : State} (h : t.traffic = s.traffic) : t.unperformed = s.unperformed := by
  obtain ⟨hnodes, hflights, hlog⟩ := State.traffic_eq h
  have hatNode (a : State) (i : Nat) : a.atNode i = (a.dies.map (fun d => d.2.nodes)).any (fun n => n.any (fun k => k.2.any (fun r => r.id == i))) := by
    rw [List.any_map]
    rfl
  funext i
  rw [State.unperformed, hatNode, hnodes, hflights, hlog, ← hatNode, State.unperformed]

/-- R146: the accesses that an invalidation finds under way are read in the traffic alone. -/
theorem State.invalReqs_of_traffic {s t : State} (h : t.traffic = s.traffic) : t.invalReqs = s.invalReqs := by
  obtain ⟨hnodes, hflights, hlog⟩ := State.traffic_eq h
  have hqueued (a : State) (g : AMap (List MemReq) → List Nat) : a.dies.flatMap (fun d => g d.2.nodes) = (a.dies.map (fun d => d.2.nodes)).flatMap g := by
    rw [List.flatMap_map]
  funext v
  unfold State.invalReqs
  dsimp only
  rw [hflights, hlog, hqueued t (fun n => n.flatMap _), hnodes, ← hqueued s]

/-- R146: no die TLB, micro-TLB or window entry holds a translation that an invalidation removes. -/
def State.Uncovering (v : Inval) (s : State) : Prop :=
  (∀ p ∈ s.dies, ∀ k ∈ p.2.tlb, ∀ e ∈ k.2, e.covered v = false) ∧
    ∀ p ∈ s.tiles, (∀ e ∈ p.2.utlb, e.covered v = false) ∧ ∀ q ∈ p.2.windows, ∀ e ∈ q.2, e.covered v = false

/-- R157: no strand of an invalidation's context holds an index prefetched from its range, or a bundle decoded ahead of its issue. -/
def State.Unfetched (v : Inval) (s : State) : Prop :=
  ∀ p ∈ s.tiles, p.2.ctx = v.ctx → ∀ q ∈ p.2.strands, q.2.fetched = none ∧
    ∀ h ∈ q.2.prefetch, h.1 % 2 ^ 57 < v.lo ∨ v.hi ≤ h.1 % 2 ^ 57

/-! ## Prefetched indices (R157) -/

/-- R157: the indices that a strand keeps it held before. -/
theorem Strand.mem_prefetch_of_purged {st : Strand} {v : Inval} {h : Nat × Half} (hin : h ∈ (st.purged v).prefetch) : h ∈ st.prefetch := by
  unfold Strand.purged at hin
  dsimp only at hin
  split at hin
  · cases hin
  · exact hin

/-- R157: the indices that a strand keeps are outside the range. -/
theorem Strand.prefetch_of_purged {st : Strand} {v : Inval} {h : Nat × Half} (hin : h ∈ (st.purged v).prefetch) :
    h.1 % 2 ^ 57 < v.lo ∨ v.hi ≤ h.1 % 2 ^ 57 := by
  unfold Strand.purged at hin
  dsimp only at hin
  split at hin
  · cases hin
  next hmiss =>
    have hout := mt (fun hcovered => List.any_eq_true.mpr ⟨h, hin, hcovered⟩) hmiss
    simp only [Bool.and_eq_true, decide_eq_true_eq] at hout
    omega

/-- R157: what an invalidation leaves of a tile's strands. -/
def Tile.purgedFetch (v : Inval) (u : Tile) : Tile :=
  { u with strands := u.strands.map (fun q => (q.1, if u.ctx == v.ctx then q.2.purged v else q.2)) }

theorem State.purgeFetch_tiles (s : State) (v : Inval) : (s.purgeFetch v).tiles = s.tiles.map (fun p => (p.1, p.2.purgedFetch v)) := rfl

theorem State.purgeFetch_unfetched (s : State) (v : Inval) : (s.purgeFetch v).Unfetched v := by
  rw [State.Unfetched, State.purgeFetch_tiles]
  simp only [List.forall_mem_map]
  intro p _ hctx q hq
  obtain ⟨k, -, rfl⟩ := List.mem_map.mp hq
  have hown : p.2.ctx = v.ctx := hctx
  rw [if_pos (beq_iff_eq.mpr hown)]
  exact ⟨rfl, fun h hin => Strand.prefetch_of_purged hin⟩

theorem State.Unfetched.purgeFetch {s : State} {v : Inval} (h : s.Unfetched v) (w : Inval) : (s.purgeFetch w).Unfetched v := by
  rw [State.Unfetched, State.purgeFetch_tiles]
  simp only [List.forall_mem_map]
  intro p hp hctx q hq
  obtain ⟨k, hk, rfl⟩ := List.mem_map.mp hq
  obtain ⟨hfetched, hprefetch⟩ := h p hp hctx k hk
  dsimp only
  split
  · exact ⟨rfl, fun i hin => hprefetch i (Strand.mem_prefetch_of_purged hin)⟩
  · exact ⟨hfetched, hprefetch⟩

theorem State.Uncovering.purgeFetch {s : State} {v : Inval} (h : s.Uncovering v) (w : Inval) : (s.purgeFetch w).Uncovering v := by
  obtain ⟨hdies, htiles⟩ := h
  refine ⟨hdies, ?_⟩
  rw [State.purgeFetch_tiles]
  exact List.forall_mem_map.mpr htiles

/-- R157: a removal of indices leaves registers and PCs. -/
theorem programsKept_purgeFetch (s : State) (v : Inval) : ProgramsKept s (s.purgeFetch v) := by
  refine ⟨fun u n => ?_, rfl, rfl⟩
  have htile : (s.purgeFetch v).tile u = (s.tile u).purgedFetch v := AMap.get_map_snd ({} : Tile) (Tile.purgedFetch v) rfl s.tiles u
  have hstrand : (s.purgeFetch v).strand u n = if (s.tile u).ctx == v.ctx then (s.strand u n).purged v else s.strand u n := by
    rw [State.strand, htile]
    exact AMap.get_map_snd ({} : Strand) (fun st : Strand => if (s.tile u).ctx == v.ctx then st.purged v else st) (by split <;> rfl) (s.tile u).strands n
  rw [hstrand]
  split <;> exact ⟨fun _ => rfl, rfl⟩

/-! ## Translations (R146) -/

/-- R146: the entries of a structure that an invalidation leaves. -/
def uncovered (v : Inval) (l : List TlbEntry) : List TlbEntry := l.filter (fun e => !e.covered v)

theorem mem_uncovered {v : Inval} {l : List TlbEntry} {e : TlbEntry} : e ∈ uncovered v l ↔ e ∈ l ∧ e.covered v = false := by
  rw [uncovered, List.mem_filter, Bool.not_eq_true']

/-- R146: what an invalidation leaves of a die's TLB. -/
def Die.purgedXlate (v : Inval) (x : Die) : Die := { x with tlb := x.tlb.map (fun q => (q.1, uncovered v q.2)) }

/-- R146: what an invalidation leaves of a tile's micro-TLB and windows. -/
def Tile.purgedXlate (v : Inval) (u : Tile) : Tile :=
  { u with utlb := uncovered v u.utlb, windows := u.windows.map (fun q => (q.1, uncovered v q.2)) }

/-- R146: every matching translation removed. -/
def State.purgeXlate (s : State) (v : Inval) : State :=
  { s with dies := s.dies.map (fun p => (p.1, p.2.purgedXlate v)), tiles := s.tiles.map (fun p => (p.1, p.2.purgedXlate v)) }

theorem State.purge_eq (s : State) (v : Inval) : s.purge v = (s.purgeXlate v).purgeFetch v := rfl

/-- R146: an entry left is one that stood before and that the invalidation does not remove. -/
theorem State.purgeXlate_entries {P : TlbEntry → Prop} {s : State} {v : Inval} (hdies : ∀ p ∈ s.dies, ∀ k ∈ p.2.tlb, ∀ e ∈ uncovered v k.2, P e)
    (htiles : ∀ p ∈ s.tiles, (∀ e ∈ uncovered v p.2.utlb, P e) ∧ ∀ q ∈ p.2.windows, ∀ e ∈ uncovered v q.2, P e) :
    (∀ p ∈ (s.purgeXlate v).dies, ∀ k ∈ p.2.tlb, ∀ e ∈ k.2, P e) ∧
      ∀ p ∈ (s.purgeXlate v).tiles, (∀ e ∈ p.2.utlb, P e) ∧ ∀ q ∈ p.2.windows, ∀ e ∈ q.2, P e := by
  refine ⟨List.forall_mem_map.mpr fun p hp => List.forall_mem_map.mpr (hdies p hp), List.forall_mem_map.mpr fun p hp => ?_⟩
  obtain ⟨hutlb, hwindows⟩ := htiles p hp
  exact ⟨hutlb, List.forall_mem_map.mpr hwindows⟩

theorem State.purgeXlate_uncovering (s : State) (v : Inval) : (s.purgeXlate v).Uncovering v :=
  State.purgeXlate_entries (fun _ _ _ _ _ he => (mem_uncovered.mp he).2)
    fun _ _ => ⟨fun _ he => (mem_uncovered.mp he).2, fun _ _ _ he => (mem_uncovered.mp he).2⟩

theorem State.Uncovering.purgeXlate {s : State} {v : Inval} (h : s.Uncovering v) (w : Inval) : (s.purgeXlate w).Uncovering v := by
  obtain ⟨hdies, htiles⟩ := h
  refine State.purgeXlate_entries (fun p hp k hk e he => hdies p hp k hk e (mem_uncovered.mp he).1) fun p hp => ?_
  obtain ⟨hutlb, hwindows⟩ := htiles p hp
  exact ⟨fun e he => hutlb e (mem_uncovered.mp he).1, fun q hq e he => hwindows q hq e (mem_uncovered.mp he).1⟩

theorem State.Unfetched.purgeXlate {s : State} {v : Inval} (h : s.Unfetched v) (w : Inval) : (s.purgeXlate w).Unfetched v :=
  List.forall_mem_map.mpr h

theorem programsKept_purgeXlate (s : State) (v : Inval) : ProgramsKept s (s.purgeXlate v) := by
  refine programsKept_of_visible ?_
  have htile (u : Nat) : (s.purgeXlate v).tile u = (s.tile u).purgedXlate v := AMap.get_map_snd ({} : Tile) (Tile.purgedXlate v) rfl s.tiles u
  have hstrand : (s.purgeXlate v).strand = s.strand := by
    funext u n
    rw [State.strand, htile]
    rfl
  rw [State.visible, hstrand]
  rfl

theorem State.purge_traffic (s : State) (v : Inval) : (s.purge v).traffic = s.traffic := by
  have hnodes : (s.purge v).dies.map (fun d => d.2.nodes) = s.dies.map (fun d => d.2.nodes) := List.map_map ..
  rw [State.traffic, hnodes]
  rfl

/-- R146, R157: nothing is left of what an invalidation removes. -/
def State.Removed (v : Inval) (s : State) : Prop := s.Uncovering v ∧ s.Unfetched v

theorem State.purge_removed (s : State) (v : Inval) : (s.purge v).Removed v := by
  rw [State.purge_eq]
  exact ⟨(s.purgeXlate_uncovering v).purgeFetch v, State.purgeFetch_unfetched _ v⟩

theorem State.Removed.purgeFetch {s : State} {v : Inval} (h : s.Removed v) (w : Inval) : (s.purgeFetch w).Removed v := by
  obtain ⟨hcovered, hfetched⟩ := h
  exact ⟨hcovered.purgeFetch w, hfetched.purgeFetch w⟩

theorem State.Removed.purge {s : State} {v : Inval} (h : s.Removed v) (w : Inval) : (s.purge w).Removed v := by
  obtain ⟨hcovered, hfetched⟩ := h
  rw [State.purge_eq]
  exact ⟨(hcovered.purgeXlate w).purgeFetch w, (hfetched.purgeXlate w).purgeFetch w⟩

/-! ## An invalidation's progress (R145, R146) -/

/-- R145: are the writes made before an invalidation performed, and its structures still to be purged again? -/
def State.settling (s : State) (v : Inval) : Bool := !v.settled && !v.writes.any s.unperformed

/-- R146: an invalidation as one turn leaves it. -/
def State.advanced (s : State) (v : Inval) : Inval := if s.settling v then { v with settled := true, reqs := s.invalReqs v } else v

/-- R146: do the accesses that an invalidation waited for stand no more? -/
def State.invalOver (s : State) (v : Inval) : Bool := v.settled && !v.reqs.any s.unperformed

/-- R145, R146: what an invalidation that settles removes. -/
def State.settleInval (s : State) (v : Inval) : State := if s.settling v then s.purge v else s

theorem State.settleInval_keeps {P : State → Prop} {s : State} {v : Inval} (hpurge : P (s.purge v)) (hs : P s) : P (s.settleInval v) := by
  unfold State.settleInval
  split
  · exact hpurge
  · exact hs

theorem State.advanceInval_eq (s : State) (v : Inval) : s.advanceInval v = (s.settleInval v, s.advanced v) := by
  unfold State.advanceInval State.settleInval State.advanced State.settling
  rw [← Bool.not_or]
  cases v.settled || v.writes.any s.unperformed <;> rfl

theorem State.advanced_id (s : State) (v : Inval) : (s.advanced v).id = v.id := by
  unfold State.advanced
  split <;> rfl

/-- R146: the removals of the invalidations that settle. -/
def State.settleInvals (s : State) (l : List Inval) : State := l.foldl State.settleInval s

/-- What each removal keeps the removals together keep. -/
theorem State.settleInvals_keeps {P : State → Prop} (h : ∀ t v, P t → P (t.purge v)) (l : List Inval) {s : State} (hs : P s) : P (s.settleInvals l) :=
  List.foldlRecOn l _ hs fun t ht v _ => State.settleInval_keeps (h t v ht) ht

/-- A turn of the invalidations together: each reads the traffic as the turn found it. -/
theorem State.foldl_advanceInval (s : State) : ∀ (l done : List Inval) (t : State), t.traffic = s.traffic →
    l.foldl (fun (p : State × List Inval) v => ((p.1.advanceInval v).1, p.2 ++ [(p.1.advanceInval v).2])) (t, done) =
      (t.settleInvals l, done ++ l.map s.advanced)
  | [], done, t, _ => by rw [List.map_nil, List.append_nil]; rfl
  | v :: l, done, t, h => by
    have hadvanced : t.advanced v = s.advanced v := by
      rw [State.advanced, State.settling, State.unperformed_of_traffic h, State.invalReqs_of_traffic h, State.advanced, State.settling]
    have hnext : (t.settleInval v).traffic = s.traffic :=
      State.settleInval_keeps (P := fun a => a.traffic = s.traffic) ((t.purge_traffic v).trans h) h
    rw [List.foldl_cons]
    dsimp only
    rw [State.advanceInval_eq, State.foldl_advanceInval s l _ _ hnext, hadvanced, List.append_assoc, List.map_cons]
    rfl

/-- R146, R157: the machine after a turn of its invalidations. -/
def State.invalsTurned (s : State) : State :=
  { ((s.invals.map s.advanced).filter s.invalOver).foldl State.purgeFetch (s.settleInvals s.invals) with
    invals := (s.invals.map s.advanced).filter (fun v => !s.invalOver v) }

theorem State.settleInvals_traffic (s : State) (l : List Inval) : (s.settleInvals l).traffic = s.traffic :=
  State.settleInvals_keeps (P := fun t => t.traffic = s.traffic) (fun t v h => (t.purge_traffic v).trans h) l rfl

theorem exec_invalidationComplete (s : State) : exec .invalidationComplete s = .next s.invalsTurned := by
  have hover : (s.settleInvals s.invals).unperformed = s.unperformed := State.unperformed_of_traffic (s.settleInvals_traffic s.invals)
  change execInvalidationComplete s = _
  simp only [execInvalidationComplete, engine, execInvalidationCompleteState, s.foldl_advanceInval s.invals [] s rfl, hover, List.nil_append]
  rfl

/-- What each removal of indices keeps stands after the turn, where the removals of translations left it. -/
theorem State.invalsTurned_keeps {P : State → Prop} (hfetch : ∀ t v, P t → P (t.purgeFetch v)) (hends : ∀ t l, P t → P { t with invals := l })
    {s : State} (h : P (s.settleInvals s.invals)) : P s.invalsTurned :=
  hends _ _ (List.foldlRecOn _ _ h fun t ht v _ => hfetch t v ht)

theorem State.mem_invalsTurned {s : State} {v : Inval} : v ∈ s.invalsTurned.invals ↔ (∃ w ∈ s.invals, s.advanced w = v) ∧ s.invalOver v = false := by
  rw [State.invalsTurned, List.mem_filter, List.mem_map, Bool.not_eq_true']

/-! ## INVALIDATION_COMPLETE (R146, R157) -/

theorem programsKept_invalsTurned (s : State) : ProgramsKept s s.invalsTurned :=
  State.invalsTurned_keeps (P := ProgramsKept s) (fun t v h => h.trans (programsKept_purgeFetch t v)) (fun _ _ h => h)
    (State.settleInvals_keeps (P := ProgramsKept s)
      (fun t v h => h.trans ((programsKept_purgeXlate t v).trans (programsKept_purgeFetch _ v))) s.invals
      (programsKept_of_programs rfl))

/-- A fold reaches what one of its steps brings about and the others keep. -/
theorem foldl_of_mem {α β : Type} {f : α → β → α} {P : α → Prop} (keeps : ∀ a b, P a → P (f a b)) : ∀ {l : List β} {b : β} (a : α), b ∈ l →
    (∀ pre post, l = pre ++ b :: post → P (f (pre.foldl f a) b)) → P (l.foldl f a) := by
  intro l b a hb reaches
  obtain ⟨pre, post, rfl⟩ := List.append_of_mem hb
  rw [List.foldl_append, List.foldl_cons]
  exact List.foldlRecOn post f (reaches pre post rfl) fun x hx y _ => keeps x y hx

/-- R146, R157: what an invalidation that settles removes is gone once all have had their turn. -/
theorem State.settleInvals_removed {s : State} {v : Inval} (hv : v ∈ s.invals) (h : s.settling v = true) : (s.settleInvals s.invals).Removed v := by
  refine foldl_of_mem (P := State.Removed v) (fun t w ht => State.settleInval_keeps (P := State.Removed v) (ht.purge w) ht) s hv fun pre _ _ => ?_
  have hsettling : (s.settleInvals pre).settling v = true := by
    rw [State.settling, State.unperformed_of_traffic (s.settleInvals_traffic pre)]
    exact h
  have hpurges : (s.settleInvals pre).settleInval v = (s.settleInvals pre).purge v := if_pos hsettling
  change State.Removed v ((s.settleInvals pre).settleInval v)
  rw [hpurges]
  exact State.purge_removed _ v

/-- R146, R157: with an invalidation that ends the indices prefetched while it was under way go. -/
theorem State.invalsTurned_unfetched {s : State} {v : Inval} (hv : v ∈ s.invals) (hsettled : v.settled = true)
    (hover : s.invalOver v = true) : s.invalsTurned.Unfetched v := by
  have hstays : s.advanced v = v := by simp [State.advanced, State.settling, hsettled]
  have hends : v ∈ (s.invals.map s.advanced).filter s.invalOver := List.mem_filter.mpr ⟨List.mem_map.mpr ⟨v, hv, hstays⟩, hover⟩
  exact foldl_of_mem (P := State.Unfetched v) (fun _ w h => h.purgeFetch w) _ hends fun _ _ _ => State.purgeFetch_unfetched _ v

/-- R146: an invalidation that has settled ends once no access that it waits for is under way. -/
theorem State.mem_invalsTurned_settled {s : State} {v : Inval} (hv : v ∈ s.invals) (hsettled : v.settled = true) :
    v ∈ s.invalsTurned.invals ↔ ∃ i ∈ v.reqs, s.unperformed i = true := by
  have hstays : s.advanced v = v := by simp [State.advanced, State.settling, hsettled]
  rw [State.mem_invalsTurned, State.invalOver, hsettled]
  simp only [Bool.true_and, Bool.not_eq_false', List.any_eq_true]
  exact ⟨And.right, fun h => ⟨⟨v, hv, hstays⟩, h⟩⟩

/-- R145: an invalidation stands while a write made before it is not performed. -/
theorem State.mem_invalsTurned_unsettled {s : State} {v : Inval} (hv : v ∈ s.invals) (hsettled : v.settled = false)
    (hwrites : ∃ i ∈ v.writes, s.unperformed i = true) : v ∈ s.invalsTurned.invals := by
  have hstays : s.advanced v = v := by simp [State.advanced, State.settling, List.any_eq_true.mpr hwrites]
  exact State.mem_invalsTurned.mpr ⟨⟨v, hv, hstays⟩, by rw [State.invalOver, hsettled, Bool.false_and]⟩

/-- R145, R146: an invalidation whose earlier writes are performed settles. -/
theorem State.settling_of_performed {s : State} {v : Inval} (hsettled : v.settled = false) (hwrites : ∀ i ∈ v.writes, s.unperformed i = false) :
    s.settling v = true := by
  simpa [State.settling, hsettled] using hwrites

theorem State.invalsTurned_removed {s : State} {v : Inval} (hv : v ∈ s.invals) (h : s.settling v = true) : s.invalsTurned.Removed v :=
  State.invalsTurned_keeps (P := State.Removed v) (fun _ w ht => ht.purgeFetch w) (fun _ _ ht => ht) (State.settleInvals_removed hv h)

/-- R146: one that settles waits for the accesses under way. -/
theorem State.mem_invalsTurned_settling {s : State} {v : Inval} (hv : v ∈ s.invals) (h : s.settling v = true)
    (hreqs : ∃ i ∈ s.invalReqs v, s.unperformed i = true) : { v with settled := true, reqs := s.invalReqs v } ∈ s.invalsTurned.invals := by
  refine State.mem_invalsTurned.mpr ⟨⟨v, hv, if_pos h⟩, ?_⟩
  simpa [State.invalOver] using hreqs

end Sys2Proof.Machine
end

section
/-! SUPPORT. What a walk reads, and what goes on behind it (R88, R98, R136 to R144, R372). -/

namespace Sys2Proof.Machine

/-! ## What waits on walks outside the walkers (R88, R98, R372) -/

/-- R88, R98, R372: the queue pairs, the requests at the ports and the host messages. -/
def State.waiters (s : State) : AMap QpState × AMap LinkPort × (Nat → List HostOp) := (s.pkg.qps, s.pkg.ports, fun c => (s.ctx c).hostOps)

theorem State.waiters_mk {s t : State} (hctxs : t.ctxs = s.ctxs) (hqps : t.pkg.qps = s.pkg.qps) (hports : t.pkg.ports = s.pkg.ports) :
    t.waiters = s.waiters := by
  simp only [State.waiters, State.ctx, hctxs, hqps, hports]

theorem NoneWaits.of_waiters {s t : State} (h : NoneWaits s) (hsame : t.waiters = s.waiters) : NoneWaits t := by
  have hqps : t.pkg.qps = s.pkg.qps := congrArg Prod.fst hsame
  have hports : t.pkg.ports = s.pkg.ports := congrArg (fun x => x.2.1) hsame
  have hops : (fun c => (t.ctx c).hostOps) = fun c => (s.ctx c).hostOps := congrArg (fun x => x.2.2) hsame
  obtain ⟨hidle, hempty, hnone⟩ := h
  exact ⟨by rw [hqps]; exact hidle, by rw [hports]; exact hempty, fun c => (congrFun hops c).trans (hnone c)⟩

section noneWaits
variable {s : State} (h : NoneWaits s)
include h

/-- R88: a queue pair with no request under way has none to go on with. -/
theorem NoneWaits.resumeQps : s.resumeQps = s := by
  obtain ⟨hqps, -, -⟩ := h
  have hidle (k : Nat) := AMap.get_of_all (P := fun x => x = QpState.normal ∨ x = .error) (.inl rfl) s.pkg.qps k hqps
  have hstays (vf qp : Nat) : s.advanceQp vf qp = s := by
    unfold State.advanceQp
    rcases hidle (qpKey vf qp) with hq | hq <;> rw [hq]
  refine List.foldlRecOn (motive := fun t => t = s) _ _ rfl fun t ht q hq => ?_
  subst ht
  rcases hqps q hq with hq | hq <;> (rw [hq]; exact hstays _ _)

/-- R372: no request waits at a port. -/
theorem NoneWaits.resumePorts (d : Nat) : s.resumePorts d = s := by
  obtain ⟨-, hports, -⟩ := h
  have hnone : s.pkg.ports.filter (fun p => portDie p.1 == d && !p.2.inbox.isEmpty) = [] :=
    List.filter_eq_nil_iff.mpr fun p hp => by simp [hports p hp]
  rw [State.resumePorts, hnone]
  rfl

/-- R98: no message of a context waits. -/
theorem NoneWaits.runOps (c : Nat) : s.runOps c = s := by
  obtain ⟨-, -, hops⟩ := h
  simp [State.runOps, hops]

end noneWaits

/-- R144: a walk whose end nothing outside the walkers waits for. -/
theorem exec_tlbWalk {s : State} {d : Nat} (h : NoneWaits (execTlbWalkState s d)) : exec (.tlbWalk d) s = .next (execTlbWalkState s d) := by
  have hqps : (if d = 4 then (execTlbWalkState s d).resumeQps else execTlbWalkState s d) = execTlbWalkState s d := by
    rw [h.resumeQps, ite_self]
  change execTlbWalk d s = _
  simp only [execTlbWalk, engine, hqps, h.resumePorts]
  refine congrArg _ (List.foldlRecOn (motive := fun t => t = execTlbWalkState s d) _ _ rfl fun t ht c _ => ?_)
  subst ht
  rw [h.runOps, ite_self]

/-! ## Charges leave what walks read (R102, R136 to R139) -/

/-- R136 to R139: a walk reads entries as performed at package scope. -/
theorem walkFrom_congr {s t : State} (hordering : t.pkg.ordering = s.pkg.ordering) (hword : t.pkgWord = s.pkgWord) (va : Nat) :
    ∀ n table : Nat, walkFrom t va n table = walkFrom s va n table
  | 0, _ => rfl
  | n + 1, table => by
    rw [walkFrom, walkFrom]
    simp only [hordering, hword, walkFrom_congr hordering hword va n]

section charged
variable {s t : State} (h : OnlyCharged s t)
include h

theorem OnlyCharged.mem : t.mem = s.mem := (congrArg State.mem h.rest :)
theorem OnlyCharged.log : t.log = s.log := (congrArg State.log h.rest :)
theorem OnlyCharged.ordering : t.pkg.ordering = s.pkg.ordering := (congrArg (fun x : State => x.pkg.ordering) h.rest :)
theorem OnlyCharged.ports : t.pkg.ports = s.pkg.ports := (congrArg (fun x : State => x.pkg.ports) h.rest :)
theorem OnlyCharged.sent : t.pkg.sent = s.pkg.sent := (congrArg (fun x : State => x.pkg.sent) h.rest :)
theorem OnlyCharged.waiters : t.waiters = s.waiters := State.waiters_mk h.ctxs h.qps h.ports

theorem OnlyCharged.nodeWord (w : Nat) : t.nodeWord w = s.nodeWord w := by
  rw [State.nodeWord, h.log, h.mem, State.nodeWord]

theorem OnlyCharged.walk (c va : Nat) : t.walk c va = s.walk c va := by
  have hword : t.pkgWord = s.pkgWord := by
    funext w
    rw [State.pkgWord, h.log, h.mem, State.pkgWord]
  rw [State.walk, h.ctx, walkFrom_congr h.ordering hword, State.walk]

theorem OnlyCharged.nodeBusy (pa n : Nat) (write : Bool) : t.nodeBusy pa n write = s.nodeBusy pa n write := by
  unfold State.nodeBusy
  simp only [h.ordering, h.nodes]

end charged

theorem State.nodeCharge_misses (s : State) (c pa : Nat) (w a : Bool) (e : Nat) : ((s.nodeCharge c pa w a).die e).misses = (s.die e).misses := by
  unfold State.nodeCharge
  dsimp only
  split <;> exact State.uncore_misses _ _ _ _ _ _ _

/-! ## The next miss (R144) -/

theorem Die.nextMiss_mem {x : Die} {m : Miss} (h : x.nextMiss = some m) : m ∈ x.misses ∧ m.stand = .walk := by
  have hlowest (l : List Miss) (f : Option Miss → Miss → Option Miss) (hf : ∀ b n, f b n = some n ∨ f b n = b) :
      ∀ k, l.foldl f none = some k → k ∈ l :=
    List.foldlRecOn (motive := fun b => ∀ k, b = some k → k ∈ l) l f nofun fun b hb n hn k hk => by
      rcases hf b n with hnew | hold
      · exact Option.some.inj (hnew.symm.trans hk) ▸ hn
      · exact hb k (hold.symm.trans hk)
  have hwaits : m ∈ x.misses.filter (fun n => n.stand == .walk) := by
    unfold Die.nextMiss at h
    dsimp only at h
    split at h
    · refine hlowest _ _ (fun b n => ?_) m h
      cases b with
      | none => exact .inl rfl
      | some y => dsimp only; split <;> simp
    · refine (List.mem_filter.mp (hlowest _ _ (fun b n => ?_) m h)).1
      cases b with
      | none => exact .inl rfl
      | some y => dsimp only; split <;> simp
  simpa using hwaits

/-- R102, R144: a walk charged, and the order of the contexts gone on. -/
def State.walkTaken (s : State) (d : Nat) (m : Miss) : State :=
  (s.uncore d m.ctx .walk (walkSteps s m.ctx m.va) (uncoreDomain d)).modDie d (fun x => { x with walkRR := m.ctx })

theorem State.walkTaken_charged (s : State) (d : Nat) (m : Miss) : OnlyCharged s (s.walkTaken d m) :=
  (OnlyCharged.uncore s d m.ctx _ _ _).trans ⟨rfl, State.modDie_reads Die.nodes _ d rfl, State.modDie_reads Die.openBatch _ d rfl⟩

theorem State.walkTaken_misses (s : State) (d : Nat) (m : Miss) : ((s.walkTaken d m).die d).misses = (s.die d).misses := by
  rw [State.walkTaken, State.die_modDie_same]
  exact s.uncore_misses _ _ _ _ _ _

theorem execTlbWalkState_eq {s : State} {d : Nat} {m : Miss} (h : (s.die d).nextMiss = some m) :
    execTlbWalkState s d = (s.walkTaken d m).walkMiss d m := by
  rw [execTlbWalkState, h]
  rfl

/-- R144: the turn of a walker on which nothing else waits. -/
theorem exec_tlbWalk_next {s t : State} {d : Nat} {m : Miss} (hwaits : NoneWaits s) (hnext : (s.die d).nextMiss = some m)
    (hwalk : (s.walkTaken d m).walkMiss d m = t) (hsame : t.waiters = (s.walkTaken d m).waiters) : exec (.tlbWalk d) s = .next t := by
  have hends : execTlbWalkState s d = t := (execTlbWalkState_eq hnext).trans hwalk
  rw [exec_tlbWalk, hends]
  rw [hends]
  exact hwaits.of_waiters (hsame.trans (s.walkTaken_charged d m).waiters)

end Sys2Proof.Machine
end

section
/-! SUPPORT. Walks that end without a translation (R147 to R149). -/

namespace Sys2Proof.Machine

/-! ## Misses that stand (R144, R147, R148) -/

theorem Miss.joins_self {m : Miss} (h : m.stand = .walk) : m.joins m = true := by
  simp [Miss.joins, Access.within, h]

theorem State.standJoined_mem {s : State} {d : Nat} {m : Miss} (x : XWait) (hin : m ∈ (s.die d).misses) (hstand : m.stand = .walk) :
    { m with stand := x } ∈ ((s.standJoined d m x).die d).misses := by
  rw [State.standJoined, State.die_modDie_same]
  exact List.mem_map.mpr ⟨m, hin, if_pos (Miss.joins_self hstand)⟩

/-- R147, R148: a walk after which the miss stands otherwise, and nothing else is done. -/
theorem tlbWalk_stands {s : State} {d : Nat} {m : Miss} (hwaits : NoneWaits s) (hnext : (s.die d).nextMiss = some m) {x : XWait}
    (hwalk : (s.walkTaken d m).walkMiss d m = (s.walkTaken d m).standJoined d m x) :
    ∃ t, exec (.tlbWalk d) s = .next t ∧ { m with stand := x } ∈ (t.die d).misses ∧ ProgramsKept s t := by
  obtain ⟨hin, hstand⟩ := Die.nextMiss_mem hnext
  refine ⟨_, exec_tlbWalk_next hwaits hnext hwalk rfl, State.standJoined_mem x (by rwa [State.walkTaken_misses]) hstand, programsKept_of_programs ?_⟩
  exact (s.walkTaken_charged d m).programs

theorem State.walkMiss_bad {s : State} {m : Miss} (d : Nat) (h : s.walk m.ctx m.va = .bad) : s.walkMiss d m = s.standJoined d m (.fault 0x12 0) := by
  rw [State.walkMiss, h]

theorem State.walkMiss_migrates {s : State} {m : Miss} {level a : Nat} {e : Word} (d : Nat) (h : s.walk m.ctx m.va = .leaf level a e)
    (hmigrates : pteM e = true) : s.walkMiss d m = s.standJoined d m .migrate := by
  rw [State.walkMiss, h]
  exact if_pos hmigrates

/-! ## Page requests (R149) -/

/-- R149: a context that asks for a page. -/
def Context.asking (x : Context) (va : Nat) (a : Access) : Context :=
  { x with pageReqs := x.pageReqs ++ [{ rid := x.nextRid, va, access := a }], nextRid := (x.nextRid + 1) % 2 ^ 32 }

/-- R149: a new page request, sent to the host. -/
def State.pageAsked (s : State) (c va : Nat) (a : Access) : State :=
  (s.modCtx c (fun x => x.asking va a)).send c 0x2001 0 (pageReqBytes c (s.ctx c).generation { rid := (s.ctx c).nextRid, va, access := a })

theorem State.requestPage_new {s : State} {c va : Nat} {a : Access} (hroom : (s.ctx c).pageReqs.length < 1024)
    (hnew : ∀ r ∈ (s.ctx c).pageReqs, ¬(r.va = va ∧ r.access = a)) : s.requestPage c va a = (s.pageAsked c va a, some (s.ctx c).nextRid) := by
  have hnone : (s.ctx c).pageReqs.find? (fun r => r.va == va && r.access == a) = none :=
    List.find?_eq_none.mpr fun r hr => by simpa using hnew r hr
  rw [State.requestPage]
  dsimp only
  rw [hnone]
  exact if_neg (Nat.not_le_of_lt hroom)

theorem State.pageAsked_ctx (s : State) (c va : Nat) (a : Access) : (s.pageAsked c va a).ctx c = (s.ctx c).asking va a := by
  rw [State.pageAsked, State.ctx, State.send_ctxs]
  exact s.ctx_modCtx_same c _

theorem State.pageAsked_programs (s : State) (c va : Nat) (a : Access) : (s.pageAsked c va a).programs = s.programs := by
  simp [State.pageAsked, State.programs]

theorem State.pageAsked_misses (s : State) (c va : Nat) (a : Access) (d : Nat) : ((s.pageAsked c va a).die d).misses = (s.die d).misses := by
  unfold State.pageAsked State.send State.frame
  exact State.uncore_misses _ _ _ _ _ _ _

theorem State.pageAsked_waiters (s : State) (c va : Nat) (a : Access) : (s.pageAsked c va a).waiters = s.waiters := by
  have hunsent := State.send_unsent (s.modCtx c (fun x => x.asking va a)) c 0x2001 0
    (pageReqBytes c (s.ctx c).generation { rid := (s.ctx c).nextRid, va, access := a })
  have hsent : (s.pageAsked c va a).waiters = (s.modCtx c (fun x => x.asking va a)).waiters :=
    State.waiters_mk (State.send_ctxs _ _ _ _ _) (congrArg Package.qps hunsent :) (congrArg Package.ports hunsent :)
  have hops : (fun e => ((s.modCtx c (fun x => x.asking va a)).ctx e).hostOps) = fun e => (s.ctx e).hostOps :=
    funext fun e => s.modCtx_reads Context.hostOps c rfl e
  rw [hsent, State.waiters, hops]
  rfl

theorem State.walkMiss_asks {s : State} {m : Miss} (d : Nat) (h : s.walk m.ctx m.va = .noLeaf) (hown : ∀ p, m.who ≠ .ingress p)
    (hroom : (s.ctx m.ctx).pageReqs.length < 1024) (hnew : ∀ r ∈ (s.ctx m.ctx).pageReqs, ¬(r.va = m.va ∧ r.access = m.access)) :
    s.walkMiss d m = (s.pageAsked m.ctx m.va m.access).standJoined d m (.page (s.ctx m.ctx).nextRid) := by
  have hasks : s.walkMiss d m = s.askPage d m := by
    rw [State.walkMiss, h]
    dsimp only
    split
    next hingress =>
      cases hwho : m.who with
      | ingress p => exact absurd hwho (hown p)
      | _ => rw [hwho] at hingress; cases hingress
    · rfl
  rw [hasks, State.askPage, State.requestPage_new hroom hnew]

/-- R149: a walk that finds no leaf raises one page request. -/
theorem tlbWalk_asks {s : State} {d : Nat} {m : Miss} (hwaits : NoneWaits s) (hnext : (s.die d).nextMiss = some m) (h : s.walk m.ctx m.va = .noLeaf)
    (hown : ∀ p, m.who ≠ .ingress p) (hroom : (s.ctx m.ctx).pageReqs.length < 1024)
    (hnew : ∀ r ∈ (s.ctx m.ctx).pageReqs, ¬(r.va = m.va ∧ r.access = m.access)) :
    ∃ t, exec (.tlbWalk d) s = .next t ∧ { m with stand := .page (s.ctx m.ctx).nextRid } ∈ (t.die d).misses ∧ ProgramsKept s t ∧
      (t.ctx m.ctx).pageReqs = (s.ctx m.ctx).pageReqs ++ [{ rid := (s.ctx m.ctx).nextRid, va := m.va, access := m.access }] ∧
      ∃ x ∈ t.pkg.sent.drop s.pkg.sent.length, x.ep = m.ctx ∧ x.ty = 0x2001 ∧
        x.body = pageReqBytes m.ctx (s.ctx m.ctx).generation { rid := (s.ctx m.ctx).nextRid, va := m.va, access := m.access } := by
  obtain ⟨hin, hstand⟩ := Die.nextMiss_mem hnext
  have hcharged := s.walkTaken_charged d m
  have hctx := hcharged.ctx m.ctx
  have hwalk := State.walkMiss_asks d ((hcharged.walk _ _).trans h) hown (by rwa [hctx]) (by rwa [hctx])
  rw [hctx] at hwalk
  refine ⟨_, exec_tlbWalk_next hwaits hnext hwalk (State.pageAsked_waiters _ _ _ _), State.standJoined_mem _ ?_ hstand,
    programsKept_of_programs ((State.pageAsked_programs _ _ _ _).trans hcharged.programs), ?_, ?_⟩
  · rwa [State.pageAsked_misses, State.walkTaken_misses]
  · refine (congrArg Context.pageReqs ((s.walkTaken d m).pageAsked_ctx m.ctx m.va m.access)).trans ?_
    rw [Context.asking, hctx]
  · obtain ⟨x, hsent, hep, hty, hbody⟩ := State.send_sent ((s.walkTaken d m).modCtx m.ctx (fun x => x.asking m.va m.access)) m.ctx 0x2001 0
      (pageReqBytes m.ctx ((s.walkTaken d m).ctx m.ctx).generation { rid := ((s.walkTaken d m).ctx m.ctx).nextRid, va := m.va, access := m.access })
    have hdrop := congrArg (List.drop s.pkg.sent.length) hsent
    rw [State.modCtx_pkg, hcharged.sent, List.drop_left] at hdrop
    refine ⟨x, ?_, hep, hty, by rw [hbody, hctx]⟩
    change x ∈ ((s.walkTaken d m).pageAsked m.ctx m.va m.access).pkg.sent.drop s.pkg.sent.length
    rw [State.pageAsked, hdrop]
    exact List.mem_singleton_self x

end Sys2Proof.Machine
end

section
/-! SUPPORT. Walks that fill the TLB, with A and D set at the entry's node (R140, R143, R144). -/

namespace Sys2Proof.Machine

/-! ## The entry used (R140) -/

theorem fillBits_eq (e : Word) (a : Access) : fillBits a e = usedLeaf e a := by
  cases a <;> rfl

/-- R140: a fill for a write has D set. -/
theorem usedLeaf_dirty (e : Word) (a : Access) : ((usedLeaf e a).getLsbD 8 || a == .read || a == .fetch) = true := by
  cases a <;> simp [usedLeaf]

/-- R139, R140, R143: the translation that a leaf fills. -/
def leafEntry (c va level : Nat) (e : Word) (a : Access) : TlbEntry :=
  { ctx := c, base := va / 2 ^ leafBits level e * 2 ^ leafBits level e, size := leafBits level e, leaf := usedLeaf e a,
    dirty := (usedLeaf e a).getLsbD 8 }

/-- R140: the entry as a fill leaves it at its node. -/
def State.leafUsed (s : State) (c addr : Nat) (e : Word) (a : Access) : State :=
  if usedLeaf e a = e then s else (s.nodeCharge c addr true true).devWriteWord addr (leBytes 8 (usedLeaf e a).toNat)

section fillFrom
variable {s : State} {addr : Nat} {e : Word} {a : Access} (c va level : Nat)

theorem State.fillFrom_some (h : usedLeaf e a = e ∨ (s.nodeWord (addr / 8) = e ∧ s.nodeBusy addr 8 true = false)) :
    s.fillFrom c va a level addr e = some (s.leafUsed c addr e a, leafEntry c va level e a) := by
  have hfills : ¬(usedLeaf e a ≠ e ∧ (s.nodeWord (addr / 8) ≠ e ∨ s.nodeBusy addr 8 true = true)) := by
    rintro ⟨hchanges, hlost⟩
    obtain ⟨hword, hfree⟩ := h.resolve_left hchanges
    exact hlost.elim (fun hne => hne hword) fun hbusy => by rw [hfree] at hbusy; cases hbusy
  rw [State.fillFrom]
  dsimp only
  rw [fillBits_eq, if_neg hfills]
  rfl

/-- R140: the compare-and-swap fails. -/
theorem State.fillFrom_none (hchanges : usedLeaf e a ≠ e) (hlost : s.nodeWord (addr / 8) ≠ e ∨ s.nodeBusy addr 8 true = true) :
    s.fillFrom c va a level addr e = none := by
  rw [State.fillFrom]
  dsimp only
  rw [fillBits_eq, if_pos ⟨hchanges, hlost⟩]

end fillFrom

section leafUsed
variable (s : State) (c addr : Nat) (e : Word) (a : Access)

theorem State.leafUsed_misses (d : Nat) : ((s.leafUsed c addr e a).die d).misses = (s.die d).misses := by
  unfold State.leafUsed
  split
  · rfl
  · have hwrite (b : State) (l : List Byte) : (b.devWriteWord addr l).dies = b.dies := State.settle_dies _
    rw [State.die, hwrite]
    exact s.nodeCharge_misses c addr true true d

theorem State.leafUsed_waiters : (s.leafUsed c addr e a).waiters = s.waiters := by
  unfold State.leafUsed
  split
  · rfl
  · have hwrite (b : State) (l : List Byte) : (b.devWriteWord addr l).waiters = b.waiters :=
      State.waiters_mk (State.settle_ctxs _) (congrArg Package.qps (State.settle_pkg _) :) (congrArg Package.ports (State.settle_pkg _) :)
    rw [hwrite]
    exact (OnlyCharged.nodeCharge s c addr true true).waiters

/-- R140: the compare-and-swap sets the entry at its node, and no other word. -/
theorem State.leafUsed_nodeWord {s : State} {addr : Nat} {e : Word} {a : Access} (hinv : s.Inv) (haligned : addr % 8 = 0)
    (hchanges : usedLeaf e a ≠ e) (w : Nat) : (s.leafUsed c addr e a).nodeWord w = if addr / 8 = w then usedLeaf e a else s.nodeWord w := by
  rw [State.leafUsed, if_neg hchanges, State.devWriteWord_nodeWord (State.nodeCharge_inv hinv) haligned,
    (OnlyCharged.nodeCharge s c addr true true).nodeWord]

end leafUsed

/-! ## The structures filled (R143, R144) -/

/-- R144: does a walk made for one miss serve another? -/
def TlbEntry.serves (t : TlbEntry) (m n : Miss) : Bool := n.stand == .walk && t.hits n.ctx n.addr n.access && n.access.within m.access

/-- R143: a translation filled on a die and handed to those that joined its walk. -/
def State.handed (s : State) (d : Nat) (m : Miss) (t : TlbEntry) : State :=
  ((s.die d).misses.filter (t.serves m)).foldl (fun (s : State) n => s.fillAbove n.who t) (s.fillDie d t)

/-- R144: the misses that a walk leaves: those served that have a tile are gone, those without find their answer in the die TLB. -/
def TlbEntry.leaves (t : TlbEntry) (m : Miss) (l : List Miss) : List Miss :=
  (l.filter (fun n => !(t.serves m n && n.who.tile.isSome))).map (fun n => if t.serves m n then { n with stand := .ready } else n)

theorem State.fillMisses_eq (s : State) (d : Nat) (m : Miss) (t : TlbEntry) :
    s.fillMisses d m t = (s.handed d m t).modDie d (fun x => { x with misses := t.leaves m x.misses }) := rfl

/-- What fills of windows and micro-TLBs keep. -/
theorem State.handed_keeps {γ : Type} (g : State → γ) (h : ∀ s who e, g (State.fillAbove s who e) = g s) (s : State) (d : Nat) (m : Miss) (t : TlbEntry) :
    g (s.handed d m t) = g (s.fillDie d t) :=
  foldl_keeps g _ (fun (x : State) (n : Miss) => h x n.who t) _ _

theorem State.fillAbove_visible (s : State) (who : Requester) (e : TlbEntry) : (s.fillAbove who e).visible = s.visible := by
  have hwindow (a : State) (t p : Nat) : (fillWindow a t p e).visible = a.visible := a.modTile_visible t fun _ => rfl
  have hown : (match who.tile with
      | some t => s.modTile t (fun u => { u with utlb := lruPut 64 u.utlb e })
      | none => s).visible = s.visible := by
    split
    · exact s.modTile_visible _ fun _ => rfl
    · rfl
  unfold State.fillAbove
  dsimp only
  split
  · exact (hwindow _ _ _).trans hown
  · exact hown

theorem State.fillAbove_dies (s : State) (who : Requester) (e : TlbEntry) : (s.fillAbove who e).dies = s.dies := by
  unfold State.fillAbove fillWindow
  dsimp only
  split <;> split <;> rfl

theorem State.fillAbove_waiters (s : State) (who : Requester) (e : TlbEntry) : (s.fillAbove who e).waiters = s.waiters := by
  unfold State.fillAbove fillWindow
  dsimp only
  split <;> split <;> rfl

section fillMisses
variable (s : State) (d : Nat) (m : Miss) (t : TlbEntry)

theorem State.fillMisses_visible : (s.fillMisses d m t).visible = s.visible :=
  (State.handed_keeps State.visible State.fillAbove_visible s d m t :)

theorem State.fillMisses_waiters : (s.fillMisses d m t).waiters = s.waiters :=
  (State.handed_keeps State.waiters State.fillAbove_waiters s d m t :)

theorem State.fillMisses_nodeWord (w : Nat) : (s.fillMisses d m t).nodeWord w = s.nodeWord w := by
  have hstored := congrArg Prod.snd (s.fillMisses_visible d m t)
  have hmem : (s.fillMisses d m t).mem = s.mem := congrArg Prod.fst hstored
  have hlog : (s.fillMisses d m t).log = s.log := congrArg Prod.snd hstored
  rw [State.nodeWord, hmem, hlog, State.nodeWord]

theorem State.fillMisses_die : (s.fillMisses d m t).die d = { (s.fillDie d t).die d with misses := t.leaves m (s.die d).misses } := by
  have hdie : (s.handed d m t).die d = (s.fillDie d t).die d :=
    State.handed_keeps (fun x => x.die d) (fun x who e => by rw [State.die, State.fillAbove_dies, State.die]) s d m t
  rw [State.fillMisses_eq, State.die_modDie_same, hdie, State.fillDie, State.die_modDie_same]

theorem State.fillMisses_misses : ((s.fillMisses d m t).die d).misses = t.leaves m (s.die d).misses := by
  rw [State.fillMisses_die]

/-- R143: the translation stands first in its set of the die TLB. -/
theorem State.fillMisses_tlb : (((s.fillMisses d m t).die d).tlb.get [] (Config.dieTlbSet t.ctx t.base % 4096)).head? = some t := by
  rw [State.fillMisses_die, State.fillDie, State.die_modDie_same, AMap.get_set_same]
  rfl

end fillMisses

/-- R144: a walk whose translation serves its own miss leaves it no more. -/
theorem TlbEntry.not_mem_leaves {t : TlbEntry} {m : Miss} (h : t.serves m m = true) (hstand : m.stand = .walk) (l : List Miss) : m ∉ t.leaves m l := by
  intro hin
  obtain ⟨n, -, hn⟩ := List.mem_map.mp hin
  split at hn
  · rw [← hn] at hstand
    cases hstand
  next hmissed => rw [hn] at hmissed; exact hmissed h

/-- R139, R140: the translation of a leaf serves the access it was walked for. -/
theorem leafEntry_serves {m : Miss} (level : Nat) (e : Word) (hstand : m.stand = .walk) (hpage : m.va = m.addr / 4096 * 4096) :
    (leafEntry m.ctx m.va level e m.access).serves m m = true := by
  have hsize : 2 ^ leafBits level e = 4096 * 2 ^ (leafBits level e - 12) := by
    rw [show (4096 : Nat) = 2 ^ 12 from rfl, ← Nat.pow_add]
    congr 1
    unfold leafBits levelBits
    omega
  have hbase : m.va / 2 ^ leafBits level e * 2 ^ leafBits level e = m.addr / 2 ^ leafBits level e * 2 ^ leafBits level e := by
    rw [hpage, hsize, ← Nat.div_div_eq_div_mul, ← Nat.div_div_eq_div_mul, Nat.mul_div_cancel _ (by decide)]
  have hlow : m.addr / 2 ^ leafBits level e * 2 ^ leafBits level e ≤ m.addr := Nat.div_mul_le_self _ _
  have hhigh : m.addr < m.addr / 2 ^ leafBits level e * 2 ^ leafBits level e + 2 ^ leafBits level e :=
    Nat.lt_div_mul_add (Nat.two_pow_pos _)
  have hhits : (leafEntry m.ctx m.va level e m.access).hits m.ctx m.addr m.access = true := by
    unfold TlbEntry.hits leafEntry
    dsimp only
    rw [hbase, usedLeaf_dirty]
    simp [hlow, hhigh]
  simp [TlbEntry.serves, hstand, hhits, Access.within]

/-! ## TLB_WALK on a leaf (R140, R143, R144) -/

section walkMiss
variable {s : State} {m : Miss} {level addr : Nat} {e : Word} (d : Nat) (h : s.walk m.ctx m.va = .leaf level addr e) (hstays : pteM e = false)
include h hstays

theorem State.walkMiss_fills {a : State} {t : TlbEntry} (hfills : s.fillFrom m.ctx m.va m.access level addr e = some (a, t)) :
    s.walkMiss d m = a.fillMisses d m t := by
  rw [State.walkMiss, h]
  dsimp only
  rw [hstays, hfills]
  rfl

theorem State.walkMiss_fails (hfails : s.fillFrom m.ctx m.va m.access level addr e = none) : s.walkMiss d m = s := by
  rw [State.walkMiss, h]
  dsimp only
  rw [hstays, hfails]
  rfl

end walkMiss

section leaf
variable {s : State} {d : Nat} {m : Miss} {level addr : Nat} {e : Word} (hwaits : NoneWaits s) (hnext : (s.die d).nextMiss = some m)
  (hleaf : s.walk m.ctx m.va = .leaf level addr e) (hstays : pteM e = false)
include hwaits hnext hleaf hstays

/-- R140, R143: a leaf used as it stands, or set by the compare-and-swap, fills the die TLB. -/
theorem tlbWalk_fills (hpage : m.va = m.addr / 4096 * 4096)
    (hfills : usedLeaf e m.access = e ∨ (s.nodeWord (addr / 8) = e ∧ s.nodeBusy addr 8 true = false)) :
    ∃ t, exec (.tlbWalk d) s = .next t ∧ m ∉ (t.die d).misses ∧
      (∃ x, ((t.die d).tlb.get [] (Config.dieTlbSet m.ctx (m.va / 2 ^ leafBits level e * 2 ^ leafBits level e) % 4096)).head? = some x ∧
        x.ctx = m.ctx ∧ x.base = m.va / 2 ^ leafBits level e * 2 ^ leafBits level e ∧ x.size = leafBits level e ∧ x.leaf = usedLeaf e m.access) ∧
      (usedLeaf e m.access = e → ProgramsKept s t) ∧
      (usedLeaf e m.access ≠ e → addr % 8 = 0 → s.Inv →
        t.nodeWord (addr / 8) = usedLeaf e m.access ∧ ∀ w, w ≠ addr / 8 → t.nodeWord w = s.nodeWord w) := by
  obtain ⟨-, hstand⟩ := Die.nextMiss_mem hnext
  have hcharged := s.walkTaken_charged d m
  have hwalk : (s.walkTaken d m).walkMiss d m =
      ((s.walkTaken d m).leafUsed m.ctx addr e m.access).fillMisses d m (leafEntry m.ctx m.va level e m.access) :=
    State.walkMiss_fills d ((hcharged.walk _ _).trans hleaf) hstays (State.fillFrom_some _ _ _ (by rwa [hcharged.nodeWord, hcharged.nodeBusy]))
  refine ⟨_, exec_tlbWalk_next hwaits hnext hwalk ((State.fillMisses_waiters _ _ _ _).trans (State.leafUsed_waiters _ _ _ _ _)), ?_,
    ⟨_, State.fillMisses_tlb _ d m (leafEntry m.ctx m.va level e m.access), rfl, rfl, rfl, rfl⟩, fun hkept => ?_, fun hchanges haligned hinv => ?_⟩
  · rw [State.fillMisses_misses]
    exact TlbEntry.not_mem_leaves (leafEntry_serves level e hstand hpage) hstand _
  · rw [State.leafUsed, if_pos hkept]
    exact (programsKept_of_programs hcharged.programs).trans (programsKept_of_visible (State.fillMisses_visible _ _ _ _))
  · have hword (w : Nat) : (((s.walkTaken d m).leafUsed m.ctx addr e m.access).fillMisses d m (leafEntry m.ctx m.va level e m.access)).nodeWord w =
        if addr / 8 = w then usedLeaf e m.access else s.nodeWord w := by
      rw [State.fillMisses_nodeWord, State.leafUsed_nodeWord _ (by rw [State.Inv, hcharged.mem]; exact hinv) haligned hchanges, hcharged.nodeWord]
    exact ⟨(hword _).trans (if_pos rfl), fun w hw => (hword w).trans (if_neg (Ne.symm hw))⟩

/-- R140: a miss whose compare-and-swap fails, or finds an access before it at the node, walks again. -/
theorem tlbWalk_fails (hchanges : usedLeaf e m.access ≠ e) (hlost : s.nodeWord (addr / 8) ≠ e ∨ s.nodeBusy addr 8 true = true) :
    ∃ t, exec (.tlbWalk d) s = .next t ∧ m ∈ (t.die d).misses ∧ ProgramsKept s t := by
  obtain ⟨hin, -⟩ := Die.nextMiss_mem hnext
  have hcharged := s.walkTaken_charged d m
  have hwalk : (s.walkTaken d m).walkMiss d m = s.walkTaken d m :=
    State.walkMiss_fails d ((hcharged.walk _ _).trans hleaf) hstays (State.fillFrom_none _ _ _ hchanges (by rwa [hcharged.nodeWord, hcharged.nodeBusy]))
  exact ⟨_, exec_tlbWalk_next hwaits hnext hwalk rfl, by rwa [State.walkTaken_misses], programsKept_of_programs hcharged.programs⟩

end leaf

end Sys2Proof.Machine
end

section
/-! SUPPORT. MIGRATE_RECHECK (R147), and O24 from its parts. -/

namespace Sys2Proof.Machine

/-- R147: the misses of a die that wait on M = 1 walk again, and no other die's. -/
theorem migrateRecheck_acts (s : State) (d : Nat) : ∃ t, exec (.migrateRecheck d) s = .next t ∧ ProgramsKept s t ∧
    (t.die d).misses = (s.die d).misses.map (fun m => if m.stand = .migrate then { m with stand := .walk } else m) ∧
    ∀ e, e ≠ d → t.die e = s.die e := by
  refine ⟨s.recheckMigrating d, rfl, programsKept_of_programs rfl, ?_, fun e he => State.die_modDie_other s _ he⟩
  rw [State.recheckMigrating, State.die_modDie_same]
  simp only [beq_iff_eq]

/-- Settles O24: what the outcome of a walk makes of its miss, with the compare-and-swap that its fill turns on; an invalidation's turn removes
for those that settle, and again the indices of those that end. -/
theorem walksFillOrRequest : Obligations.WalksFillOrRequest := by
  refine ⟨fun s d m hwaits hnext => ⟨fun hbad => ?_, fun level a e hleaf hmigrates => ?_,
    fun level a e hleaf hstays hpage => ⟨fun hfills => ?_, fun hchanges hlost => ?_⟩, fun hnone hown hroom hnew => ?_⟩,
    migrateRecheck_acts, fun s => ⟨_, exec_invalidationComplete s, programsKept_invalsTurned s, fun v hv => ?_, fun v hv => ⟨fun hsettled => ?_, ?_, ?_⟩⟩⟩
  · exact tlbWalk_stands hwaits hnext (State.walkMiss_bad d (((s.walkTaken_charged d m).walk _ _).trans hbad))
  · exact tlbWalk_stands hwaits hnext (State.walkMiss_migrates d (((s.walkTaken_charged d m).walk _ _).trans hleaf) hmigrates)
  · exact tlbWalk_fills hwaits hnext hleaf hstays hpage hfills
  · exact tlbWalk_fails hwaits hnext hleaf hstays hchanges hlost
  · exact tlbWalk_asks hwaits hnext hnone hown hroom hnew
  · obtain ⟨⟨w, hw, rfl⟩, -⟩ := State.mem_invalsTurned.mp hv
    exact ⟨w, hw, (s.advanced_id w).symm⟩
  · refine ⟨State.mem_invalsTurned_settled hv hsettled, fun hperformed => State.invalsTurned_unfetched hv hsettled ?_⟩
    simpa [State.invalOver, hsettled] using hperformed
  · exact State.mem_invalsTurned_unsettled hv
  · intro hsettled hwrites
    have hsettles := State.settling_of_performed hsettled hwrites
    obtain ⟨⟨hdies, htiles⟩, hfetched⟩ := State.invalsTurned_removed hv hsettles
    exact ⟨hdies, htiles, hfetched, State.mem_invalsTurned_settling hv hsettles⟩

end Sys2Proof.Machine
end
